-- ==== Sys2Proof/Word.lean ====
section
/-! DEFINITION. The words the HZ8640's spec numbers bit by bit, and the sparse table that holds every
collection keyed by a number. The operations on tables stand in Machine/Ops.lean. -/

namespace Sys2Proof

/-- A byte of a memory-resident layout (spec 00 R7). -/
abbrev Byte := BitVec 8
/-- A general register of a tile core (spec 04, Registers). -/
abbrev W64 := BitVec 64
/-- An FP32 register or an instruction word (spec 04, 05 R148). -/
abbrev W32 := BitVec 32
/-- The 64 bytes of a line, byte `i` in bits [8i+7:8i] (spec 00 R7). -/
abbrev Line512 := BitVec 512
/-- A byte mask of a line, bit `i` for byte `i` (spec 12 R321). -/
abbrev Mask64 := BitVec 64

abbrev TileId := Fin 256
abbrev WardId := Fin 8
abbrev QuarterId := Fin 16
abbrev HomeId := Fin 16
/-- Engine slot, numbered as in spec 01 R53. -/
abbrev EngId := Fin 86
abbrev GateId := Fin 16

/-- A sparse table: key and value pairs, keys strictly rising; an unlisted key reads as the default that
the reader of the table names. -/
structure Tbl (α : Type) where
  cells : List (Nat × α)
  deriving DecidableEq, Repr

/-- The table that lists nothing. -/
def Tbl.empty {α : Type} : Tbl α := ⟨[]⟩

end Sys2Proof
end

