-- ==== Sys2Proof/Syntax.lean ====
section
/-! DEFINITION. The commands of the block: one constructor of `Instr` per row of spec/opcode_table.json.
The table gives its rows no operands; the operands are the model's reading of what each row acts on
(DESIGN CHOICE, log 1, log 13). A tile instruction carries its tile and every field of its R149 format, the reserved bits
included, so that R150's ILLEGAL is a case of its own meaning. -/

namespace Sys2Proof

/-- The port a command arrives on, which is its authority (spec 00 R5, Names and authority). -/
inductive Port where
  /-- Supervisor, PF0 -/
  | s
  /-- Ward n, VF n+1 -/
  | w (n : WardId)
  /-- Management, SMBus -/
  | m
  /-- Lantern, debug port -/
  | l
  deriving DecidableEq, Repr

/-- R-format of spec 05 R149 with fn[5:0] fixed by the row; `rsv` is fn[10:6]. -/
structure RForm where
  rd : BitVec 5
  ra : BitVec 5
  rb : BitVec 5
  rsv : BitVec 5
  deriving DecidableEq, Repr

/-- I-format of spec 05 R149. -/
structure IForm where
  rd : BitVec 5
  ra : BitVec 5
  imm : BitVec 16
  deriving DecidableEq, Repr

/-- S-format of spec 05 R149: `rs` the value, `ra` the base. -/
structure SForm where
  rs : BitVec 5
  ra : BitVec 5
  imm : BitVec 16
  deriving DecidableEq, Repr

/-- B-format of spec 05 R149. -/
structure BForm where
  ra : BitVec 5
  rb : BitVec 5
  off : BitVec 16
  deriving DecidableEq, Repr

/-- R4-format with rc fixed by the row (major opcode 0x30: fn[10:6] selects, spec 05 R160). -/
structure FpForm where
  rd : BitVec 5
  ra : BitVec 5
  rb : BitVec 5
  rm : BitVec 3
  rsv : BitVec 3
  deriving DecidableEq, Repr

/-- R4-format of spec 05 R149. -/
structure R4Form where
  rd : BitVec 5
  ra : BitVec 5
  rb : BitVec 5
  rc : BitVec 5
  rm : BitVec 3
  rsv : BitVec 3
  deriving DecidableEq, Repr

/-- Atomic format of spec 05 R162: fn[3:0] fixed by the row, `size` is fn[4], `hint` fn[6:5], `rsv` fn[10:7]. -/
structure AtForm where
  rd : BitVec 5
  ra : BitVec 5
  rb : BitVec 5
  size : BitVec 1
  hint : BitVec 2
  rsv : BitVec 4
  deriving DecidableEq, Repr

/-- Message format of spec 05 R164: fn[3:0] fixed by the row, `len` is fn[10:4]. -/
structure MsgForm where
  rd : BitVec 5
  ra : BitVec 5
  rb : BitVec 5
  len : BitVec 7
  deriving DecidableEq, Repr

/-- Fence format of spec 05 R167: scope and form fixed by the row, `rsv` is fn[10:4]. -/
structure FenceForm where
  rd : BitVec 5
  ra : BitVec 5
  rb : BitVec 5
  rsv : BitVec 7
  deriving DecidableEq, Repr

/-- Y-format of spec 05 R149 with sub fixed by the row. -/
structure SysForm where
  rd : BitVec 5
  ra : BitVec 5
  imm : BitVec 12
  deriving DecidableEq, Repr

/-- A unit the fabric checks watch, as SUP_STALL_STATUS.UNIT codes it (spec 03 R112). -/
inductive UnitId where
  | tile (t : TileId)
  | crossing (t : TileId)
  | qcache (q : QuarterId)
  | home (h : HomeId)
  | engine (e : EngId)
  | lamp
  | ledger
  | ring (stop : Fin 121)
  /-- the Gatehouse's sequencer: no fabric stage, and no code of SUP_STALL_STATUS (spec 03 R114; 16 R434) -/
  | gatehouse
  /-- the Beacon's own latches (spec 16 R434) -/
  | beacon
  deriving DecidableEq, Repr

/-- A line of device memory (`host = false`, n = DPA >> 6) or of host memory (n = HPA >> 6) (spec 11 R293). -/
structure LineAddr where
  host : Bool
  n : Nat
  deriving DecidableEq, Repr

/-- The bytes of a line as they travel, with their poison (spec 14, Poison). -/
structure LineVal where
  data : Line512
  poison : Bool
  deriving DecidableEq, Repr

/-- Where a check met a bad word (spec 03 R113, R114): nowhere that is still held, or a word that State holds. The
sites of stored arrays take the bits of the stored codeword that have flipped (DESIGN CHOICE, log 78). -/
inductive PoisonSite where
  | unheld
  | lsWord (t : TileId) (word : Fin 32768)
  /-- stored bits of a local store byte -/
  | lsByte (t : TileId) (o : Fin 262144) (flips : BitVec 13)
  | packet (i : Nat)
  | qline (q : QuarterId) (line : LineAddr)
  /-- stored bits of one of the eight bytes of a line's byte-valid mask (11 R307) -/
  | maskByte (q : QuarterId) (line : LineAddr) (k : Fin 8) (flips : BitVec 13)
  /-- the copy of a line in a tile's L1D -/
  | l1Copy (t : TileId) (line : LineAddr)
  | storeBuf (t : TileId) (i : Nat)
  /-- data that a home holds for a transaction -/
  | homeWord (h : Fin 17) (x : Nat)
  /-- an operand line that an engine has read -/
  | engineIn (e : EngId) (line : LineAddr)
  /-- an output line that an engine has computed -/
  | engineOut (e : EngId) (i : Nat)
  /-- stored bits of a byte of a Ledger entry (13 R366) -/
  | ledgerEntry (x : Nat) (flips : BitVec 13)
  /-- stored bits of a byte of a directory entry, of the filter for h = 16 (12 R322, R347) -/
  | dirEntry (h : Fin 17) (line : LineAddr) (flips : BitVec 13)
  deriving DecidableEq, Repr

/-- What the fuses hold and the Gatehouse reads at VAUX good (spec 17, Calibration; 02 R64). -/
structure Fuses where
  gradeX : Bool
  serial : W64
  /-- REF above 2,300: it lies from 2,300 to 2,700 (spec 03 R101) -/
  refAbove : Fin 401
  /-- quarter and marked column -/
  defects : List (Nat × Nat)
  /-- DROOP_WARN in units of 2.5 mV -/
  droopWarn : Nat
  deriving DecidableEq, Repr

/-- REF, the pace at the nominal point. -/
def Fuses.ref (f : Fuses) : Nat := 2300 + f.refAbove.val

/-- What a DRAM read meets besides the stored codeword: symbol masks of the ten devices (spec 14 R376), an
uncorrectable byte of the init bitmap (R393) or of a ward's key (R387). -/
structure DramErr where
  masks : List (Nat × W64)
  bitmapBad : Bool
  keyBad : Option WardId
  deriving DecidableEq, Repr

/-- The host's answer to a D2H request of the filter (spec 12 R348). -/
inductive HostGrant where
  | shared (v : LineVal)
  | own (v : LineVal)
  | ownNoData
  | curr (v : LineVal)
  | evictDone
  deriving DecidableEq, Repr

/-- A channel's module as DDR5 training finds it (spec 14 R372–R374). -/
structure DimmInfo where
  present : Bool
  rdimm : Bool
  x4 : Bool
  gib : Nat
  twoRanks : Bool
  dense32 : Bool
  /-- dies in a stack: 1 planar -/
  stack : Nat
  /-- modules on the channel -/
  count : Nat
  /-- highest rated data rate, MT/s -/
  rate : Nat
  trains : Bool
  deriving DecidableEq, Repr

inductive Func where
  | pf0
  | vf (w : WardId)
  deriving DecidableEq, Repr

/-- A configuration request (spec 15 R402–R404, R421); `write = none` reads. -/
structure CfgReq where
  fn : Func
  off : Nat
  size : Nat
  write : Option Nat
  tag : Nat
  deriving DecidableEq, Repr

/-- CXL.mem MetaValue (spec 12 R321). -/
inductive MetaValue where
  | i
  | s
  | a
  deriving DecidableEq, Repr

/-- One byte of a Bulk Port write TLP with its byte enable (spec 15 R424). -/
structure BulkByte where
  b : Byte
  en : Bool
  deriving DecidableEq, Repr

/-- Which mask is cleared (spec 15 R415). -/
inductive MaskTarget where
  | vector (v : Nat)
  | function
  deriving DecidableEq, Repr

/-- A link IDE stream: CXL.io stream 0–4 or CXL.cachemem (spec 15 R429). -/
inductive IdeStream where
  | io (n : Fin 5)
  | cachemem
  deriving DecidableEq, Repr

/-- The protocols of the DOE mailbox (spec 15 R405). -/
inductive DoeReq where
  | discovery (index : Nat)
  | spdm (version : Nat)
  | securedSpdm (version : Nat)
  | cdat (entry : Nat)
  deriving DecidableEq, Repr

inductive EngType where
  | mxe
  | ewe
  | ope
  | gse
  | cre
  | bme
  | dge
  deriving DecidableEq, Repr

/-- The parts of a Jorwyn request that its command does not name itself (spec 18 R480). -/
structure MgmtHdr where
  requester : BitVec 8
  tag : BitVec 3
  ver : Byte
  flags : Byte
  seq : Byte
  status : Byte
  len : BitVec 16
  retry : BitVec 16
  deriving DecidableEq, Repr

/-- A Lantern packet header as received, OP fixed by the row (spec 19 R495). -/
structure LntHdr where
  start : Bool
  lreg : Byte
  parity : Bool
  stop : Bool
  deriving DecidableEq, Repr

/-- The data phase of a Lantern WRITE or UNLOCK (spec 19 R497). -/
structure LntData where
  d : W64
  parity : Bool
  deriving DecidableEq, Repr

/-- The commands: one constructor per row of spec/opcode_table.json, in the table's order. -/
inductive Instr where
  /-- REGISTER_WRITE (R9). -/
  | registerWrite (p : Port) (off len val : Nat)
  /-- RC_FIELD_READ (R13). -/
  | rcFieldRead (p : Port) (off len : Nat)
  /-- VAUX_LOSS (R453). -/
  | vauxLoss
  /-- VAUX_GOOD (R453). -/
  | vauxGood (fuseOk : Bool) (fz : Fuses)
  /-- CORE_GOOD (R453). -/
  | coreGood
  /-- CORE_RAIL_LOSS (R454). -/
  | coreRailLoss
  /-- PERST_N_ASSERT (R421). -/
  | perstNAssert
  /-- PERST_N_DEASSERT (R469). -/
  | perstNDeassert
  /-- HOT_RESET (R421). -/
  | hotReset
  /-- LINK_DOWN (R421). -/
  | linkDown
  /-- PF0_FLR (R421). -/
  | pf0Flr
  /-- VF_FLR (R421). -/
  | vfFlr (w : WardId)
  /-- WARD_RESET (R48). -/
  | wardReset (p : Port) (w : WardId)
  /-- WARD_RESET_WIPE (R48). -/
  | wardResetWipe (w : WardId)
  /-- WARD_RESET_DONE (R48). -/
  | wardResetDone (w : WardId)
  /-- CXL_RESET (R422). -/
  | cxlReset (memClr : Bool)
  /-- CXL_RESET_COMPLETE (R422). -/
  | cxlResetComplete
  /-- TILE_RESET (R146). -/
  | tileReset (p : Port) (t : TileId)
  /-- TIL_RUN_WRITE (R146). -/
  | tilRunWrite (p : Port) (t : TileId) (run : Bool)
  /-- DOORBELL (R126). -/
  | doorbell (p : Port) (t : TileId)
  /-- DBG_CONSENT_WRITE (R42). -/
  | dbgConsentWrite (p : Port) (w : WardId) (val : BitVec 3)
  /-- PLN_LOAD (R83). -/
  | plnLoad
  /-- LOAD_INSTALL (R83). -/
  | loadInstall
  /-- PLN_SWAP (R85). -/
  | plnSwap (w : WardId)
  /-- SWAP_INSTALL (R86). -/
  | swapInstall
  /-- SWAP_ABANDON (R88). -/
  | swapAbandon
  /-- PLN_SEAL (R84). -/
  | plnSeal
  /-- BOOT_PLAN_LOAD (R81). -/
  | bootPlanLoad
  /-- BOOT_PLAN_INSTALL (R469). -/
  | bootPlanInstall
  /-- PACE_SAMPLE (R105). -/
  | paceSample (pace : Nat)
  /-- STALL_EVENT (R108). -/
  | stallEvent (u : UnitId)
  /-- STALL_SELFTEST (R109). -/
  | stallSelftest (fired : Bool)
  /-- ILLEGAL_CODE_DETECT (R113). -/
  | illegalCodeDetect (u : UnitId)
  /-- PARITY_ERROR (R113). -/
  | parityError (u : UnitId) (residue : Bool) (site : PoisonSite)
  /-- ADD (R152). -/
  | add (t : TileId) (f : RForm)
  /-- SUB (R152). -/
  | sub (t : TileId) (f : RForm)
  /-- AND (R152). -/
  | and (t : TileId) (f : RForm)
  /-- OR (R152). -/
  | or (t : TileId) (f : RForm)
  /-- XOR (R152). -/
  | xor (t : TileId) (f : RForm)
  /-- SLL (R152). -/
  | sll (t : TileId) (f : RForm)
  /-- SRL (R152). -/
  | srl (t : TileId) (f : RForm)
  /-- SRA (R152). -/
  | sra (t : TileId) (f : RForm)
  /-- SLT (R152). -/
  | slt (t : TileId) (f : RForm)
  /-- SLTU (R152). -/
  | sltu (t : TileId) (f : RForm)
  /-- MUL (R152). -/
  | mul (t : TileId) (f : RForm)
  /-- MULH (R152). -/
  | mulh (t : TileId) (f : RForm)
  /-- MULHU (R152). -/
  | mulhu (t : TileId) (f : RForm)
  /-- DIV (R153). -/
  | div (t : TileId) (f : RForm)
  /-- DIVU (R153). -/
  | divu (t : TileId) (f : RForm)
  /-- REM (R153). -/
  | rem (t : TileId) (f : RForm)
  /-- REMU (R153). -/
  | remu (t : TileId) (f : RForm)
  /-- MIN (R152). -/
  | min (t : TileId) (f : RForm)
  /-- MAX (R152). -/
  | max (t : TileId) (f : RForm)
  /-- MINU (R152). -/
  | minu (t : TileId) (f : RForm)
  /-- MAXU (R152). -/
  | maxu (t : TileId) (f : RForm)
  /-- ADDI (R154). -/
  | addi (t : TileId) (f : IForm)
  /-- ANDI (R154). -/
  | andi (t : TileId) (f : IForm)
  /-- ORI (R154). -/
  | ori (t : TileId) (f : IForm)
  /-- XORI (R154). -/
  | xori (t : TileId) (f : IForm)
  /-- SLTI (R154). -/
  | slti (t : TileId) (f : IForm)
  /-- SLTIU (R154). -/
  | sltiu (t : TileId) (f : IForm)
  /-- SHI (R154). -/
  | shi (t : TileId) (f : IForm)
  /-- INSH (R154). -/
  | insh (t : TileId) (f : IForm)
  /-- LB (R155). -/
  | lb (t : TileId) (f : IForm)
  /-- LBU (R155). -/
  | lbu (t : TileId) (f : IForm)
  /-- LH (R155). -/
  | lh (t : TileId) (f : IForm)
  /-- LHU (R155). -/
  | lhu (t : TileId) (f : IForm)
  /-- LW (R155). -/
  | lw (t : TileId) (f : IForm)
  /-- LWU (R155). -/
  | lwu (t : TileId) (f : IForm)
  /-- LD (R155). -/
  | ld (t : TileId) (f : IForm)
  /-- FLW (R155). -/
  | flw (t : TileId) (f : IForm)
  /-- FLH (R155). -/
  | flh (t : TileId) (f : IForm)
  /-- PTEST (R156). -/
  | ptest (t : TileId) (f : IForm)
  /-- SB (R155). -/
  | sb (t : TileId) (f : SForm)
  /-- SH (R155). -/
  | sh (t : TileId) (f : SForm)
  /-- SW (R155). -/
  | sw (t : TileId) (f : SForm)
  /-- SD (R155). -/
  | sd (t : TileId) (f : SForm)
  /-- FSW (R155). -/
  | fsw (t : TileId) (f : SForm)
  /-- FSH (R155). -/
  | fsh (t : TileId) (f : SForm)
  /-- BEQ (R157). -/
  | beq (t : TileId) (f : BForm)
  /-- BNE (R157). -/
  | bne (t : TileId) (f : BForm)
  /-- BLT (R157). -/
  | blt (t : TileId) (f : BForm)
  /-- BGE (R157). -/
  | bge (t : TileId) (f : BForm)
  /-- BLTU (R157). -/
  | bltu (t : TileId) (f : BForm)
  /-- BGEU (R157). -/
  | bgeu (t : TileId) (f : BForm)
  /-- J (R157). -/
  | j (t : TileId) (off : BitVec 26)
  /-- JAL (R157). -/
  | jal (t : TileId) (off : BitVec 26)
  /-- JR (R157). -/
  | jr (t : TileId) (f : RForm)
  /-- JALR (R157). -/
  | jalr (t : TileId) (f : RForm)
  /-- FADD_S (R160). -/
  | faddS (t : TileId) (f : FpForm)
  /-- FSUB_S (R160). -/
  | fsubS (t : TileId) (f : FpForm)
  /-- FMUL_S (R160). -/
  | fmulS (t : TileId) (f : FpForm)
  /-- FDIV_S (R160). -/
  | fdivS (t : TileId) (f : FpForm)
  /-- FSQRT_S (R160). -/
  | fsqrtS (t : TileId) (f : FpForm)
  /-- FMIN_S (R160). -/
  | fminS (t : TileId) (f : FpForm)
  /-- FMAX_S (R160). -/
  | fmaxS (t : TileId) (f : FpForm)
  /-- FNEG_S (R160). -/
  | fnegS (t : TileId) (f : FpForm)
  /-- FABS_S (R160). -/
  | fabsS (t : TileId) (f : FpForm)
  /-- FEQ_S (R160). -/
  | feqS (t : TileId) (f : FpForm)
  /-- FLT_S (R160). -/
  | fltS (t : TileId) (f : FpForm)
  /-- FLE_S (R160). -/
  | fleS (t : TileId) (f : FpForm)
  /-- FCVT_L_S (R160). -/
  | fcvtLS (t : TileId) (f : FpForm)
  /-- FCVT_LU_S (R160). -/
  | fcvtLuS (t : TileId) (f : FpForm)
  /-- FCVT_S_L (R160). -/
  | fcvtSL (t : TileId) (f : FpForm)
  /-- FCVT_S_LU (R160). -/
  | fcvtSLu (t : TileId) (f : FpForm)
  /-- FCVT_BF_S (R160). -/
  | fcvtBfS (t : TileId) (f : FpForm)
  /-- FMV_G_F (R160). -/
  | fmvGF (t : TileId) (f : FpForm)
  /-- FMV_F_G (R160). -/
  | fmvFG (t : TileId) (f : FpForm)
  /-- FADD_B (R160). -/
  | faddB (t : TileId) (f : FpForm)
  /-- FMUL_B (R160). -/
  | fmulB (t : TileId) (f : FpForm)
  /-- FSUB_B (R160). -/
  | fsubB (t : TileId) (f : FpForm)
  /-- FMADD_S (R161). -/
  | fmaddS (t : TileId) (f : R4Form)
  /-- FMSUB_S (R161). -/
  | fmsubS (t : TileId) (f : R4Form)
  /-- FNMADD_S (R161). -/
  | fnmaddS (t : TileId) (f : R4Form)
  /-- FMADD_B (R161). -/
  | fmaddB (t : TileId) (f : R4Form)
  /-- ATOMIC_SWAP (R162). -/
  | atomicSwap (t : TileId) (f : AtForm)
  /-- ATOMIC_CAS (R162). -/
  | atomicCas (t : TileId) (f : AtForm)
  /-- ATOMIC_ADD (R162). -/
  | atomicAdd (t : TileId) (f : AtForm)
  /-- ATOMIC_AND (R162). -/
  | atomicAnd (t : TileId) (f : AtForm)
  /-- ATOMIC_OR (R162). -/
  | atomicOr (t : TileId) (f : AtForm)
  /-- ATOMIC_XOR (R162). -/
  | atomicXor (t : TileId) (f : AtForm)
  /-- ATOMIC_MIN (R162). -/
  | atomicMin (t : TileId) (f : AtForm)
  /-- ATOMIC_MAX (R162). -/
  | atomicMax (t : TileId) (f : AtForm)
  /-- ATOMIC_MINU (R162). -/
  | atomicMinu (t : TileId) (f : AtForm)
  /-- ATOMIC_MAXU (R162). -/
  | atomicMaxu (t : TileId) (f : AtForm)
  /-- SEND (R164). -/
  | send (t : TileId) (f : MsgForm)
  /-- RECV (R138). -/
  | recv (t : TileId) (f : MsgForm)
  /-- GETWORK (R140). -/
  | getwork (t : TileId) (f : MsgForm)
  /-- PUTTOK (R197). -/
  | puttok (t : TileId) (f : MsgForm)
  /-- PSET (R164). -/
  | pset (t : TileId) (f : MsgForm)
  /-- FENCE_C_ACQUIRE (R281). -/
  | fenceCAcquire (t : TileId) (f : FenceForm)
  /-- FENCE_C_RELEASE (R281). -/
  | fenceCRelease (t : TileId) (f : FenceForm)
  /-- FENCE_C_RELEASE_ACQUIRE (R281). -/
  | fenceCReleaseAcquire (t : TileId) (f : FenceForm)
  /-- FENCE_Q_ACQUIRE (R281). -/
  | fenceQAcquire (t : TileId) (f : FenceForm)
  /-- FENCE_Q_RELEASE (R281). -/
  | fenceQRelease (t : TileId) (f : FenceForm)
  /-- FENCE_Q_RELEASE_ACQUIRE (R281). -/
  | fenceQReleaseAcquire (t : TileId) (f : FenceForm)
  /-- FENCE_S_ACQUIRE (R281). -/
  | fenceSAcquire (t : TileId) (f : FenceForm)
  /-- FENCE_S_RELEASE (R281). -/
  | fenceSRelease (t : TileId) (f : FenceForm)
  /-- FENCE_S_RELEASE_ACQUIRE (R281). -/
  | fenceSReleaseAcquire (t : TileId) (f : FenceForm)
  /-- FENCE_COMPLETE (R282). -/
  | fenceComplete (t : TileId)
  /-- MFCR (R168). -/
  | mfcr (t : TileId) (f : SysForm)
  /-- MTCR (R168). -/
  | mtcr (t : TileId) (f : SysForm)
  /-- ERET (R131). -/
  | eret (t : TileId) (f : SysForm)
  /-- TRAP (R168). -/
  | trap (t : TileId) (f : SysForm)
  /-- BRK (R168). -/
  | brk (t : TileId) (f : SysForm)
  /-- WAIT (R169). -/
  | wait (t : TileId) (f : SysForm)
  /-- SYNC_I (R170). -/
  | syncI (t : TileId) (f : SysForm)
  /-- TIMECMP_REACHED (R126). -/
  | timecmpReached (t : TileId)
  /-- INTERRUPT_TAKE (R128). -/
  | interruptTake (t : TileId)
  /-- STORE_BUFFER_DRAIN (R273). -/
  | storeBufferDrain (t : TileId) (i : Nat)
  /-- PACKET_ADVANCE (R180). -/
  | packetAdvance (i : Nat)
  /-- MSG_DELIVER (R190). -/
  | msgDeliver (i : Nat)
  /-- GATE_ENTER (R38). -/
  | gateEnter (g : GateId) (i : Nat)
  /-- GATE_DELIVER (R187). -/
  | gateDeliver (g : GateId)
  /-- PROBE_GO (R193). -/
  | probeGo (p : Port) (t : TileId) (val : BitVec 64)
  /-- PROBE_ARRIVE (R192). -/
  | probeArrive (i : Nat)
  /-- PROBE_RETURN (R193). -/
  | probeReturn (i : Nat)
  /-- TOKEN_ARRIVE (R198). -/
  | tokenArrive (i : Nat)
  /-- MATCH_STORE_ADMIT (R204). -/
  | matchStoreAdmit (w : WardId)
  /-- WORK_DISPATCH_TILE (R206). -/
  | workDispatchTile (w : WardId) (pool : Fin 16)
  /-- WORK_DISPATCH_ENGINE (R207). -/
  | workDispatchEngine (w : WardId) (ty : EngType)
  /-- TICK (R213). -/
  | tick
  /-- DLY_FLUSH (R216). -/
  | dlyFlush (p : Port) (w : WardId) (mask : BitVec 8)
  /-- OBS_CLEAR (R222). -/
  | obsClear (p : Port) (w : WardId)
  /-- TRACE_TAIL_WRITE (R224). -/
  | traceTailWrite (p : Port) (w : WardId) (val : Nat)
  /-- EVT_EDGE (R217). -/
  | evtEdge (pin : Fin 8) (level : Bool)
  /-- EVT_FILTER_PASS (R217). -/
  | evtFilterPass (pin : Fin 8)
  /-- EVT_DELIVER (R218). -/
  | evtDeliver (pin : Fin 8)
  /-- ENGINE_ACCEPT (R246). -/
  | engineAccept (e : EngId)
  /-- FEED_MESSAGE (R248). -/
  | feedMessage (t : TileId)
  /-- RING_FETCH (R250). -/
  | ringFetch (e : EngId)
  /-- RING_TAIL_WRITE (R250). -/
  | ringTailWrite (p : Port) (e : EngId) (val : Nat)
  /-- RING_FAULT_CLEAR (R252). -/
  | ringFaultClear (p : Port) (e : EngId)
  /-- FEED_EN_WRITE (R248). -/
  | feedEnWrite (p : Port) (e : EngId) (en : Bool) (tile : TileId)
  /-- ENGINE_RESET (R269). -/
  | engineReset (p : Port) (e : EngId)
  /-- ENG_LAST0_READ (R253). -/
  | engLast0Read (p : Port) (e : EngId)
  /-- GEMM (R231). -/
  | gemm (e : EngId)
  /-- EWE_ADD (R258). -/
  | eweAdd (e : EngId)
  /-- EWE_MUL (R258). -/
  | eweMul (e : EngId)
  /-- AXPBY (R258). -/
  | axpby (e : EngId)
  /-- UNARY (R258). -/
  | unary (e : EngId)
  /-- CONVERT (R258). -/
  | convert (e : EngId)
  /-- ROWNORM (R258). -/
  | rownorm (e : EngId)
  /-- SOFTMAX (R258). -/
  | softmax (e : EngId)
  /-- ADAMW (R260). -/
  | adamw (e : EngId)
  /-- SGDM (R260). -/
  | sgdm (e : EngId)
  /-- FACTORED (R260). -/
  | factored (e : EngId)
  /-- GATHER (R261). -/
  | gather (e : EngId)
  /-- SCATTER (R262). -/
  | scatter (e : EngId)
  /-- SCATTER_ADD (R262). -/
  | scatterAdd (e : EngId)
  /-- PACK (R263). -/
  | pack (e : EngId)
  /-- SUM (R264). -/
  | sum (e : EngId)
  /-- ALLREDUCE (R264). -/
  | allreduce (e : EngId)
  /-- COPY (R265). -/
  | copy (e : EngId)
  /-- BME_FILL (R265). -/
  | bmeFill (e : EngId)
  /-- STRIDED (R265). -/
  | strided (e : EngId)
  /-- SHA256 (R266). -/
  | sha256 (e : EngId)
  /-- CRC64 (R266). -/
  | crc64 (e : EngId)
  /-- ENGINE_COMPLETE (R247). -/
  | engineComplete (e : EngId)
  /-- HOLD_EXPIRE (R335). -/
  | holdExpire (q : QuarterId) (line : LineAddr)
  /-- QC_DISABLE (R311). -/
  | qcDisable (p : Port) (q : QuarterId)
  /-- QC_DRAIN_DONE (R311). -/
  | qcDrainDone (q : QuarterId)
  /-- QC_ENABLE (R313). -/
  | qcEnable (p : Port) (q : QuarterId)
  /-- QRESET (R315). -/
  | qreset (p : Port) (q : QuarterId)
  /-- QC_INJ_ARM (R318). -/
  | qcInjArm (p : Port) (q : QuarterId) (val : BitVec 64)
  /-- RD_S (R324). -/
  | rdS (i : Nat)
  /-- RD_X (R324). -/
  | rdX (i : Nat)
  /-- UPG (R324). -/
  | upg (i : Nat)
  /-- OWN (R324). -/
  | own (i : Nat)
  /-- FILL (R324). -/
  | fill (i : Nat)
  /-- WB (R324). -/
  | wb (i : Nat)
  /-- WB_P (R324). -/
  | wbP (i : Nat)
  /-- EVICT (R324). -/
  | evict (i : Nat)
  /-- RD_C (R324). -/
  | rdC (i : Nat)
  /-- WR_INV (R339). -/
  | wrInv (i : Nat)
  /-- AT_P (R338). -/
  | atP (i : Nat)
  /-- AT_FAR (R337). -/
  | atFar (i : Nat)
  /-- H_RD (R324). -/
  | hRd (i : Nat)
  /-- H_WR (R325). -/
  | hWr (i : Nat)
  /-- DATA (R324). -/
  | data (i : Nat)
  /-- GNT_S (R298). -/
  | gntS (i : Nat)
  /-- GNT_E (R298). -/
  | gntE (i : Nat)
  /-- GNT_X (R298). -/
  | gntX (i : Nat)
  /-- WGO (R339). -/
  | wgo (i : Nat)
  /-- DONE (R365). -/
  | done (i : Nat)
  /-- RETRY (R332). -/
  | retry (i : Nat)
  /-- NACK (R333). -/
  | nack (i : Nat)
  /-- GO (R334). -/
  | go (i : Nat)
  /-- AT_RES (R337). -/
  | atRes (i : Nat)
  /-- REQUEST_RESEND (R333). -/
  | requestResend (x : Nat)
  /-- INV (R328). -/
  | inv (i : Nat)
  /-- SNP_S (R328). -/
  | snpS (i : Nat)
  /-- SNP_INV (R328). -/
  | snpInv (i : Nat)
  /-- SNP_CUR (R328). -/
  | snpCur (i : Nat)
  /-- ACK (R324). -/
  | ack (i : Nat)
  /-- ACK_S (R324). -/
  | ackS (i : Nat)
  /-- SNP_MASK (R300). -/
  | snpMask (i : Nat)
  /-- LOST (R326). -/
  | lost (i : Nat)
  /-- DRAM_READ_COMPLETE (R381). -/
  | dramReadComplete (h : HomeId) (x : Nat) (err : DramErr)
  /-- WRITE_DATA_ARRIVE (R339). -/
  | writeDataArrive (i : Nat)
  /-- SNOOP_TIMEOUT (R343). -/
  | snoopTimeout (h : Fin 17) (x : Nat) (q : QuarterId)
  /-- BI_SNOOP_TIMEOUT (R345). -/
  | biSnoopTimeout (h : HomeId) (x : Nat)
  /-- WRITE_DATA_TIMEOUT (R346). -/
  | writeDataTimeout (h : Fin 17) (x : Nat)
  /-- LAZY_INIT_DONE (R391). -/
  | lazyInitDone (h : HomeId) (region : Nat)
  /-- HOST_CACHE_RESPONSE (R348). -/
  | hostCacheResponse (line : LineAddr) (r : HostGrant)
  /-- HOST_SNP_DATA (R350). -/
  | hostSnpData (line : LineAddr)
  /-- HOST_SNP_INV (R350). -/
  | hostSnpInv (line : LineAddr)
  /-- HOST_SNP_CUR (R350). -/
  | hostSnpCur (line : LineAddr)
  /-- BI_RSP (R352). -/
  | biRsp (line : LineAddr) (kept : Bool)
  /-- LEDGER_GRANT (R360). -/
  | ledgerGrant
  /-- DDR_TRAINING_DONE (R373). -/
  | ddrTrainingDone (mods : List DimmInfo)
  /-- SEAL_LOAD (R386). -/
  | sealLoad (p : Port) (w : WardId)
  /-- SEAL_KEY_INSTALLED (R386). -/
  | sealKeyInstalled
  /-- SCRUB (R395). -/
  | scrub
  /-- WIPE (R392). -/
  | wipe
  /-- SCRUB_ABORT (R396). -/
  | scrubAbort
  /-- SCRUB_LINE (R395). -/
  | scrubLine (h : HomeId) (err : DramErr)
  /-- SCRUB_PASS_END (R396). -/
  | scrubPassEnd
  /-- COVERAGE_AGE_TICK (R397). -/
  | coverageAgeTick
  /-- ECC_INJ_ARM (R398). -/
  | eccInjArm (p : Port) (h : HomeId) (val : BitVec 32)
  /-- LINK_TRAINED (R401). -/
  | linkTrained (rate : Nat) (width : Nat) (cxl : Bool)
  /-- CONFIG_SPACE_READY (R469). -/
  | configSpaceReady
  /-- CONFIG_REQUEST (R421). -/
  | configRequest (q : CfgReq)
  /-- MEMORY_ACTIVE (R469). -/
  | memoryActive
  /-- MEMORY_ACTIVE_TIMEOUT (R470). -/
  | memoryActiveTimeout
  /-- HDM_COMMIT (R407). -/
  | hdmCommit (n : Fin 4)
  /-- MEM_RD (R409). -/
  | memRd (addr : Nat) (mv : MetaValue) (tag : Nat)
  /-- MEM_RD_DATA (R409). -/
  | memRdData (addr tag : Nat)
  /-- MEM_INV (R409). -/
  | memInv (addr : Nat) (mv : MetaValue) (tag : Nat)
  /-- MEM_INV_NT (R409). -/
  | memInvNt (addr : Nat) (mv : MetaValue) (tag : Nat)
  /-- MEM_CLN_EVCT (R409). -/
  | memClnEvct (addr tag : Nat)
  /-- MEM_SPEC_RD (R409). -/
  | memSpecRd (addr tag : Nat)
  /-- MEM_WR (R409). -/
  | memWr (addr : Nat) (mv : MetaValue) (d : LineVal) (tag : Nat)
  /-- MEM_WR_PTL (R409). -/
  | memWrPtl (addr : Nat) (mv : MetaValue) (mask : BitVec 64) (d : LineVal) (tag : Nat)
  /-- BI_CONFLICT (R409). -/
  | biConflict (addr tag : Nat)
  /-- MEM_BAD_OPCODE (R409). -/
  | memBadOpcode (isRead : Bool) (tag : Nat)
  /-- DISABLE_CACHING (R412). -/
  | disableCaching
  /-- CACHE_WRITE_BACK_AND_INVALIDATION (R412). -/
  | cacheWriteBackAndInvalidation
  /-- CACHE_INVALID_SET (R412). -/
  | cacheInvalidSet
  /-- FILTER_ATOMIC (R349). -/
  | filterAtomic (line : LineAddr)
  /-- BULK_WRITE (R425). -/
  | bulkWrite (fn : Func) (tlp : List BulkByte) (ep : Bool)
  /-- BULK_READ (R426). -/
  | bulkRead (fn : Func) (n : Nat) (tag : Nat)
  /-- BLK_ADDR_WRITE (R424). -/
  | blkAddrWrite (fn : Func) (val : Nat)
  /-- BLK_SHAPE_WRITE (R424). -/
  | blkShapeWrite (fn : Func) (count : Bool) (val : Nat)
  /-- MSIX_UNMASK (R415). -/
  | msixUnmask (fn : Func) (target : MaskTarget)
  /-- MSIX_ENABLE_CHANGE (R416). -/
  | msixEnableChange (en : Bool)
  /-- INTX_UPDATE (R416). -/
  | intxUpdate
  /-- D3HOT_ENTRY (R417). -/
  | d3hotEntry
  /-- D0_RETURN (R421). -/
  | d0Return
  /-- L1_REQUEST (R419). -/
  | l1Request
  /-- L0P_NARROW (R420). -/
  | l0pNarrow
  /-- L0P_WIDEN (R420). -/
  | l0pWiden
  /-- FLIT_CRC_FAIL (R428). -/
  | flitCrcFail (fec : Nat) (failsInRow : Nat)
  /-- IDE_INTEGRITY_FAIL (R430). -/
  | ideIntegrityFail (stream : IdeStream)
  /-- IDE_KM_KEY_PROGRAM (R430). -/
  | ideKmKeyProgram (stream : IdeStream)
  /-- DOE_REQUEST (R405). -/
  | doeRequest (r : DoeReq)
  /-- FLT_BEACON_CLEAR (R436). -/
  | fltBeaconClear (p : Port) (view : Option WardId) (mask : BitVec 64)
  /-- FAULTN_CLEAR (R444). -/
  | faultnClear
  /-- FLT_LOCK (R446). -/
  | fltLock
  /-- FLT_INJECT (R447). -/
  | fltInject (p : Port) (val : BitVec 64)
  /-- LOG_WRITE (R449). -/
  | logWrite (ok eraseOk : Bool)
  /-- LOG_CTRL_READ (R450). -/
  | logCtrlRead (slot : Nat)
  /-- LOG_CTRL_ERASE (R450). -/
  | logCtrlErase
  /-- LOG_ERASE_DONE (R450). -/
  | logEraseDone
  /-- RAIL_SAMPLE (R452). -/
  | railSample (mv : List Nat) (tj : List Int)
  /-- RAIL_OUT_OF_RANGE (R454). -/
  | railOutOfRange (rail : Fin 6) (mv : Nat)
  /-- DROOP_WARN_FALL (R455). -/
  | droopWarnFall (mv : Nat)
  /-- VCORE_BAND_ENTRY (R455). -/
  | vcoreBandEntry (mv : Nat)
  /-- DIM_ENTER (R456). -/
  | dimEnter (cause : Fin 16) (mv : Nat)
  /-- DIM_SELF_REFRESH (R456). -/
  | dimSelfRefresh
  /-- DIM_EXIT (R458). -/
  | dimExit
  /-- DIM_LIMIT (R459). -/
  | dimLimit
  /-- PLW_N_ASSERT (R460). -/
  | plwNAssert
  /-- PLW_QUIESCED (R460). -/
  | plwQuiesced
  /-- THERM_WARN (R462). -/
  | thermWarn (tj : Int) (sensor : Fin 18)
  /-- THERM_OVER (R462). -/
  | thermOver (tj : Int) (sensor : Fin 18)
  /-- THERM_COLD (R462). -/
  | thermCold (tj : Int) (sensor : Fin 18)
  /-- THERMAL_TRIP (R463). -/
  | thermalTrip (tj : Int) (sensor : Fin 18)
  /-- THROTTLE_HOLD (R462). -/
  | throttleHold
  /-- CAL_USER_WRITE (R467). -/
  | calUserWrite (p : Port) (n : Fin 7) (val : Int)
  /-- CAL_CMD_SAVE (R466). -/
  | calCmdSave
  /-- CAL_CMD_RELOAD (R466). -/
  | calCmdReload
  /-- CAL_CMD_ZERO (R466). -/
  | calCmdZero
  /-- CAL_FLASH_DONE (R467). -/
  | calFlashDone (ok : Bool)
  /-- MCTP_PACKET (R478). -/
  | mctpPacket (b : List (BitVec 8)) (pecOk : Bool)
  /-- MGMT_RESPONSE_SEND (R479). -/
  | mgmtResponseSend (sent : Bool)
  /-- SET_ENDPOINT_ID (R479). -/
  | setEndpointId (eid : BitVec 8)
  /-- GET_ENDPOINT_ID (R479). -/
  | getEndpointId
  /-- GET_MCTP_VERSION_SUPPORT (R479). -/
  | getMctpVersionSupport
  /-- GET_MESSAGE_TYPE_SUPPORT (R479). -/
  | getMessageTypeSupport
  /-- GET_VENDOR_DEFINED_MESSAGE_SUPPORT (R479). -/
  | getVendorDefinedMessageSupport
  /-- GET_IDENTITY (R485). -/
  | getIdentity (q : MgmtHdr)
  /-- GET_HEALTH (R486). -/
  | getHealth (q : MgmtHdr)
  /-- GET_SUPPLY (R487). -/
  | getSupply (q : MgmtHdr)
  /-- GET_THERMAL (R487). -/
  | getThermal (q : MgmtHdr)
  /-- READ_REG (R488). -/
  | readReg (q : MgmtHdr) (off width : Nat)
  /-- WRITE_REG (R488). -/
  | writeReg (q : MgmtHdr) (off width val : Nat)
  /-- LOG_HEAD (R485). -/
  | logHead (q : MgmtHdr)
  /-- LOG_READ (R489). -/
  | logRead (q : MgmtHdr) (slot : Nat) (flashOk : Bool)
  /-- CAL_GET (R485). -/
  | calGet (q : MgmtHdr)
  /-- CAL_SET (R489). -/
  | calSet (q : MgmtHdr) (item : Nat) (offset : BitVec 8)
  /-- CAL_SAVE (R489). -/
  | calSave (q : MgmtHdr)
  /-- CAL_RELOAD (R489). -/
  | calReload (q : MgmtHdr)
  /-- CAL_ZERO (R489). -/
  | calZero (q : MgmtHdr)
  /-- THROTTLE (R490). -/
  | throttle (q : MgmtHdr) (v : Nat)
  /-- RESET_REQ (R491). -/
  | resetReq (q : MgmtHdr) (kind ward : Nat)
  /-- ALERT_GET (R492). -/
  | alertGet (q : MgmtHdr) (ack : Nat)
  /-- ALERT_RESPONSE_ADDRESS (R492). -/
  | alertResponseAddress
  /-- LANTERN_CTRL (R493). -/
  | lanternCtrl (q : MgmtHdr) (op minutes : Nat)
  /-- LANTERN_ARM_EXPIRE (R493). -/
  | lanternArmExpire
  /-- LINE_RESET (R494). -/
  | lineReset
  /-- STATUS (R498). -/
  | status (h : LntHdr)
  /-- READ (R497). -/
  | read (h : LntHdr)
  /-- WRITE (R497). -/
  | write (h : LntHdr) (d : LntData)
  /-- UNLOCK (R499). -/
  | unlock (h : LntHdr) (d : LntData)
  /-- LNT_EVENT_READ (R513). -/
  | lntEventRead
  /-- LNT_ACCESS_REG (R501). -/
  | lntAccessReg
  /-- LNT_ACCESS_MEM (R501). -/
  | lntAccessMem
  /-- LNT_ACCESS_LS (R501). -/
  | lntAccessLs
  /-- LNT_ACCESS_CORE (R503). -/
  | lntAccessCore
  /-- LNT_ACCESS_DONE (R502). -/
  | lntAccessDone
  /-- HALT (R506). -/
  | halt (scope target : Nat)
  /-- TILE_HALT (R507). -/
  | tileHalt (t : TileId)
  /-- RESUME (R505). -/
  | resume (scope target : Nat)
  /-- STEP (R508). -/
  | step (scope target : Nat)
  /-- STEP_END (R508). -/
  | stepEnd (t : TileId)
  /-- LNT_COMPARATOR_WRITE (R510). -/
  | lntComparatorWrite (bp : Bool) (n : Nat) (val : BitVec 64)
  /-- THERMAL_REARM (R462). -/
  | thermalRearm (tj : Int)
  /-- VCORE_RECOVERY (R455). -/
  | vcoreRecovery (mv : Nat)
  /-- PLW_N_DEASSERT (R461). -/
  | plwNDeassert
  /-- L0P_PARTNER_REQUEST (R420). -/
  | l0pPartnerRequest (width : Nat)
  /-- CXL_IO_COMPLETION (R413). -/
  | cxlIoCompletion (tag : Nat) (d : List (BitVec 8)) (poison : Bool)
  /-- LOG_CTRL_READ_DONE (R450). -/
  | logCtrlReadDone
  /-- CAL_USER_HOLD_END (R467). -/
  | calUserHoldEnd
  deriving DecidableEq, Repr

end Sys2Proof
end

