-- ==== Sys2Proof/Decode.lean ====
section
/-! DEFINITION. The words of tile instructions (spec 05 R148–R168): the decoder that a tile applies to the word it
fetches, and the encoder beside it. The opcode table gives no row any bits, so no word spells a command by the table. -/

namespace Sys2Proof

/-- The command that a word spells by the table's bits: none, since no row of the table has bits. -/
def decodeTableWord (_nbits _w : Nat) : Option Instr := none

/-! ### The opcode map, each list in the order of its codes (spec 05 R152–R168) -/

/-- fn[5:0] of major opcode 0x01 (R152). -/
def intOps : List (TileId → RForm → Instr) :=
  [.add, .sub, .and, .or, .xor, .sll, .srl, .sra, .slt, .sltu, .mul, .mulh, .mulhu, .div, .divu, .rem, .remu, .min, .max, .minu, .maxu]
/-- Major opcodes from 0x02 (R154). -/
def immOps : List (TileId → IForm → Instr) := [.addi, .andi, .ori, .xori, .slti, .sltiu, .shi, .insh]
/-- Major opcodes from 0x10 (R155, R156). -/
def loadOps : List (TileId → IForm → Instr) := [.lb, .lbu, .lh, .lhu, .lw, .lwu, .ld, .flw, .flh, .ptest]
/-- Major opcodes from 0x1A (R155). -/
def storeOps : List (TileId → SForm → Instr) := [.sb, .sh, .sw, .sd, .fsw, .fsh]
/-- Major opcodes from 0x20 (R157). -/
def branchOps : List (TileId → BForm → Instr) := [.beq, .bne, .blt, .bge, .bltu, .bgeu]
/-- Major opcodes 0x26 and 0x27 (R157). -/
def jumpOps : List (TileId → BitVec 26 → Instr) := [.j, .jal]
/-- fn of major opcode 0x28 (R157). -/
def regJumpOps : List (TileId → RForm → Instr) := [.jr, .jalr]
/-- fn[10:6] of major opcode 0x30 (R160). -/
def fpOps : List (TileId → FpForm → Instr) :=
  [.faddS, .fsubS, .fmulS, .fdivS, .fsqrtS, .fminS, .fmaxS, .fnegS, .fabsS, .feqS, .fltS, .fleS, .fcvtLS, .fcvtLuS, .fcvtSL, .fcvtSLu,
   .fcvtBfS, .fmvGF, .fmvFG, .faddB, .fmulB, .fsubB]
/-- Major opcodes from 0x31 (R161). -/
def fmaOps : List (TileId → R4Form → Instr) := [.fmaddS, .fmsubS, .fnmaddS, .fmaddB]
/-- fn[3:0] of major opcode 0x36 (R162). -/
def atomicOps : List (TileId → AtForm → Instr) :=
  [.atomicSwap, .atomicCas, .atomicAdd, .atomicAnd, .atomicOr, .atomicXor, .atomicMin, .atomicMax, .atomicMinu, .atomicMaxu]
/-- fn[3:0] of major opcode 0x38 (R164). -/
def msgOps : List (TileId → MsgForm → Instr) := [.send, .recv, .getwork, .puttok, .pset]
/-- fn[3:2], from 1, and in it fn[1:0] of major opcode 0x3C (R167). -/
def fenceOps : List (List (TileId → FenceForm → Instr)) :=
  [[.fenceCAcquire, .fenceQAcquire, .fenceSAcquire], [.fenceCRelease, .fenceQRelease, .fenceSRelease],
   [.fenceCReleaseAcquire, .fenceQReleaseAcquire, .fenceSReleaseAcquire]]
/-- sub of major opcode 0x3E (R168). -/
def sysOps : List (TileId → SysForm → Instr) := [.mfcr, .mtcr, .eret, .trap, .brk, .wait, .syncI]

/-! ### Decoding -/

/-- The fields that R149's formats place in a word. -/
def opOf (w : W32) : Nat := (w.extractLsb' 26 6).toNat
def rdOf (w : W32) : BitVec 5 := w.extractLsb' 21 5
def raOf (w : W32) : BitVec 5 := w.extractLsb' 16 5
def rbOf (w : W32) : BitVec 5 := w.extractLsb' 11 5
def rcOf (w : W32) : BitVec 5 := w.extractLsb' 6 5
def immOf (w : W32) : BitVec 16 := w.extractLsb' 0 16

/-- The instruction of a word at tile `t`: the operation that the major opcode and sub-opcode list, with every field
of its format, reserved ones included; none when the opcode or sub-opcode is not listed (spec 05 R148–R150). -/
def decodeTile (t : TileId) (w : W32) : Option Instr :=
  let op := opOf w
  let i : IForm := ⟨rdOf w, raOf w, immOf w⟩
  let fn4 := (w.extractLsb' 0 4).toNat
  if op = 0x01 then intOps[(w.extractLsb' 0 6).toNat]?.map (fun c => c t ⟨rdOf w, raOf w, rbOf w, rcOf w⟩)
  else if 0x02 ≤ op ∧ op ≤ 0x09 then immOps[op - 0x02]?.map (fun c => c t i)
  else if 0x10 ≤ op ∧ op ≤ 0x19 then loadOps[op - 0x10]?.map (fun c => c t i)
  else if 0x1A ≤ op ∧ op ≤ 0x1F then storeOps[op - 0x1A]?.map (fun c => c t ⟨rdOf w, raOf w, immOf w⟩)
  else if 0x20 ≤ op ∧ op ≤ 0x25 then branchOps[op - 0x20]?.map (fun c => c t ⟨rdOf w, raOf w, immOf w⟩)
  else if 0x26 ≤ op ∧ op ≤ 0x27 then jumpOps[op - 0x26]?.map (fun c => c t (w.extractLsb' 0 26))
  else if op = 0x28 then regJumpOps[(w.extractLsb' 0 6).toNat]?.map (fun c => c t ⟨rdOf w, raOf w, rbOf w, rcOf w⟩)
  else if op = 0x30 then fpOps[(rcOf w).toNat]?.map (fun c => c t ⟨rdOf w, raOf w, rbOf w, w.extractLsb' 3 3, w.extractLsb' 0 3⟩)
  else if 0x31 ≤ op ∧ op ≤ 0x34 then fmaOps[op - 0x31]?.map (fun c => c t ⟨rdOf w, raOf w, rbOf w, rcOf w, w.extractLsb' 3 3, w.extractLsb' 0 3⟩)
  else if op = 0x36 then atomicOps[fn4]?.map (fun c => c t ⟨rdOf w, raOf w, rbOf w, w.extractLsb' 4 1, w.extractLsb' 5 2, w.extractLsb' 7 4⟩)
  else if op = 0x38 then msgOps[fn4]?.map (fun c => c t ⟨rdOf w, raOf w, rbOf w, w.extractLsb' 4 7⟩)
  else if op = 0x3C then
    if fn4 < 4 then none
    else (fenceOps[fn4 / 4 - 1]?.bind (fun l => l[fn4 % 4]?)).map (fun c => c t ⟨rdOf w, raOf w, rbOf w, w.extractLsb' 4 7⟩)
  else if op = 0x3E then sysOps[(w.extractLsb' 12 4).toNat]?.map (fun c => c t ⟨rdOf w, raOf w, w.extractLsb' 0 12⟩)
  else none

/-! ### Encoding -/

def RForm.word (op : BitVec 6) (fn : BitVec 6) (f : RForm) : W32 := op ++ f.rd ++ f.ra ++ f.rb ++ f.rsv ++ fn
def IForm.word (op : BitVec 6) (f : IForm) : W32 := op ++ f.rd ++ f.ra ++ f.imm
def SForm.word (op : BitVec 6) (f : SForm) : W32 := op ++ f.rs ++ f.ra ++ f.imm
def BForm.word (op : BitVec 6) (f : BForm) : W32 := op ++ f.ra ++ f.rb ++ f.off
def FpForm.word (fn : BitVec 5) (f : FpForm) : W32 := 0x30#6 ++ f.rd ++ f.ra ++ f.rb ++ fn ++ f.rm ++ f.rsv
def R4Form.word (op : BitVec 6) (f : R4Form) : W32 := op ++ f.rd ++ f.ra ++ f.rb ++ f.rc ++ f.rm ++ f.rsv
def AtForm.word (fn : BitVec 4) (f : AtForm) : W32 := 0x36#6 ++ f.rd ++ f.ra ++ f.rb ++ f.rsv ++ f.hint ++ f.size ++ fn
def MsgForm.word (fn : BitVec 4) (f : MsgForm) : W32 := 0x38#6 ++ f.rd ++ f.ra ++ f.rb ++ f.len ++ fn
def FenceForm.word (form scope : BitVec 2) (f : FenceForm) : W32 := 0x3C#6 ++ f.rd ++ f.ra ++ f.rb ++ f.rsv ++ form ++ scope
def SysForm.word (sub : BitVec 4) (f : SysForm) : W32 := 0x3E#6 ++ f.rd ++ f.ra ++ sub ++ f.imm

/-- The word of a tile instruction (spec 05 R149–R168); none for any other command. -/
def encodeTile : Instr → Option W32
  | .add _ f => some (f.word 0x01 0)
  | .sub _ f => some (f.word 0x01 1)
  | .and _ f => some (f.word 0x01 2)
  | .or _ f => some (f.word 0x01 3)
  | .xor _ f => some (f.word 0x01 4)
  | .sll _ f => some (f.word 0x01 5)
  | .srl _ f => some (f.word 0x01 6)
  | .sra _ f => some (f.word 0x01 7)
  | .slt _ f => some (f.word 0x01 8)
  | .sltu _ f => some (f.word 0x01 9)
  | .mul _ f => some (f.word 0x01 10)
  | .mulh _ f => some (f.word 0x01 11)
  | .mulhu _ f => some (f.word 0x01 12)
  | .div _ f => some (f.word 0x01 13)
  | .divu _ f => some (f.word 0x01 14)
  | .rem _ f => some (f.word 0x01 15)
  | .remu _ f => some (f.word 0x01 16)
  | .min _ f => some (f.word 0x01 17)
  | .max _ f => some (f.word 0x01 18)
  | .minu _ f => some (f.word 0x01 19)
  | .maxu _ f => some (f.word 0x01 20)
  | .addi _ f => some (f.word 0x02)
  | .andi _ f => some (f.word 0x03)
  | .ori _ f => some (f.word 0x04)
  | .xori _ f => some (f.word 0x05)
  | .slti _ f => some (f.word 0x06)
  | .sltiu _ f => some (f.word 0x07)
  | .shi _ f => some (f.word 0x08)
  | .insh _ f => some (f.word 0x09)
  | .lb _ f => some (f.word 0x10)
  | .lbu _ f => some (f.word 0x11)
  | .lh _ f => some (f.word 0x12)
  | .lhu _ f => some (f.word 0x13)
  | .lw _ f => some (f.word 0x14)
  | .lwu _ f => some (f.word 0x15)
  | .ld _ f => some (f.word 0x16)
  | .flw _ f => some (f.word 0x17)
  | .flh _ f => some (f.word 0x18)
  | .ptest _ f => some (f.word 0x19)
  | .sb _ f => some (f.word 0x1A)
  | .sh _ f => some (f.word 0x1B)
  | .sw _ f => some (f.word 0x1C)
  | .sd _ f => some (f.word 0x1D)
  | .fsw _ f => some (f.word 0x1E)
  | .fsh _ f => some (f.word 0x1F)
  | .beq _ f => some (f.word 0x20)
  | .bne _ f => some (f.word 0x21)
  | .blt _ f => some (f.word 0x22)
  | .bge _ f => some (f.word 0x23)
  | .bltu _ f => some (f.word 0x24)
  | .bgeu _ f => some (f.word 0x25)
  | .j _ off => some (0x26#6 ++ off)
  | .jal _ off => some (0x27#6 ++ off)
  | .jr _ f => some (f.word 0x28 0)
  | .jalr _ f => some (f.word 0x28 1)
  | .faddS _ f => some (f.word 0)
  | .fsubS _ f => some (f.word 1)
  | .fmulS _ f => some (f.word 2)
  | .fdivS _ f => some (f.word 3)
  | .fsqrtS _ f => some (f.word 4)
  | .fminS _ f => some (f.word 5)
  | .fmaxS _ f => some (f.word 6)
  | .fnegS _ f => some (f.word 7)
  | .fabsS _ f => some (f.word 8)
  | .feqS _ f => some (f.word 9)
  | .fltS _ f => some (f.word 10)
  | .fleS _ f => some (f.word 11)
  | .fcvtLS _ f => some (f.word 12)
  | .fcvtLuS _ f => some (f.word 13)
  | .fcvtSL _ f => some (f.word 14)
  | .fcvtSLu _ f => some (f.word 15)
  | .fcvtBfS _ f => some (f.word 16)
  | .fmvGF _ f => some (f.word 17)
  | .fmvFG _ f => some (f.word 18)
  | .faddB _ f => some (f.word 19)
  | .fmulB _ f => some (f.word 20)
  | .fsubB _ f => some (f.word 21)
  | .fmaddS _ f => some (f.word 0x31)
  | .fmsubS _ f => some (f.word 0x32)
  | .fnmaddS _ f => some (f.word 0x33)
  | .fmaddB _ f => some (f.word 0x34)
  | .atomicSwap _ f => some (f.word 0)
  | .atomicCas _ f => some (f.word 1)
  | .atomicAdd _ f => some (f.word 2)
  | .atomicAnd _ f => some (f.word 3)
  | .atomicOr _ f => some (f.word 4)
  | .atomicXor _ f => some (f.word 5)
  | .atomicMin _ f => some (f.word 6)
  | .atomicMax _ f => some (f.word 7)
  | .atomicMinu _ f => some (f.word 8)
  | .atomicMaxu _ f => some (f.word 9)
  | .send _ f => some (f.word 0)
  | .recv _ f => some (f.word 1)
  | .getwork _ f => some (f.word 2)
  | .puttok _ f => some (f.word 3)
  | .pset _ f => some (f.word 4)
  | .fenceCAcquire _ f => some (f.word 1 0)
  | .fenceCRelease _ f => some (f.word 2 0)
  | .fenceCReleaseAcquire _ f => some (f.word 3 0)
  | .fenceQAcquire _ f => some (f.word 1 1)
  | .fenceQRelease _ f => some (f.word 2 1)
  | .fenceQReleaseAcquire _ f => some (f.word 3 1)
  | .fenceSAcquire _ f => some (f.word 1 2)
  | .fenceSRelease _ f => some (f.word 2 2)
  | .fenceSReleaseAcquire _ f => some (f.word 3 2)
  | .mfcr _ f => some (f.word 0)
  | .mtcr _ f => some (f.word 1)
  | .eret _ f => some (f.word 2)
  | .trap _ f => some (f.word 3)
  | .brk _ f => some (f.word 4)
  | .wait _ f => some (f.word 5)
  | .syncI _ f => some (f.word 6)
  | _ => none

end Sys2Proof
end

