-- ==== Sys2Proof/Config.lean ====
section
/-! DEFINITION. What the spec leaves open: values with no body, so that no proof can see what they are
(DESIGN CHOICE, log 3). A step that needs an open value applies one of these to the model's counter or to its operands. -/

namespace Sys2Proof.Config

/-- The n-th free value of a run (DESIGN CHOICE, log 3). -/
opaque freeNat : Nat → Nat

/-- The result of an engine function that the spec bounds but does not fix (spec 09 R258, R259): the function
code and the FP32 operand bits (DESIGN CHOICE, log 14). -/
opaque engineFn : Nat → BitVec 32 → BitVec 32

/-- The stated bound of R259 leaves a row result open within 3 ulp: operation, element bits, row digest (DESIGN CHOICE, log 14). -/
opaque rowFn : Nat → BitVec 32 → Nat → BitVec 32

/-- The elements of D when D overlaps an operand (spec 08 R239; DESIGN CHOICE, log 15). -/
opaque overlapByte : Nat → Nat → BitVec 8

end Sys2Proof.Config
end

