-- ==== Sys2Proof/Machine/ByteCode.lean ====
section
/-! DEFINITION. Bits and bytes of numbers, and the byte code of on-die arrays (spec 03 R114; 11 R305). -/

namespace Sys2Proof.Machine

/-! ### Bits -/

def bitN (v i : Nat) : Bool := v.testBit i
/-- Bits [lo + w - 1 : lo] of a number. -/
def bitsN (v lo w : Nat) : Nat := (v >>> lo) % 2 ^ w
def bN (b : Bool) : Nat := if b then 1 else 0
/-- The number with bit `i` set to `b`. -/
def putBitN (v i : Nat) (b : Bool) : Nat := if v.testBit i == b then v else v ^^^ (2 ^ i)
/-- Little-endian bytes of a number. -/
def leBytes : Nat → Nat → List Byte
  | 0, _ => []
  | n + 1, v => BitVec.ofNat 8 v :: leBytes n (v / 256)
/-- The number that little-endian bytes spell. -/
def ofLe : List Byte → Nat
  | [] => 0
  | b :: r => b.toNat + 256 * ofLe r

/-! ### The byte code -/

def xorBits (v : Nat) (l : List Nat) : Nat := l.foldl (fun a i => (a + bN (bitN v i)) % 2) 0

/-- The 13-bit codeword of a byte (spec 11 R305). -/
def encode13 (d : Nat) : Nat :=
  let w := d + 256 * xorBits d [0, 1, 3, 4, 6] + 512 * xorBits d [0, 2, 3, 5, 6]
    + 1024 * xorBits d [1, 2, 3, 7] + 2048 * xorBits d [4, 5, 6, 7]
  w + 4096 * xorBits w [0, 1, 2, 3, 4, 5, 6, 7, 8, 9, 10, 11]

/-- How a stored byte reads. -/
inductive ByteRead where
  | clean (d : Nat)
  | corrected (d : Nat)
  | uncorrectable (d : Nat)
  deriving DecidableEq, Repr

/-- Data bit at a Hamming position (p1, p2, d0, p4, d1, d2, d3, p8, d4–d7), none for a check bit. -/
def dataAt (s : Nat) : Option Nat :=
  if s = 3 then some 0 else if s = 5 then some 1 else if s = 6 then some 2 else if s = 7 then some 3
  else if s = 9 then some 4 else if s = 10 then some 5 else if s = 11 then some 6 else if s = 12 then some 7 else none

/-- Check a codeword (spec 11 R305). -/
def decode13 (w : Nat) : ByteRead :=
  let d := w % 256
  let c := encode13 d
  let s := bN (bitN c 8 != bitN w 8) + 2 * bN (bitN c 9 != bitN w 9) + 4 * bN (bitN c 10 != bitN w 10) + 8 * bN (bitN c 11 != bitN w 11)
  let odd := xorBits w [0, 1, 2, 3, 4, 5, 6, 7, 8, 9, 10, 11, 12] = 1
  if s = 0 then (if odd then .corrected d else .clean d)
  else if odd then
    match dataAt s with
    | some i => .corrected (d ^^^ 2 ^ i)
    | none => .corrected d
  else .uncorrectable d

end Sys2Proof.Machine
end

