-- ==== Sys2Proof/Machine/State.lean ====
section
/-! DEFINITION. The state of the HZ8640 as plain data, and the state right after cold reset.
Register fields of PF0 BAR0 that the block stores stand in `fld`, one entry for each field; what a register
read computes (TIL_STATE, QUEUED, IP_TIMER, …) is computed from the typed parts below. -/

namespace Sys2Proof.Machine

/-- No step of this model faults: what the spec calls a fault is a Beacon event or a tile exception, and both
are next states. The one constructor is raised by no meaning; it is safe. -/
inductive Fault where
  | stopped (why : String)
  deriving DecidableEq, Repr

/-- Why a command is turned away by the model. `notModelled` is raised by the arms of `exec` that have no
meaning yet (safe). -/
inductive Refusal where
  | notModelled (mnemonic : String)
  deriving DecidableEq, Repr

/-! ### Addresses, packets, tokens -/

/-- A source or destination of packets: a tile's crossing or a Ring Road stop (spec 06 R175, R177). -/
inductive Node where
  | tile (t : TileId)
  | stop (n : Fin 121)
  deriving DecidableEq, Repr

/-- The virtual channels (spec 06 R177). -/
inductive Chan where
  | msg | req | rsp | snp
  deriving DecidableEq, Repr

/-- REQ kinds of spec 12 R321. -/
inductive ReqKind where
  | rdS | rdX | upg | own | fill | wb | wbP | evict | rdC | wrInv | atP | atFar | hRd | hWr
  deriving DecidableEq, Repr

/-- RSP kinds of spec 12 R321. -/
inductive RspKind where
  | data | gntS | gntE | gntX | wgo | done | retry | nack | go | atRes | ack | ackS | snpMask | lost
  deriving DecidableEq, Repr

/-- SNP kinds of spec 12 R321. -/
inductive SnpKind where
  | inv | snpS | snpInv | snpCur
  deriving DecidableEq, Repr

/-- The operations of an atomic (spec 05 R162). -/
inductive AtOp where
  | swap | cas | add | and | or | xor | min | max | minu | maxu
  deriving DecidableEq, Repr

/-- An atomic as a request carries it (spec 12 R321, request word). -/
structure AtReq where
  op : AtOp
  /-- 8 bytes when true, else 4 -/
  wide : Bool
  /-- byte offset in the line -/
  off : Nat
  operand : W64
  compare : W64
  deriving DecidableEq, Repr

/-- Who asked for a memory transaction (spec 13 R357). -/
inductive Source where
  /-- a quarter, for an access of the tile -/
  | quarter (q : QuarterId) (t : TileId)
  /-- a victim, write-back or notice of a drain, charged to the owner of the way -/
  | drain (q : QuarterId)
  /-- an uncached access of a tile -/
  | tile (t : TileId)
  | engine (e : EngId)
  | loader
  | bulk (fn : Func)
  | host
  | lantern
  | trace (w : WardId)
  /-- the scrubber's summary record -/
  | scrub
  deriving DecidableEq, Repr

/-- A request as it travels on REQ (spec 12 R321). -/
structure Req where
  kind : ReqKind
  line : LineAddr
  mask : Mask64
  mv : MetaValue
  at? : Option AtReq
  src : Source
  /-- the ward under whose identity it is issued (spec 01 R22); none for the reserve users -/
  ward : Option WardId
  /-- made through a window with SEAL = 1 (spec 01 R31) -/
  sealed : Bool
  /-- NACKs met so far (spec 12 R333) -/
  nacks : Nat
  /-- when its home first refused it, by the home's own count (spec 12 R334, R338) -/
  refusedAt : Option Nat
  /-- GO has been sent to it (spec 12 R334) -/
  called : Bool
  /-- it has come back after GO, or it is a host request, and waits its turn in the home -/
  arrived : Bool
  deriving DecidableEq, Repr

/-- A token (spec 07 R196), with the fields the device reads. -/
structure Token where
  node : BitVec 32
  port : Byte
  tflags : Byte
  sward : Byte
  list : Byte
  tag : BitVec 32
  delay : BitVec 32
  payload : BitVec 128
  deriving DecidableEq, Repr

/-- A tile message (spec 04 R138, 06 R177). -/
structure Msg where
  srcTile : TileId
  ward : WardId
  gated : Bool
  gate : Nat
  poison : Bool
  bytes : List Byte
  deriving DecidableEq, Repr

/-- A probe (spec 06 R192, R193): the time it left and the count of GOs of its crossing tell a stale one. -/
structure Probe where
  pattern : BitVec 32
  sentAt : Nat
  serial : Nat
  deriving DecidableEq, Repr

/-- Where a token comes from (spec 07 R196). -/
inductive TokSrc where
  | puttok (t : TileId)
  | engine (e : EngId)
  | autoOut (t : TileId)
  | failure
  | init
  deriving DecidableEq, Repr

inductive Payload where
  | message (m : Msg)
  | token (t : Token) (src : TokSrc)
  | work (first : Bool)
  | probe (p : Probe)
  | request (r : Req)
  /-- 64 bytes, with the ward under whose seal they stand at their home -/
  | line (v : LineVal) (sealWard : Option WardId)
  | oldValue (v : W64) (poison : Bool)
  | mask (m : Mask64)
  | lineSnoop (l : LineAddr)
  | empty (poison : Bool)
  deriving DecidableEq, Repr

/-- A packet in flight: `prev` and `cur` name the input buffer it stands in (spec 06 R177, R179). -/
structure Packet where
  chan : Chan
  kind : Nat
  src : Node
  dst : Node
  ward : WardId
  gated : Bool
  gate : Nat
  lane : Nat
  xid : Nat
  poison : Bool
  payload : Payload
  /-- the line a REQ, RSP or SNP packet is about -/
  about : LineAddr
  prev : Node
  cur : Node
  /-- stopped by an illegal code in its header (spec 06 R189) -/
  stuck : Bool
  /-- its ward or its destination was reset, or its sender gave it up: it is discarded where it arrives (spec 06 R190) -/
  dead : Bool
  deriving DecidableEq, Repr

/-! ### Tiles -/

/-- What a tile does with the answer to a memory access it waits for. -/
inductive MemWait where
  /-- the line of an instruction fetch -/
  | fetch
  /-- a load into g or f `rd`; `op` is the major opcode (05 R155) -/
  | load (op : Nat) (rd : BitVec 5) (addr : W64)
  | ptest (rd : BitVec 5) (addr : W64)
  /-- a store of major opcode `op` that the full store buffer holds up (spec 04 R142) -/
  | store (op : Nat) (val : Nat) (addr : W64)
  /-- an atomic performed in the quarter once the line is owned; `mode` is the mode of spec 12 R336 in force -/
  | nearAtomic (mode : Nat) (a : AtReq) (rd : BitVec 5) (addr : W64)
  /-- an atomic sent to the home or to the filter -/
  | farAtomic (a : AtReq) (rd : BitVec 5) (addr : W64)
  deriving DecidableEq, Repr

/-- Fence scope and form (spec 05 R167). -/
inductive FScope where
  | c | q | s
  deriving DecidableEq, Repr
inductive FForm where
  | acquire | release | releaseAcquire
  deriving DecidableEq, Repr

/-- What a tile's core is doing (TIL_STATE.STATE of spec 04, with the waits of R142, R169 and 10 R281). -/
inductive TileMode where
  | held
  | running
  | inGetwork (addr : W64) (rd : BitVec 5)
  | inRecv (addr : W64) (rd : BitVec 5)
  | inSend (addr : W64) (len : Nat) (dst : TileId)
  | inPuttok (addr : W64)
  | inMemory (line : LineAddr) (what : MemWait)
  | inWait
  | inFence (sc : FScope) (fm : FForm) (lines : List LineAddr)
  | stranded
  | faultHeld
  deriving DecidableEq, Repr

/-- A store-buffer entry (spec 10 R272). -/
structure SbEntry where
  /-- the line is one of the quarter's scratch, by its physical place -/
  scratch : Bool
  line : LineAddr
  mask : Mask64
  data : Line512
  ward : WardId
  sealed : Bool
  relaxed : Bool
  ido : Bool
  /-- a word of it was found bad and is poisoned (spec 03 R113) -/
  poison : Bool
  deriving DecidableEq, Repr

/-- A line of an L1 cache. `stale`: the quarter cache line has changed and the invalidation of spec 10 R277
has not arrived yet. -/
structure L1Line where
  line : LineAddr
  v : LineVal
  valid : Mask64
  stale : Bool
  deriving DecidableEq, Repr

/-- An output entry of a node (spec 07 R194). -/
structure OutEntry where
  target : BitVec 32
  port : Byte
  oflags : Byte
  vector : BitVec 16
  deriving DecidableEq, Repr

/-- A work item (spec 07 R199, R203, R205). -/
structure Item where
  ward : WardId
  node : Nat
  key : BitVec 32
  tag : BitVec 32
  cls : Byte
  present : BitVec 4
  ppoison : BitVec 4
  operands : List (BitVec 128)
  last : Bool
  /-- slots it holds until dispatched (R203) -/
  slots : Nat
  readyAt : Nat
  waited : Nat
  seq : Nat
  deriving DecidableEq, Repr

structure Tile where
  g : Vector W64 32
  f : Vector W32 32
  pc : W64
  k : Bool
  ie : Bool
  im : BitVec 3
  ipDoorbell : Bool
  epc : W64
  cause : W64
  badaddr : W64
  vbase : W64
  timecmp : W64
  wkmask : BitVec 16
  rm : BitVec 2
  fflags : BitVec 5
  sel : Vector (BitVec 6) 4
  ovf : BitVec 4
  tOnly : Bool
  retired : BitVec 48
  wpFetch : BitVec 48
  pmc : Vector (BitVec 48) 4
  mode : TileMode
  strandWhy : BitVec 2
  secondCode : BitVec 6
  shf : Vector W64 8
  ls : Tbl Byte
  lsPoison : Tbl Bool
  /-- bytes whose check meets an uncorrectable error at the next read (spec 03 R114; 04 LS_ERROR) -/
  lsBad : Tbl Bool
  /-- bytes whose check corrects a single-bit error at the next read (spec 03 R114; 04 R129) -/
  lsFix : Tbl Bool
  inbox : List Msg
  /-- the work record packets still to arrive for the GETWORK (spec 07 R205) -/
  workIn : Option Item
  workParts : Nat
  /-- record packets that arrived poisoned: bit 0 the first, bit 1 the second (spec 06 R189) -/
  workBad : BitVec 2
  item : Option Item
  lastPool : Option (Fin 16)
  sb : List SbEntry
  l1d : List L1Line
  l1i : List L1Line
  /-- the line fetched ahead (spec 04, The core; 05 R170) -/
  fetchBuf : Option L1Line
  /-- the 64 bytes of local store fetched ahead, by their line number (spec 05 R170) -/
  lsBuf : Option (Nat × Line512)
  /-- the frame of an exception whose vector has not been fetched yet (spec 04 R133) -/
  vectoring : Option (Vector W64 8)
  /-- the instruction retired last may be the older one of a pair (spec 05 R171) -/
  older : Bool
  trace : List W64
  halted : Bool
  stepping : Bool
  /-- the step's instruction has retired or ended in an exception (spec 19 R508) -/
  stepDone : Bool
  /-- the PC at which the step began (spec 19 R513) -/
  stepPc : W64
  probeSerial : Nat
  probeOut : Bool
  deriving DecidableEq, Repr

/-- Tile reset values (spec 04 R117, R124); PC is TIL_ENTRY, whose reset is 0 (DESIGN CHOICE, log 7). -/
def Tile.init : Tile where
  g := (Vector.replicate 32 (0 : W64)).set 2 0xFFFFF00000040000#64
  f := Vector.replicate 32 0
  pc := 0
  k := true
  ie := false
  im := 0
  ipDoorbell := false
  epc := 0
  cause := 0
  badaddr := 0
  vbase := 0xFFFFF00000000000#64
  timecmp := 0xFFFFFFFFFFFFFFFF#64
  wkmask := 0xFFFF
  rm := 0
  fflags := 0
  sel := Vector.replicate 4 0
  ovf := 0
  tOnly := false
  retired := 0
  wpFetch := 0
  pmc := Vector.replicate 4 0
  mode := .held
  strandWhy := 0
  secondCode := 0
  shf := Vector.replicate 8 0
  ls := .empty
  lsPoison := .empty
  lsBad := .empty
  lsFix := .empty
  inbox := []
  workIn := none
  workParts := 0
  workBad := 0
  item := none
  lastPool := none
  sb := []
  l1d := []
  l1i := []
  fetchBuf := none
  lsBuf := none
  vectoring := none
  older := false
  trace := []
  halted := false
  stepping := false
  stepDone := false
  stepPc := 0
  probeSerial := 0
  probeOut := false

/-! ### The installed plan -/

/-- A window table entry (spec 01 R24). -/
structure Win where
  base : Nat
  size : Nat
  target : Nat
  flags : BitVec 32
  deriving DecidableEq, Repr

structure PlanNode where
  index : Nat
  key : BitVec 32
  arity : Nat
  rule : Nat
  cls : Byte
  nflags : Byte
  patch : BitVec 32
  entry : W64
  outs : List OutEntry
  template : BitVec 512
  deriving DecidableEq, Repr

structure EvtBind where
  pin : Nat
  edge : Nat
  action : Nat
  port : Byte
  nodeKey : BitVec 32
  tag : BitVec 32
  vector : Nat
  filter : Nat
  deriving DecidableEq, Repr

/-- Ward ownership record (spec 02 R60). -/
structure Own where
  tiles : BitVec 256
  engines : BitVec 128
  ways : List (BitVec 16)
  scratch : List (BitVec 16)
  ldgMin : Nat
  ldgCeil : Nat
  vectors : Nat
  nodeBase : Nat
  nodeCount : Nat
  matchQuota : Nat
  deriving DecidableEq, Repr

/-- A ward that owns nothing. -/
def Own.nothing : Own := ⟨0, 0, [], [], 0, 0, 0, 0, 0, 0⟩

/-- A ward's installed section (spec 02 R69). -/
structure WardSec where
  loaded : Bool
  planId : W64
  windows : List Win
  pools : List (Nat × BitVec 256)
  nodes : List PlanNode
  binds : List EvtBind
  inits : List Token
  deriving DecidableEq, Repr

def WardSec.absent : WardSec := ⟨false, 0, [], [], [], [], []⟩

structure Route where
  sward : Nat
  dtile : Nat
  gate : Nat
  valid : Bool
  /-- the destination's physical position, 17 × row + column (spec 02 R65) -/
  place : Nat
  deriving DecidableEq, Repr

structure Gate where
  src : Nat
  dst : Nat
  token : Bool
  target : BitVec 32
  deriving DecidableEq, Repr

/-- A Clamp Report record (spec 02 R77). -/
structure ClampRec where
  seq : Nat
  section_ : Nat
  ward : Nat
  rule : Nat
  offset : Nat
  record : Nat
  written : W64
  effective : W64
  deriving DecidableEq, Repr

/-- What a plan image installs (spec 02 R59–R72). -/
structure Plan where
  planId : W64
  commonsBase : Nat
  commonsSize : Nat
  period : Nat
  own : Tbl Own
  /-- the effective retired column of a quarter (spec 02 R64) -/
  retired : Tbl Nat
  routes : List Route
  gates : Tbl (Option Gate)
  wards : Tbl WardSec
  deriving DecidableEq, Repr

def Plan.none : Plan := ⟨0, 0, 0, 25, .empty, .empty, [], .empty, .empty⟩

/-- The plan loader's command in progress (spec 02 R81, R83, R85). -/
inductive LoadJob where
  | idle
  /-- the staged image is read: for SWAP of a ward or for LOAD, from a DPA, the staged length, the lines read so far,
  newest first -/
  | read (swap : Option WardId) (base len : Nat) (got : List LineVal)
  | boot (img : Option (List Byte)) (slotB : Bool) (result : Nat)
  | load (img : List Byte)
  | swap (w : WardId) (sec : WardSec) (clamps : Nat) (startTick : Nat) (startTime : Nat)
  deriving DecidableEq, Repr

/-- A full image waits to be installed (spec 02 R83 steps 4 and 5). -/
def LoadJob.isLoad : LoadJob → Bool
  | .load _ => true
  | _ => false

/-! ### Lamplighter -/

/-- A token held in the matching store (spec 07 R199–R201). -/
structure HeldTok where
  node : Nat
  port : Nat
  tag : BitVec 32
  payload : BitVec 128
  poison : Bool
  last : Bool
  standing : Bool
  deriving DecidableEq, Repr

/-- A delay entry (spec 07 R214). -/
structure DelayEntry where
  due : Nat
  key : BitVec 32
  tag : BitVec 32
  port : Byte
  dflags : Byte
  list : Nat
  payload : BitVec 128
  /-- a tick edge has found it due -/
  ripe : Bool
  /-- it has been offered to the matching store and refused: its firing has begun (spec 07 R215, R216) -/
  begun : Bool
  deriving DecidableEq, Repr

/-- A dispatched item that has not ended (spec 07 R209, R210). -/
structure Running where
  item : Item
  onTile : Bool
  who : Nat
  deriving DecidableEq, Repr

structure LampWard where
  tokens : List HeldTok
  ready : List Item
  running : List Running
  seq : Nat
  delays : List DelayEntry
  /-- tokens whose source waits, in the order they were refused -/
  waiting : List (Token × TokSrc)
  /-- trace records not yet committed, oldest first; whether the oldest is on its way; records that the ring holds
  (spec 07 R223, R224) -/
  traceQ : List (List Byte)
  traceBusy : Bool
  traceFill : Nat
  obsDepthMax : Tbl Nat
  obsBuckets : Tbl Nat
  obsTile : Tbl Nat
  obsEng : Tbl Nat
  obsWindow : Nat
  deriving DecidableEq, Repr

def LampWard.init : LampWard := ⟨[], [], [], 0, [], [], [], false, 0, .empty, .empty, .empty, .empty, 0⟩

/-- An EVT pin (spec 07 R217–R219). -/
structure EvtPin where
  level : Bool
  /-- the level under the filter and when the filter began -/
  cand : Option (Bool × Nat)
  passed : Bool
  edge : Option (Nat × Nat × Bool × Bool)
  /-- the tick count at which the held edge was latched -/
  latchTick : Nat
  deriving DecidableEq, Repr

def EvtPin.init : EvtPin := ⟨false, none, false, none, 0⟩

/-! ### Engines -/

inductive SubPath where
  | lamp | feed | ring
  deriving DecidableEq, Repr

/-- A descriptor held in an engine's queue (spec 09 R244–R246). -/
structure Desc where
  serial : Nat
  hdr : BitVec 512
  descPoison : Bool
  path : SubPath
  key : BitVec 32
  item : Option Item
  /-- feed path: who sent it, and the tile whose inbox brought it -/
  from? : Option TileId
  feed? : Option TileId
  /-- ring path: its slot index -/
  slot : Nat
  /-- MXE: the offset at which reading the body met a window fault, and the body's lines, asked for at
  acceptance (spec 08 R226) -/
  bodyFault : Option Nat
  bodyLines : List (Nat × Option LineVal)
  /-- DETAIL of a descriptor that an engine reset has ended (spec 09 R269) -/
  aborted : Option W64
  deriving DecidableEq, Repr

/-- An output line that an engine or a Bulk Port writes. -/
structure OutLine where
  line : LineAddr
  mask : Mask64
  data : Line512
  poison : Bool
  /-- offset from the start of the output -/
  off : Nat
  sealed : Bool
  relaxed : Bool
  ido : Bool
  deriving DecidableEq, Repr

/-- A descriptor that has been executed and waits for its lines to commit. -/
structure EngRun where
  status : Nat
  cflags : Nat
  detail : W64
  outs : List OutLine
  /-- RFLAGS of a GEMM -/
  rflags : Nat
  /-- the ring write-back: 0 not sent, 1 on its way, 2 committed (spec 09 R251) -/
  ringBack : Nat
  deriving DecidableEq, Repr

structure Engine where
  queue : List Desc
  serial : Nat
  run : Option EngRun
  lastPath : Option SubPath
  lastRec : BitVec 128
  capture : BitVec 128
  /-- operand lines read for the descriptor that executes, by line key -/
  fetched : Tbl (Option LineVal)
  deriving DecidableEq, Repr

def Engine.init : Engine := ⟨[], 0, none, none, 0, 0, .empty⟩

/-! ### Quarter caches -/

inductive CState where
  | i | s | e | m | sm | im
  deriving DecidableEq, Repr

/-- A way of a set (spec 11 R294, R295). `errs`: stored-codeword bits flipped, per byte (R305, R318). -/
structure CWay where
  line : LineAddr
  st : CState
  valid : Mask64
  poison : Bool
  data : Line512
  /-- bytes written after an upgrade was asked for (spec 12 R328, row SM) -/
  upgMask : Mask64
  errs : List (Nat × BitVec 13)
  /-- the same of the eight bytes of the stored byte-valid mask (R307) -/
  maskErrs : List (Nat × BitVec 13)
  tagBad : Bool
  /-- the hold window of the last grant is open (spec 12 R335) -/
  hold : Bool
  ward : WardId
  sealed : Bool
  deriving DecidableEq, Repr

def CWay.free : CWay := ⟨⟨false, 0⟩, .i, 0, false, 0, 0, [], [], false, false, 0, false⟩

/-- A through-traffic tracker (spec 11 R303). -/
structure Tracker where
  ward : WardId
  next : Nat
  count : Nat
  deriving DecidableEq, Repr

/-- A line that has left the array and waits for its home (write-back, bypass, notice). -/
structure QBuf where
  xid : Nat
  /-- WB or WB_P, EVICT, or WR_INV for a line that the through-traffic detector lets pass -/
  req : Req
  v : LineVal
  /-- the way it left (spec 11, QC_ERR) -/
  way : Nat
  deriving DecidableEq, Repr

structure Quarter where
  ways : Tbl CWay
  lru : Tbl (BitVec 256)
  trackers : List Tracker
  bufs : List QBuf
  /-- lines whose tag was lost (spec 11 R308): the next snoop is answered LOST -/
  lost : List LineAddr
  /-- scratch bytes by physical place, way × 256 KiB + offset (spec 04 R120; 11 R309) -/
  scratch : Tbl Byte
  /-- poison marks of scratch words, by physical place / 8 -/
  scratchPoison : Tbl Bool
  /-- stored-codeword bits flipped in scratch bytes, and scratch entries with bad parity, by line -/
  scratchErrs : Tbl (BitVec 13)
  scratchTagBad : Tbl Bool
  fenced : Bool
  deriving DecidableEq, Repr

/-- An empty quarter cache; the age matrix and scratch start at 0 (DESIGN CHOICE, log 7, log 10). -/
def Quarter.init : Quarter :=
  { ways := .empty, lru := .empty, trackers := [], bufs := [], lost := [], scratch := .empty, scratchPoison := .empty,
    scratchErrs := .empty, scratchTagBad := .empty, fenced := false }

/-! ### Homes, filter and memory -/

/-- A holder in PRES: quarter 0–15 or the host, 16 (spec 12 R322). -/
structure DirEntry where
  pres : BitVec 17
  excl : Bool
  poison : Bool
  lastUse : Nat
  deriving DecidableEq, Repr

/-- The CXL.cache requests of the filter (spec 12 R348). -/
inductive D2HOp where
  | rdShared | rdOwn | rdOwnNoData | rdCurr | dirtyEvict | cleanEvict
  deriving DecidableEq, Repr

inductive TxnPhase where
  /-- waits for the answers of these holders -/
  | snoop (left : List (Fin 17))
  /-- waits for the write data after WGO -/
  | writeData
  | dram
  | initPart
  /-- waits for the host's answer to a request of the filter -/
  | host (op : D2HOp)
  deriving DecidableEq, Repr

/-- What a read of memory gave: zeros of a part that was never written (spec 14 R390), or the stored bytes. -/
inductive RdVal where
  | zeros
  | stored (v : LineVal)
  deriving DecidableEq, Repr

/-- Data that a snooped holder returned: its valid bytes and the ward under whose seal the line stands. -/
structure Returned where
  mask : Mask64
  v : LineVal
  sealWard : Option WardId
  deriving DecidableEq, Repr

/-- A transaction at a home or at the filter (spec 12 R330). -/
structure Txn where
  xid : Nat
  req : Req
  line : LineAddr
  phase : TxnPhase
  /-- the X holder at admission -/
  holder : Option (Fin 17)
  got : Option Returned
  rd : Option RdVal
  wdata : Option LineVal
  /-- the snooped holder keeps a clean copy -/
  kept : Bool
  poisoned : Bool
  /-- the ward's key was lost: the data is poison, the line is not (spec 14 R387) -/
  keyLost : Bool
  /-- the line is lost and its poison signature is still to be written (spec 12 R326) -/
  sigDue : Bool
  /-- it ends with the line poisoned and its requester answered with poison (spec 12 R343–R346) -/
  doomed : Bool
  far : Bool
  /-- a directory eviction on behalf of this request (spec 12 R341) -/
  evictFor : Option (Nat × Req)
  /-- a snoop of the host that the filter carries out (spec 12 R350) -/
  hostSnoop : Option SnpKind
  /-- the old value of an atomic that the filter has applied, while the line returns to the host (spec 12 R349) -/
  applied : Option W64
  deriving DecidableEq, Repr

/-- A write that has its WGO but is not yet admitted (spec 12 R339). -/
structure WBuf where
  xid : Nat
  req : Req
  data : Option LineVal
  deriving DecidableEq, Repr

/-- A home (spec 12, 14); index 16 is the host-line filter. -/
structure Home where
  dir : Tbl (Option DirEntry)
  txns : List Txn
  /-- reservations, promoted and host requests in the order in which each was first refused (R334) -/
  refused : List (Nat × Req)
  wbufs : List WBuf
  pred : Tbl (BitVec 2)
  bitmap : Tbl Bool
  initing : List Nat
  useCtr : Nat
  scrubAt : Option Nat
  scrubDone : Bool
  deriving DecidableEq, Repr

def Home.init : Home := ⟨.empty, [], [], [], .empty, .empty, [], 0, none, false⟩

/-- What a scrubber pass or wipe has gathered (spec 14 R396). -/
structure ScrubJob where
  wipe : Bool
  start : Nat
  stop : Nat
  tStart : Nat
  lines : Nat
  corrected : Nat
  uncorr : Nat
  poisoned : Nat
  skipped : Nat
  lowest : Option Nat
  aborted : Bool
  /-- RESULT, once the summary record is being written -/
  result : Option Nat
  deriving DecidableEq, Repr

/-! ### Ledger -/

/-- What a Ledger entry is charged to (spec 13 R357). -/
inductive Charge where
  | ward (w : WardId)
  | reserve
  deriving DecidableEq, Repr

structure LEntry where
  req : Req
  charge : Charge
  /-- the port whose Bulk line it is -/
  bulk : Option Func
  lantern : Bool
  hostMem : Bool
  /-- the write data the source sends after WGO -/
  wdata : Option LineVal
  /-- data that has arrived and waits for its grant -/
  rdata : Option LineVal
  /-- a grant that has arrived and waits for a way, with its poison (spec 11 R297) -/
  grant : Option (RspKind × Bool)
  /-- what waits is still where it came from: a store-buffer entry, or a line in its way (spec 13 R363) -/
  atSource : Bool
  /-- transactions that still travel under this entry (spec 13 R357, victims) -/
  pend : Nat
  aborted : Bool
  /-- its tile was reset: no instruction waits for the answer (spec 13 R368) -/
  forgotten : Bool
  /-- its stored bytes are uncorrectable: it closes with status POISON (spec 13 R366) -/
  bad : Bool
  /-- attributes of a CXL.io request to a host window (spec 01 R24) -/
  relaxed : Bool
  ido : Bool
  tag : Nat
  /-- the tag of the CXL.mem request of the host -/
  hostTag : Nat
  /-- what an engine's transaction is for: 0 an operand or output line, 1 a ring slot, 2 a ring write-back,
  3 + k the body of the descriptor of serial k -/
  role : Nat
  deriving DecidableEq, Repr

structure Ledger where
  entries : Tbl (Option LEntry)
  waiting : List LEntry
  lastWard : Option WardId
  deriving DecidableEq, Repr

/-! ### Host link, management, Lantern -/

structure MsixEntry where
  addr : Nat
  data : BitVec 32
  masked : Bool
  pending : Bool
  deriving DecidableEq, Repr

def MsixEntry.init : MsixEntry := ⟨0, 0, true, false⟩

structure HdmDec where
  base : Nat
  size : Nat
  iw : Nat
  ig : Nat
  bi : Bool
  lock : Bool
  committed : Bool
  errNot : Bool
  skip : Nat
  deriving DecidableEq, Repr

def HdmDec.init : HdmDec := ⟨0, 0, 0, 0, false, false, false, false, 0⟩

/-- A CXL.mem request the device holds (spec 17 R470, 15 R409). -/
structure HostReq where
  isRead : Bool
  addr : Nat
  mv : MetaValue
  mask : Mask64
  v : LineVal
  tag : Nat
  noData : Bool
  deriving DecidableEq, Repr

/-- A piece of a Bulk Port read that lies in one line: where it goes, none when the access faults (spec 15
R426, R427; 01 R29, R30). -/
structure BulkPiece where
  line : Option (LineAddr × Bool)
  off : Nat
  n : Nat
  deriving DecidableEq, Repr

/-- A Bulk Port (spec 15 R423–R426): the pointer's walk, reads not yet answered, and lines read ahead, by line key;
`gen` tells a line asked for before the buffer was last discarded. -/
structure Bulk where
  rowStart : Nat
  rowLen : Nat
  rowStride : Nat
  ptr : Nat
  reads : List (Nat × List BulkPiece)
  ahead : Tbl (Option LineVal)
  gen : Nat
  deriving DecidableEq, Repr

def Bulk.init : Bulk := ⟨0, 4, 4, 0, [], .empty, 0⟩

/-- An inbound TLP that waits in the shared receive queue (spec 15 R414; 10 R292). -/
inductive Posted where
  | bulkWrite (f : Func) (tlp : List BulkByte) (ep : Bool)
  | bulkRead (f : Func) (n tag : Nat)
  | blkAddr (f : Func) (val : Nat)
  | blkShape (f : Func) (count : Bool) (val : Nat)
  | flr (w : WardId)
  | regWrite (p : Port) (off len val : Nat)
  | regRead (p : Port) (off len : Nat)
  deriving DecidableEq, Repr

structure Link where
  up : Bool
  rate : Nat
  width : Nat
  cxl : Bool
  /-- configuration bytes that software has written, by function × 4096 + offset -/
  cfg : Tbl Byte
  msix : Tbl MsixEntry
  hdm : Tbl HdmDec
  hdmEnable : Bool
  held : List HostReq
  refuseAll : Bool
  disableCaching : Bool
  /-- host lines leave every quarter (spec 15 R412, R422) -/
  flushing : Bool
  cacheInvalid : Bool
  /-- CXL RAS status, mask and severity words that differ from their first values (spec 16 R451) -/
  ras : Tbl Nat
  cxlResetBusy : Bool
  cxlResetMemClr : Bool
  cxlResetWards : List Nat
  cxlResetComplete : Bool
  d3hot : Bool
  l1 : Bool
  l0p : Nat
  viral : Bool
  insecure : List Nat
  ideMemBad : Bool
  intaSent : Bool
  bulk : Tbl Bulk
  /-- inbound TLPs that wait in the shared receive queue (spec 15 R414; 10 R292) -/
  rxq : List Posted
  /-- wards whose function-level reset is in progress (spec 15 R421) -/
  flr : List Nat
  deriving DecidableEq, Repr

/-- A Beacon event (spec 16 R434, R438). -/
structure Event where
  group : Nat
  cls : Nat
  kind : Nat
  unit : Nat
  wards : BitVec 8
  detail : W64
  deriving DecidableEq, Repr

/-- A log queue entry (spec 16 R448). -/
structure LogEntry where
  ev : Event
  marker : Bool
  suppressed : Nat
  time : Nat
  deriving DecidableEq, Repr

structure Mgmt where
  eid : Byte
  partialMsg : List Byte
  queue : List (List Byte)
  alertMask : W64
  /-- the answer of the request that executes, until it is sent -/
  response : Option (List Byte)
  /-- answers that no execution waits for: BUSY to a third request, and MCTP control -/
  others : List (List Byte)
  retries : Nat
  pendingReset : Option (Nat × Nat)
  nonce : Option W32
  armedUntil : Nat
  /-- a SAVE or RELOAD whose response waits for its flash work, with its command code (spec 18 R489) -/
  calWait : Option (MgmtHdr × Nat)
  deriving DecidableEq, Repr

/-- A Lantern halt: scope 0 tile, 1 quarter, 2 ward, 3 device (spec 19 R505), with the freeze bits in force. -/
structure LHalt where
  scope : Nat
  target : Nat
  deriving DecidableEq, Repr

structure Lantern where
  lock : Nat
  fails : Nat
  halts : List LHalt
  freezeNow : BitVec 6
  accData : W64
  accFault : Bool
  accPoison : Bool
  /-- the access window: 0 idle, 1 asked for, 2 in progress at a home, 3 ended but not yet reported -/
  accPhase : Nat
  partialBits : Nat
  eventNew : Bool
  deriving DecidableEq, Repr

/-! ### Power -/

structure Power where
  vauxGood : Bool
  fuseGood : Bool
  coreGood : Bool
  coreUp : Bool
  cfgReady : Bool
  trained : Bool
  bootDone : Bool
  capGib : Nat
  perst : Bool
  /-- the moment P, when known -/
  pAt : Option Nat
  /-- VCORE stands in the band from 0.57 V to below 0.60 V (spec 17 R455) -/
  inBand : Bool
  /-- since when VCORE has been below DROOP_WARN -/
  belowSince : Option Nat
  /-- the quiesce of PLW_N has begun (spec 17 R460) -/
  plwRunning : Bool
  /-- the drains of the dim state have begun (spec 17 R456 step 3) -/
  dimDrain : Bool
  /-- held CXL.mem requests are answered until the dim state ends (spec 17 R459) -/
  dimOut : Bool
  d3cold : Bool
  /-- pins bound at D3cold entry, with EDGE and FILTER, and PME_En then (spec 17 R474; 15 R418) -/
  coldBinds : List (Nat × Nat × Nat)
  coldPme : Bool
  /-- dispatch is held until this moment (spec 17 R462) -/
  throttleUntil : Nat
  /-- the calibration store's holder, 0 S or 1 M, and what for: 0 a USER write, 1 SAVE, 2 RELOAD (spec 17 R467) -/
  calJob : Option (Nat × Nat)
  /-- since when it is held -/
  calSince : Nat
  deriving DecidableEq, Repr

/-- What the device sends outside (observable, in sending order). -/
inductive Out where
  | readData (p : Port) (off : Nat) (v : Nat)
  | msix (fn : Func) (addr : Nat) (data : BitVec 32)
  | intx (assert_ : Bool)
  | memData (tag : Nat) (v : LineVal) (cmp : Option MetaValue)
  | cmp (tag : Nat) (mv : Option MetaValue)
  | biAck (tag : Nat)
  | biSnp (line : LineAddr) (k : SnpKind)
  | d2h (line : LineAddr) (op : D2HOp) (v : Option LineVal)
  | hostRsp (line : LineAddr) (op : String) (v : Option LineVal)
  | ioRead (tag addr n : Nat) (relaxed ido : Bool)
  | ioWrite (addr : Nat) (mask : Mask64) (v : LineVal) (relaxed ido : Bool)
  | cfgData (tag : Nat) (v : Nat)
  | cfgRetry (tag : Nat)
  | unsupported (tag : Nat)
  | bulkData (fn : Func) (tag : Nat) (bytes : List Byte) (ep : Bool)
  /-- an error message of AER: fatal or not (of an uncorrectable error), and what it reports -/
  | aer (fn : Func) (fatal : Bool) (what : String)
  | ras (what : String)
  | viralSignal
  | pme
  | linkEvent (what : String)
  | doe (what : String) (n : Nat)
  | smbus (bytes : List Byte)
  | lantern (ack : Nat) (data : Option W64)
  | nackBus
  deriving DecidableEq, Repr

/-- The HZ8640. -/
structure State where
  pending : List Instr
  supTime : Nat
  tickCount : Nat
  tickPeriod : Nat
  /-- the model's own counter: which free value comes next (DESIGN CHOICE, log 3) -/
  freeCtr : Nat
  out : List Out
  fld : Tbl Nat
  fuses : Fuses
  power : Power
  ready : Bool
  thermtrip : Bool
  wake : Bool
  smbAlert : Bool
  flash : Tbl Byte
  tiles : Tbl Tile
  plan : Plan
  job : LoadJob
  clampRpt : List ClampRec
  swapRpt : Tbl Byte
  keys : Tbl (Option (BitVec 512))
  keyInstall : Option (WardId × BitVec 512)
  wardStep : Tbl Nat
  lamp : Tbl LampWard
  /-- the wards that the matching store and dispatch served last (spec 07 R212) -/
  storeServed : Option WardId
  dispatchServed : Option WardId
  /-- tiles in the order in which their GETWORK began to wait (spec 07 R206) -/
  gwQueue : List TileId
  arrivals : List (WardId × Token × TokSrc)
  pins : Tbl EvtPin
  net : List Packet
  gateBufs : Tbl (List Packet)
  engines : Tbl Engine
  quarters : Tbl Quarter
  homes : Tbl Home
  dram : Tbl Byte
  sigs : Tbl Bool
  symErrs : Tbl (List (Nat × W64))
  ages : Tbl Nat
  scrub : Option ScrubJob
  ledger : Ledger
  link : Link
  logQueue : List LogEntry
  logNextSeq : Nat
  logNextSlot : Nat
  mgmt : Mgmt
  lantern : Lantern
  deriving DecidableEq, Repr

/-- The fuses before VAUX good has read them (DESIGN CHOICE, log 5). -/
def Fuses.blank : Fuses := ⟨false, 0, 200, [], 260⟩

def Power.off : Power where
  vauxGood := false
  fuseGood := false
  coreGood := false
  coreUp := false
  cfgReady := false
  trained := false
  bootDone := false
  capGib := 0
  perst := true
  pAt := none
  inBand := false
  belowSince := none
  plwRunning := false
  dimDrain := false
  dimOut := false
  d3cold := false
  coldBinds := []
  coldPme := false
  throttleUntil := 0
  calJob := none
  calSince := 0

def Link.down : Link where
  up := false
  rate := 0
  width := 0
  cxl := false
  cfg := .empty
  msix := .empty
  hdm := .empty
  hdmEnable := false
  held := []
  refuseAll := false
  disableCaching := false
  flushing := false
  cacheInvalid := false
  ras := .empty
  cxlResetBusy := false
  cxlResetMemClr := false
  cxlResetWards := []
  cxlResetComplete := false
  d3hot := false
  l1 := false
  l0p := 0
  viral := false
  insecure := []
  ideMemBad := false
  intaSent := false
  bulk := .empty
  rxq := []
  flr := []

def Mgmt.idle : Mgmt where
  eid := 0
  partialMsg := []
  queue := []
  alertMask := 0
  response := none
  others := []
  retries := 0
  pendingReset := none
  nonce := none
  armedUntil := 0
  calWait := none

def Lantern.locked : Lantern where
  lock := 0
  fails := 0
  halts := []
  freezeNow := 0
  accData := 0
  accFault := false
  accPoison := false
  accPhase := 0
  partialBits := 0
  eventNew := false

/-- The device right after cold reset (spec 00, Resets; R3, R4): VAUX is absent, every register field is at
its reset value (an unlisted field of `fld` reads as its reset value), no plan is installed, memory lists
nothing, nothing is in flight. The values that the spec does not state are those of log 3 to 12 (DESIGN CHOICE, log 4). -/
def State.reset : State where
  pending := []
  supTime := 0
  tickCount := 0
  tickPeriod := 25
  freeCtr := 0
  out := []
  fld := .empty
  fuses := Fuses.blank
  power := Power.off
  ready := false
  thermtrip := false
  wake := false
  smbAlert := false
  flash := .empty
  tiles := .empty
  plan := Plan.none
  job := .idle
  clampRpt := []
  swapRpt := .empty
  keys := .empty
  keyInstall := none
  wardStep := .empty
  lamp := .empty
  storeServed := none
  dispatchServed := none
  gwQueue := []
  arrivals := []
  pins := .empty
  net := []
  gateBufs := .empty
  engines := .empty
  quarters := .empty
  homes := .empty
  dram := .empty
  sigs := .empty
  symErrs := .empty
  ages := .empty
  scrub := none
  ledger := ⟨.empty, [], none⟩
  link := Link.down
  logQueue := []
  logNextSeq := 0
  logNextSlot := 0
  mgmt := Mgmt.idle
  lantern := Lantern.locked

end Sys2Proof.Machine
end

