-- ==== Sys2Proof/Machine/Fields.lean ====
section
/-! DEFINITION. The register fields of PF0 BAR0 and of the Lantern register space: where each stands, its
access code, its reset value, its clamp (spec 00 R11, R15; the register tables of 01–19), and which reset clears
it. Lantern register n stands at 0x800_0000 + 8 n, outside BAR0. -/

namespace Sys2Proof.Machine

/-- One field: the offset of its register, its lowest bit and its width. -/
structure Fld where
  off : Nat
  lo : Nat
  w : Nat
  deriving DecidableEq, Repr

/-- The key of a field in `State.fld`. -/
def Fld.key (f : Fld) : Nat := f.off * 128 + f.lo

/-- How a CL field treats a value out of its range (spec 00 R11 and the field's own table). -/
inductive Clamp where
  | near (lo hi : Nat)
  | max (m : Nat)
  | zero (hi : Nat)
  /-- low bits cleared -/
  | align (bits : Nat)
  /-- a rule of its own, applied by `specialClamp` -/
  | special
  deriving DecidableEq, Repr

/-- Access codes of spec 00 R11; `w1s` reads 0, `w1sKeep` reads what it holds; `live` is computed;
`special` has a rule of its own; `hid` is no register bit (a value in force that the spec names). -/
inductive Acc where
  | ro | rw | rc | w1c | w1s | w1sKeep | wo | woKeep
  | cl (c : Clamp)
  | const (v : Nat)
  | live
  | special
  | hid
  deriving DecidableEq, Repr

structure FieldDesc where
  lo : Nat
  w : Nat
  acc : Acc
  reset : Nat
  sk : Bool
  deriving DecidableEq, Repr

/-- Which resets clear a register: `warm` by warm reset; `ward` by ward reset too; `tile` by tile reset;
`beacon` as spec 16 R437 and R445 say for the groups that are kept; `dimm` by cold and core cold reset;
`cold` by loss of VAUX only (spec 17 R472). -/
inductive RCls where
  | warm | ward | tile | beacon | dimm | cold
  deriving DecidableEq, Repr

/-- A register, or `count` of them `stride` apart. -/
structure RegDesc where
  off : Nat
  bytes : Nat
  count : Nat
  stride : Nat
  cls : RCls
  fields : List FieldDesc
  deriving DecidableEq, Repr

inductive Blk where
  | gbl
  | pln
  | wrd
  | flt
  | fltw
  | sup
  | lmp
  | lmpw
  | ldg
  | ldgw
  | qc
  | til
  | hom
  | eng
  | lnk
  | blk
  | lnt
  deriving DecidableEq, Repr

/-- The GBL_ registers. -/
def gblRegs : List RegDesc :=
  [⟨0x0, 8, 1, 1, .cold, [⟨0, 16, (.const 51621), 51621, false⟩,
    ⟨16, 16, (.const 34368), 34368, false⟩,
    ⟨32, 8, (.const 2), 2, false⟩,
    ⟨40, 1, .live, 0, false⟩]⟩] ++
  [⟨0x8, 8, 1, 1, .cold, [⟨0, 64, .live, 0, false⟩]⟩] ++
  [⟨0x10, 8, 1, 1, .cold, [⟨0, 9, (.const 256), 256, false⟩,
    ⟨16, 8, (.const 8), 8, false⟩,
    ⟨24, 8, (.const 86), 86, false⟩,
    ⟨32, 12, .live, 0, false⟩]⟩] ++
  [⟨0x20, 4, 1, 1, .cold, [⟨0, 4, .ro, 1, false⟩,
    ⟨8, 16, .ro, 0, false⟩]⟩] ++
  [⟨0x30, 8, 1, 1, .warm, [⟨0, 16, .rc, 0, false⟩,
    ⟨20, 41, .ro, 0, false⟩,
    ⟨61, 2, .ro, 0, false⟩]⟩] ++
  [⟨0x800, 8, 16, 16, .warm, [⟨0, 16, .rc, 0, false⟩,
    ⟨16, 16, .rc, 0, false⟩,
    ⟨32, 16, .rc, 0, false⟩]⟩]

/-- The PLN_ registers. -/
def plnRegs : List RegDesc :=
  [⟨0x0, 4, 1, 1, .warm, [⟨0, 4, .wo, 0, false⟩,
    ⟨4, 3, .wo, 0, false⟩]⟩] ++
  [⟨0x8, 8, 1, 1, .warm, [⟨0, 41, (.cl .special), 0, false⟩]⟩] ++
  [⟨0x10, 4, 1, 1, .warm, [⟨0, 32, (.cl (.near 120 8388608)), 0, false⟩]⟩] ++
  [⟨0x14, 4, 1, 1, .warm, [⟨0, 17, (.cl (.near 1 100000)), 1000, false⟩]⟩] ++
  [⟨0x18, 4, 1, 1, .warm, [⟨0, 1, .ro, 0, false⟩,
    ⟨1, 1, .ro, 0, false⟩,
    ⟨2, 1, .ro, 0, false⟩,
    ⟨3, 1, .w1c, 0, false⟩,
    ⟨4, 4, .ro, 0, false⟩,
    ⟨8, 1, .ro, 0, false⟩,
    ⟨9, 1, .ro, 0, false⟩,
    ⟨10, 1, .ro, 0, false⟩,
    ⟨11, 1, .w1c, 0, false⟩,
    ⟨16, 16, .ro, 0, false⟩]⟩] ++
  [⟨0x20, 8, 1, 1, .warm, [⟨0, 64, .ro, 0, false⟩]⟩] ++
  [⟨0x40, 8, 8, 8, .warm, [⟨0, 64, .ro, 0, false⟩]⟩] ++
  [⟨0x4000, 8, 2048, 8, .warm, [⟨0, 64, .live, 0, false⟩]⟩] ++
  [⟨0x8000, 8, 4096, 8, .warm, [⟨0, 64, .live, 0, false⟩]⟩]

/-- The WRD_ registers. -/
def wrdRegs : List RegDesc :=
  [⟨0x0, 4, 1, 1, .ward, [⟨0, 1, .w1s, 0, false⟩,
    ⟨1, 2, (.cl (.zero 2)), 0, false⟩]⟩] ++
  [⟨0x8, 4, 1, 1, .warm, [⟨0, 1, .ro, 0, false⟩,
    ⟨1, 1, .live, 0, false⟩,
    ⟨2, 1, .ro, 0, false⟩,
    ⟨3, 1, .ro, 0, false⟩,
    ⟨4, 1, .live, 0, false⟩,
    ⟨5, 1, .w1c, 0, false⟩,
    ⟨8, 9, .live, 0, false⟩,
    ⟨17, 7, .live, 0, false⟩]⟩] ++
  [⟨0x10, 4, 1, 1, .ward, [⟨0, 1, .special, 0, false⟩,
    ⟨1, 1, .special, 0, false⟩,
    ⟨2, 1, .special, 0, false⟩]⟩] ++
  [⟨0x18, 8, 1, 1, .ward, [⟨0, 16, .rc, 0, false⟩,
    ⟨20, 20, .ro, 0, false⟩]⟩] ++
  [⟨0x20, 8, 1, 1, .ward, [⟨0, 12, .rc, 0, false⟩,
    ⟨12, 4, .ro, 0, false⟩,
    ⟨16, 47, .ro, 0, false⟩]⟩] ++
  [⟨0x100, 8, 16, 32, .warm, [⟨0, 64, .live, 0, false⟩]⟩] ++
  [⟨0x108, 8, 16, 32, .warm, [⟨0, 64, .live, 0, false⟩]⟩] ++
  [⟨0x110, 8, 16, 32, .warm, [⟨0, 64, .live, 0, false⟩]⟩] ++
  [⟨0x118, 4, 16, 32, .warm, [⟨0, 32, .live, 0, false⟩]⟩] ++
  [⟨0x11c, 4, 16, 32, .warm, []⟩]

/-- The FLT_ registers. -/
def fltRegs : List RegDesc :=
  [⟨0x0, 8, 1, 1, .beacon, [⟨0, 49, .special, 0, false⟩]⟩] ++
  [⟨0x8, 8, 1, 1, .warm, [⟨0, 1, .w1c, 0, true⟩,
    ⟨1, 1, .ro, 0, false⟩,
    ⟨2, 1, .w1c, 0, false⟩,
    ⟨3, 1, .w1c, 0, false⟩,
    ⟨4, 1, .w1c, 0, false⟩,
    ⟨5, 1, .w1c, 0, true⟩,
    ⟨6, 5, .live, 0, false⟩]⟩] ++
  [⟨0x10, 4, 1, 1, .warm, [⟨0, 1, .w1sKeep, 0, false⟩]⟩] ++
  [⟨0x18, 8, 1, 1, .warm, [⟨0, 9, (.cl (.max 511)), 0, false⟩,
    ⟨16, 9, (.cl (.max 511)), 1, false⟩,
    ⟨32, 9, (.cl (.max 511)), 2, false⟩]⟩] ++
  [⟨0x20, 8, 1, 1, .warm, [⟨0, 7, (.cl (.max 127)), 0, false⟩,
    ⟨8, 7, (.cl (.max 127)), 0, false⟩,
    ⟨16, 7, (.cl (.max 127)), 0, false⟩,
    ⟨24, 7, (.cl (.max 127)), 0, false⟩,
    ⟨32, 7, (.cl (.max 127)), 0, false⟩,
    ⟨40, 7, (.cl (.max 127)), 0, false⟩,
    ⟨48, 7, (.cl (.max 127)), 0, false⟩,
    ⟨56, 7, (.cl (.max 127)), 0, false⟩]⟩] ++
  [⟨0x30, 8, 1, 1, .warm, [⟨0, 6, (.cl (.max 48)), 0, false⟩,
    ⟨6, 2, (.cl (.near 1 3)), 1, false⟩,
    ⟨8, 8, .rw, 0, false⟩,
    ⟨16, 1, .w1s, 0, false⟩,
    ⟨32, 32, .rw, 0, false⟩]⟩] ++
  [⟨0x100, 8, 49, 32, .beacon, [⟨0, 2, .ro, 0, false⟩,
    ⟨2, 2, .ro, 0, false⟩,
    ⟨4, 4, .ro, 0, false⟩,
    ⟨8, 8, .ro, 0, false⟩,
    ⟨16, 8, .ro, 0, false⟩,
    ⟨24, 1, .ro, 0, false⟩]⟩] ++
  [⟨0x108, 8, 49, 32, .beacon, [⟨0, 64, .ro, 0, false⟩]⟩] ++
  [⟨0x110, 8, 49, 32, .beacon, [⟨0, 64, .ro, 0, false⟩]⟩] ++
  [⟨0x118, 8, 49, 32, .beacon, [⟨0, 32, .rc, 0, false⟩,
    ⟨32, 16, .rc, 0, false⟩,
    ⟨48, 16, .rc, 0, false⟩]⟩] ++
  [⟨0x1000, 4, 49, 8, .warm, [⟨0, 7, .rw, 0, false⟩,
    ⟨8, 7, .rw, 67, false⟩,
    ⟨16, 7, .rw, 111, false⟩]⟩] ++
  [⟨0x2000, 4, 1, 1, .warm, [⟨0, 1, .w1s, 0, false⟩,
    ⟨1, 1, .w1s, 0, false⟩,
    ⟨2, 1, .ro, 0, false⟩,
    ⟨3, 1, .ro, 0, false⟩,
    ⟨16, 11, .rw, 0, false⟩]⟩] ++
  [⟨0x2008, 8, 1, 1, .cold, [⟨0, 32, .live, 0, false⟩,
    ⟨32, 11, .live, 0, false⟩]⟩] ++
  [⟨0x2020, 8, 4, 8, .warm, [⟨0, 64, .ro, 0, false⟩]⟩]

/-- The FLTW_ registers. -/
def fltwRegs : List RegDesc :=
  [⟨0x0, 8, 1, 1, .ward, [⟨0, 49, .special, 0, false⟩]⟩] ++
  [⟨0x100, 8, 49, 32, .ward, [⟨0, 2, .ro, 0, false⟩,
    ⟨2, 2, .ro, 0, false⟩,
    ⟨4, 4, .ro, 0, false⟩,
    ⟨8, 8, .ro, 0, false⟩,
    ⟨16, 8, .ro, 0, false⟩,
    ⟨24, 1, .ro, 0, false⟩]⟩] ++
  [⟨0x108, 8, 49, 32, .ward, [⟨0, 64, .ro, 0, false⟩]⟩] ++
  [⟨0x110, 8, 49, 32, .ward, [⟨0, 64, .ro, 0, false⟩]⟩] ++
  [⟨0x118, 8, 49, 32, .ward, [⟨0, 32, .rc, 0, false⟩,
    ⟨32, 16, .rc, 0, false⟩,
    ⟨48, 16, .rc, 0, false⟩]⟩]

/-- The SUP_ registers. -/
def supRegs : List RegDesc :=
  [⟨0x0, 8, 6, 8, .warm, [⟨0, 16, .ro, 0, false⟩,
    ⟨16, 16, .rc, 65535, false⟩,
    ⟨32, 16, .rc, 0, false⟩,
    ⟨48, 1, .ro, 0, false⟩]⟩] ++
  [⟨0x100, 8, 1, 1, .cold, [⟨0, 64, .live, 0, false⟩]⟩] ++
  [⟨0x108, 8, 1, 1, .warm, [⟨0, 16, .ro, 0, false⟩,
    ⟨16, 16, .rc, 0, false⟩,
    ⟨32, 16, .rc, 0, false⟩,
    ⟨48, 16, .live, 0, false⟩]⟩] ++
  [⟨0x110, 4, 1, 1, .warm, [⟨0, 16, (.cl .special), 0, false⟩,
    ⟨16, 1, .w1c, 0, false⟩,
    ⟨17, 1, .w1c, 0, false⟩]⟩] ++
  [⟨0x120, 4, 1, 1, .warm, [⟨0, 1, .rw, 1, false⟩,
    ⟨1, 1, .rw, 1, false⟩,
    ⟨8, 10, (.cl (.near 2 1000)), 20, false⟩]⟩] ++
  [⟨0x128, 8, 1, 1, .warm, [⟨0, 16, .rc, 0, false⟩,
    ⟨16, 4, .ro, 0, false⟩,
    ⟨32, 16, .ro, 0, false⟩,
    ⟨48, 1, .w1c, 0, false⟩,
    ⟨49, 1, .w1c, 0, false⟩]⟩] ++
  [⟨0x200, 8, 1, 1, .warm, [⟨0, 16, .rc, 0, false⟩,
    ⟨16, 16, .rc, 0, false⟩,
    ⟨32, 16, .rc, 65535, false⟩,
    ⟨48, 16, .rc, 0, false⟩]⟩] ++
  [⟨0x300, 8, 1, 1, .warm, [⟨0, 2, .ro, 0, false⟩,
    ⟨2, 4, .ro, 0, false⟩,
    ⟨6, 1, .w1c, 0, false⟩,
    ⟨7, 1, .w1c, 0, false⟩,
    ⟨8, 10, (.cl (.near 1 1000)), 100, false⟩,
    ⟨32, 16, .rc, 0, false⟩]⟩] ++
  [⟨0x310, 4, 1, 1, .warm, [⟨0, 1, .ro, 0, false⟩,
    ⟨1, 1, .ro, 0, false⟩]⟩] ++
  [⟨0x400, 8, 1, 1, .warm, [⟨0, 16, .ro, 0, false⟩,
    ⟨16, 5, .ro, 0, false⟩,
    ⟨21, 1, .ro, 0, false⟩,
    ⟨22, 1, .ro, 0, false⟩,
    ⟨23, 1, .ro, 0, false⟩,
    ⟨24, 1, .ro, 0, false⟩,
    ⟨25, 3, (.cl (.max 7)), 0, false⟩,
    ⟨28, 1, .w1c, 0, false⟩]⟩] ++
  [⟨0x480, 8, 18, 8, .warm, [⟨0, 16, .ro, 0, false⟩]⟩] ++
  [⟨0x580, 8, 5, 8, .warm, [⟨0, 64, .ro, 0, false⟩]⟩] ++
  [⟨0x800, 8, 7, 8, .cold, [⟨0, 8, (.cl .special), 0, false⟩,
    ⟨16, 16, .live, 0, false⟩,
    ⟨32, 16, .live, 0, false⟩,
    ⟨48, 1, .live, 0, false⟩,
    ⟨49, 1, .w1c, 0, false⟩,
    ⟨64, 8, .hid, 0, false⟩]⟩] ++
  [⟨0x880, 4, 1, 1, .warm, [⟨0, 1, .w1s, 0, false⟩,
    ⟨1, 1, .w1s, 0, false⟩,
    ⟨2, 1, .w1s, 0, false⟩]⟩] ++
  [⟨0x888, 8, 1, 1, .cold, [⟨0, 1, .ro, 0, false⟩,
    ⟨1, 1, .ro, 0, false⟩,
    ⟨2, 1, .w1c, 0, false⟩,
    ⟨3, 1, .ro, 0, false⟩,
    ⟨4, 1, .w1c, 0, false⟩,
    ⟨32, 32, .ro, 0, false⟩]⟩]

/-- The LMP_ registers. -/
def lmpRegs : List RegDesc :=
  [⟨0x0, 4, 1, 1, .warm, [⟨0, 15, (.cl (.near 3 25000)), 25, false⟩,
    ⟨31, 1, .w1c, 0, false⟩]⟩] ++
  [⟨0x8, 8, 1, 1, .cold, [⟨0, 64, .live, 0, false⟩]⟩] ++
  [⟨0x100, 8, 8, 8, .warm, [⟨0, 32, .rc, 0, false⟩,
    ⟨32, 16, .rc, 0, false⟩,
    ⟨48, 3, .live, 0, false⟩,
    ⟨51, 1, .live, 0, false⟩]⟩]

/-- The LMPW_ registers. -/
def lmpwRegs : List RegDesc :=
  [⟨0x0, 4, 1, 1, .ward, [⟨0, 1, .rw, 0, false⟩,
    ⟨1, 1, .rw, 0, false⟩,
    ⟨2, 1, .w1s, 0, false⟩,
    ⟨8, 8, .w1s, 0, false⟩]⟩] ++
  [⟨0x8, 8, 1, 1, .ward, [⟨0, 19, .live, 0, false⟩,
    ⟨20, 15, .live, 0, false⟩,
    ⟨35, 1, .live, 0, false⟩,
    ⟨36, 1, .w1c, 0, false⟩,
    ⟨37, 1, .w1c, 0, false⟩]⟩] ++
  [⟨0x10, 8, 1, 1, .ward, [⟨0, 16, .rc, 0, false⟩,
    ⟨16, 16, .rc, 0, false⟩,
    ⟨32, 16, .rc, 0, false⟩,
    ⟨48, 16, .rc, 0, false⟩]⟩] ++
  [⟨0x18, 8, 1, 1, .ward, [⟨0, 32, .rc, 0, false⟩,
    ⟨32, 32, .ro, 0, false⟩]⟩] ++
  [⟨0x20, 8, 1, 1, .ward, [⟨0, 32, .rc, 0, false⟩,
    ⟨32, 32, .rc, 0, false⟩]⟩] ++
  [⟨0x30, 8, 1, 1, .ward, [⟨0, 47, (.cl (.align 12)), 0, false⟩]⟩] ++
  [⟨0x38, 8, 1, 1, .ward, [⟨0, 5, (.cl (.near 12 30)), 12, false⟩]⟩] ++
  [⟨0x40, 8, 1, 1, .ward, [⟨0, 30, .ro, 0, false⟩]⟩] ++
  [⟨0x48, 8, 1, 1, .ward, [⟨0, 30, (.cl .special), 0, false⟩]⟩] ++
  [⟨0x50, 8, 1, 1, .ward, [⟨0, 32, .rc, 0, false⟩]⟩] ++
  [⟨0xf8, 8, 1, 1, .ward, [⟨0, 64, .live, 0, false⟩]⟩]

/-- The LDG_ registers. -/
def ldgRegs : List RegDesc :=
  [⟨0x0, 8, 1, 1, .warm, [⟨0, 16, .live, 0, false⟩,
    ⟨16, 16, .live, 0, false⟩,
    ⟨32, 13, .live, 0, false⟩,
    ⟨45, 13, .live, 0, false⟩]⟩] ++
  [⟨0x8, 8, 1, 1, .warm, [⟨0, 32, .rc, 0, false⟩,
    ⟨32, 32, .rc, 0, false⟩]⟩]

/-- The LDGW_ registers. -/
def ldgwRegs : List RegDesc :=
  [⟨0x0, 4, 1, 1, .warm, [⟨0, 16, .ro, 0, false⟩,
    ⟨16, 16, .ro, 0, false⟩]⟩] ++
  [⟨0x8, 8, 1, 1, .ward, [⟨0, 16, .live, 0, false⟩,
    ⟨16, 16, .rc, 0, false⟩,
    ⟨32, 10, .live, 0, false⟩]⟩] ++
  [⟨0x10, 8, 1, 1, .ward, [⟨0, 32, .rc, 0, false⟩,
    ⟨32, 32, .rc, 0, false⟩]⟩] ++
  [⟨0x18, 4, 1, 1, .ward, [⟨0, 32, .rc, 0, false⟩]⟩]

/-- The QC_ registers. -/
def qcRegs : List RegDesc :=
  [⟨0x0, 4, 1, 1, .warm, [⟨0, 1, .rw, 1, false⟩,
    ⟨1, 1, .rw, 1, false⟩,
    ⟨2, 1, .w1s, 0, false⟩,
    ⟨8, 7, (.cl (.near 4 64)), 16, false⟩]⟩] ++
  [⟨0x8, 4, 1, 1, .warm, [⟨0, 1, .ro, 0, false⟩,
    ⟨1, 1, .w1c, 0, false⟩,
    ⟨2, 1, .w1c, 0, false⟩]⟩] ++
  [⟨0x10, 8, 1, 1, .warm, [⟨0, 64, .live, 0, false⟩]⟩] ++
  [⟨0x18, 4, 1, 1, .warm, [⟨0, 16, .live, 0, false⟩]⟩] ++
  [⟨0x20, 8, 1, 1, .warm, [⟨0, 16, .rc, 0, false⟩,
    ⟨16, 16, .rc, 0, false⟩,
    ⟨32, 8, .rc, 0, false⟩,
    ⟨40, 12, .ro, 0, false⟩,
    ⟨52, 4, .ro, 0, false⟩,
    ⟨56, 3, .ro, 0, false⟩]⟩] ++
  [⟨0x30, 8, 1, 1, .warm, [⟨0, 1, .w1sKeep, 0, false⟩,
    ⟨1, 1, .rw, 0, false⟩,
    ⟨8, 6, (.cl .special), 0, false⟩,
    ⟨16, 13, .rw, 0, false⟩,
    ⟨32, 16, .rw, 65535, false⟩,
    ⟨48, 1, .w1c, 0, false⟩,
    ⟨52, 12, .ro, 0, false⟩]⟩] ++
  [⟨0x100, 8, 5, 8, .warm, [⟨0, 64, .rc, 0, false⟩]⟩]

/-- The TIL_ registers. -/
def tilRegs : List RegDesc :=
  [⟨0x0, 4, 1, 1, .ward, [⟨0, 1, .w1s, 0, false⟩,
    ⟨1, 1, .rw, 0, false⟩,
    ⟨2, 1, .w1s, 0, false⟩]⟩] ++
  [⟨0x8, 8, 1, 1, .ward, [⟨0, 64, .rw, 0, false⟩]⟩] ++
  [⟨0x10, 8, 1, 1, .tile, [⟨0, 4, .live, 0, false⟩,
    ⟨4, 1, .live, 0, false⟩,
    ⟨8, 2, .live, 0, false⟩,
    ⟨10, 6, .live, 0, false⟩]⟩] ++
  [⟨0x40, 8, 8, 8, .tile, [⟨0, 64, .live, 0, false⟩]⟩] ++
  [⟨0x80, 8, 1, 1, .tile, [⟨0, 64, .live, 0, false⟩]⟩] ++
  [⟨0x88, 8, 1, 1, .tile, [⟨0, 64, .live, 0, false⟩]⟩] ++
  [⟨0x100, 8, 1, 1, .ward, [⟨0, 16, .rc, 0, false⟩,
    ⟨16, 16, .rc, 0, false⟩,
    ⟨32, 16, .rc, 0, false⟩]⟩] ++
  [⟨0x110, 4, 1, 1, .warm, [⟨0, 1, .rw, 0, false⟩,
    ⟨16, 16, .rc, 0, false⟩]⟩] ++
  [⟨0x118, 8, 1, 1, .warm, [⟨0, 8, .rw, 0, false⟩,
    ⟨16, 32, .rw, 0, false⟩,
    ⟨48, 1, .w1s, 0, false⟩]⟩] ++
  [⟨0x120, 8, 1, 1, .warm, [⟨0, 32, .ro, 0, false⟩,
    ⟨32, 16, .ro, 0, false⟩,
    ⟨48, 1, .ro, 0, false⟩,
    ⟨49, 1, .ro, 0, false⟩,
    ⟨50, 1, .ro, 0, false⟩]⟩]

/-- The HOM_ registers. -/
def homRegs : List RegDesc :=
  [⟨0x0, 8, 1, 1, .warm, [⟨0, 11, (.cl (.max 2000)), 100, false⟩,
    ⟨11, 1, .w1c, 0, false⟩,
    ⟨15, 17, (.cl (.near 100 100000)), 2000, false⟩]⟩] ++
  [⟨0x8, 8, 1, 1, .warm, [⟨0, 16, .live, 0, false⟩,
    ⟨16, 11, .live, 0, false⟩,
    ⟨27, 5, .live, 0, false⟩]⟩] ++
  [⟨0x10, 8, 1, 1, .warm, [⟨0, 16, .rc, 0, false⟩,
    ⟨16, 3, .ro, 0, false⟩,
    ⟨19, 5, .ro, 0, false⟩,
    ⟨24, 37, .ro, 0, false⟩]⟩] ++
  [⟨0x100, 8, 1, 1, .dimm, [⟨0, 2, .ro, 0, false⟩,
    ⟨2, 1, .ro, 0, false⟩,
    ⟨3, 1, .ro, 0, false⟩,
    ⟨4, 1, .ro, 0, false⟩,
    ⟨5, 1, .ro, 0, false⟩,
    ⟨6, 1, .ro, 0, false⟩,
    ⟨7, 1, .ro, 0, false⟩,
    ⟨8, 8, .ro, 0, false⟩,
    ⟨16, 1, .ro, 0, false⟩]⟩] ++
  [⟨0x1000, 8, 8, 8, .warm, [⟨0, 64, .rc, 0, false⟩]⟩] ++
  [⟨0x2000, 8, 1, 1, .warm, [⟨0, 32, .rc, 0, false⟩,
    ⟨32, 16, .rc, 0, false⟩,
    ⟨48, 16, .rc, 0, false⟩]⟩] ++
  [⟨0x2008, 8, 1, 1, .warm, [⟨0, 31, .ro, 0, false⟩,
    ⟨31, 3, .ro, 0, false⟩,
    ⟨34, 4, .ro, 15, false⟩,
    ⟨38, 1, .ro, 0, false⟩,
    ⟨39, 1, .ro, 0, false⟩,
    ⟨40, 1, .ro, 0, false⟩,
    ⟨41, 1, .ro, 0, false⟩]⟩] ++
  [⟨0x2010, 4, 1, 1, .warm, [⟨0, 1, .w1sKeep, 0, false⟩,
    ⟨1, 1, .rw, 0, false⟩,
    ⟨2, 4, (.cl (.max 9)), 0, false⟩,
    ⟨6, 4, (.cl .special), 15, false⟩,
    ⟨10, 1, .w1c, 0, false⟩,
    ⟨11, 1, .w1c, 0, false⟩]⟩] ++
  [⟨0x2018, 8, 1, 1, .warm, [⟨0, 64, .rw, 0, false⟩]⟩] ++
  [⟨0x2020, 8, 1, 1, .warm, [⟨0, 64, .rw, 0, false⟩]⟩] ++
  [⟨0x2028, 8, 1, 1, .warm, [⟨0, 31, .rw, 0, false⟩]⟩] ++
  [⟨0x2100, 4, 80, 4, .warm, [⟨0, 32, .rc, 0, false⟩]⟩] ++
  [⟨0x3000, 8, 1, 1, .warm, [⟨0, 41, (.cl .special), 0, false⟩]⟩] ++
  [⟨0x3008, 8, 1, 1, .warm, [⟨0, 41, (.cl .special), 0, false⟩]⟩] ++
  [⟨0x3010, 8, 1, 1, .warm, [⟨0, 41, (.cl .special), 0, false⟩]⟩] ++
  [⟨0x3018, 4, 1, 1, .warm, [⟨0, 1, .w1s, 0, false⟩,
    ⟨1, 1, .w1s, 0, false⟩,
    ⟨2, 1, .w1s, 0, false⟩,
    ⟨3, 1, .rw, 0, false⟩,
    ⟨4, 7, (.cl (.near 1 64)), 4, false⟩,
    ⟨16, 9, (.cl (.max 511)), 0, false⟩]⟩] ++
  [⟨0x3020, 4, 1, 1, .warm, [⟨0, 1, .ro, 0, false⟩,
    ⟨1, 1, .ro, 0, false⟩,
    ⟨2, 2, .ro, 0, false⟩,
    ⟨4, 1, .w1c, 0, false⟩,
    ⟨5, 1, .w1c, 0, false⟩]⟩] ++
  [⟨0x3028, 8, 1, 1, .warm, [⟨0, 8, .live, 0, false⟩,
    ⟨8, 20, .live, 0, false⟩]⟩] ++
  [⟨0x4000, 8, 8, 8, .warm, [⟨0, 64, .woKeep, 0, false⟩]⟩] ++
  [⟨0x4040, 4, 1, 1, .warm, [⟨0, 1, .w1s, 0, false⟩,
    ⟨1, 3, .wo, 0, false⟩]⟩] ++
  [⟨0x4048, 4, 1, 1, .warm, [⟨0, 8, .live, 0, false⟩,
    ⟨8, 1, .live, 0, false⟩,
    ⟨9, 1, .w1c, 0, false⟩]⟩]

/-- The ENG_ registers. -/
def engRegs : List RegDesc :=
  [⟨0x0, 4, 1, 1, .ward, [⟨0, 1, .w1s, 0, false⟩,
    ⟨1, 1, .rw, 0, false⟩,
    ⟨2, 1, (.cl .special), 0, false⟩,
    ⟨3, 1, .w1c, 0, false⟩,
    ⟨8, 8, .rw, 0, false⟩]⟩] ++
  [⟨0x8, 4, 1, 1, .ward, [⟨0, 4, .live, 0, false⟩,
    ⟨4, 1, .live, 0, false⟩,
    ⟨5, 1, .live, 0, false⟩,
    ⟨6, 1, .w1c, 0, false⟩]⟩] ++
  [⟨0x10, 8, 1, 1, .ward, [⟨0, 47, (.cl (.align 12)), 0, false⟩]⟩] ++
  [⟨0x18, 8, 1, 1, .ward, [⟨0, 4, (.cl (.near 4 12)), 4, false⟩]⟩] ++
  [⟨0x20, 8, 1, 1, .ward, [⟨0, 16, (.cl .special), 0, false⟩]⟩] ++
  [⟨0x28, 8, 1, 1, .ward, [⟨0, 16, .ro, 0, false⟩]⟩] ++
  [⟨0x30, 8, 1, 1, .ward, [⟨0, 16, .ro, 0, false⟩]⟩] ++
  [⟨0x40, 8, 1, 1, .ward, [⟨0, 64, .live, 0, false⟩]⟩] ++
  [⟨0x48, 8, 1, 1, .ward, [⟨0, 64, .live, 0, false⟩]⟩] ++
  [⟨0x800, 8, 1, 1, .ward, [⟨0, 32, .rc, 0, false⟩,
    ⟨32, 16, .rc, 0, false⟩,
    ⟨48, 16, .rc, 0, false⟩]⟩] ++
  [⟨0x808, 8, 1, 1, .ward, [⟨0, 64, .rc, 0, false⟩]⟩]

/-- The LNK_ registers. -/
def lnkRegs : List RegDesc :=
  [⟨0x0, 8, 1, 1, .warm, [⟨0, 4, .live, 0, false⟩,
    ⟨4, 5, .live, 0, false⟩,
    ⟨9, 1, .live, 0, false⟩,
    ⟨10, 1, .live, 0, false⟩,
    ⟨11, 1, .ro, 0, false⟩,
    ⟨12, 5, .live, 0, false⟩,
    ⟨17, 1, .live, 0, false⟩,
    ⟨18, 2, .live, 0, false⟩]⟩] ++
  [⟨0x8, 4, 1, 1, .warm, [⟨0, 10, (.cl (.near 1 1000)), 32, false⟩,
    ⟨10, 1, .rw, 1, false⟩,
    ⟨11, 1, .w1c, 0, false⟩]⟩] ++
  [⟨0x10, 8, 1, 1, .warm, [⟨0, 16, .rc, 0, false⟩,
    ⟨16, 16, .rc, 0, false⟩,
    ⟨32, 16, .rc, 0, false⟩,
    ⟨48, 16, .rc, 0, false⟩]⟩] ++
  [⟨0x18, 8, 1, 1, .warm, [⟨0, 16, .rc, 0, false⟩,
    ⟨16, 16, .rc, 0, false⟩]⟩] ++
  [⟨0x100, 8, 8, 8, .warm, [⟨0, 64, .w1c, 0, false⟩]⟩] ++
  [⟨0x200, 8, 6, 8, .warm, [⟨0, 64, .rc, 0, false⟩]⟩]

/-- The BLK_ registers. -/
def blkRegs : List RegDesc :=
  [⟨0x0, 8, 1, 1, .ward, [⟨0, 47, (.cl .special), 0, false⟩]⟩] ++
  [⟨0x8, 8, 1, 1, .ward, [⟨0, 47, (.cl .special), 4, false⟩]⟩] ++
  [⟨0x10, 4, 1, 1, .ward, [⟨0, 32, (.cl .special), 4, false⟩]⟩] ++
  [⟨0x18, 8, 1, 1, .ward, [⟨0, 64, .live, 0, false⟩]⟩] ++
  [⟨0x20, 8, 1, 1, .ward, [⟨0, 64, .ro, 0, false⟩]⟩] ++
  [⟨0x28, 4, 1, 1, .ward, [⟨0, 16, .rc, 0, false⟩,
    ⟨16, 1, .live, 0, false⟩,
    ⟨17, 1, .w1c, 0, false⟩]⟩]

/-- The LNT_ registers. -/
def lntRegs : List RegDesc :=
  [⟨0x10, 8, 1, 1, .warm, [⟨0, 64, .rw, 0, false⟩]⟩] ++
  [⟨0x18, 8, 1, 1, .warm, [⟨0, 3, .rw, 0, false⟩,
    ⟨3, 1, .rw, 0, false⟩,
    ⟨4, 1, .rw, 0, false⟩,
    ⟨5, 3, .rw, 0, false⟩,
    ⟨8, 8, .rw, 0, false⟩,
    ⟨16, 8, .rw, 255, false⟩,
    ⟨27, 1, .rw, 0, false⟩]⟩] ++
  [⟨0x40, 8, 1, 1, .warm, [⟨0, 6, .rw, 0, false⟩]⟩] ++
  [⟨0x48, 8, 1, 1, .warm, [⟨0, 3, .ro, 0, false⟩,
    ⟨3, 4, .ro, 0, false⟩,
    ⟨7, 8, .ro, 0, false⟩,
    ⟨32, 32, .ro, 0, false⟩]⟩] ++
  [⟨0x50, 8, 1, 1, .warm, [⟨0, 64, .ro, 0, false⟩]⟩] ++
  [⟨0x58, 8, 1, 1, .warm, [⟨0, 64, .ro, 0, false⟩]⟩] ++
  [⟨0x100, 8, 8, 16, .warm, [⟨0, 64, .rw, 0, false⟩]⟩] ++
  [⟨0x108, 8, 8, 16, .warm, [⟨0, 1, .rw, 0, false⟩,
    ⟨1, 2, .rw, 0, false⟩,
    ⟨3, 8, .rw, 0, false⟩,
    ⟨11, 2, .rw, 0, false⟩,
    ⟨13, 1, .rw, 0, false⟩,
    ⟨14, 1, .rw, 0, false⟩,
    ⟨15, 1, .rw, 0, false⟩,
    ⟨16, 6, (.cl (.near 3 40)), 3, false⟩]⟩] ++
  [⟨0x180, 8, 4, 16, .warm, [⟨0, 64, .rw, 0, false⟩]⟩] ++
  [⟨0x188, 8, 4, 16, .warm, [⟨0, 1, .rw, 0, false⟩,
    ⟨1, 2, .rw, 0, false⟩,
    ⟨3, 8, .rw, 0, false⟩,
    ⟨11, 2, .rw, 0, false⟩,
    ⟨13, 1, .rw, 0, false⟩,
    ⟨14, 1, .rw, 0, false⟩,
    ⟨15, 1, .rw, 0, false⟩,
    ⟨16, 6, (.cl (.near 3 40)), 3, false⟩]⟩]

def Blk.regs : Blk → List RegDesc
  | .gbl => gblRegs
  | .pln => plnRegs
  | .wrd => wrdRegs
  | .flt => fltRegs
  | .fltw => fltwRegs
  | .sup => supRegs
  | .lmp => lmpRegs
  | .lmpw => lmpwRegs
  | .ldg => ldgRegs
  | .ldgw => ldgwRegs
  | .qc => qcRegs
  | .til => tilRegs
  | .hom => homRegs
  | .eng => engRegs
  | .lnk => lnkRegs
  | .blk => blkRegs
  | .lnt => lntRegs

/-- The block that holds an offset, with the offset at which that block (of one ward, tile, …) begins
(spec 00 R15 and the map of each block). -/
def blockAt (off : Nat) : Option (Blk × Nat) :=
  if off < 0x10000 then some (.gbl, 0)
  else if off < 0x20000 then some (.pln, 0x10000)
  else if off < 0x28000 then some (.wrd, off - off % 0x1000)
  else if off < 0x30000 then none
  else if off < 0x34000 then some (.flt, 0x30000)
  else if off < 0x3C000 then some (.fltw, off - off % 0x1000)
  else if off < 0x40000 then none
  else if off < 0x50000 then some (.sup, 0x40000)
  else if off < 0x51000 then some (.lmp, 0x50000)
  else if off < 0x59000 then some (.lmpw, off - off % 0x1000)
  else if off < 0x60000 then none
  else if off < 0x60100 then some (.ldg, 0x60000)
  else if off < 0x60300 then some (.ldgw, off - off % 0x40)
  else if off < 0x100000 then none
  else if off < 0x200000 then
    if off % 0x10000 < 0x8000 then some (.qc, off - off % 0x10000)
    else if off % 0x10000 < 0xC000 then some (.til, off - off % 0x400)
    else none
  else if off < 0x300000 then some (.hom, off - off % 0x10000)
  else if off < 0x356000 then some (.eng, off - off % 0x1000)
  else if off < 0x400000 then none
  else if off < 0x410000 then some (.lnk, 0x400000)
  else if off < 0x800000 then none
  else if off < 0x809000 then some (.blk, off - off % 0x1000)
  else if off < 0x8000000 then none
  else if off < 0x8000200 then some (.lnt, 0x8000000)
  else none

/-- HOM_CFG, SCB_ and SEAL_ are one register set with 16 aliases: the one of home 0 holds them (spec 12 R354,
14 R385, R394). -/
def canonOff (off : Nat) : Nat :=
  if 0x200000 ≤ off ∧ off < 0x300000 then
    let l := off % 0x10000
    if l < 8 ∨ (0x3000 ≤ l ∧ l < 0x5000) then 0x200000 + l else off
  else off

/-- The register that holds a byte offset: its description and the offset at which it begins. -/
def regAt (off0 : Nat) : Option (RegDesc × Nat) :=
  let off := canonOff off0
  match blockAt off with
  | none => none
  | some (b, base) =>
    let l := off - base
    match b.regs.find? (fun r => decide (r.off ≤ l) && decide ((l - r.off) / r.stride < r.count)
        && decide ((l - r.off) % r.stride < r.bytes) || (decide (r.count = 1) && decide (r.off ≤ l) && decide (l < r.off + r.bytes))) with
    | none => none
    | some r => if r.count = 1 then some (r, base + r.off)
                else some (r, off - (l - r.off) % r.stride)

def RegDesc.fieldAt (r : RegDesc) (lo : Nat) : Option FieldDesc := r.fields.find? (fun f => f.lo == lo)

/-- The reset value of a field, by its key. -/
def fldReset (key : Nat) : Nat :=
  match regAt (key / 128) with
  | none => 0
  | some (r, _) => match r.fieldAt (key % 128) with
    | none => 0
    | some f => f.reset

/-- Which reset clears a field, by its key; none for an SK field. -/
def fldClass (key : Nat) : Option RCls :=
  match regAt (key / 128) with
  | none => none
  | some (r, _) => match r.fieldAt (key % 128) with
    | none => none
    | some f => if f.sk then none else some r.cls

namespace F
def GBL_ID_VENDOR : Fld := ⟨0x0 + 0x0, 0, 16⟩
def GBL_ID_DEVICE : Fld := ⟨0x0 + 0x0, 16, 16⟩
def GBL_ID_REV : Fld := ⟨0x0 + 0x0, 32, 8⟩
def GBL_ID_GRADE : Fld := ⟨0x0 + 0x0, 40, 1⟩
def GBL_SERIAL_VALUE : Fld := ⟨0x0 + 0x8, 0, 64⟩
def GBL_CAPS_TILES : Fld := ⟨0x0 + 0x10, 0, 9⟩
def GBL_CAPS_WARDS : Fld := ⟨0x0 + 0x10, 16, 8⟩
def GBL_CAPS_ENGINES : Fld := ⟨0x0 + 0x10, 24, 8⟩
def GBL_CAPS_CAP_GIB : Fld := ⟨0x0 + 0x10, 32, 12⟩
def GBL_RESET_CAUSE_LAST : Fld := ⟨0x0 + 0x20, 0, 4⟩
def GBL_RESET_CAUSE_WARM_COUNT : Fld := ⟨0x0 + 0x20, 8, 16⟩
def GBL_ACCESS_ERR_COUNT : Fld := ⟨0x0 + 0x30, 0, 16⟩
def GBL_ACCESS_ERR_OFFSET : Fld := ⟨0x0 + 0x30, 20, 41⟩
def GBL_ACCESS_ERR_SOURCE : Fld := ⟨0x0 + 0x30, 61, 2⟩
def GBL_GATE_CNT_DELIVERED (n : Nat) : Fld := ⟨0x0 + 0x800 + 16 * n, 0, 16⟩
def GBL_GATE_CNT_DISC_RESET (n : Nat) : Fld := ⟨0x0 + 0x800 + 16 * n, 16, 16⟩
def GBL_GATE_CNT_DISC_KEY (n : Nat) : Fld := ⟨0x0 + 0x800 + 16 * n, 32, 16⟩
def PLN_CMD_OP : Fld := ⟨0x10000 + 0x0, 0, 4⟩
def PLN_CMD_WARD : Fld := ⟨0x10000 + 0x0, 4, 3⟩
def PLN_IMG_DPA_DPA : Fld := ⟨0x10000 + 0x8, 0, 41⟩
def PLN_IMG_LEN_LEN : Fld := ⟨0x10000 + 0x10, 0, 32⟩
def PLN_DRAIN_LIMIT_LIMIT : Fld := ⟨0x10000 + 0x14, 0, 17⟩
def PLN_STATUS_BUSY : Fld := ⟨0x10000 + 0x18, 0, 1⟩
def PLN_STATUS_LOADED : Fld := ⟨0x10000 + 0x18, 1, 1⟩
def PLN_STATUS_SEALED : Fld := ⟨0x10000 + 0x18, 2, 1⟩
def PLN_STATUS_REFUSED : Fld := ⟨0x10000 + 0x18, 3, 1⟩
def PLN_STATUS_RESULT : Fld := ⟨0x10000 + 0x18, 4, 4⟩
def PLN_STATUS_RPT_OVF : Fld := ⟨0x10000 + 0x18, 8, 1⟩
def PLN_STATUS_BOOT_SLOT : Fld := ⟨0x10000 + 0x18, 9, 1⟩
def PLN_STATUS_NO_BOOT : Fld := ⟨0x10000 + 0x18, 10, 1⟩
def PLN_STATUS_CLAMPED : Fld := ⟨0x10000 + 0x18, 11, 1⟩
def PLN_STATUS_CLAMPS : Fld := ⟨0x10000 + 0x18, 16, 16⟩
def PLN_PLAN_ID_VALUE : Fld := ⟨0x10000 + 0x20, 0, 64⟩
def PLN_WARD_ID_VALUE (n : Nat) : Fld := ⟨0x10000 + 0x40 + 8 * n, 0, 64⟩
def PLN_SWAPRPT_VALUE (n : Nat) : Fld := ⟨0x10000 + 0x4000 + 8 * n, 0, 64⟩
def PLN_CLAMPRPT_VALUE (n : Nat) : Fld := ⟨0x10000 + 0x8000 + 8 * n, 0, 64⟩
def WRD_CTRL_RESET (w : Nat) : Fld := ⟨0x20000 + 0x1000 * w + 0x0, 0, 1⟩
def WRD_CTRL_ATOMIC_POLICY (w : Nat) : Fld := ⟨0x20000 + 0x1000 * w + 0x0, 1, 2⟩
def WRD_STATUS_RESETTING (w : Nat) : Fld := ⟨0x20000 + 0x1000 * w + 0x8, 0, 1⟩
def WRD_STATUS_LOADED (w : Nat) : Fld := ⟨0x20000 + 0x1000 * w + 0x8, 1, 1⟩
def WRD_STATUS_SWAPPING (w : Nat) : Fld := ⟨0x20000 + 0x1000 * w + 0x8, 2, 1⟩
def WRD_STATUS_QUARANTINED (w : Nat) : Fld := ⟨0x20000 + 0x1000 * w + 0x8, 3, 1⟩
def WRD_STATUS_KEY_SET (w : Nat) : Fld := ⟨0x20000 + 0x1000 * w + 0x8, 4, 1⟩
def WRD_STATUS_CLAMPED (w : Nat) : Fld := ⟨0x20000 + 0x1000 * w + 0x8, 5, 1⟩
def WRD_STATUS_TILES (w : Nat) : Fld := ⟨0x20000 + 0x1000 * w + 0x8, 8, 9⟩
def WRD_STATUS_ENGINES (w : Nat) : Fld := ⟨0x20000 + 0x1000 * w + 0x8, 17, 7⟩
def WRD_DBG_CONSENT_REGS (w : Nat) : Fld := ⟨0x20000 + 0x1000 * w + 0x10, 0, 1⟩
def WRD_DBG_CONSENT_MEM (w : Nat) : Fld := ⟨0x20000 + 0x1000 * w + 0x10, 1, 1⟩
def WRD_DBG_CONSENT_RUN (w : Nat) : Fld := ⟨0x20000 + 0x1000 * w + 0x10, 2, 1⟩
def WRD_ACCESS_ERR_COUNT (w : Nat) : Fld := ⟨0x20000 + 0x1000 * w + 0x18, 0, 16⟩
def WRD_ACCESS_ERR_OFFSET (w : Nat) : Fld := ⟨0x20000 + 0x1000 * w + 0x18, 20, 20⟩
def WRD_WINFAULT_COUNT (w : Nat) : Fld := ⟨0x20000 + 0x1000 * w + 0x20, 0, 12⟩
def WRD_WINFAULT_CAUSE (w : Nat) : Fld := ⟨0x20000 + 0x1000 * w + 0x20, 12, 4⟩
def WRD_WINFAULT_ADDR (w : Nat) : Fld := ⟨0x20000 + 0x1000 * w + 0x20, 16, 47⟩
def WRD_WIN_BASE_VALUE (w : Nat) (n : Nat) : Fld := ⟨0x20000 + 0x1000 * w + 0x100 + 32 * n, 0, 64⟩
def WRD_WIN_SIZE_VALUE (w : Nat) (n : Nat) : Fld := ⟨0x20000 + 0x1000 * w + 0x108 + 32 * n, 0, 64⟩
def WRD_WIN_TARGET_VALUE (w : Nat) (n : Nat) : Fld := ⟨0x20000 + 0x1000 * w + 0x110 + 32 * n, 0, 64⟩
def WRD_WIN_FLAGS_VALUE (w : Nat) (n : Nat) : Fld := ⟨0x20000 + 0x1000 * w + 0x118 + 32 * n, 0, 32⟩
def FLT_BEACON_GROUPS : Fld := ⟨0x30000 + 0x0, 0, 49⟩
def FLT_STATUS_FAULTN : Fld := ⟨0x30000 + 0x8, 0, 1⟩
def FLT_STATUS_VIRAL : Fld := ⟨0x30000 + 0x8, 1, 1⟩
def FLT_STATUS_VIRAL_OFF : Fld := ⟨0x30000 + 0x8, 2, 1⟩
def FLT_STATUS_REFUSED : Fld := ⟨0x30000 + 0x8, 3, 1⟩
def FLT_STATUS_CLAMPED : Fld := ⟨0x30000 + 0x8, 4, 1⟩
def FLT_STATUS_LOG_FAIL : Fld := ⟨0x30000 + 0x8, 5, 1⟩
def FLT_STATUS_LOG_QUEUED : Fld := ⟨0x30000 + 0x8, 6, 5⟩
def FLT_CTRL_LOCK : Fld := ⟨0x30000 + 0x10, 0, 1⟩
def FLT_VEC_F_VEC : Fld := ⟨0x30000 + 0x18, 0, 9⟩
def FLT_VEC_U_VEC : Fld := ⟨0x30000 + 0x18, 16, 9⟩
def FLT_VEC_C_VEC : Fld := ⟨0x30000 + 0x18, 32, 9⟩
def FLT_WVEC_W0 : Fld := ⟨0x30000 + 0x20, 0, 7⟩
def FLT_WVEC_W1 : Fld := ⟨0x30000 + 0x20, 8, 7⟩
def FLT_WVEC_W2 : Fld := ⟨0x30000 + 0x20, 16, 7⟩
def FLT_WVEC_W3 : Fld := ⟨0x30000 + 0x20, 24, 7⟩
def FLT_WVEC_W4 : Fld := ⟨0x30000 + 0x20, 32, 7⟩
def FLT_WVEC_W5 : Fld := ⟨0x30000 + 0x20, 40, 7⟩
def FLT_WVEC_W6 : Fld := ⟨0x30000 + 0x20, 48, 7⟩
def FLT_WVEC_W7 : Fld := ⟨0x30000 + 0x20, 56, 7⟩
def FLT_INJECT_GROUP : Fld := ⟨0x30000 + 0x30, 0, 6⟩
def FLT_INJECT_CLASS : Fld := ⟨0x30000 + 0x30, 6, 2⟩
def FLT_INJECT_WARDS : Fld := ⟨0x30000 + 0x30, 8, 8⟩
def FLT_INJECT_GO : Fld := ⟨0x30000 + 0x30, 16, 1⟩
def FLT_INJECT_DETAIL : Fld := ⟨0x30000 + 0x30, 32, 32⟩
def FLT_RSTAT_MAX (n : Nat) : Fld := ⟨0x30000 + 0x100 + 32 * n, 0, 2⟩
def FLT_RSTAT_FCLASS (n : Nat) : Fld := ⟨0x30000 + 0x100 + 32 * n, 2, 2⟩
def FLT_RSTAT_FKIND (n : Nat) : Fld := ⟨0x30000 + 0x100 + 32 * n, 4, 4⟩
def FLT_RSTAT_FUNIT (n : Nat) : Fld := ⟨0x30000 + 0x100 + 32 * n, 8, 8⟩
def FLT_RSTAT_FWARDS (n : Nat) : Fld := ⟨0x30000 + 0x100 + 32 * n, 16, 8⟩
def FLT_RSTAT_MORE (n : Nat) : Fld := ⟨0x30000 + 0x100 + 32 * n, 24, 1⟩
def FLT_RDETAIL_VALUE (n : Nat) : Fld := ⟨0x30000 + 0x108 + 32 * n, 0, 64⟩
def FLT_RTIME_VALUE (n : Nat) : Fld := ⟨0x30000 + 0x110 + 32 * n, 0, 64⟩
def FLT_RCOUNT_C (n : Nat) : Fld := ⟨0x30000 + 0x118 + 32 * n, 0, 32⟩
def FLT_RCOUNT_U (n : Nat) : Fld := ⟨0x30000 + 0x118 + 32 * n, 32, 16⟩
def FLT_RCOUNT_F (n : Nat) : Fld := ⟨0x30000 + 0x118 + 32 * n, 48, 16⟩
def FLT_REACT_C_ACT (n : Nat) : Fld := ⟨0x30000 + 0x1000 + 8 * n, 0, 7⟩
def FLT_REACT_U_ACT (n : Nat) : Fld := ⟨0x30000 + 0x1000 + 8 * n, 8, 7⟩
def FLT_REACT_F_ACT (n : Nat) : Fld := ⟨0x30000 + 0x1000 + 8 * n, 16, 7⟩
def FLT_LOG_CTRL_READ : Fld := ⟨0x30000 + 0x2000, 0, 1⟩
def FLT_LOG_CTRL_ERASE : Fld := ⟨0x30000 + 0x2000, 1, 1⟩
def FLT_LOG_CTRL_BUSY : Fld := ⟨0x30000 + 0x2000, 2, 1⟩
def FLT_LOG_CTRL_BADCRC : Fld := ⟨0x30000 + 0x2000, 3, 1⟩
def FLT_LOG_CTRL_SLOT : Fld := ⟨0x30000 + 0x2000, 16, 11⟩
def FLT_LOG_HEAD_SEQ : Fld := ⟨0x30000 + 0x2008, 0, 32⟩
def FLT_LOG_HEAD_SLOT : Fld := ⟨0x30000 + 0x2008, 32, 11⟩
def FLT_LOG_DATA_VALUE (n : Nat) : Fld := ⟨0x30000 + 0x2020 + 8 * n, 0, 64⟩
def FLTW_BEACON_GROUPS (w : Nat) : Fld := ⟨0x34000 + 0x1000 * w + 0x0, 0, 49⟩
def FLTW_RSTAT_MAX (w : Nat) (n : Nat) : Fld := ⟨0x34000 + 0x1000 * w + 0x100 + 32 * n, 0, 2⟩
def FLTW_RSTAT_FCLASS (w : Nat) (n : Nat) : Fld := ⟨0x34000 + 0x1000 * w + 0x100 + 32 * n, 2, 2⟩
def FLTW_RSTAT_FKIND (w : Nat) (n : Nat) : Fld := ⟨0x34000 + 0x1000 * w + 0x100 + 32 * n, 4, 4⟩
def FLTW_RSTAT_FUNIT (w : Nat) (n : Nat) : Fld := ⟨0x34000 + 0x1000 * w + 0x100 + 32 * n, 8, 8⟩
def FLTW_RSTAT_FWARDS (w : Nat) (n : Nat) : Fld := ⟨0x34000 + 0x1000 * w + 0x100 + 32 * n, 16, 8⟩
def FLTW_RSTAT_MORE (w : Nat) (n : Nat) : Fld := ⟨0x34000 + 0x1000 * w + 0x100 + 32 * n, 24, 1⟩
def FLTW_RDETAIL_VALUE (w : Nat) (n : Nat) : Fld := ⟨0x34000 + 0x1000 * w + 0x108 + 32 * n, 0, 64⟩
def FLTW_RTIME_VALUE (w : Nat) (n : Nat) : Fld := ⟨0x34000 + 0x1000 * w + 0x110 + 32 * n, 0, 64⟩
def FLTW_RCOUNT_C (w : Nat) (n : Nat) : Fld := ⟨0x34000 + 0x1000 * w + 0x118 + 32 * n, 0, 32⟩
def FLTW_RCOUNT_U (w : Nat) (n : Nat) : Fld := ⟨0x34000 + 0x1000 * w + 0x118 + 32 * n, 32, 16⟩
def FLTW_RCOUNT_F (w : Nat) (n : Nat) : Fld := ⟨0x34000 + 0x1000 * w + 0x118 + 32 * n, 48, 16⟩
def SUP_RAIL_NOW (n : Nat) : Fld := ⟨0x40000 + 0x0 + 8 * n, 0, 16⟩
def SUP_RAIL_LOW (n : Nat) : Fld := ⟨0x40000 + 0x0 + 8 * n, 16, 16⟩
def SUP_RAIL_HIGH (n : Nat) : Fld := ⟨0x40000 + 0x0 + 8 * n, 32, 16⟩
def SUP_RAIL_OUT (n : Nat) : Fld := ⟨0x40000 + 0x0 + 8 * n, 48, 1⟩
def SUP_TIME_COUNT : Fld := ⟨0x40000 + 0x100, 0, 64⟩
def SUP_PACE_CURRENT : Fld := ⟨0x40000 + 0x108, 0, 16⟩
def SUP_PACE_LOW : Fld := ⟨0x40000 + 0x108, 16, 16⟩
def SUP_PACE_HIGH : Fld := ⟨0x40000 + 0x108, 32, 16⟩
def SUP_PACE_REF : Fld := ⟨0x40000 + 0x108, 48, 16⟩
def SUP_PACE_ALARM_THRESH : Fld := ⟨0x40000 + 0x110, 0, 16⟩
def SUP_PACE_ALARM_BELOW : Fld := ⟨0x40000 + 0x110, 16, 1⟩
def SUP_PACE_ALARM_CLAMPED : Fld := ⟨0x40000 + 0x110, 17, 1⟩
def SUP_STALL_CTRL_ENABLE : Fld := ⟨0x40000 + 0x120, 0, 1⟩
def SUP_STALL_CTRL_SELFTEST : Fld := ⟨0x40000 + 0x120, 1, 1⟩
def SUP_STALL_CTRL_LIMIT : Fld := ⟨0x40000 + 0x120, 8, 10⟩
def SUP_STALL_STATUS_EVENTS : Fld := ⟨0x40000 + 0x128, 0, 16⟩
def SUP_STALL_STATUS_KIND : Fld := ⟨0x40000 + 0x128, 16, 4⟩
def SUP_STALL_STATUS_UNIT : Fld := ⟨0x40000 + 0x128, 32, 16⟩
def SUP_STALL_STATUS_SELFTEST_FAIL : Fld := ⟨0x40000 + 0x128, 48, 1⟩
def SUP_STALL_STATUS_CLAMPED : Fld := ⟨0x40000 + 0x128, 49, 1⟩
def SUP_DROOP_STAT_COUNT : Fld := ⟨0x40000 + 0x200, 0, 16⟩
def SUP_DROOP_STAT_BAND : Fld := ⟨0x40000 + 0x200, 16, 16⟩
def SUP_DROOP_STAT_LOWEST : Fld := ⟨0x40000 + 0x200, 32, 16⟩
def SUP_DROOP_STAT_LONGEST : Fld := ⟨0x40000 + 0x200, 48, 16⟩
def SUP_DIM_STATE : Fld := ⟨0x40000 + 0x300, 0, 2⟩
def SUP_DIM_CAUSE : Fld := ⟨0x40000 + 0x300, 2, 4⟩
def SUP_DIM_TIMED_OUT : Fld := ⟨0x40000 + 0x300, 6, 1⟩
def SUP_DIM_CLAMPED : Fld := ⟨0x40000 + 0x300, 7, 1⟩
def SUP_DIM_LIMIT : Fld := ⟨0x40000 + 0x300, 8, 10⟩
def SUP_DIM_ENTRIES : Fld := ⟨0x40000 + 0x300, 32, 16⟩
def SUP_PLW_LEVEL : Fld := ⟨0x40000 + 0x310, 0, 1⟩
def SUP_PLW_QUIESCED : Fld := ⟨0x40000 + 0x310, 1, 1⟩
def SUP_THERM_TJ : Fld := ⟨0x40000 + 0x400, 0, 16⟩
def SUP_THERM_HOT : Fld := ⟨0x40000 + 0x400, 16, 5⟩
def SUP_THERM_WARN : Fld := ⟨0x40000 + 0x400, 21, 1⟩
def SUP_THERM_OVER : Fld := ⟨0x40000 + 0x400, 22, 1⟩
def SUP_THERM_COLD : Fld := ⟨0x40000 + 0x400, 23, 1⟩
def SUP_THERM_TRIPPED : Fld := ⟨0x40000 + 0x400, 24, 1⟩
def SUP_THERM_THROTTLE : Fld := ⟨0x40000 + 0x400, 25, 3⟩
def SUP_THERM_CLAMPED : Fld := ⟨0x40000 + 0x400, 28, 1⟩
def SUP_TSENSE_VALUE (n : Nat) : Fld := ⟨0x40000 + 0x480 + 8 * n, 0, 16⟩
def SUP_BOOT_VALUE (n : Nat) : Fld := ⟨0x40000 + 0x580 + 8 * n, 0, 64⟩
def SUP_CAL_ITEM_USER (n : Nat) : Fld := ⟨0x40000 + 0x800 + 8 * n, 0, 8⟩
def SUP_CAL_ITEM_FACTORY (n : Nat) : Fld := ⟨0x40000 + 0x800 + 8 * n, 16, 16⟩
def SUP_CAL_ITEM_EFFECTIVE (n : Nat) : Fld := ⟨0x40000 + 0x800 + 8 * n, 32, 16⟩
def SUP_CAL_ITEM_PENDING (n : Nat) : Fld := ⟨0x40000 + 0x800 + 8 * n, 48, 1⟩
def SUP_CAL_ITEM_CLAMPED (n : Nat) : Fld := ⟨0x40000 + 0x800 + 8 * n, 49, 1⟩
def SUP_CAL_ITEM_INFORCE (n : Nat) : Fld := ⟨0x40000 + 0x800 + 8 * n, 64, 8⟩
def SUP_CAL_CMD_SAVE : Fld := ⟨0x40000 + 0x880, 0, 1⟩
def SUP_CAL_CMD_RELOAD : Fld := ⟨0x40000 + 0x880, 1, 1⟩
def SUP_CAL_CMD_ZERO : Fld := ⟨0x40000 + 0x880, 2, 1⟩
def SUP_CAL_STATUS_BUSY : Fld := ⟨0x40000 + 0x888, 0, 1⟩
def SUP_CAL_STATUS_OWNER : Fld := ⟨0x40000 + 0x888, 1, 1⟩
def SUP_CAL_STATUS_REFUSED : Fld := ⟨0x40000 + 0x888, 2, 1⟩
def SUP_CAL_STATUS_STORE_EMPTY : Fld := ⟨0x40000 + 0x888, 3, 1⟩
def SUP_CAL_STATUS_SAVE_FAIL : Fld := ⟨0x40000 + 0x888, 4, 1⟩
def SUP_CAL_STATUS_SEQ : Fld := ⟨0x40000 + 0x888, 32, 32⟩
def LMP_TICK_PERIOD : Fld := ⟨0x50000 + 0x0, 0, 15⟩
def LMP_TICK_CLAMPED : Fld := ⟨0x50000 + 0x0, 31, 1⟩
def LMP_TICK_COUNT_VALUE : Fld := ⟨0x50000 + 0x8, 0, 64⟩
def LMP_EVT_CNT_EDGES (n : Nat) : Fld := ⟨0x50000 + 0x100 + 8 * n, 0, 32⟩
def LMP_EVT_CNT_UNCLAIMED (n : Nat) : Fld := ⟨0x50000 + 0x100 + 8 * n, 32, 16⟩
def LMP_EVT_CNT_WARD (n : Nat) : Fld := ⟨0x50000 + 0x100 + 8 * n, 48, 3⟩
def LMP_EVT_CNT_BOUND (n : Nat) : Fld := ⟨0x50000 + 0x100 + 8 * n, 51, 1⟩
def LMPW_CTRL_TRACE_EN (w : Nat) : Fld := ⟨0x51000 + 0x1000 * w + 0x0, 0, 1⟩
def LMPW_CTRL_TRACE_WRAP (w : Nat) : Fld := ⟨0x51000 + 0x1000 * w + 0x0, 1, 1⟩
def LMPW_CTRL_OBS_CLEAR (w : Nat) : Fld := ⟨0x51000 + 0x1000 * w + 0x0, 2, 1⟩
def LMPW_CTRL_DLY_FLUSH (w : Nat) : Fld := ⟨0x51000 + 0x1000 * w + 0x0, 8, 8⟩
def LMPW_STATUS_SLOTS (w : Nat) : Fld := ⟨0x51000 + 0x1000 * w + 0x8, 0, 19⟩
def LMPW_STATUS_DELAYS (w : Nat) : Fld := ⟨0x51000 + 0x1000 * w + 0x8, 20, 15⟩
def LMPW_STATUS_STOPPED (w : Nat) : Fld := ⟨0x51000 + 0x1000 * w + 0x8, 35, 1⟩
def LMPW_STATUS_TRACE_FAULT (w : Nat) : Fld := ⟨0x51000 + 0x1000 * w + 0x8, 36, 1⟩
def LMPW_STATUS_CLAMPED (w : Nat) : Fld := ⟨0x51000 + 0x1000 * w + 0x8, 37, 1⟩
def LMPW_DISCARD_NO_NODE (w : Nat) : Fld := ⟨0x51000 + 0x1000 * w + 0x10, 0, 16⟩
def LMPW_DISCARD_BAD_PORT (w : Nat) : Fld := ⟨0x51000 + 0x1000 * w + 0x10, 16, 16⟩
def LMPW_DISCARD_SWAP (w : Nat) : Fld := ⟨0x51000 + 0x1000 * w + 0x10, 32, 16⟩
def LMPW_DISCARD_FLUSHED (w : Nat) : Fld := ⟨0x51000 + 0x1000 * w + 0x10, 48, 16⟩
def LMPW_FAILED_FAILED (w : Nat) : Fld := ⟨0x51000 + 0x1000 * w + 0x18, 0, 32⟩
def LMPW_FAILED_LAST_KEY (w : Nat) : Fld := ⟨0x51000 + 0x1000 * w + 0x18, 32, 32⟩
def LMPW_BOUND_STORE_TIME (w : Nat) : Fld := ⟨0x51000 + 0x1000 * w + 0x20, 0, 32⟩
def LMPW_BOUND_DELAY_TIME (w : Nat) : Fld := ⟨0x51000 + 0x1000 * w + 0x20, 32, 32⟩
def LMPW_TR_BASE_BASE (w : Nat) : Fld := ⟨0x51000 + 0x1000 * w + 0x30, 0, 47⟩
def LMPW_TR_LOG2_LOG2 (w : Nat) : Fld := ⟨0x51000 + 0x1000 * w + 0x38, 0, 5⟩
def LMPW_TR_HEAD_HEAD (w : Nat) : Fld := ⟨0x51000 + 0x1000 * w + 0x40, 0, 30⟩
def LMPW_TR_TAIL_TAIL (w : Nat) : Fld := ⟨0x51000 + 0x1000 * w + 0x48, 0, 30⟩
def LMPW_TR_LOST_LOST (w : Nat) : Fld := ⟨0x51000 + 0x1000 * w + 0x50, 0, 32⟩
def LMPW_TICK_MIRROR_VALUE (w : Nat) : Fld := ⟨0x51000 + 0x1000 * w + 0xf8, 0, 64⟩
def LDG_STATUS_IN_FLIGHT : Fld := ⟨0x60000 + 0x0, 0, 16⟩
def LDG_STATUS_SHARED_FREE : Fld := ⟨0x60000 + 0x0, 16, 16⟩
def LDG_STATUS_RSV_HELD : Fld := ⟨0x60000 + 0x0, 32, 13⟩
def LDG_STATUS_RSV_CXLMEM : Fld := ⟨0x60000 + 0x0, 45, 13⟩
def LDG_BOUND_FULL_TIME : Fld := ⟨0x60000 + 0x8, 0, 32⟩
def LDG_BOUND_CXLMEM_WAIT : Fld := ⟨0x60000 + 0x8, 32, 32⟩
def LDGW_SHARE_MIN (w : Nat) : Fld := ⟨0x60100 + 0x40 * w + 0x0, 0, 16⟩
def LDGW_SHARE_CEIL (w : Nat) : Fld := ⟨0x60100 + 0x40 * w + 0x0, 16, 16⟩
def LDGW_HOLD_HELD (w : Nat) : Fld := ⟨0x60100 + 0x40 * w + 0x8, 0, 16⟩
def LDGW_HOLD_PEAK (w : Nat) : Fld := ⟨0x60100 + 0x40 * w + 0x8, 16, 16⟩
def LDGW_HOLD_BULK_HELD (w : Nat) : Fld := ⟨0x60100 + 0x40 * w + 0x8, 32, 10⟩
def LDGW_BOUND_CEIL_TIME (w : Nat) : Fld := ⟨0x60100 + 0x40 * w + 0x10, 0, 32⟩
def LDGW_BOUND_POOL_TIME (w : Nat) : Fld := ⟨0x60100 + 0x40 * w + 0x10, 32, 32⟩
def LDGW_ABORT_COUNT (w : Nat) : Fld := ⟨0x60100 + 0x40 * w + 0x18, 0, 32⟩
def QC_CTRL_ENABLE (q : Nat) : Fld := ⟨0x100000 + 0x10000 * q + 0x0, 0, 1⟩
def QC_CTRL_TT_EN (q : Nat) : Fld := ⟨0x100000 + 0x10000 * q + 0x0, 1, 1⟩
def QC_CTRL_QRESET (q : Nat) : Fld := ⟨0x100000 + 0x10000 * q + 0x0, 2, 1⟩
def QC_CTRL_TT_RUN (q : Nat) : Fld := ⟨0x100000 + 0x10000 * q + 0x0, 8, 7⟩
def QC_STATUS_DRAINING (q : Nat) : Fld := ⟨0x100000 + 0x10000 * q + 0x8, 0, 1⟩
def QC_STATUS_REFUSED (q : Nat) : Fld := ⟨0x100000 + 0x10000 * q + 0x8, 1, 1⟩
def QC_STATUS_CLAMPED (q : Nat) : Fld := ⟨0x100000 + 0x10000 * q + 0x8, 2, 1⟩
def QC_WAY_OWNER_VALUE (q : Nat) : Fld := ⟨0x100000 + 0x10000 * q + 0x10, 0, 64⟩
def QC_SCRATCH_MAP_VALUE (q : Nat) : Fld := ⟨0x100000 + 0x10000 * q + 0x18, 0, 16⟩
def QC_ERR_CORRECTED (q : Nat) : Fld := ⟨0x100000 + 0x10000 * q + 0x20, 0, 16⟩
def QC_ERR_UNCORR (q : Nat) : Fld := ⟨0x100000 + 0x10000 * q + 0x20, 16, 16⟩
def QC_ERR_TAGPAR (q : Nat) : Fld := ⟨0x100000 + 0x10000 * q + 0x20, 32, 8⟩
def QC_ERR_SET (q : Nat) : Fld := ⟨0x100000 + 0x10000 * q + 0x20, 40, 12⟩
def QC_ERR_WAY (q : Nat) : Fld := ⟨0x100000 + 0x10000 * q + 0x20, 52, 4⟩
def QC_ERR_KIND (q : Nat) : Fld := ⟨0x100000 + 0x10000 * q + 0x20, 56, 3⟩
def QC_INJ_ARM (q : Nat) : Fld := ⟨0x100000 + 0x10000 * q + 0x30, 0, 1⟩
def QC_INJ_ARRAY (q : Nat) : Fld := ⟨0x100000 + 0x10000 * q + 0x30, 1, 1⟩
def QC_INJ_BYTE (q : Nat) : Fld := ⟨0x100000 + 0x10000 * q + 0x30, 8, 6⟩
def QC_INJ_MASK (q : Nat) : Fld := ⟨0x100000 + 0x10000 * q + 0x30, 16, 13⟩
def QC_INJ_WAYS (q : Nat) : Fld := ⟨0x100000 + 0x10000 * q + 0x30, 32, 16⟩
def QC_INJ_FIRED (q : Nat) : Fld := ⟨0x100000 + 0x10000 * q + 0x30, 48, 1⟩
def QC_INJ_SET (q : Nat) : Fld := ⟨0x100000 + 0x10000 * q + 0x30, 52, 12⟩
def QC_CNT_VALUE (q : Nat) (n : Nat) : Fld := ⟨0x100000 + 0x10000 * q + 0x100 + 8 * n, 0, 64⟩
def TIL_CTRL_RESET (t : Nat) : Fld := ⟨0x108000 + 0x10000 * (t / 16) + 0x400 * (t % 16) + 0x0, 0, 1⟩
def TIL_CTRL_RUN (t : Nat) : Fld := ⟨0x108000 + 0x10000 * (t / 16) + 0x400 * (t % 16) + 0x0, 1, 1⟩
def TIL_CTRL_DOORBELL (t : Nat) : Fld := ⟨0x108000 + 0x10000 * (t / 16) + 0x400 * (t % 16) + 0x0, 2, 1⟩
def TIL_ENTRY_VALUE (t : Nat) : Fld := ⟨0x108000 + 0x10000 * (t / 16) + 0x400 * (t % 16) + 0x8, 0, 64⟩
def TIL_STATE_STATE (t : Nat) : Fld := ⟨0x108000 + 0x10000 * (t / 16) + 0x400 * (t % 16) + 0x10, 0, 4⟩
def TIL_STATE_HOLDS_ITEM (t : Nat) : Fld := ⟨0x108000 + 0x10000 * (t / 16) + 0x400 * (t % 16) + 0x10, 4, 1⟩
def TIL_STATE_STRAND_WHY (t : Nat) : Fld := ⟨0x108000 + 0x10000 * (t / 16) + 0x400 * (t % 16) + 0x10, 8, 2⟩
def TIL_STATE_SECOND_CODE (t : Nat) : Fld := ⟨0x108000 + 0x10000 * (t / 16) + 0x400 * (t % 16) + 0x10, 10, 6⟩
def TIL_SHF_VALUE (t : Nat) (n : Nat) : Fld := ⟨0x108000 + 0x10000 * (t / 16) + 0x400 * (t % 16) + 0x40 + 8 * n, 0, 64⟩
def TIL_RETIRED_VALUE (t : Nat) : Fld := ⟨0x108000 + 0x10000 * (t / 16) + 0x400 * (t % 16) + 0x80, 0, 64⟩
def TIL_WP_FETCH_VALUE (t : Nat) : Fld := ⟨0x108000 + 0x10000 * (t / 16) + 0x400 * (t % 16) + 0x88, 0, 64⟩
def TIL_AVE_CNT_DISCARD (t : Nat) : Fld := ⟨0x108000 + 0x10000 * (t / 16) + 0x400 * (t % 16) + 0x100, 0, 16⟩
def TIL_AVE_CNT_GATED_IN (t : Nat) : Fld := ⟨0x108000 + 0x10000 * (t / 16) + 0x400 * (t % 16) + 0x100, 16, 16⟩
def TIL_AVE_CNT_PARITY (t : Nat) : Fld := ⟨0x108000 + 0x10000 * (t / 16) + 0x400 * (t % 16) + 0x100, 32, 16⟩
def TIL_AVE_MIRROR_MIRROR (t : Nat) : Fld := ⟨0x108000 + 0x10000 * (t / 16) + 0x400 * (t % 16) + 0x110, 0, 1⟩
def TIL_AVE_MIRROR_ABSORBED (t : Nat) : Fld := ⟨0x108000 + 0x10000 * (t / 16) + 0x400 * (t % 16) + 0x110, 16, 16⟩
def TIL_AVE_PROBE_DEST (t : Nat) : Fld := ⟨0x108000 + 0x10000 * (t / 16) + 0x400 * (t % 16) + 0x118, 0, 8⟩
def TIL_AVE_PROBE_PATTERN (t : Nat) : Fld := ⟨0x108000 + 0x10000 * (t / 16) + 0x400 * (t % 16) + 0x118, 16, 32⟩
def TIL_AVE_PROBE_GO (t : Nat) : Fld := ⟨0x108000 + 0x10000 * (t / 16) + 0x400 * (t % 16) + 0x118, 48, 1⟩
def TIL_AVE_PROBE_RES_RETURNED (t : Nat) : Fld := ⟨0x108000 + 0x10000 * (t / 16) + 0x400 * (t % 16) + 0x120, 0, 32⟩
def TIL_AVE_PROBE_RES_TRIP (t : Nat) : Fld := ⟨0x108000 + 0x10000 * (t / 16) + 0x400 * (t % 16) + 0x120, 32, 16⟩
def TIL_AVE_PROBE_RES_DONE (t : Nat) : Fld := ⟨0x108000 + 0x10000 * (t / 16) + 0x400 * (t % 16) + 0x120, 48, 1⟩
def TIL_AVE_PROBE_RES_MISMATCH (t : Nat) : Fld := ⟨0x108000 + 0x10000 * (t / 16) + 0x400 * (t % 16) + 0x120, 49, 1⟩
def TIL_AVE_PROBE_RES_POISON (t : Nat) : Fld := ⟨0x108000 + 0x10000 * (t / 16) + 0x400 * (t % 16) + 0x120, 50, 1⟩
def HOM_CFG_HOLD : Fld := ⟨0x200000 + 0x0, 0, 11⟩
def HOM_CFG_CLAMPED : Fld := ⟨0x200000 + 0x0, 11, 1⟩
def HOM_CFG_TIMEOUT : Fld := ⟨0x200000 + 0x0, 15, 17⟩
def HOM_STATUS_FENCED (h : Nat) : Fld := ⟨0x200000 + 0x10000 * h + 0x8, 0, 16⟩
def HOM_STATUS_ACTIVE (h : Nat) : Fld := ⟨0x200000 + 0x10000 * h + 0x8, 16, 11⟩
def HOM_STATUS_PROMOTED (h : Nat) : Fld := ⟨0x200000 + 0x10000 * h + 0x8, 27, 5⟩
def HOM_TOUT_COUNT (h : Nat) : Fld := ⟨0x200000 + 0x10000 * h + 0x10, 0, 16⟩
def HOM_TOUT_KIND (h : Nat) : Fld := ⟨0x200000 + 0x10000 * h + 0x10, 16, 3⟩
def HOM_TOUT_WHO (h : Nat) : Fld := ⟨0x200000 + 0x10000 * h + 0x10, 19, 5⟩
def HOM_TOUT_ADDR (h : Nat) : Fld := ⟨0x200000 + 0x10000 * h + 0x10, 24, 37⟩
def HOM_DIMM_SPEED (h : Nat) : Fld := ⟨0x200000 + 0x10000 * h + 0x100, 0, 2⟩
def HOM_DIMM_RANKS (h : Nat) : Fld := ⟨0x200000 + 0x10000 * h + 0x100, 2, 1⟩
def HOM_DIMM_DENSITY (h : Nat) : Fld := ⟨0x200000 + 0x10000 * h + 0x100, 3, 1⟩
def HOM_DIMM_STACK (h : Nat) : Fld := ⟨0x200000 + 0x10000 * h + 0x100, 4, 1⟩
def HOM_DIMM_TRAINED (h : Nat) : Fld := ⟨0x200000 + 0x10000 * h + 0x100, 5, 1⟩
def HOM_DIMM_TRIMMED (h : Nat) : Fld := ⟨0x200000 + 0x10000 * h + 0x100, 6, 1⟩
def HOM_DIMM_REJECTED (h : Nat) : Fld := ⟨0x200000 + 0x10000 * h + 0x100, 7, 1⟩
def HOM_DIMM_C_GIB (h : Nat) : Fld := ⟨0x200000 + 0x10000 * h + 0x100, 8, 8⟩
def HOM_DIMM_EMPTY (h : Nat) : Fld := ⟨0x200000 + 0x10000 * h + 0x100, 16, 1⟩
def HOM_DIR_CNT_VALUE (h : Nat) (n : Nat) : Fld := ⟨0x200000 + 0x10000 * h + 0x1000 + 8 * n, 0, 64⟩
def HOM_ECC_ERR_CORRECTED (h : Nat) : Fld := ⟨0x200000 + 0x10000 * h + 0x2000, 0, 32⟩
def HOM_ECC_ERR_UNCORR (h : Nat) : Fld := ⟨0x200000 + 0x10000 * h + 0x2000, 32, 16⟩
def HOM_ECC_ERR_POISON_READ (h : Nat) : Fld := ⟨0x200000 + 0x10000 * h + 0x2000, 48, 16⟩
def HOM_ECC_LAST_LINE (h : Nat) : Fld := ⟨0x200000 + 0x10000 * h + 0x2008, 0, 31⟩
def HOM_ECC_LAST_KIND (h : Nat) : Fld := ⟨0x200000 + 0x10000 * h + 0x2008, 31, 3⟩
def HOM_ECC_LAST_DEV (h : Nat) : Fld := ⟨0x200000 + 0x10000 * h + 0x2008, 34, 4⟩
def HOM_ECC_LAST_SC (h : Nat) : Fld := ⟨0x200000 + 0x10000 * h + 0x2008, 38, 1⟩
def HOM_ECC_LAST_RANK (h : Nat) : Fld := ⟨0x200000 + 0x10000 * h + 0x2008, 39, 1⟩
def HOM_ECC_LAST_CID (h : Nat) : Fld := ⟨0x200000 + 0x10000 * h + 0x2008, 40, 1⟩
def HOM_ECC_LAST_SCRUB (h : Nat) : Fld := ⟨0x200000 + 0x10000 * h + 0x2008, 41, 1⟩
def HOM_ECC_INJ_ARM (h : Nat) : Fld := ⟨0x200000 + 0x10000 * h + 0x2010, 0, 1⟩
def HOM_ECC_INJ_ADDR_EN (h : Nat) : Fld := ⟨0x200000 + 0x10000 * h + 0x2010, 1, 1⟩
def HOM_ECC_INJ_DEV_A (h : Nat) : Fld := ⟨0x200000 + 0x10000 * h + 0x2010, 2, 4⟩
def HOM_ECC_INJ_DEV_B (h : Nat) : Fld := ⟨0x200000 + 0x10000 * h + 0x2010, 6, 4⟩
def HOM_ECC_INJ_FIRED (h : Nat) : Fld := ⟨0x200000 + 0x10000 * h + 0x2010, 10, 1⟩
def HOM_ECC_INJ_CLAMPED (h : Nat) : Fld := ⟨0x200000 + 0x10000 * h + 0x2010, 11, 1⟩
def HOM_ECC_MASK_A_VALUE (h : Nat) : Fld := ⟨0x200000 + 0x10000 * h + 0x2018, 0, 64⟩
def HOM_ECC_MASK_B_VALUE (h : Nat) : Fld := ⟨0x200000 + 0x10000 * h + 0x2020, 0, 64⟩
def HOM_ECC_LINE_L (h : Nat) : Fld := ⟨0x200000 + 0x10000 * h + 0x2028, 0, 31⟩
def HOM_ECC_DEV_VALUE (h : Nat) (n : Nat) : Fld := ⟨0x200000 + 0x10000 * h + 0x2100 + 4 * n, 0, 32⟩
def HOM_SCB_START_VALUE : Fld := ⟨0x200000 + 0x3000, 0, 41⟩
def HOM_SCB_END_VALUE : Fld := ⟨0x200000 + 0x3008, 0, 41⟩
def HOM_SCB_SUM_DPA_VALUE : Fld := ⟨0x200000 + 0x3010, 0, 41⟩
def HOM_SCB_CTRL_SCRUB : Fld := ⟨0x200000 + 0x3018, 0, 1⟩
def HOM_SCB_CTRL_WIPE : Fld := ⟨0x200000 + 0x3018, 1, 1⟩
def HOM_SCB_CTRL_ABORT : Fld := ⟨0x200000 + 0x3018, 2, 1⟩
def HOM_SCB_CTRL_IRQ : Fld := ⟨0x200000 + 0x3018, 3, 1⟩
def HOM_SCB_CTRL_RATE : Fld := ⟨0x200000 + 0x3018, 4, 7⟩
def HOM_SCB_CTRL_VECTOR : Fld := ⟨0x200000 + 0x3018, 16, 9⟩
def HOM_SCB_STATUS_BUSY : Fld := ⟨0x200000 + 0x3020, 0, 1⟩
def HOM_SCB_STATUS_OP : Fld := ⟨0x200000 + 0x3020, 1, 1⟩
def HOM_SCB_STATUS_RESULT : Fld := ⟨0x200000 + 0x3020, 2, 2⟩
def HOM_SCB_STATUS_REFUSED : Fld := ⟨0x200000 + 0x3020, 4, 1⟩
def HOM_SCB_STATUS_CLAMPED : Fld := ⟨0x200000 + 0x3020, 5, 1⟩
def HOM_SCB_OLDEST_AGE : Fld := ⟨0x200000 + 0x3028, 0, 8⟩
def HOM_SCB_OLDEST_REGION : Fld := ⟨0x200000 + 0x3028, 8, 20⟩
def HOM_SEAL_KEY_VALUE (n : Nat) : Fld := ⟨0x200000 + 0x4000 + 8 * n, 0, 64⟩
def HOM_SEAL_CMD_LOAD : Fld := ⟨0x200000 + 0x4040, 0, 1⟩
def HOM_SEAL_CMD_WARD : Fld := ⟨0x200000 + 0x4040, 1, 3⟩
def HOM_SEAL_STATUS_KEY_SET : Fld := ⟨0x200000 + 0x4048, 0, 8⟩
def HOM_SEAL_STATUS_BUSY : Fld := ⟨0x200000 + 0x4048, 8, 1⟩
def HOM_SEAL_STATUS_REFUSED : Fld := ⟨0x200000 + 0x4048, 9, 1⟩
def ENG_CTRL_RESET (e : Nat) : Fld := ⟨0x300000 + 0x1000 * e + 0x0, 0, 1⟩
def ENG_CTRL_PAUSE (e : Nat) : Fld := ⟨0x300000 + 0x1000 * e + 0x0, 1, 1⟩
def ENG_CTRL_FEED_EN (e : Nat) : Fld := ⟨0x300000 + 0x1000 * e + 0x0, 2, 1⟩
def ENG_CTRL_CLAMPED (e : Nat) : Fld := ⟨0x300000 + 0x1000 * e + 0x0, 3, 1⟩
def ENG_CTRL_FEED_TILE (e : Nat) : Fld := ⟨0x300000 + 0x1000 * e + 0x0, 8, 8⟩
def ENG_STATUS_QUEUED (e : Nat) : Fld := ⟨0x300000 + 0x1000 * e + 0x8, 0, 4⟩
def ENG_STATUS_RUNNING (e : Nat) : Fld := ⟨0x300000 + 0x1000 * e + 0x8, 4, 1⟩
def ENG_STATUS_RESETTING (e : Nat) : Fld := ⟨0x300000 + 0x1000 * e + 0x8, 5, 1⟩
def ENG_STATUS_RING_FAULT (e : Nat) : Fld := ⟨0x300000 + 0x1000 * e + 0x8, 6, 1⟩
def ENG_RING_BASE_BASE (e : Nat) : Fld := ⟨0x300000 + 0x1000 * e + 0x10, 0, 47⟩
def ENG_RING_LOG2_LOG2 (e : Nat) : Fld := ⟨0x300000 + 0x1000 * e + 0x18, 0, 4⟩
def ENG_RING_TAIL_TAIL (e : Nat) : Fld := ⟨0x300000 + 0x1000 * e + 0x20, 0, 16⟩
def ENG_RING_HEAD_HEAD (e : Nat) : Fld := ⟨0x300000 + 0x1000 * e + 0x28, 0, 16⟩
def ENG_RING_DONE_DONE (e : Nat) : Fld := ⟨0x300000 + 0x1000 * e + 0x30, 0, 16⟩
def ENG_LAST0_VALUE (e : Nat) : Fld := ⟨0x300000 + 0x1000 * e + 0x40, 0, 64⟩
def ENG_LAST1_VALUE (e : Nat) : Fld := ⟨0x300000 + 0x1000 * e + 0x48, 0, 64⟩
def ENG_CNT_DESCS (e : Nat) : Fld := ⟨0x300000 + 0x1000 * e + 0x800, 0, 32⟩
def ENG_CNT_SECOND (e : Nat) : Fld := ⟨0x300000 + 0x1000 * e + 0x800, 32, 16⟩
def ENG_CNT_THIRD (e : Nat) : Fld := ⟨0x300000 + 0x1000 * e + 0x800, 48, 16⟩
def ENG_MXE_BLOCKS_VALUE (e : Nat) : Fld := ⟨0x300000 + 0x1000 * e + 0x808, 0, 64⟩
def LNK_STATUS_SPEED : Fld := ⟨0x400000 + 0x0, 0, 4⟩
def LNK_STATUS_WIDTH : Fld := ⟨0x400000 + 0x0, 4, 5⟩
def LNK_STATUS_FLIT256 : Fld := ⟨0x400000 + 0x0, 9, 1⟩
def LNK_STATUS_CXL : Fld := ⟨0x400000 + 0x0, 10, 1⟩
def LNK_STATUS_MEM_ACTIVE : Fld := ⟨0x400000 + 0x0, 11, 1⟩
def LNK_STATUS_L0P_WIDTH : Fld := ⟨0x400000 + 0x0, 12, 5⟩
def LNK_STATUS_IN_L1 : Fld := ⟨0x400000 + 0x0, 17, 1⟩
def LNK_STATUS_DSTATE : Fld := ⟨0x400000 + 0x0, 18, 2⟩
def LNK_PM_L1_IDLE : Fld := ⟨0x400000 + 0x8, 0, 10⟩
def LNK_PM_L0P_EN : Fld := ⟨0x400000 + 0x8, 10, 1⟩
def LNK_PM_CLAMPED : Fld := ⟨0x400000 + 0x8, 11, 1⟩
def LNK_ERR_REPLAY : Fld := ⟨0x400000 + 0x10, 0, 16⟩
def LNK_ERR_FEC_CORR : Fld := ⟨0x400000 + 0x10, 16, 16⟩
def LNK_ERR_RECOVERY : Fld := ⟨0x400000 + 0x10, 32, 16⟩
def LNK_ERR_IDE_FAIL : Fld := ⟨0x400000 + 0x10, 48, 16⟩
def LNK_MEM_ERR_NOMAP : Fld := ⟨0x400000 + 0x18, 0, 16⟩
def LNK_MEM_ERR_BADOP : Fld := ⟨0x400000 + 0x18, 16, 16⟩
def LNK_INTX_PEND_VALUE (n : Nat) : Fld := ⟨0x400000 + 0x100 + 8 * n, 0, 64⟩
def LNK_HLF_CNT_VALUE (n : Nat) : Fld := ⟨0x400000 + 0x200 + 8 * n, 0, 64⟩
def BLK_ADDR_ADDR (b : Nat) : Fld := ⟨0x800000 + 0x1000 * b + 0x0, 0, 47⟩
def BLK_STRIDE_STRIDE (b : Nat) : Fld := ⟨0x800000 + 0x1000 * b + 0x8, 0, 47⟩
def BLK_COUNT_COUNT (b : Nat) : Fld := ⟨0x800000 + 0x1000 * b + 0x10, 0, 32⟩
def BLK_PTR_VALUE (b : Nat) : Fld := ⟨0x800000 + 0x1000 * b + 0x18, 0, 64⟩
def BLK_DONE_VALUE (b : Nat) : Fld := ⟨0x800000 + 0x1000 * b + 0x20, 0, 64⟩
def BLK_STATUS_FAULTS (b : Nat) : Fld := ⟨0x800000 + 0x1000 * b + 0x28, 0, 16⟩
def BLK_STATUS_HELD (b : Nat) : Fld := ⟨0x800000 + 0x1000 * b + 0x28, 16, 1⟩
def BLK_STATUS_CLAMPED (b : Nat) : Fld := ⟨0x800000 + 0x1000 * b + 0x28, 17, 1⟩
def LNT_ACC_ADDR_VALUE : Fld := ⟨0x8000000 + 0x10, 0, 64⟩
def LNT_ACC_CTRL_KIND : Fld := ⟨0x8000000 + 0x18, 0, 3⟩
def LNT_ACC_CTRL_WRITE : Fld := ⟨0x8000000 + 0x18, 3, 1⟩
def LNT_ACC_CTRL_WIDE : Fld := ⟨0x8000000 + 0x18, 4, 1⟩
def LNT_ACC_CTRL_WARD : Fld := ⟨0x8000000 + 0x18, 5, 3⟩
def LNT_ACC_CTRL_TILE : Fld := ⟨0x8000000 + 0x18, 8, 8⟩
def LNT_ACC_CTRL_BYTES : Fld := ⟨0x8000000 + 0x18, 16, 8⟩
def LNT_ACC_CTRL_INC : Fld := ⟨0x8000000 + 0x18, 27, 1⟩
def LNT_FREEZE_BITS : Fld := ⟨0x8000000 + 0x40, 0, 6⟩
def LNT_EVENT_KIND : Fld := ⟨0x8000000 + 0x48, 0, 3⟩
def LNT_EVENT_INDEX : Fld := ⟨0x8000000 + 0x48, 3, 4⟩
def LNT_EVENT_TILE : Fld := ⟨0x8000000 + 0x48, 7, 8⟩
def LNT_EVENT_COUNT : Fld := ⟨0x8000000 + 0x48, 32, 32⟩
def LNT_EVENT_PC_VALUE : Fld := ⟨0x8000000 + 0x50, 0, 64⟩
def LNT_EVENT_ADDR_VALUE : Fld := ⟨0x8000000 + 0x58, 0, 64⟩
def LNT_BP_ADDR_VALUE (n : Nat) : Fld := ⟨0x8000000 + 0x100 + 16 * n, 0, 64⟩
def LNT_BP_CTRL_EN (n : Nat) : Fld := ⟨0x8000000 + 0x108 + 16 * n, 0, 1⟩
def LNT_BP_CTRL_SCOPE (n : Nat) : Fld := ⟨0x8000000 + 0x108 + 16 * n, 1, 2⟩
def LNT_BP_CTRL_TARGET (n : Nat) : Fld := ⟨0x8000000 + 0x108 + 16 * n, 3, 8⟩
def LNT_BP_CTRL_ACTION (n : Nat) : Fld := ⟨0x8000000 + 0x108 + 16 * n, 11, 2⟩
def LNT_BP_CTRL_ONESHOT (n : Nat) : Fld := ⟨0x8000000 + 0x108 + 16 * n, 13, 1⟩
def LNT_BP_CTRL_LOAD (n : Nat) : Fld := ⟨0x8000000 + 0x108 + 16 * n, 14, 1⟩
def LNT_BP_CTRL_STORE (n : Nat) : Fld := ⟨0x8000000 + 0x108 + 16 * n, 15, 1⟩
def LNT_BP_CTRL_LOG2SIZE (n : Nat) : Fld := ⟨0x8000000 + 0x108 + 16 * n, 16, 6⟩
def LNT_WP_ADDR_VALUE (n : Nat) : Fld := ⟨0x8000000 + 0x180 + 16 * n, 0, 64⟩
def LNT_WP_CTRL_EN (n : Nat) : Fld := ⟨0x8000000 + 0x188 + 16 * n, 0, 1⟩
def LNT_WP_CTRL_SCOPE (n : Nat) : Fld := ⟨0x8000000 + 0x188 + 16 * n, 1, 2⟩
def LNT_WP_CTRL_TARGET (n : Nat) : Fld := ⟨0x8000000 + 0x188 + 16 * n, 3, 8⟩
def LNT_WP_CTRL_ACTION (n : Nat) : Fld := ⟨0x8000000 + 0x188 + 16 * n, 11, 2⟩
def LNT_WP_CTRL_ONESHOT (n : Nat) : Fld := ⟨0x8000000 + 0x188 + 16 * n, 13, 1⟩
def LNT_WP_CTRL_LOAD (n : Nat) : Fld := ⟨0x8000000 + 0x188 + 16 * n, 14, 1⟩
def LNT_WP_CTRL_STORE (n : Nat) : Fld := ⟨0x8000000 + 0x188 + 16 * n, 15, 1⟩
def LNT_WP_CTRL_LOG2SIZE (n : Nat) : Fld := ⟨0x8000000 + 0x188 + 16 * n, 16, 6⟩
end F

end Sys2Proof.Machine
end

