-- ==== Sys2Proof/Machine/Ops.lean ====
section
/-! DEFINITION. The named operations on the state that many commands share: tables, register fields, what the
device sends, MSI-X, the Beacon, windows, local store, and taking and leaving a tile exception. -/

namespace Sys2Proof

/-! ### Sparse tables -/

def lookupCell {α : Type} (d : α) : List (Nat × α) → Nat → α
  | [], _ => d
  | (k', v) :: r, k => if k = k' then v else lookupCell d r k

def insertCell {α : Type} (k : Nat) (v : α) : List (Nat × α) → List (Nat × α)
  | [] => [(k, v)]
  | c :: r => if c.1 < k then c :: insertCell k v r else (k, v) :: if c.1 = k then r else c :: r

def eraseCell {α : Type} (k : Nat) (l : List (Nat × α)) : List (Nat × α) := l.filter (fun c => c.1 != k)

/-- What key `k` reads as; `d` is what an unlisted key reads as. -/
def Tbl.get {α : Type} (d : α) (t : Tbl α) (k : Nat) : α := lookupCell d t.cells k

/-- The table with `v` at `k`; writing what an unlisted key reads as removes the entry. -/
def Tbl.put {α : Type} [DecidableEq α] (d : α) (t : Tbl α) (k : Nat) (v : α) : Tbl α :=
  if v = d then ⟨eraseCell k t.cells⟩ else ⟨insertCell k v t.cells⟩

/-- The table without the entries whose key `p` selects. -/
def Tbl.drop {α : Type} (t : Tbl α) (p : Nat → Bool) : Tbl α := ⟨t.cells.filter (fun c => !p c.1)⟩

/-- Keys strictly rising. -/
def ordered {α : Type} (l : List (Nat × α)) : Bool := decide (l.Pairwise (fun a b => a.1 < b.1))

/-- The canonical form: keys strictly rising and no entry equal to what an unlisted key reads as. -/
def Tbl.wf {α : Type} [DecidableEq α] (d : α) (t : Tbl α) : Bool := ordered t.cells && t.cells.all (fun c => decide (c.2 ≠ d))

/-- The index of a function: PF0 is 0, VF n+1 is n + 1. -/
def Func.ix : Func → Nat
  | .pf0 => 0
  | .vf w => w.val + 1

namespace Machine

/-- The outcome of a meaning. -/
abbrev Result := Host.Outcome State Fault Refusal

/-! ### Register fields -/


/-- What is sent by the host link. -/
def Out.onLink : Out → Bool
  | .readData p _ _ => decide (p = .s) || (match p with
    | .w _ => true
    | _ => false)
  | .smbus _ => false
  | .lantern _ _ => false
  | .nackBus => false
  | .linkEvent _ => false
  | _ => true

namespace State

def getF (s : State) (f : Fld) : Nat := s.fld.get (fldReset f.key) f.key
def setF (s : State) (f : Fld) (v : Nat) : State :=
  { s with fld := s.fld.put (fldReset f.key) f.key (v % 2 ^ f.w) }
def isF (s : State) (f : Fld) : Bool := s.getF f != 0
def setB (s : State) (f : Fld) (b : Bool) : State := s.setF f (bN b)
/-- A saturating count (spec 00 R9 and every "saturates" of the register tables). -/
def bumpF (s : State) (f : Fld) (k : Nat) : State := s.setF f (min (2 ^ f.w - 1) (s.getF f + k))
/-- A lowest-sample and a highest-sample field. -/
def lowF (s : State) (f : Fld) (v : Nat) : State := if v < s.getF f then s.setF f v else s
def highF (s : State) (f : Fld) (v : Nat) : State := if s.getF f < v then s.setF f v else s

/-- The stored fields of the register at an offset, put together as its word. -/
def storedWord (s : State) (off : Nat) : Nat :=
  match regAt off with
  | none => 0
  | some (r, base) => r.fields.foldl (fun a f => a + s.getF ⟨base, f.lo, f.w⟩ * 2 ^ f.lo) 0

/-- A supervisor access to a DPA at or above the populated capacity (spec 00 R16; 01 R30). -/
def dpaErr (s : State) (dpa : Nat) : State :=
  ((s.bumpF F.GBL_ACCESS_ERR_COUNT 1).setF F.GBL_ACCESS_ERR_OFFSET dpa).setF F.GBL_ACCESS_ERR_SOURCE 1

/-! ### Parts of the state -/

def tile (s : State) (t : TileId) : Tile := s.tiles.get Tile.init t.val
def setTile (s : State) (t : TileId) (v : Tile) : State := { s with tiles := s.tiles.put Tile.init t.val v }
def updTile (s : State) (t : TileId) (f : Tile → Tile) : State := s.setTile t (f (s.tile t))
def own (s : State) (w : WardId) : Own := s.plan.own.get Own.nothing w.val
def sec (s : State) (w : WardId) : WardSec := s.plan.wards.get WardSec.absent w.val
def key (s : State) (w : WardId) : Option (BitVec 512) := s.keys.get none w.val
def lampw (s : State) (w : WardId) : LampWard := s.lamp.get LampWard.init w.val
def setLampw (s : State) (w : WardId) (v : LampWard) : State := { s with lamp := s.lamp.put LampWard.init w.val v }
def engine (s : State) (e : EngId) : Engine := s.engines.get Engine.init e.val
def setEngine (s : State) (e : EngId) (v : Engine) : State := { s with engines := s.engines.put Engine.init e.val v }
def quarter (s : State) (q : QuarterId) : Quarter := s.quarters.get Quarter.init q.val
def setQuarter (s : State) (q : QuarterId) (v : Quarter) : State := { s with quarters := s.quarters.put Quarter.init q.val v }
/-- Home `h`, or the host-line filter for `h` = 16. -/
def homeN (s : State) (h : Nat) : Home := s.homes.get Home.init h
def setHomeN (s : State) (h : Nat) (v : Home) : State := { s with homes := s.homes.put Home.init h v }
def pin (s : State) (p : Fin 8) : EvtPin := s.pins.get EvtPin.init p.val
def setPin (s : State) (p : Fin 8) (v : EvtPin) : State := { s with pins := s.pins.put EvtPin.init p.val v }
def gateBuf (s : State) (g : Nat) : List Packet := s.gateBufs.get [] g
def setGateBuf (s : State) (g : Nat) (v : List Packet) : State := { s with gateBufs := s.gateBufs.put [] g v }
/-- Send something outside; traffic on the host link ends L1 (spec 15 R419). -/
def emit (s : State) (o : Out) : State :=
  { s with out := s.out ++ [o], link := if o.onLink then { s.link with l1 := false } else s.link }
/-- The next free value, and the state with the counter advanced (DESIGN CHOICE, log 3). -/
def free (s : State) : Nat × State := (Config.freeNat s.freeCtr, { s with freeCtr := s.freeCtr + 1 })

/-! ### Register accesses that reach nothing (spec 00 R9; 01 R20) -/

/-- The count of an access that R9 counts. -/
def countAccess (s : State) (p : Port) (off : Nat) : State :=
  match p with
  | .w w => (s.bumpF (F.WRD_ACCESS_ERR_COUNT w.val) 1).setF (F.WRD_ACCESS_ERR_OFFSET w.val) off
  | _ => ((s.bumpF F.GBL_ACCESS_ERR_COUNT 1).setF F.GBL_ACCESS_ERR_OFFSET off).setF F.GBL_ACCESS_ERR_SOURCE 0

/-! ### Ownership (spec 01 R17, R18) -/

def tileWard (s : State) (t : TileId) : Option WardId :=
  (List.finRange 8).find? (fun w => (s.own w).tiles.getLsbD t.val)
def engineWard (s : State) (e : EngId) : Option WardId :=
  (List.finRange 8).find? (fun w => (s.own w).engines.getLsbD e.val)
/-- The cache ways of a ward in a quarter: its WAYS bits outside the scratch ways. -/
def waysOf (s : State) (w : WardId) (q : QuarterId) : BitVec 16 :=
  ((s.own w).ways.getD q.val 0) &&& ~~~ ((s.own w).scratch.getD q.val 0)
/-- All scratch ways of a quarter. -/
def scratchWays (s : State) (q : QuarterId) : BitVec 16 :=
  (List.finRange 8).foldl (fun a w => a ||| (s.own w).scratch.getD q.val 0) 0
def resettingWard (s : State) (w : WardId) : Bool := s.isF (F.WRD_STATUS_RESETTING w.val)
def swapping (s : State) (w : WardId) : Bool := s.isF (F.WRD_STATUS_SWAPPING w.val)
def quarantined (s : State) (w : WardId) : Bool := s.isF (F.WRD_STATUS_QUARANTINED w.val)
/-- The whole core domain runs (spec 17 R469 step 5 on). -/
def coreRuns (s : State) : Bool := s.power.coreUp
end State

/-- Set bits of a 16-bit mask. -/
def popBits (m : BitVec 16) : Nat := (List.range 16).foldl (fun a i => a + bN (m.getLsbD i)) 0

/-! ### Configuration space bits (spec 15 R402, R403; layouts: PRESUMED, log 11) -/

/-- Configuration space after reset, as 32-bit words: PF0 (spec 15 R402–R406; PRESUMED, log 11). -/
def cfgWordsPf : List (Nat × Nat) :=
  [(0x00, 0x8640C9A5), (0x04, 0x00100000), (0x08, 0x12000002), (0x10, 4), (0x18, 4), (0x20, 4), (0x2C, 0x8640C9A5), (0x34, 0x40), (0x3C, 0x100),
   (0x40, 0x00028010), (0x44, 0x10000000), (0x4C, 0x00018906), (0x80, 0xC0039001), (0x84, 8), (0x90, 0x01FF0011), (0x94, 4), (0x98, 0x2004)]
  ++ [(0x100, 0x14820001), (0x108, 0x00400000), (0x10C, 0x00462030), (0x114, 0x0000E000), (0x148, 0x18810010), (0x154, 0x00080008), (0x15C, 0x00010001), (0x160, 0x86410000), (0x16C, 4), (0x174, 4), (0x17C, 4),
   (0x188, 0x1901000E), (0x190, 0x1C010019), (0x1C0, 0x1D010025), (0x1D0, 0x20010026), (0x200, 0x2301002A), (0x230, 0x25010031),
   (0x250, 0x2A010027), (0x2A0, 0x2C01002E), (0x2C0, 0x38010030)]
  ++ [(0x380, 0x3C010023), (0x384, 0x03C11E98), (0x388, 0x4AD70000), (0x38C, 0x2), (0x394, 0x40020000),
   (0x3C0, 0x3E010023), (0x3C4, 0x02011E98), (0x3C8, 7), (0x3E0, 0x00010023), (0x3E4, 0x01401E98), (0x3E8, 8), (0x3EC, 0x00410100)]

/-- The same of a VF. -/
def cfgWordsVf : List (Nat × Nat) :=
  [(0x00, 0x8641C9A5), (0x04, 0x00100000), (0x08, 0x12000002), (0x2C, 0x8640C9A5), (0x34, 0x40), (0x40, 0x00029010), (0x44, 0x10000000),
   (0x90, 0x007F0011), (0x94, 4), (0x98, 0x804), (0x100, 0x1101000E), (0x110, 0x00020001), (0x118, 0x00400000),
   (0x11C, 0x00462030), (0x124, 0x0000E000)]

/-- The bytes configuration space holds after reset. -/
def cfgReset (fn off : Nat) : Byte :=
  BitVec.ofNat 8 (lookupCell 0 (if fn = 0 then cfgWordsPf else cfgWordsVf) (off - off % 4) >>> (8 * (off % 4)))

namespace State

def cfgByte (s : State) (fn off : Nat) : Byte := s.link.cfg.get (cfgReset fn off) (fn * 4096 + off)
def setCfgByte (s : State) (fn off : Nat) (b : Byte) : State :=
  { s with link := { s.link with cfg := s.link.cfg.put (cfgReset fn off) (fn * 4096 + off) b } }
def cfgBit (s : State) (fn off bit : Nat) : Bool := (s.cfgByte fn off).getLsbD bit
def setCfgBit (s : State) (fn off bit : Nat) (b : Bool) : State :=
  s.setCfgByte fn off (BitVec.ofNat 8 (putBitN (s.cfgByte fn off).toNat bit b))
/-! ### Error reporting (spec 16 R451; the registers' layout and first values: PRESUMED, log 11) -/

/-- Where the AER capability of a function stands: status, mask and severity of uncorrectable errors follow at 4, 8 and
12, status and mask of correctable errors at 16 and 20. -/
def aerBase (fn : Func) : Nat := match fn with
  | .pf0 => 0x100
  | .vf _ => 0x110

/-- Bit `b` of the 32-bit configuration word at `off`. -/
def cfgWordBit (s : State) (fn off b : Nat) : Bool := s.cfgBit fn (off + b / 8) (b % 8)

/-- An error is reported: its status bit is set, and its message goes out unless its mask bit is set. -/
def reportAer (s : State) (fn : Func) (unc : Bool) (bit : Nat) (what : String) : State :=
  let at_ := if unc then aerBase fn + 4 else aerBase fn + 16
  let t := s.setCfgBit fn.ix (at_ + bit / 8) (bit % 8) true
  if s.cfgWordBit fn.ix (at_ + 4) bit then t else t.emit (.aer fn (unc && s.cfgWordBit fn.ix (at_ + 8) bit) what)

/-- The first unmasked error of a TLP logs its header; the rows carry no TLP, so that the header's bytes are free values
(log 3, log 11). -/
def logHeader (s : State) (fn : Func) (bit : Nat) : State :=
  let b := aerBase fn
  if s.cfgWordBit fn.ix (b + 8) bit || (List.range 32).any (s.cfgWordBit fn.ix (b + 4)) then s
  else
    let (v, s) := s.free
    (List.range 16).foldl (fun s i => s.setCfgByte fn.ix (b + 0x1C + i) (BitVec.ofNat 8 (v >>> (8 * i)))) (s.setCfgByte fn.ix (b + 0x18) (BitVec.ofNat 8 bit))

/-- An error of a TLP that a function received is reported. -/
def reportTlp (s : State) (fn : Func) (bit : Nat) (what : String) : State := (s.logHeader fn bit).reportAer fn true bit what

/-- The CXL RAS words: uncorrectable status, mask and severity, correctable status and mask. -/
def rasReset (i : Nat) : Nat := if i = 1 ∨ i = 2 then 0x1CFFF else if i = 4 then 0x7F else 0
def rasWord (s : State) (i : Nat) : Nat := s.link.ras.get (rasReset i) i
def setRas (s : State) (i v : Nat) : State := { s with link := { s.link with ras := s.link.ras.put (rasReset i) i v } }

/-- A CXL RAS report: its status bit is set, and it is signalled unless its mask bit is set. -/
def reportRas (s : State) (unc : Bool) (bit : Nat) (what : String) : State :=
  let i := if unc then 0 else 3
  let t := s.setRas i (putBitN (s.rasWord i) bit true)
  if bitN (s.rasWord (i + 1)) bit then t else t.emit (.ras what)

/-- A memory request to a function in D3hot (spec 15 R417; 16 R451). -/
def unsupportedReq (s : State) (f : Func) : State :=
  if s.power.cfgReady && s.link.d3hot then s.reportTlp f 20 "Unsupported Request" else s
/-- A register access of a port that register space does not answer (DESIGN CHOICE, log 2). -/
def turnedAway (s : State) (p : Port) : State :=
  match p with
  | .s => s.unsupportedReq .pf0
  | .w w => s.unsupportedReq (.vf w)
  | _ => s

/-- A VF answers while VF Enable is 1 and NumVFs reaches it (15, SR-IOV capability; PRESUMED, log 11). -/
def vfPresent (s : State) (w : WardId) : Bool :=
  s.cfgBit 0 0x150 0 && decide (w.val < (s.cfgByte 0 0x158).toNat + 256 * (s.cfgByte 0 0x159).toNat)
/-- Memory Space Enable of a function; of a VF, VF MSE (PRESUMED, log 11). -/
def memSpace (s : State) (fn : Func) : Bool :=
  match fn with
  | .pf0 => s.cfgBit 0 0x04 1
  | .vf w => s.vfPresent w && s.cfgBit 0 0x150 3
/-- Register space of a function answers the host: from step 6 on, outside D3hot, while its memory space is enabled
(spec 15 R417; 17 R469, R471; PRESUMED, log 11). -/
def fnOpen (s : State) (fn : Func) : Bool := s.power.cfgReady && !s.link.d3hot && s.memSpace fn
def mmioOpen (s : State) : Bool := s.fnOpen .pf0
/-- The command comes from S, and register space answers. -/
def fromS (s : State) (p : Port) : Bool := decide (p = .s) && s.mmioOpen
/-- MSI-X Enable and Function Mask of a function: Message Control at capability + 2. -/
def msixEnable (s : State) (fn : Nat) : Bool := s.cfgBit fn 0x93 7
def msixFnMask (s : State) (fn : Nat) : Bool := s.cfgBit fn 0x93 6
def intxDisable (s : State) : Bool := s.cfgBit 0 0x05 2
def pmeEn (s : State) : Bool := s.cfgBit 0 0x85 0
/-- Viral_Enable of the CXL Devices DVSEC control register. -/
def viralEnable (s : State) : Bool := s.cfgBit 0 0x38D 6
def msixAt (s : State) (fn v : Nat) : MsixEntry := s.link.msix.get MsixEntry.init (fn * 1024 + v)
def setMsix (s : State) (fn v : Nat) (e : MsixEntry) : State :=
  { s with link := { s.link with msix := s.link.msix.put MsixEntry.init (fn * 1024 + v) e } }

/-- Some bit of LNK_INTX_PEND is set. -/
def intxPending (s : State) : Bool := (List.range 8).any (fun k => s.isF (F.LNK_INTX_PEND_VALUE k))

/-- Assert_INTA while any bit of LNK_INTX_PEND is set and Interrupt Disable is 0 (spec 15 R416). -/
def updIntx (s : State) : State :=
  let want := s.intxPending && !s.intxDisable && !s.msixEnable 0
  if want == s.link.intaSent then s
  else { s with link := { s.link with intaSent := want } }.emit (.intx want)

/-- A vector becomes pending while PF0 is in D3hot (spec 15 R418). -/
def pmeOnPending (s : State) : State :=
  if s.link.d3hot && s.pmeEn then (s.setCfgBit 0 0x85 7 true).emit .pme else s

/-- A source raises vector `v` of a function (spec 15 R415, R416, R417; 02 R61). -/
def raiseMsix (s : State) (fn : Func) (v : Nat) : State :=
  match fn with
  | .vf w =>
    if (s.own w).vectors ≤ v then s
    else
      let e := s.msixAt fn.ix v
      if e.masked || s.msixFnMask fn.ix || !s.msixEnable fn.ix || s.link.d3hot then
        (s.setMsix fn.ix v { e with pending := true }).pmeOnPending
      else s.emit (.msix fn e.addr e.data)
  | .pf0 =>
    if 512 ≤ v then s
    else if !s.msixEnable 0 then
      ((s.setF (F.LNK_INTX_PEND_VALUE (v / 64))
        (putBitN (s.getF (F.LNK_INTX_PEND_VALUE (v / 64))) (v % 64) true)).updIntx).pmeOnPending
    else
      let e := s.msixAt 0 v
      if e.masked || s.msixFnMask 0 || s.link.d3hot then
        (s.setMsix 0 v { e with pending := true }).pmeOnPending
      else s.emit (.msix .pf0 e.addr e.data)

/-! ### The Beacon (spec 16) -/

/-- A field of record `g` of the record block at `base`: the device's (0x30000) or a ward view's. -/
def recF (base g sub lo w : Nat) : Fld := ⟨base + 0x100 + 0x20 * g + sub, lo, w⟩

/-- Latch an event in one record block (spec 16 R436). -/
def latchAt (s : State) (base : Nat) (ev : Event) : State :=
  let b : Fld := ⟨base, 0, 49⟩
  let cur := s.getF b
  let s1 :=
    if bitN cur ev.group then
      (s.highF (recF base ev.group 0 0 2) ev.cls).setF (recF base ev.group 0 24 1) 1
    else
      (((((((s.setF b (putBitN cur ev.group true)).setF (recF base ev.group 0 0 2) ev.cls).setF
        (recF base ev.group 0 2 2) ev.cls).setF (recF base ev.group 0 4 4) ev.kind).setF
        (recF base ev.group 0 8 8) ev.unit).setF (recF base ev.group 0 16 8) ev.wards.toNat).setF
        (recF base ev.group 0 24 1) 0).setF (recF base ev.group 8 0 64) ev.detail.toNat
        |>.setF (recF base ev.group 16 0 64) s.supTime
  if ev.cls = 1 then s1.bumpF (recF base ev.group 0x18 0 32) 1
  else if ev.cls = 2 then s1.bumpF (recF base ev.group 0x18 32 16) 1
  else s1.bumpF (recF base ev.group 0x18 48 16) 1

/-- QUAR on ward `w` (spec 16 R442): dispatch, descriptor acceptance and GETWORK read the flag (DEDUCED, log 79). -/
def quarantine (s : State) (w : WardId) : State :=
  if s.resettingWard w then s else s.setF (F.WRD_STATUS_QUARANTINED w.val) 1

/-- VIRAL (spec 16 R443). -/
def enterViral (s : State) : State :=
  if s.viralEnable then
    if s.link.viral then s
    else (({ s with link := { s.link with viral := true } }.setF F.FLT_STATUS_VIRAL 1).setCfgBit 0 0x38F 6 true).emit .viralSignal
  else s.setF F.FLT_STATUS_VIRAL_OFF 1

/-- LOG: the queue of 16 in VAUX-powered memory (spec 16 R449). -/
def queueLog (s : State) (e : LogEntry) : State :=
  if s.logQueue.length < 16 then { s with logQueue := s.logQueue ++ [e] }
  else { s with logQueue := s.logQueue.dropLast ++
      ((s.logQueue.getLast?).map (fun x => { x with suppressed := min 0xFFFF (x.suppressed + 1) })).toList }

/-- What the host is told of an event besides the reactions (spec 16 R451). -/
def tellHost (s : State) (ev : Event) : State :=
  let d := ev.detail.toNat % 16
  if ev.cls = 3 then
    let s := s.reportAer .pf0 true 22 "Uncorrectable Internal Error"
    if ev.kind = 10 ∧ d = 5 then s.reportRas true 16 "CXL IDE Rx Error" else s.reportRas true 14 "Internal Error"
  else if ev.cls = 1 then
    if ev.kind = 10 ∧ d = 1 then s.reportAer .pf0 false 6 "Bad TLP"
    else if ev.kind = 10 ∧ d = 2 then s.reportAer .pf0 false 8 "REPLAY_NUM Rollover"
    else s.reportAer .pf0 false 14 "Corrected Internal Error"
  else if ev.kind = 10 ∧ d = 4 then s.reportAer .pf0 true 28 "IDE Check Failed"
  else s

def reactBits (s : State) (ev : Event) : Nat :=
  if ev.cls = 1 then s.getF (F.FLT_REACT_C_ACT ev.group)
  else if ev.cls = 2 then s.getF (F.FLT_REACT_U_ACT ev.group)
  else s.getF (F.FLT_REACT_F_ACT ev.group)

def classVec (s : State) (cls : Nat) : Nat :=
  if cls = 1 then s.getF F.FLT_VEC_C_VEC else if cls = 2 then s.getF F.FLT_VEC_U_VEC else s.getF F.FLT_VEC_F_VEC

def wvecF (w : WardId) : Fld := ⟨0x30020, 8 * w.val, 7⟩

def inScope (ev : Event) (w : WardId) : Bool := ev.wards.getLsbD w.val

/-- The reactions of an event (spec 16 R440, R441), with the entry as it stands at the latch. The event of a
failed log write is not logged (R449). -/
def react (s : State) (ev : Event) : State :=
  let a := s.reactBits ev
  let vec := s.classVec ev.cls
  let s := if bitN a 5 then s.setF F.FLT_STATUS_FAULTN 1 else s
  let s := if bitN a 3 then
      { s with smbAlert := true, mgmt := { s.mgmt with alertMask := s.mgmt.alertMask ||| BitVec.ofNat 64 (2 ^ ev.group) } } else s
  let s := if bitN a 4 then s.enterViral else s
  let s := if bitN a 2 then
      (List.finRange 8).foldl (fun s w =>
        if inScope ev w || (ev.wards == 0 && (s.sec w).loaded) then s.quarantine w else s) s else s
  let s := if bitN a 0 then s.raiseMsix .pf0 vec else s
  let s := if bitN a 1 then
      (List.finRange 8).foldl (fun s w => if inScope ev w then s.raiseMsix (.vf w) (s.getF (wvecF w)) else s) s else s
  if bitN a 6 && !(ev.group == 48 && ev.kind == 2) then s.queueLog ⟨ev, false, 0, s.supTime⟩ else s

/-- A fault event reaches the Beacon: latched, counted, reacted to, reported (spec 16 R436, R439, R441, R451; DEDUCED, log 73). -/
def event (s : State) (ev : Event) : State :=
  let s1 := s.latchAt 0x30000 ev
  let s2 := (List.finRange 8).foldl (fun s w => if inScope ev w then s.latchAt (0x34000 + 0x1000 * w.val) ev else s) s1
  (s2.react ev).tellHost ev

def wardBit (w : Option WardId) : BitVec 8 :=
  match w with
  | none => 0
  | some w => BitVec.ofNat 8 (2 ^ w.val)

/-- Every ward that owns tiles in a quarter (spec 16 R435). -/
def quarterWards (s : State) (q : QuarterId) : BitVec 8 :=
  (List.finRange 8).foldl (fun a w => if (s.own w).tiles.toNat >>> (16 * q.val) % 65536 = 0 then a else a ||| wardBit (some w)) 0

/-! ### Windows (spec 01 R27, R28) -/

end State

/-- Access kinds of window permissions. -/
inductive AccKind where
  | read | write | atomic | fetch
  deriving DecidableEq, Repr

/-- Where an access goes. -/
structure Xlat where
  host : Bool
  addr : Nat
  sealed : Bool
  relaxed : Bool
  ido : Bool
  deriving DecidableEq, Repr

def Win.valid (w : Win) : Bool := w.flags.getLsbD 0
def Win.host (w : Win) : Bool := w.flags.getLsbD 1
def Win.canRead (w : Win) : Bool := w.flags.getLsbD 2
def Win.canWrite (w : Win) : Bool := w.flags.getLsbD 3
def Win.canExec (w : Win) : Bool := w.flags.getLsbD 4
def Win.seal (w : Win) : Bool := w.flags.getLsbD 5
def Win.commons (w : Win) : Bool := w.flags.getLsbD 6

/-- The permission cause of an access kind, none when permitted (spec 01 R28; 04 R144). -/
def permCause (win : Win) : AccKind → Option Nat
  | .read => if win.canRead then none else some 3
  | .write => if win.canWrite then none else some 2
  | .atomic => if !win.canWrite then some 2 else if !win.canRead then some 3 else none
  | .fetch => if win.canExec then none else some 4

namespace State

/-- Translation of ward address `a`, length `n` (spec 01 R27): a cause of R28, or where the access goes. -/
def translate (s : State) (w : WardId) (a n : Nat) (k : AccKind) : Nat ⊕ Xlat :=
  if 2 ^ 47 ≤ a then .inl 7
  else match (s.sec w).windows.find? (fun win => win.valid && decide (win.base ≤ a) && decide (a < win.base + win.size)) with
    | none => .inl 1
    | some win =>
      if win.base + win.size < a + n then .inl 5
      else match permCause win k with
        | some c => .inl c
        | none =>
          if win.seal && (s.key w).isNone then .inl 6
          else .inr ⟨win.host, win.target + (a - win.base), win.seal, win.flags.getLsbD 7, win.flags.getLsbD 8⟩

/-- Record a window fault (spec 01 R29, R47). -/
def winFault (s : State) (w : WardId) (cause addr : Nat) : State :=
  ((s.bumpF (F.WRD_WINFAULT_COUNT w.val) 1).setF (F.WRD_WINFAULT_CAUSE w.val) cause).setF (F.WRD_WINFAULT_ADDR w.val) addr

end State

/-! ### Local store (spec 04 R121, R122) -/

/-- `n` bytes of local store from offset `o`, little-endian. -/
def Tile.lsRead (t : Tile) (o : Nat) : Nat → Nat
  | 0 => 0
  | n + 1 => (t.ls.get 0 o).toNat + 256 * t.lsRead (o + 1) n

def Tile.lsWriteBytes (t : Tile) (o : Nat) : List Byte → Tile
  | [] => t
  | b :: r => { t with ls := t.ls.put 0 o b, lsBad := t.lsBad.put false o false, lsFix := t.lsFix.put false o false }.lsWriteBytes (o + 1) r

/-- Set or clear the poison marks of the 8-byte words that [o, o + n) touches. -/
def Tile.markWords (t : Tile) (o : Nat) (b : Bool) : Nat → Tile
  | 0 => t
  | n + 1 => { t with lsPoison := t.lsPoison.put false (o / 8) b }.markWords (o + 8) b n

/-- Some word that [o, o + n) touches is marked. -/
def Tile.marked (t : Tile) (o n : Nat) : Bool :=
  (List.range ((o + n + 7) / 8 - o / 8)).any (fun i => t.lsPoison.get false (o / 8 + i))
/-- Some byte of [o, o + n) has an uncorrectable error. -/
def Tile.lsError (t : Tile) (o n : Nat) : Bool := (List.range n).any (fun i => t.lsBad.get false (o + i))
/-- No byte of [o, o + n) has an error. -/
def Tile.lsSound (t : Tile) (o n : Nat) : Bool := (List.range n).all (fun i => !t.lsBad.get false (o + i) && !t.lsFix.get false (o + i))

/-- A store of `n` bytes (n = 1, 2, 4, 8) into local store; 8 bytes clear the word's mark (spec 04 R122). -/
def Tile.lsStore (t : Tile) (o n v : Nat) : Tile :=
  let t1 := t.lsWriteBytes o (leBytes n v)
  if n = 8 then t1.markWords o false 1 else t1

/-- The base of the tile-local region and of its three areas (spec 04, The tile-local region). -/
def lsBase : Nat := 0xFFFFF00000000000
def cpBase : Nat := 0xFFFFF00010000000
def qsBase : Nat := 0xFFFFF00020000000
def lsSize : Nat := 0x40000

/-- Is [a, a + n) inside local store? -/
def inLs (a n : Nat) : Bool := decide (lsBase ≤ a) && decide (a + n ≤ lsBase + lsSize)

/-! ### Registers of a tile -/

def regIx (r : BitVec 5) : Fin 32 := r.toFin
/-- g registers: g0 reads 0 (spec 04, Registers). -/
def Tile.rg (t : Tile) (r : BitVec 5) : W64 := if r = 0 then 0 else t.g.get (regIx r)
/-- A write to g0 is discarded (spec 05 R151). -/
def Tile.wg (t : Tile) (r : BitVec 5) (v : W64) : Tile := if r = 0 then t else { t with g := t.g.set (regIx r).val v (regIx r).isLt }
def Tile.rf (t : Tile) (r : BitVec 5) : W32 := t.f.get (regIx r)
def Tile.wf (t : Tile) (r : BitVec 5) (v : W32) : Tile := { t with f := t.f.set (regIx r).val v (regIx r).isLt }

/-- One event `n` times for the programmable counters (spec 04 R147); a wrap sets OVF. -/
def Tile.countEv (t : Tile) (ev : Nat) (k : Nat) : Tile :=
  if t.tOnly && t.k then t
  else (List.finRange 4).foldl (fun t i =>
    if (t.sel.get i).toNat = ev then
      let v := (t.pmc.get i).toNat + k
      { t with pmc := t.pmc.set i.val (BitVec.ofNat 48 v) i.isLt,
               ovf := if v < 2 ^ 48 then t.ovf else t.ovf ||| BitVec.ofNat 4 (2 ^ i.val) }
    else t) t

namespace State

/-- STATUS as software reads it; IP_INBOX and IP_TIMER are level-sensitive (spec 04 R124, R126). -/
def tileStatus (s : State) (t : TileId) : W64 :=
  let tl := s.tile t
  BitVec.ofNat 64 (bN tl.k + 2 * bN tl.ie + 256 * tl.im.toNat + 0x10000 * bN (decide (tl.inbox ≠ []))
    + 0x20000 * bN (decide (tl.timecmp.toNat ≤ s.supTime)) + 0x40000 * bN tl.ipDoorbell)

end State

/-! ### Output tokens of an item (spec 07 R197, R210, R211) -/

def OutEntry.valid (o : OutEntry) : Bool := o.oflags.getLsbD 0
def OutEntry.vectorFlag (o : OutEntry) : Bool := o.oflags.getLsbD 1
def OutEntry.gateFlag (o : OutEntry) : Bool := o.oflags.getLsbD 2

namespace State

def nodeByKey (s : State) (w : WardId) (k : BitVec 32) : Option PlanNode := (s.sec w).nodes.find? (fun n => n.key == k)
def nodeByIndex (s : State) (w : WardId) (i : Nat) : Option PlanNode := (s.sec w).nodes.find? (fun n => n.index == i)

/-- The tokens and vectors of an item's OUT entries. A token of an entry with GATE goes to the gate of the
entry, any other is resolved by key in the same ward. -/
def emitOuts (s : State) (w : WardId) (nodeKey tag : BitVec 32) (poison : Bool) (payload : BitVec 128) (src : TokSrc) : State :=
  match s.nodeByKey w nodeKey with
  | none => s
  | some nd => nd.outs.foldl (fun s o =>
      if !o.valid then s
      else if o.vectorFlag then s.raiseMsix (.vf w) o.vector.toNat
      else
        let fl : Nat := bN poison + (if o.gateFlag then 32 else 8)
        { s with arrivals := s.arrivals ++
          [(w, ⟨o.target, o.port, BitVec.ofNat 8 fl, BitVec.ofNat 8 w.val, 0, tag, 0, payload⟩, src)] }) s

/-- A trace record (spec 07 R223). -/
def traceRec (s : State) (it : Item) (kind dest waited : Nat) : List Byte :=
  let depth := ((s.lampw it.ward).ready.filter (fun r => r.cls == it.cls)).length
  leBytes 8 s.supTime ++ leBytes 4 it.node ++ leBytes 4 it.tag.toNat ++ leBytes 4 it.key.toNat
    ++ [BitVec.ofNat 8 kind, it.cls] ++ leBytes 2 dest ++ leBytes 4 waited ++ leBytes 2 depth
    ++ [BitVec.ofNat 8 (bN (it.ppoison != 0) + 2 * bN it.last), 0]

/-- A dispatch decision or a failure is recorded in trace mode. -/
def pushTrace (s : State) (it : Item) (kind dest waited : Nat) : State :=
  if s.isF (F.LMPW_CTRL_TRACE_EN it.ward.val) then
    let lw := s.lampw it.ward
    s.setLampw it.ward { lw with traceQ := lw.traceQ ++ [s.traceRec it kind dest waited] }
  else s

/-- What the device emits for a failed item (spec 07 R211): poisoned output tokens with the reason, vectors,
FAILED and LAST_KEY; nothing during a ward reset. -/
def failNotice (s : State) (it : Item) (reason : Nat) : State :=
  if s.resettingWard it.ward then s
  else
    (((s.emitOuts it.ward it.key it.tag true (BitVec.ofNat 128 reason) .failure).bumpF
      (F.LMPW_FAILED_FAILED it.ward.val) 1).setF (F.LMPW_FAILED_LAST_KEY it.ward.val) it.key.toNat).pushTrace it 3 0xFFFF reason

/-- A dispatched item fails. -/
def failItem (s : State) (it : Item) (reason : Nat) : State :=
  let lw := s.lampw it.ward
  (s.setLampw it.ward { lw with running := lw.running.filter (fun r => r.item.seq != it.seq) }).failNotice it reason

/-- Fail the item a tile holds, if it holds one. -/
def failHeld (s : State) (t : TileId) (reason : Nat) : State :=
  match (s.tile t).item with
  | none => s
  | some it => (s.updTile t (fun tl => { tl with item := none })).failItem it reason

/-! ### Exceptions (spec 04 R127–R135) -/

/-- g2 at which a frame can be pushed (spec 04 R132). -/
def validStack (g2 : W64) : Bool :=
  g2.toNat % 16 == 0 && decide (lsBase + 0x40 ≤ g2.toNat) && decide (g2.toNat ≤ lsBase + lsSize)

/-- CAUSE (spec 04 R127). -/
def causeWord (code wc tn : Nat) : W64 := BitVec.ofNat 64 (code + 256 * wc + 65536 * tn)

/-- The exception that a fetch at `pc` meets, with its WCAUSE: POISON_FETCH in local store, LOCAL_ADDR in the
rest of the tile-local region, FETCH_WINDOW elsewhere (spec 04 R119, R127; 01 R28). A poisoned line of ward
memory is found here by the L1I copy that holds it, else by the fetch that brings it. -/
def fetchFault (s : State) (t : TileId) (pc : W64) : Option (Nat × Nat) :=
  let a := pc.toNat - pc.toNat % 4
  if inLs a 4 then
    if (s.tile t).marked (a - lsBase) 4 then some (0x08, 0)
    else if (s.tile t).lsError (a - lsBase) 4 then some (0x09, 0) else none
  else if lsBase ≤ a then some (0x06, 0)
  else match s.tileWard t with
    | none => some (0x04, 1)
    | some w => match s.translate w a 4 .fetch with
      | .inl c => some (0x04, c)
      | .inr x =>
        if (s.tile t).l1i.any (fun l => decide (l.line = ⟨x.host, x.addr / 64⟩) && l.v.poison) then some (0x08, 0) else none

/-- Record a fetch or data window fault of a tile's exception (spec 01 R29). -/
def recordTileFault (s : State) (t : TileId) (code wc : Nat) (bad : W64) : State :=
  if code = 4 ∨ code = 5 then
    match s.tileWard t with
    | none => s
    | some w => s.winFault w wc bad.toNat
  else s

/-- The event of an uncorrectable local store error met by a read (spec 04 R129; 16 R434, R438). -/
def lsErrorEvent (s : State) (t : TileId) (a : W64) : State :=
  s.event ⟨t.val / 16, 2, 2, t.val % 16 + 32, wardBit (s.tileWard t), a⟩

/-- A read of [o, o + n) of local store corrects the single-bit errors it meets, each a C-class event (spec 04 R129). -/
def lsCorrect (s : State) (t : TileId) (o n : Nat) : State :=
  ((List.range n).filter (fun i => (s.tile t).lsFix.get false (o + i))).foldl (fun s i =>
    (s.updTile t (fun tl => { tl with lsFix := tl.lsFix.put false (o + i) false })).event
      ⟨t.val / 16, 1, 1, t.val % 16 + 32, wardBit (s.tileWard t), BitVec.ofNat 64 (lsBase + o + i)⟩) s

/-- Beacon unit number of a tile: [3:0] tile, [5:4] part (spec 16 R434). -/
def tileUnit (t : TileId) (part : Nat) : Nat := t.val % 16 + 16 * part

/-- The tile strands: the frame goes to TIL_SHF0–7, the item fails with reason 1 and a U-class event is
raised in the quarter's group (spec 04 R132–R134). -/
def strand (s : State) (t : TileId) (why : Nat) (second : Nat) (frame : Vector W64 8) : State :=
  let s := s.updTile t (fun tl => { tl with mode := .stranded, shf := frame, strandWhy := BitVec.ofNat 2 why, secondCode := BitVec.ofNat 6 second, stepDone := tl.stepping, vectoring := none })
  let s := s.failHeld t 1
  s.event ⟨t.val / 16, 2, 8, tileUnit t 0, wardBit (s.tileWard t), frame.get 0⟩

/-- The frame of spec 04 R130 in frame order. -/
def trapFrame (s : State) (t : TileId) (epc cause bad : W64) : Vector W64 8 :=
  let tl := s.tile t
  #v[epc, s.tileStatus t, cause, bad, tl.rg 1, tl.rg 3, tl.rg 4, tl.rg 5]

/-- The 64 bytes of a frame. -/
def frameBytes (fr : Vector W64 8) : List Byte := fr.toList.flatMap (fun w => leBytes 8 w.toNat)

/-- The second exception of a delivery: the tile strands with the frame of the first one (spec 04 R133). -/
def deliveryFault (s : State) (t : TileId) (code wc : Nat) (bad : W64) (frame : Vector W64 8) : State :=
  let s := if code = 9 then s.lsErrorEvent t bad else s
  (s.recordTileFault t code wc bad).strand t 2 code frame

/-- TAKING AN EXCEPTION OR AN INTERRUPT (spec 04 R130, R132, R133): with a valid stack the frame is pushed,
g2, EPC, CAUSE and BADADDR are written, the level becomes K, interrupts are disabled and fetch goes to
VBASE + 16 × CODE; a place of the frame with a standing error fails the check of its write (DEDUCED, log 81); a fault
at the vector, found now or by the vector's fetch, strands the tile with the first frame; with an invalid stack the
tile strands at once (DEDUCED, log 72). -/
def takeException (s : State) (t : TileId) (code wc tn : Nat) (bad epc : W64) : State :=
  let s := s.recordTileFault t code wc bad
  let tl := (s.tile t).countEv (if code < 0x20 then 14 else 15) 1
  let tl := if code = 7 ∨ code = 8 then tl.countEv 16 1 else tl
  let s := s.setTile t tl
  let cause := causeWord code wc tn
  let fr := s.trapFrame t epc cause bad
  let g2 := tl.rg 2
  let s := if code = 9 then s.lsErrorEvent t bad else s
  if validStack g2 then
    let o := g2.toNat - 64 - lsBase
    if (s.tile t).lsError o 64 then s.deliveryFault t 9 0 (g2 - 64) fr
    else
      let tl := s.tile t
      let tl := (tl.lsWriteBytes o (frameBytes fr)).markWords o false 8
      let tl := tl.wg 2 (g2 - 64)
      let tl := { tl with epc := epc, cause := cause, badaddr := bad, k := true, ie := false, pc := tl.vbase + BitVec.ofNat 64 (16 * code), mode := .running, stepDone := tl.stepping,
                          vectoring := some fr }
      let s := s.setTile t tl
      match s.fetchFault t tl.pc with
      | none => s
      | some (c2, wc2) => s.deliveryFault t c2 wc2 (s.tile t).pc fr
  else s.strand t 1 0 fr

/-- ERET's g2: the whole frame lies in local store (spec 04 R131). -/
def eretStack (g2 : W64) : Bool :=
  g2.toNat % 16 == 0 && decide (lsBase ≤ g2.toNat) && decide (g2.toNat ≤ lsBase + lsSize - 64)

/-- RETURNING FROM AN EXCEPTION (spec 04 R131): g1, g3, g4, g5 and STATUS but for its IP bits come from the
frame at g2, g2 rises by 64 and fetch resumes at the frame's EPC. -/
def returnException (s : State) (t : TileId) : State :=
  let tl := s.tile t
  let o := (tl.rg 2).toNat - lsBase
  let wd := fun i => BitVec.ofNat 64 (tl.lsRead (o + 8 * i) 8)
  let st := (wd 1).toNat
  let tl := (((tl.wg 1 (wd 4)).wg 3 (wd 5)).wg 4 (wd 6)).wg 5 (wd 7)
  let tl := tl.wg 2 (tl.rg 2 + 64)
  s.setTile t { tl with k := bitN st 0, ie := bitN st 1, im := BitVec.ofNat 3 (bitsN st 8 3), pc := wd 0, mode := .running }

end State
end Machine
end Sys2Proof
end

