-- ==== Sys2Proof/Machine/Crypto.lean ====
section
/-! DEFINITION. The digests and the cipher that the spec names by their standards: SHA-256 (FIPS 180-4),
CRC-64/XZ, CRC-16/CCITT-FALSE, the SMBus PEC and XTS-AES-256 (IEEE 1619) (spec 02, 09 R266, 14 R383, 16 R448, 18). -/

namespace Sys2Proof.Machine

/-! ### SHA-256 -/

def shaK : List Nat :=
  [0x428a2f98, 0x71374491, 0xb5c0fbcf, 0xe9b5dba5, 0x3956c25b, 0x59f111f1, 0x923f82a4, 0xab1c5ed5] ++
  [0xd807aa98, 0x12835b01, 0x243185be, 0x550c7dc3, 0x72be5d74, 0x80deb1fe, 0x9bdc06a7, 0xc19bf174] ++
  [0xe49b69c1, 0xefbe4786, 0x0fc19dc6, 0x240ca1cc, 0x2de92c6f, 0x4a7484aa, 0x5cb0a9dc, 0x76f988da] ++
  [0x983e5152, 0xa831c66d, 0xb00327c8, 0xbf597fc7, 0xc6e00bf3, 0xd5a79147, 0x06ca6351, 0x14292967] ++
  [0x27b70a85, 0x2e1b2138, 0x4d2c6dfc, 0x53380d13, 0x650a7354, 0x766a0abb, 0x81c2c92e, 0x92722c85] ++
  [0xa2bfe8a1, 0xa81a664b, 0xc24b8b70, 0xc76c51a3, 0xd192e819, 0xd6990624, 0xf40e3585, 0x106aa070] ++
  [0x19a4c116, 0x1e376c08, 0x2748774c, 0x34b0bcb5, 0x391c0cb3, 0x4ed8aa4a, 0x5b9cca4f, 0x682e6ff3] ++
  [0x748f82ee, 0x78a5636f, 0x84c87814, 0x8cc70208, 0x90befffa, 0xa4506ceb, 0xbef9a3f7, 0xc67178f2]

def shaInit : List Nat :=
  [0x6a09e667, 0xbb67ae85, 0x3c6ef372, 0xa54ff53a, 0x510e527f, 0x9b05688c, 0x1f83d9ab, 0x5be0cd19]

def rotr32 (x n : Nat) : Nat := (x >>> n) ||| (x <<< (32 - n)) % 2 ^ 32
def add32 (a b : Nat) : Nat := (a + b) % 2 ^ 32
def not32 (a : Nat) : Nat := 2 ^ 32 - 1 - a

/-- The message schedule, newest word first. -/
def shaSched : Nat → List Nat → List Nat
  | 0, w => w
  | n + 1, w =>
    let x := w.getD 14 0
    let y := w.getD 1 0
    let s0 := rotr32 x 7 ^^^ rotr32 x 18 ^^^ (x >>> 3)
    let s1 := rotr32 y 17 ^^^ rotr32 y 19 ^^^ (y >>> 10)
    shaSched n (add32 (add32 (w.getD 15 0) s0) (add32 (w.getD 6 0) s1) :: w)

def shaRound (st : List Nat) (kw : Nat × Nat) : List Nat :=
  match st with
  | [a, b, c, d, e, f, g, h] =>
    let s1 := rotr32 e 6 ^^^ rotr32 e 11 ^^^ rotr32 e 25
    let ch := (e &&& f) ^^^ (not32 e &&& g)
    let t1 := add32 (add32 (add32 h s1) (add32 ch kw.1)) kw.2
    let s0 := rotr32 a 2 ^^^ rotr32 a 13 ^^^ rotr32 a 22
    let mj := (a &&& b) ^^^ (a &&& c) ^^^ (b &&& c)
    [add32 t1 (add32 s0 mj), a, b, c, add32 d t1, e, f, g]
  | l => l

def beWord (b : List Byte) : Nat := b.foldl (fun a x => a * 256 + x.toNat) 0

def wordsOf : Nat → List Byte → List Nat
  | 0, _ => []
  | n + 1, b => beWord (b.take 4) :: wordsOf n (b.drop 4)

def shaBlock (st : List Nat) (blk : List Byte) : List Nat :=
  let w := (shaSched 48 (wordsOf 16 blk).reverse).reverse
  let r := (shaK.zip w).foldl shaRound st
  (st.zip r).map (fun p => add32 p.1 p.2)

def shaBlocks : Nat → List Nat → List Byte → List Nat
  | 0, st, _ => st
  | n + 1, st, b => shaBlocks n (shaBlock st (b.take 64)) (b.drop 64)

/-- SHA-256 of a byte string, in digest byte order (FIPS 180-4). -/
def sha256Bytes (b : List Byte) : List Byte :=
  let zeros := (119 - b.length % 64) % 64
  let padded := b ++ [0x80#8] ++ List.replicate zeros 0#8 ++ (leBytes 8 (8 * b.length)).reverse
  (shaBlocks (padded.length / 64) shaInit padded).flatMap (fun w => (leBytes 4 w).reverse)

/-! ### CRCs -/

def crcBit (poly : Nat) : Nat → Nat → Nat
  | 0, c => c
  | n + 1, c => crcBit poly n (if c % 2 = 1 then (c / 2) ^^^ poly else c / 2)

/-- A reflected CRC, the register before the final XOR. -/
def crcRefl (poly : Nat) (c : Nat) (b : List Byte) : Nat := b.foldl (fun c x => crcBit poly 8 (c ^^^ x.toNat)) c

/-- CRC-64/XZ of bytes that follow a range whose CRC is `prev` (spec 09 R266). -/
def crc64Xz (prev : Nat) (b : List Byte) : Nat :=
  let ones := 2 ^ 64 - 1
  crcRefl 0xC96C5795D7870F42 (prev ^^^ ones) b ^^^ ones

/-- CRC-16/CCITT-FALSE: polynomial 0x1021, initial 0xFFFF, not reflected (spec 16 R448). -/
def crc16Ccitt (b : List Byte) : Nat :=
  b.foldl (fun c x => (List.range 8).foldl (fun c _ => if c ≥ 32768 then (2 * c) ^^^ 0x11021 else 2 * c) (c ^^^ (x.toNat * 256))) 0xFFFF

/-- CRC-8 of SMBus PEC: polynomial 0x07, initial 0. -/
def crc8Pec (b : List Byte) : Nat :=
  b.foldl (fun c x => (List.range 8).foldl (fun c _ => if c ≥ 128 then ((c * 2) ^^^ 0x107) else c * 2) (c ^^^ x.toNat)) 0

/-! ### AES-256 and XTS -/

def xtime (b : Nat) : Nat := if b ≥ 128 then (2 * b) ^^^ 0x11B else 2 * b
def gmul8 (a b : Nat) : Nat :=
  ((List.range 8).foldl (fun (p : Nat × Nat) i => (if b.testBit i then p.1 ^^^ p.2 else p.1, xtime p.2)) (0, a)).1
def gpow8 : Nat → Nat → Nat
  | 0, _ => 1
  | n + 1, a => gmul8 a (gpow8 n a)
/-- The S-box: the inverse in GF(2⁸) (x²⁵⁴) and the affine map of FIPS 197. -/
def aesInv8 (a : Nat) : Nat :=
  let a2 := gmul8 a a
  let a4 := gmul8 a2 a2
  let a8 := gmul8 a4 a4
  let a16 := gmul8 a8 a8
  let a32 := gmul8 a16 a16
  let a64 := gmul8 a32 a32
  let a128 := gmul8 a64 a64
  gmul8 a128 (gmul8 a64 (gmul8 a32 (gmul8 a16 (gmul8 a8 (gmul8 a4 a2)))))
def rotl8 (x n : Nat) : Nat := (x * 2 ^ n ||| x / 2 ^ (8 - n)) % 256
def aesSbox (a : Nat) : Nat :=
  let b := aesInv8 a
  b ^^^ rotl8 b 1 ^^^ rotl8 b 2 ^^^ rotl8 b 3 ^^^ rotl8 b 4 ^^^ 0x63
def aesSboxInv (a : Nat) : Nat := aesInv8 (rotl8 a 1 ^^^ rotl8 a 3 ^^^ rotl8 a 6 ^^^ 0x05)

def xorL (a b : List Nat) : List Nat := (a.zip b).map (fun p => p.1 ^^^ p.2)

/-- Key expansion: words, newest first. -/
def aesExpand : Nat → List (List Nat) → List (List Nat)
  | 0, w => w
  | n + 1, w =>
    let i := w.length
    let t := w.headD []
    let t :=
      if i % 8 = 0 then
        xorL ((t.drop 1 ++ t.take 1).map aesSbox) [gpow8 (i / 8 - 1) 2, 0, 0, 0]
      else if i % 8 = 4 then t.map aesSbox else t
    aesExpand n (xorL (w.getD 7 []) t :: w)

def chunks4 : Nat → List Nat → List (List Nat)
  | 0, _ => []
  | n + 1, l => l.take 4 :: chunks4 n (l.drop 4)

/-- The 15 round keys of 16 bytes. -/
def aesKeys (key : List Nat) : List (List Nat) :=
  let w := (aesExpand 52 (chunks4 8 key).reverse).reverse
  (List.range 15).map (fun r => ((w.drop (4 * r)).take 4).flatten)

def shiftIx (i : Nat) : Nat := (i % 4 + 4 * ((i / 4 + i % 4) % 4))
def shiftIxInv (i : Nat) : Nat := (i % 4 + 4 * ((i / 4 + 4 - i % 4) % 4))
def mixCol (a : List Nat) (m : List Nat) : List Nat :=
  (List.range 16).map (fun i =>
    let c := 4 * (i / 4)
    (List.range 4).foldl (fun x j => x ^^^ gmul8 (a.getD (c + j) 0) (m.getD ((j + 4 - i % 4) % 4) 0)) 0)

def aesEncRounds : List (List Nat) → List Nat → List Nat
  | [], s => s
  | [k], s => xorL ((List.range 16).map (fun i => aesSbox (s.getD (shiftIx i) 0))) k
  | k :: ks, s =>
    aesEncRounds ks (xorL (mixCol ((List.range 16).map (fun i => aesSbox (s.getD (shiftIx i) 0))) [2, 3, 1, 1]) k)

def aesEncrypt (keys : List (List Nat)) (s : List Nat) : List Nat :=
  aesEncRounds (keys.drop 1) (xorL s (keys.headD []))

/-- Decryption with the round keys in reverse order, the last encryption key taken off already. -/
def aesDecRounds : List (List Nat) → List Nat → List Nat
  | [], s => s
  | [k], s => xorL ((List.range 16).map (fun i => aesSboxInv (s.getD (shiftIxInv i) 0))) k
  | k :: ks, s =>
    aesDecRounds ks (mixCol (xorL ((List.range 16).map (fun i => aesSboxInv (s.getD (shiftIxInv i) 0))) k) [14, 11, 13, 9])

def aesDecrypt (keys : List (List Nat)) (s : List Nat) : List Nat :=
  let r := keys.reverse
  aesDecRounds (r.drop 1) (xorL s (r.headD []))

def natBytes (n v : Nat) : List Nat := (leBytes n v).map BitVec.toNat
def natOfBytes (l : List Nat) : Nat := l.foldr (fun b a => b + 256 * a) 0

/-- T · α in GF(2¹²⁸), little-endian (IEEE 1619). -/
def xtsNext (t : Nat) : Nat := if t ≥ 2 ^ 127 then ((2 * t) % 2 ^ 128) ^^^ 0x87 else 2 * t

def xtsBlocks (f : List Nat → List Nat) : Nat → Nat → List Nat → List Nat
  | 0, _, _ => []
  | n + 1, t, d =>
    let tb := natBytes 16 t
    xorL (f (xorL (d.take 16) tb)) tb ++ xtsBlocks f n (xtsNext t) (d.drop 16)

/-- XTS-AES-256 of one 64-byte line under a 512-bit key: Key1 in the low 256 bits for the data, Key2 in the high
256 bits for the tweak, the tweak DPA >> 6 (spec 14 R383, R385). -/
def sealLine (enc : Bool) (key : BitVec 512) (lineNo : Nat) (d : Line512) : Line512 :=
  let k1 := aesKeys (natBytes 32 (key.toNat % 2 ^ 256))
  let k2 := aesKeys (natBytes 32 (key.toNat / 2 ^ 256))
  let t := natOfBytes (aesEncrypt k2 (natBytes 16 lineNo))
  let f := if enc then aesEncrypt k1 else aesDecrypt k1
  BitVec.ofNat 512 (natOfBytes (xtsBlocks f 4 t (natBytes 64 d.toNat)))

end Sys2Proof.Machine
end

