-- ==== Sys2Proof/Machine/Operands.lean ====
section
/-! DEFINITION. Every operand form of a tile instruction (spec 05 R149–R164): immediates, reserved fields,
effective addresses, branch targets, the integer operations, load and store formats, the atomic operations. -/

namespace Sys2Proof

/-! ### Reserved fields of the formats (spec 05 R150) -/

def RForm.bad (f : RForm) : Bool := f.rsv != 0
/-- JR and JALR use ra alone. -/
def RForm.badJr (f : RForm) : Bool := f.rsv != 0 || f.rd != 0 || f.rb != 0
def MsgForm.badRecv (f : MsgForm) : Bool := f.rb != 0 || f.len != 0
def MsgForm.badPut (f : MsgForm) : Bool := f.rd != 0 || f.rb != 0 || f.len != 0
def MsgForm.badSend (f : MsgForm) : Bool := f.rd != 0 || decide (64 < f.len.toNat)
def FenceForm.bad (f : FenceForm) : Bool := f.rd != 0 || f.ra != 0 || f.rb != 0 || f.rsv != 0
/-- R149's reserved bits of an R4 word, and R159's rounding codes. -/
def rmBad (rounds : Bool) (rm : BitVec 3) : Bool :=
  if rounds then rm == 4 || rm == 5 || rm == 6 else rm != 0
def FpForm.bad (f : FpForm) (rounds usesRb : Bool) : Bool :=
  f.rsv != 0 || rmBad rounds f.rm || (!usesRb && f.rb != 0)
def R4Form.bad (f : R4Form) : Bool := f.rsv != 0 || rmBad true f.rm

/-- fn[10:7] is reserved and hint 3 is ILLEGAL. -/
def AtForm.bad (f : AtForm) : Bool := f.rsv != 0 || f.hint == 3

namespace Machine

/-! ### Immediates and addresses -/

def sext16 (i : BitVec 16) : W64 := i.signExtend 64
def zext16 (i : BitVec 16) : W64 := i.setWidth 64
/-- ra + sext(imm16) (spec 05 R155). -/
def Tile.ea (t : Tile) (ra : BitVec 5) (imm : BitVec 16) : W64 := t.rg ra + sext16 imm
/-- Bits [1:0] of every jump target are cleared (spec 05 R148). -/
def target (a : W64) : W64 := a &&& ~~~ 3
/-- The target of a branch (spec 05 R157). -/
def branchTarget (pc : W64) (off : BitVec 16) : W64 := target (pc + (sext16 off) * 4)
/-- The target of J and JAL (spec 05 R157). -/
def jumpTarget (pc : W64) (off : BitVec 26) : W64 := target (pc + (off.signExtend 64) * 4)

/-! ### Integer operations (spec 05 R152–R154) -/

def boolWord (b : Bool) : W64 := if b then 1 else 0

def opMulh (a b : W64) : W64 := BitVec.ofInt 64 (a.toInt * b.toInt / 2 ^ 64)
def opMulhu (a b : W64) : W64 := BitVec.ofNat 64 (a.toNat * b.toNat / 2 ^ 64)
/-- DIV with the corners of R153. -/
def opDiv (a b : W64) : W64 := if b = 0 then BitVec.allOnes 64 else BitVec.ofInt 64 (a.toInt.tdiv b.toInt)
def opDivu (a b : W64) : W64 := if b = 0 then BitVec.allOnes 64 else BitVec.ofNat 64 (a.toNat / b.toNat)
def opRem (a b : W64) : W64 := if b = 0 then a else BitVec.ofInt 64 (a.toInt.tmod b.toInt)
def opRemu (a b : W64) : W64 := if b = 0 then a else BitVec.ofNat 64 (a.toNat % b.toNat)
def opMin (a b : W64) : W64 := if a.slt b then a else b
def opMax (a b : W64) : W64 := if a.slt b then b else a
def opMinu (a b : W64) : W64 := if a.ult b then a else b
def opMaxu (a b : W64) : W64 := if a.ult b then b else a
def opSll (a b : W64) : W64 := a <<< (b.toNat % 64)
def opSrl (a b : W64) : W64 := a >>> (b.toNat % 64)
def opSra (a b : W64) : W64 := a.sshiftRight (b.toNat % 64)

/-- SHI: imm[7:6] the kind, imm[5:0] the amount (spec 05 R154). -/
def opShi (a : W64) (imm : BitVec 16) : W64 :=
  let k := BitVec.ofNat 64 (imm.toNat % 64)
  let kind := imm.toNat / 64 % 4
  if kind = 0 then opSll a k else if kind = 1 then opSrl a k else opSra a k
/-- imm[15:8] is reserved and kind 3 is ILLEGAL. -/
def shiBad (imm : BitVec 16) : Bool := decide (256 ≤ imm.toNat) || decide (imm.toNat / 64 % 4 = 3)

/-- INSH: the 16 bits of rd that the ra field's low bits select (spec 05 R154). -/
def opInsh (old : W64) (sh : Nat) (imm : BitVec 16) : W64 :=
  (old &&& ~~~ (BitVec.ofNat 64 (65535 * 2 ^ (16 * sh)))) ||| (zext16 imm <<< (16 * sh))

/-! ### Loads and stores (spec 05 R155) -/

/-- Bytes that a load or store major opcode moves. -/
def opSize (op : Nat) : Nat :=
  if op = 0x10 ∨ op = 0x11 ∨ op = 0x1A then 1
  else if op = 0x12 ∨ op = 0x13 ∨ op = 0x18 ∨ op = 0x1B ∨ op = 0x1F then 2
  else if op = 0x14 ∨ op = 0x15 ∨ op = 0x17 ∨ op = 0x1C ∨ op = 0x1E then 4
  else 8

/-- The register value of a load: sign-extended for LB, LH and LW, else zero-extended. -/
def loadValue (op : Nat) (v : Nat) : W64 :=
  if op = 0x10 then (BitVec.ofNat 8 v).signExtend 64
  else if op = 0x12 then (BitVec.ofNat 16 v).signExtend 64
  else if op = 0x14 then (BitVec.ofNat 32 v).signExtend 64
  else BitVec.ofNat 64 v

/-- Put a loaded value in its register: FLW and FLH name an f register. -/
def Tile.loadInto (t : Tile) (op : Nat) (rd : BitVec 5) (v : Nat) : Tile :=
  if op = 0x17 then t.wf rd (BitVec.ofNat 32 v)
  else if op = 0x18 then t.wf rd (BitVec.ofNat 32 (v * 65536))
  else t.wg rd (loadValue op v)

/-- The low bytes that a store opcode stores. -/
def Tile.storeValue (t : Tile) (op : Nat) (rs : BitVec 5) : Nat :=
  if op = 0x1E then (t.rf rs).toNat
  else if op = 0x1F then (t.rf rs).toNat / 65536
  else (t.rg rs).toNat % 2 ^ (8 * opSize op)

/-! ### Atomics (spec 05 R162, R163) -/

/-- The new value of the word, from the old one; both in the operation's size. -/
def atomNew {w : Nat} (op : AtOp) (old operand compare : BitVec w) : BitVec w :=
  match op with
  | .swap => operand
  | .cas => if old = compare then operand else old
  | .add => old + operand
  | .and => old &&& operand
  | .or => old ||| operand
  | .xor => old ^^^ operand
  | .min => if old.slt operand then old else operand
  | .max => if old.slt operand then operand else old
  | .minu => if old.ult operand then old else operand
  | .maxu => if old.ult operand then operand else old

/-- The stored value after an atomic on a word of 4 or 8 bytes. -/
def AtReq.apply (a : AtReq) (old : Nat) : Nat :=
  if a.wide then (atomNew a.op (BitVec.ofNat 64 old) a.operand a.compare).toNat
  else (atomNew a.op (BitVec.ofNat 32 old) (a.operand.setWidth 32) (a.compare.setWidth 32)).toNat
/-- The value returned: a 4-byte old value is sign-extended. -/
def AtReq.result (a : AtReq) (old : Nat) : W64 :=
  if a.wide then BitVec.ofNat 64 old else (BitVec.ofNat 32 old).signExtend 64
def AtReq.size (a : AtReq) : Nat := if a.wide then 8 else 4

/-- The atomic that an instruction's fields and registers ask for. -/
def Tile.atReq (t : Tile) (op : AtOp) (f : AtForm) : AtReq :=
  { op := op, wide := f.size = 1, off := (t.rg f.ra).toNat % 64, operand := t.rg f.rb, compare := t.rg f.rd }

/-! ### Control registers (spec 04 R124; 05 R168) -/

/-- The numbers that R124 lists. -/
def crListed (n : Nat) : Bool := decide (n ≤ 0x0B) || n == 0x10 || n == 0x11 || n == 0x12 || (decide (0x14 ≤ n) && decide (n ≤ 0x17))
/-- Readable at level T. -/
def crAtT (n : Nat) : Bool := decide (6 ≤ n)

end Machine
end Sys2Proof
end

