-- ==== Sys2Proof/Machine/Ecc.lean ====
section
/-! DEFINITION. The chip-survival code of DRAM lines (spec 14 R376–R380). -/

namespace Sys2Proof.Machine

/-! ### The chip-survival code -/

/-- Product in GF(2¹⁶) by x¹⁶ + x¹² + x³ + x + 1 (spec 14 R377). -/
def gmul16 (a b : Nat) : Nat :=
  ((List.range 16).foldl (fun (p : Nat × Nat) i =>
    (if b.testBit i then p.1 ^^^ p.2 else p.1, if p.2 ≥ 32768 then (2 * p.2) ^^^ 0x1100B else 2 * p.2)) (0, a)).1

/-- αᵏ. -/
def alphaPow : Nat → Nat
  | 0 => 1
  | n + 1 => gmul16 (alphaPow n) 2

/-- a²ⁿ·… by repeated squaring: the inverse is a^(2¹⁶ − 2). -/
def ginv16From (a : Nat) : Nat → Nat → Nat
  | 0, acc => acc
  | n + 1, acc => ginv16From a n (gmul16 (gmul16 acc acc) a)
def ginv16 (a : Nat) : Nat := let t := ginv16From a 14 a; gmul16 t t

/-- Symbol k of a line: bit 4b + i is line bit 32b + 4k + i (spec 14 R376). -/
def symbolOf (d : Nat) (k : Nat) : Nat :=
  (List.range 16).foldl (fun a b => a + (bitsN d (32 * b + 4 * k) 4) * 2 ^ (4 * b)) 0

/-- The line whose eight data symbols are given. -/
def lineOfSymbols (l : List Nat) : Nat :=
  ((List.range 8).zip l).foldl (fun a kc =>
    (List.range 16).foldl (fun a b => a + bitsN kc.2 (4 * b) 4 * 2 ^ (32 * b + 4 * kc.1)) a) 0

def sub16 (c j : Nat) : Nat := bitsN c (16 * j) 16

/-- Check symbols of a codeword's eight data subsymbols (spec 14 R378). -/
def checks16 (c : List Nat) : Nat × Nat :=
  let p := c.foldl (fun a x => a ^^^ x) 0
  let q := ((List.range 8).zip c).foldl (fun a kx => a ^^^ gmul16 (alphaPow kx.1) kx.2) 0
  let c9 := gmul16 (q ^^^ gmul16 0x0100 p) (ginv16 0x0300)
  (p ^^^ c9, c9)

/-- The signature word δ and its syndrome (spec 14 R379, R380). -/
def sigDelta : Nat := 0xA5C3
def sigSyn : Nat := 0x589B

/-- The ten symbols stored for a line, with the poison signature or without (spec 14 R378, R380). -/
def encodeLine (d : Nat) (sig : Bool) : List Nat :=
  let ds := (List.range 8).map (symbolOf d)
  let ck := (List.range 4).map (fun j => checks16 (ds.map (fun c => sub16 c j)))
  let x := if sig then sigDelta else 0
  ds ++ [((List.range 4).zip ck).foldl (fun a jc => a + (jc.2.1 ^^^ x) * 2 ^ (16 * jc.1)) 0,
    ((List.range 4).zip ck).foldl (fun a jc => a + (jc.2.2 ^^^ x) * 2 ^ (16 * jc.1)) 0]

/-- Syndromes of codeword j. -/
def syn16 (c : List Nat) (j : Nat) : Nat × Nat :=
  ((List.range 10).zip c).foldl (fun a kx =>
    let y := sub16 kx.2 j
    (a.1 ^^^ y, a.2 ^^^ gmul16 (alphaPow kx.1) y)) (0, 0)

/-- locate of spec 14 R379: 10 clean, 0–9 one device, none neither. -/
def locateDev (l : List (Nat × Nat)) : Option Nat :=
  l.foldl (fun p s =>
    match p with
    | none => none
    | some p =>
      if s.1 = 0 ∧ s.2 = 0 then some p
      else if s.1 = 0 ∨ s.2 = 0 then none
      else match (List.range 10).find? (fun k => s.2 == gmul16 (alphaPow k) s.1) with
        | none => none
        | some q => if p ≠ 10 ∧ p ≠ q then none else some q) (some 10)

/-- The outcome of a DRAM read (spec 14 R381): the data and how it was found. -/
inductive LineRead where
  | clean (d : Nat)
  | corrected (d dev : Nat)
  | sig (d : Nat)
  | sigCorrected (d dev : Nat)
  | uncorrectable (d : Nat)
  deriving DecidableEq, Repr

def fixSyms (c : List Nat) (dev : Nat) (s : List (Nat × Nat)) : List Nat :=
  let m := ((List.range 4).zip s).foldl (fun a js => a + js.2.1 * 2 ^ (16 * js.1)) 0
  ((List.range 10).zip c).map (fun kx => if kx.1 = dev then kx.2 ^^^ m else kx.2)

/-- Decode the ten symbols of a line (spec 14 R379). -/
def decodeLine (c : List Nat) : LineRead :=
  let s := (List.range 4).map (syn16 c)
  match locateDev s with
  | some 10 => .clean (lineOfSymbols (c.take 8))
  | some dev => .corrected (lineOfSymbols ((fixSyms c dev s).take 8)) dev
  | none =>
    match locateDev (s.map (fun x => (x.1, x.2 ^^^ sigSyn))) with
    | some 10 => .sig (lineOfSymbols (c.take 8))
    | some dev => .sigCorrected (lineOfSymbols ((fixSyms c dev s).take 8)) dev
    | none => .uncorrectable (lineOfSymbols (c.take 8))

/-- XOR error masks into stored symbols. -/
def flipSyms (c : List Nat) (masks : List (Nat × W64)) : List Nat :=
  masks.foldl (fun c m => ((List.range 10).zip c).map (fun kx => if kx.1 = m.1 then kx.2 ^^^ m.2.toNat else kx.2)) c

end Sys2Proof.Machine
end

