-- ==== Sys2Proof/Machine/Flags.lean ====
section
/-! DEFINITION. The flags and counters that instructions keep: the rounding mode and sticky flags of FPSR
(spec 04 R124; 05 R159), PMCTL and the performance counters (04 R147). -/

namespace Sys2Proof.Machine

/-- The rounding mode of an operation: code 7 uses FPSR[1:0] (spec 05 R159). -/
def Tile.mode? (t : Tile) (rm : BitVec 3) : Nat := if rm = 7 then t.rm.toNat else rm.toNat

/-- Exceptional results set sticky flags (spec 05 R159). -/
def Tile.addFlags (t : Tile) (fl : Nat) : Tile := { t with fflags := t.fflags ||| BitVec.ofNat 5 fl }

/-- FPSR as it is read (DEDUCED, log 16: the order of the flags from bit 4 up). -/
def Tile.fpsr (t : Tile) : W64 := BitVec.ofNat 64 (t.rm.toNat + 16 * t.fflags.toNat)
def Tile.setFpsr (t : Tile) (v : W64) : Tile :=
  { t with rm := BitVec.ofNat 2 v.toNat, fflags := BitVec.ofNat 5 (v.toNat / 16) }

/-- PMCTL as it is read (spec 04, PMCTL). -/
def Tile.pmctl (t : Tile) : W64 :=
  BitVec.ofNat 64 ((t.sel.get 0).toNat + 256 * (t.sel.get 1).toNat + 65536 * (t.sel.get 2).toNat
    + 16777216 * (t.sel.get 3).toNat + 2 ^ 32 * t.ovf.toNat + 2 ^ 36 * bN t.tOnly)

/-- A selection of 20–63 is clamped to 0. -/
def clampSel (v : Nat) : BitVec 6 := if v % 64 < 20 then BitVec.ofNat 6 v else 0

/-- A write of PMCTL: OVF bits clear where 1 is written. -/
def Tile.setPmctl (t : Tile) (v : W64) : Tile :=
  let n := v.toNat
  { t with
    sel := #v[clampSel n, clampSel (n / 256), clampSel (n / 65536), clampSel (n / 16777216)],
    ovf := t.ovf &&& ~~~ BitVec.ofNat 4 (n / 2 ^ 32),
    tOnly := bitN n 36 }

/-- Some counter counts the event. -/
def Tile.counts (t : Tile) (ev : Nat) : Bool := (List.finRange 4).any (fun i => (t.sel.get i).toNat == ev)

/-- The state with event `ev` counted `k` times at a tile. -/
def State.countTile (s : State) (t : TileId) (ev k : Nat) : State := s.updTile t (fun tl => tl.countEv ev k)

end Sys2Proof.Machine
end

