-- ==== Sys2Proof/Machine/Avenues.lean ====
section
/-! DEFINITION. The message network (spec 06): stops, fixed paths, input buffers, and the packets' hops. The
packets in flight stand in `net`, oldest first. -/

namespace Sys2Proof.Machine

/-! ### Stops and paths (spec 06 R173, R175, R176) -/

def stopN (n : Nat) : Node := .stop (Fin.ofNat 121 n)
/-- The stop of home `h`, or of the host-line filter for 16. -/
def homeStop (h : Nat) : Node := if h < 16 then stopN (32 + h) else stopN 119
def engineStop (e : EngId) : Node := if e.val < 32 then stopN (48 + e.val / 2) else stopN (e.val + 32)
def lampStop : Node := stopN 118
def hostStop : Node := stopN 119
def gateStop : Node := stopN 120

/-- Stops from `a` to `b` going clockwise. -/
def cwDist (a b : Nat) : Nat := (b + 121 - a) % 121
def ringDist (a b : Nat) : Nat := min (cwDist a b) (cwDist b a)
/-- The row end of quarter `q` that is fewer stops from stop `d`; a tie goes west. -/
def rowEnd (q d : Nat) : Nat := if ringDist q d ≤ ringDist (16 + q) d then q else 16 + q
/-- The stop at which quarter `q` meets the ring for traffic with stop `d`. -/
def quarterStop (q : QuarterId) (d : Node) : Node :=
  match d with
  | .stop n => stopN (rowEnd q.val n.val)
  | .tile _ => stopN q.val
/-- The quarter whose row end a stop is. -/
def stopQuarter (n : Node) : Option QuarterId :=
  match n with
  | .stop n => if n.val < 16 then some (Fin.ofNat 16 n.val) else if n.val < 32 then some (Fin.ofNat 16 (n.val - 16)) else none
  | .tile _ => none

def ringStep (a b : Nat) : Nat := if cwDist a b ≤ cwDist b a then (a + 1) % 121 else (a + 120) % 121

def stepToward (a b : Nat) : Nat := if a < b then a + 1 else if b < a then a - 1 else a

/-- The next hop of the one path from `src` to `dst`, at `cur` (spec 06 R173, R176): in the mesh first in X, then
in Y; to the ring by the row end that is fewer stops from the destination; on the ring the shorter way. -/
def nextHop (src dst cur : Node) : Node :=
  match cur, dst with
  | .tile c, .tile d =>
    let cm := c.val % 16
    let cq := c.val / 16
    if cm ≠ d.val % 16 then .tile (Fin.ofNat 256 (16 * cq + stepToward cm (d.val % 16)))
    else .tile (Fin.ofNat 256 (16 * stepToward cq (d.val / 16) + cm))
  | .tile c, .stop d =>
    let cm := c.val % 16
    let cq := c.val / 16
    let e := rowEnd cq d.val
    let target := if e < 16 then 0 else 15
    if cm = target then stopN e else .tile (Fin.ofNat 256 (16 * cq + stepToward cm target))
  | .stop c, .tile d =>
    let q := d.val / 16
    -- a packet from the ring enters by the row end that is fewer stops from its source (DESIGN CHOICE, log 86)
    let from? := match src with
      | .stop n => n.val
      | .tile _ => c.val
    let e := rowEnd q from?
    if c.val = e then .tile (Fin.ofNat 256 (16 * q + (if e < 16 then 0 else 15))) else stopN (ringStep c.val e)
  | .stop c, .stop d => stopN (ringStep c.val d.val)

/-! ### Buffers (spec 06 R179, R180) -/

/-- Buffers for each input: channel and lane. -/
def bufLimit (c : Chan) (lane : Nat) : Nat :=
  match c with
  | .msg => if lane = 8 then 1 else 2
  | .req => 4
  | .rsp => 4
  | .snp => 2

def Packet.sameBuf (p q : Packet) : Bool :=
  p.prev == q.prev && p.cur == q.cur && decide (p.chan = q.chan) && p.lane == q.lane

/-- Packets in the buffer of input (prev, cur). What a source has sent beyond the buffers of its own input stands
behind them in `net` and is still with the source, which holds its place (DEDUCED, log 87). -/
def bufCount (net : List Packet) (prev cur : Node) (c : Chan) (lane : Nat) : Nat :=
  (net.filter (fun p => p.prev == prev && p.cur == cur && decide (p.chan = c) && p.lane == lane)).length

/-- The packet is the oldest of its buffer. -/
def isHead (net : List Packet) (i : Nat) (p : Packet) : Bool := !(net.take i).any (fun q => q.sameBuf p)

namespace State

/-- The packet at place `i`, when it stands at its destination and is the oldest of its buffer. -/
def arrived (s : State) (i : Nat) : Option Packet :=
  match s.net[i]? with
  | none => none
  | some p => if p.cur == p.dst && isHead s.net i p && !p.stuck then some p else none

/-- The network without the packet at place `i`. -/
def dropPkt (s : State) (i : Nat) : State := { s with net := s.net.eraseIdx i }

/-- Packets to a fenced quarter's row ends are not sent (spec 12 R344). -/
def fencedDst (s : State) (c : Chan) (dst : Node) : Bool :=
  decide (c ≠ Chan.msg) && match stopQuarter dst with
    | some q => (s.quarter q).fenced
    | none => false

def sendPkt (s : State) (p : Packet) : State :=
  if s.fencedDst p.chan p.dst then s else { s with net := s.net ++ [p] }

/-- Whether the sending crossing or stop has a credit for a MSG packet of the lane. -/
def hasCredit (s : State) (src : Node) (lane : Nat) : Bool := decide (bufCount s.net src src .msg lane < bufLimit .msg lane)

end State

def mkPkt (c : Chan) (kind : Nat) (src dst : Node) (w : WardId) (lane xid : Nat) (poison : Bool) (pl : Payload) (about : LineAddr) : Packet :=
  { chan := c, kind := kind, src := src, dst := dst, ward := w, gated := false, gate := 0, lane := lane, xid := xid,
    poison := poison, payload := pl, about := about, prev := src, cur := src, stuck := false, dead := false }

def noLine : LineAddr := ⟨false, 0⟩

/-- One hop of the packet at place `i` (spec 06 R180). -/
def State.advance (s : State) (i : Nat) : State :=
  match s.net[i]? with
  | none => s
  | some p =>
    if p.cur == p.dst || p.stuck || !isHead s.net i p then s
    else
      let nx := nextHop p.src p.dst p.cur
      if bufCount s.net p.cur nx p.chan p.lane < bufLimit p.chan p.lane then
        { s with net := s.net.eraseIdx i ++ [{ p with prev := p.cur, cur := nx }] }
      else s

end Sys2Proof.Machine
end

