-- ==== Sys2Proof/Machine/Memory.lean ====
section
/-! DEFINITION. Device memory at the homes: the interleave (spec 12 R319, R320), stored lines with the
chip-survival code and the poison signature (14 R375–R382), injection (R398), the seal (R383), the init bitmap
(R389–R393). A stored line is its 64 bytes, a signature flag and the flips its symbols carry. -/

namespace Sys2Proof.Machine

/-! ### Addresses -/

/-- The home of a DPA (spec 12 R319). -/
def homeOf (dpa : Nat) : Nat :=
  let h := (List.range 8).foldl (fun h i => h ^^^ bitsN dpa (8 + 4 * i) 4) 0
  h ^^^ bitsN dpa 40 1

/-- The channel address of a DPA: DPA[40:12] and DPA[7:0] (spec 12 R320). -/
def channelAddr (dpa : Nat) : Nat := bitsN dpa 12 29 * 256 + dpa % 256

/-- The DPA at a channel address of a home: bits [11:8] from the home number and the other bits. -/
def dpaOf (h ca : Nat) : Nat :=
  let d := (ca / 256) * 4096 + ca % 256
  d + (homeOf d ^^^ h) * 256

/-- L = channel address >> 6 of line number `n` = DPA >> 6. -/
def lineL (n : Nat) : Nat := channelAddr (n * 64) / 64
/-- The region of a line (spec 14 R389). -/
def regionOf (n : Nat) : Nat := n / 32768
/-- The 2,048 lines of a home's part of a region, in ascending channel address (spec 14 R389). -/
def partLines (h r : Nat) : List Nat := (List.range 2048).map (fun i => dpaOf h ((r * 2048 + i) * 64) / 64)

/-- Where a line stands in its module: subchannel, bank group, bank, rank, CID, row, column (spec 14 R375). -/
structure DimmPlace where
  sc : Nat
  bg : Nat
  bank : Nat
  rank : Nat
  cid : Nat
  row : Nat
  col : Nat
  deriving DecidableEq, Repr

def dimmPlace (twoRanks stacked : Bool) (l : Nat) : DimmPlace :=
  let rank := if twoRanks then bitsN l 13 1 else 0
  let c0 := if twoRanks then 14 else 13
  let cid := if stacked then bitsN l c0 1 else 0
  let r0 := if stacked then c0 + 1 else c0
  let row := l >>> r0
  { sc := l % 2, bg := (bitsN l 1 1 + 2 * bitsN l 9 2) ^^^ row % 8, bank := bitsN l 11 2 ^^^ bitsN row 3 2,
    rank := rank, cid := cid, row := row, col := 16 * bitsN l 2 7 }

/-! ### Lines as bytes -/

/-- Byte `i` of a line. -/
def byteAt (d : Line512) (i : Nat) : Byte := BitVec.ofNat 8 (d.toNat >>> (8 * i))
/-- The bits of the bytes that a byte mask selects. -/
def maskBits (m : Mask64) : Line512 :=
  BitVec.ofNat 512 ((List.range 64).foldl (fun a i => if m.getLsbD i then a + 255 * 2 ^ (8 * i) else a) 0)
/-- `new` where the mask selects, `old` elsewhere. -/
def mergeLine (old new : Line512) (m : Mask64) : Line512 :=
  let b := maskBits m
  (new &&& b) ||| (old &&& ~~~ b)
def fullMask : Mask64 := BitVec.allOnes 64
/-- The mask of `n` bytes from byte `o`. -/
def rangeMask (o n : Nat) : Mask64 := BitVec.ofNat 64 ((2 ^ n - 1) * 2 ^ o)
/-- `n` bytes of a line from byte `o`, as a number. -/
def lineBytes (d : Line512) (o n : Nat) : Nat := (d.toNat >>> (8 * o)) % 2 ^ (8 * n)
/-- The line that holds `v` in `n` bytes from byte `o`. -/
def placeBytes (o n v : Nat) : Line512 := BitVec.ofNat 512 ((v % 2 ^ (8 * n)) * 2 ^ (8 * o))
def lineOfBytes (b : List Byte) : Line512 := BitVec.ofNat 512 (ofLe b)
def bytesOfLine (d : Line512) : List Byte := leBytes 64 d.toNat

namespace State

/-! ### The stored line -/

def homeStackedRanks (s : State) (h : Nat) : Bool × Bool := (s.isF (F.HOM_DIMM_RANKS h), s.isF (F.HOM_DIMM_STACK h))

def capacity (s : State) : Nat := s.power.capGib * 2 ^ 30

/-- The bytes stored for line `n`. -/
def dramLine (s : State) (n : Nat) : Line512 :=
  lineOfBytes ((List.range 64).map (fun i => s.dram.get 0 (n * 64 + i)))

def putDramLine (s : State) (n : Nat) (d : Line512) : State :=
  { s with dram := (List.range 64).foldl (fun t i => t.put 0 (n * 64 + i) (byteAt d i)) s.dram }

/-- The part of line `n` at its home has been written (spec 14 R389). -/
def partInit (s : State) (n : Nat) : Bool := (s.homeN (homeOf (n * 64))).bitmap.get false (regionOf n)

/-- Write a codeword: with the signature when `sig`; an armed injection flips its symbols (spec 14 R378, R380,
R398). -/
def writeDram (s : State) (n : Nat) (d : Line512) (sig : Bool) : State :=
  let h := homeOf (n * 64)
  let s := { s.putDramLine n d with sigs := s.sigs.put false n sig }
  if s.isF (F.HOM_ECC_INJ_ARM h) && (!s.isF (F.HOM_ECC_INJ_ADDR_EN h) || s.getF (F.HOM_ECC_LINE_L h) == lineL n) then
    let a : Nat × W64 := (s.getF (F.HOM_ECC_INJ_DEV_A h), BitVec.ofNat 64 (s.getF (F.HOM_ECC_MASK_A_VALUE h)))
    let b : Nat × W64 := (s.getF (F.HOM_ECC_INJ_DEV_B h), BitVec.ofNat 64 (s.getF (F.HOM_ECC_MASK_B_VALUE h)))
    let fl := if b.1 < 10 then [a, b] else [a]
    ({ s with symErrs := s.symErrs.put [] n fl }.setF (F.HOM_ECC_INJ_ARM h) 0).setF (F.HOM_ECC_INJ_FIRED h) 1
  else { s with symErrs := s.symErrs.put [] n [] }

/-! ### The seal -/

def sealWith (s : State) (w : Option WardId) (n : Nat) (d : Line512) : Line512 :=
  match w with
  | none => d
  | some w => match s.key w with
    | none => d
    | some k => sealLine true k n d

def unsealWith (s : State) (w : Option WardId) (n : Nat) (d : Line512) : Line512 :=
  match w with
  | none => d
  | some w => match s.key w with
    | none => d
    | some k => sealLine false k n d

/-- The line stored for line `n`, as an access under seal `w` sees it, when its part is initialised or not
(spec 14 R390). -/
def lineView (s : State) (w : Option WardId) (n : Nat) : Line512 :=
  if s.partInit n then s.unsealWith w n (s.dramLine n) else 0

/-! ### Events of a home's memory (spec 14 R381, R399; 16 R434, R438) -/

def eccLast (s : State) (h n kind dev : Nat) (scrub : Bool) : State :=
  let l := lineL n
  let (rk, st) := s.homeStackedRanks h
  let p := dimmPlace rk st l
  ((((((s.setF (F.HOM_ECC_LAST_LINE h) l).setF (F.HOM_ECC_LAST_KIND h) kind).setF (F.HOM_ECC_LAST_DEV h) dev).setF
    (F.HOM_ECC_LAST_SC h) p.sc).setF (F.HOM_ECC_LAST_RANK h) p.rank).setF (F.HOM_ECC_LAST_CID h) p.cid).setB
    (F.HOM_ECC_LAST_SCRUB h) scrub

def eccEvent (s : State) (h cls kind unit : Nat) (w : Option WardId) : State :=
  s.event ⟨16 + h, cls, kind, unit, wardBit w, BitVec.ofNat 64 (s.storedWord (0x202008 + 0x10000 * h))⟩

def countDev (s : State) (h n dev : Nat) : State :=
  let (rk, st) := s.homeStackedRanks h
  let p := dimmPlace rk st (lineL n)
  s.bumpF (F.HOM_ECC_DEV_VALUE h (40 * p.cid + 20 * p.rank + 10 * p.sc + dev)) 1

/-- What a DRAM read of line `n` finds: the stored codeword with its flips, and the further flips of this read. -/
def dramOutcome (s : State) (n : Nat) (masks : List (Nat × W64)) : LineRead :=
  decodeLine (flipSyms (flipSyms (encodeLine (s.dramLine n).toNat (s.sigs.get false n)) (s.symErrs.get [] n)) masks)

/-- A DRAM read (spec 14 R381): what is delivered, and the write-back, counts and events of its outcome. `w` is
the ward whose request reads; none for the scrubber, the supervisor and the host. -/
def readDram (s : State) (n : Nat) (masks : List (Nat × W64)) (w : Option WardId) (scrub : Bool) : LineVal × State :=
  let h := homeOf (n * 64)
  match s.dramOutcome n masks with
  | .clean d => (⟨BitVec.ofNat 512 d, false⟩, s)
  | .corrected d dev =>
    let s := s.writeDram n (BitVec.ofNat 512 d) false
    let s := ((s.bumpF (F.HOM_ECC_ERR_CORRECTED h) 1).countDev h n dev).eccLast h n 1 dev scrub
    (⟨BitVec.ofNat 512 d, false⟩, s.eccEvent h 1 1 2 w)
  | .sig d => (⟨BitVec.ofNat 512 d, true⟩, (s.bumpF (F.HOM_ECC_ERR_POISON_READ h) 1).eccLast h n 3 15 scrub)
  | .sigCorrected d dev =>
    let s := s.writeDram n (BitVec.ofNat 512 d) true
    let s := ((s.bumpF (F.HOM_ECC_ERR_CORRECTED h) 1).countDev h n dev).eccLast h n 4 dev scrub
    (⟨BitVec.ofNat 512 d, true⟩, s.eccEvent h 1 1 2 w)
  | .uncorrectable d =>
    let s := s.writeDram n (BitVec.ofNat 512 d) true
    let s := (s.bumpF (F.HOM_ECC_ERR_UNCORR h) 1).eccLast h n 2 15 scrub
    (⟨BitVec.ofNat 512 d, true⟩, s.eccEvent h 2 2 2 w)

/-! ### The init bitmap (spec 14 R389–R393) -/

def setPart (s : State) (h r : Nat) (b : Bool) : State :=
  let hm := s.homeN h
  s.setHomeN h { hm with bitmap := hm.bitmap.put false r b }

/-- Some home has written its part of the region. -/
def regionInit (s : State) (r : Nat) : Bool := (List.range 16).any (fun h => (s.homeN h).bitmap.get false r)

/-- Clear a region's bits in every home; its coverage age becomes 0 (spec 14 R392, R397). -/
def clearRegion (s : State) (r : Nat) : State :=
  let s := (List.range 16).foldl (fun s h => s.setPart h r false) s
  { s with ages := s.ages.put 0 r 0 }

/-- The regions that [lo, hi) touches. -/
def regionsOf (lo hi : Nat) : List Nat := (List.range ((hi + 2097151) / 2097152 - lo / 2097152)).map (fun i => lo / 2097152 + i)

/-- The home writes its part of region `r`: the encryption of zero under the ward's key when the triggering
access is sealed, zero bytes otherwise, and the triggering line `n` with its merged bytes as they are stored; then
the bit is set (spec 14 R391, R398). -/
def initPart (s : State) (h r : Nat) (w : Option WardId) (n : Nat) (raw : LineVal) : State :=
  let s := (partLines h r).foldl (fun s m => if m = n then s.writeDram m raw.data raw.poison else s.writeDram m (s.sealWith w m 0) false) s
  s.setPart h r true

/-- Symbol flips under which a line decodes as uncorrectable whatever it holds: one bit in each of two devices. -/
def lostFlips : List (Nat × W64) := [(0, 1), (1, 1)]

/-- A bitmap byte is uncorrectable: its eight parts count as initialised, and the lines of those that never were
decode as uncorrectable (spec 14 R393). -/
def bitmapFault (s : State) (h n : Nat) : State :=
  let r0 := regionOf n / 8 * 8
  let s := (List.range 8).foldl (fun s i =>
    if (s.homeN h).bitmap.get false (r0 + i) then s
    else { s.setPart h (r0 + i) true with symErrs := (partLines h (r0 + i)).foldl (fun t m => t.put [] m lostFlips) s.symErrs }) s
  ((s.bumpF (F.HOM_ECC_ERR_UNCORR h) 1).eccLast h n 5 15 false).eccEvent h 2 2 5 none

/-- A key byte is uncorrectable: the key is erased (spec 14 R387; DESIGN CHOICE, log 39). -/
def keyFault (s : State) (h n : Nat) (w : WardId) : State :=
  let s := { s with keys := s.keys.put none w.val none }
  ((s.bumpF (F.HOM_ECC_ERR_UNCORR h) 1).eccLast h n 6 15 false).eccEvent h 2 2 4 (some w)

end State
end Sys2Proof.Machine
end

