-- ==== Sys2Proof/Machine/Ledger.lean ====
section
/-! DEFINITION. The Transaction Ledger (spec 13): what holds an entry, when a source is granted one, and how an
entry closes. -/

namespace Sys2Proof.Machine

/-! ### Request kinds as they are numbered on REQ, RSP and SNP (spec 12 R321) -/

def ReqKind.code : ReqKind → Nat
  | .rdS => 0 | .rdX => 1 | .upg => 2 | .own => 3 | .fill => 4 | .wb => 5 | .wbP => 6 | .evict => 7
  | .rdC => 8 | .wrInv => 9 | .atP => 10 | .atFar => 11 | .hRd => 12 | .hWr => 13
def RspKind.code : RspKind → Nat
  | .data => 0 | .gntS => 1 | .gntE => 2 | .gntX => 3 | .wgo => 4 | .done => 5 | .retry => 6 | .nack => 7
  | .go => 8 | .atRes => 9 | .ack => 10 | .ackS => 11 | .snpMask => 12 | .lost => 13
def SnpKind.code : SnpKind → Nat
  | .inv => 0 | .snpS => 1 | .snpInv => 2 | .snpCur => 3

def tileQuarter (t : TileId) : QuarterId := Fin.ofNat 16 (t.val / 16)

/-- The quarter whose cache asks, for the requests of a quarter (spec 12 R331). -/
def Source.quarter? : Source → Option QuarterId
  | .quarter q _ => some q
  | .drain q => some q
  | _ => none

/-- Where a source meets the network on its way to `dst` (spec 06 R175). -/
def Source.node (src : Source) (dst : Node) : Node :=
  match src with
  | .quarter q _ => quarterStop q dst
  | .drain q => quarterStop q dst
  | .tile t => quarterStop (tileQuarter t) dst
  | .engine e => engineStop e
  | .loader => gateStop
  | .bulk _ => hostStop
  | .host => hostStop
  | .lantern => gateStop
  | .scrub => gateStop
  | .trace _ => lampStop

def ReqKind.isHost : ReqKind → Bool
  | .hRd => true
  | .hWr => true
  | _ => false

/-- The home of a line, or 16, the host-line filter. -/
def reqHome (l : LineAddr) : Nat := if l.host then 16 else homeOf (l.n * 64)

def Req.make (k : ReqKind) (l : LineAddr) (src : Source) (w : Option WardId) (sl : Bool) : Req :=
  { kind := k, line := l, mask := fullMask, mv := .i, at? := none, src := src, ward := w, sealed := sl, nacks := 0,
    refusedAt := none, called := false, arrived := false }

/-- The ward under whose seal a request reads and writes its line (spec 01 R31). -/
def Req.sealWard (r : Req) : Option WardId := if r.sealed then r.ward else none

def LEntry.make (r : Req) (c : Charge) : LEntry :=
  { req := r, charge := c, bulk := none, lantern := false, hostMem := false, wdata := none, rdata := none, grant := none, atSource := false, pend := 1,
    aborted := false, forgotten := false, bad := false, relaxed := false, ido := false, tag := 0, hostTag := 0, role := 0 }

/-- WARD of a request's packet: 0 from the host link and from the Gatehouse, whatever ward the request is for
(spec 06 R178). -/
def Source.stamp (r : Source) (w : Option WardId) : WardId :=
  match r with
  | .bulk _ => 0
  | .host => 0
  | .lantern => 0
  | _ => w.getD 0

namespace State

/-! ### Holdings (spec 13 R357–R361) -/

def held (s : State) (p : LEntry → Bool) : Nat := (s.ledger.entries.cells.filter (fun c => match c.2 with
  | some e => p e
  | none => false)).length
def heldBy (s : State) (w : WardId) : Nat := s.held (fun e => e.charge == .ward w)
def heldRsv (s : State) : Nat := s.held (fun e => e.charge == .reserve)
def heldHost (s : State) : Nat := s.held (fun e => e.charge == .reserve && e.req.kind.isHost)
def heldBulk (s : State) (f : Func) : Nat := s.held (fun e => e.bulk == some f)
/-- Bulk Port writes of a function that are not yet committed (10 R292). -/
def bulkOut (s : State) (f : Func) : Bool :=
  s.ledger.entries.cells.any (fun c => match c.2 with
    | some e => e.bulk == some f && e.wdata.isSome
    | none => false)
  || s.ledger.waiting.any (fun e => e.bulk == some f && e.wdata.isSome)

/-- The function that a host port is. -/
def portFn : Port → Option Func
  | .s => some .pf0
  | .w w => some (.vf w)
  | _ => none

/-- A register access by a port waits: for TLPs that arrived before it, or for its function's Bulk Port writes
(10 R292; 15 R413, R414). -/
def hostHolds (s : State) (p : Port) : Bool :=
  match portFn p with
  | none => false
  | some f => !s.link.rxq.isEmpty || s.bulkOut f

def holdPosted (s : State) (c : Posted) : State := { s with link := { s.link with rxq := s.link.rxq ++ [c] } }

/-! ### Rows of the table that are a write of one register by a host port (00 R9; 01 R19, R20, R50; 10 R292; DEDUCED,
log 93) -/

/-- The bytes of the register at an offset. -/
def regBytes (off : Nat) : Nat := ((regAt off).map (fun x => x.1.bytes)).getD 4

/-- The word that a write of the register carries besides the fields that the row names: the fields that keep what is
written, as they stand, and 0 elsewhere. -/
def keptWord (s : State) (off : Nat) : Nat :=
  match regAt off with
  | none => 0
  | some (d, r) => d.fields.foldl (fun a f => match f.acc with
    | .rw => a + s.getF ⟨r, f.lo, f.w⟩ * 2 ^ f.lo
    | .cl _ => a + s.getF ⟨r, f.lo, f.w⟩ * 2 ^ f.lo
    | .special => a + s.getF ⟨r, f.lo, f.w⟩ * 2 ^ f.lo
    | _ => a) 0

/-- A word with field `f` at `v`. -/
def inWord (f : Fld) (v x : Nat) : Nat := x - bitsN x f.lo f.w * 2 ^ f.lo + v % 2 ^ f.w * 2 ^ f.lo

/-- A write of the register at `off` of PF0, which a ward's function shows at `vf`, by a host port. It waits for what
arrived before it and for its function's Bulk Port writes; a ward's write that no register of its own answers is counted,
and while the ward resets it is discarded; else it has its effect. -/
def hostWrite (s : State) (p : Port) (off : Nat) (vf : Option Nat) (v : Nat) (own : Bool) (f : State → State) : State :=
  match p with
  | .s =>
    if !s.mmioOpen then s.turnedAway p
    else if s.hostHolds p then s.holdPosted (.regWrite p off (regBytes off) v)
    else f s
  | .w w =>
    if !s.fnOpen (.vf w) then s.turnedAway p
    else match vf with
      | none =>
        if s.resettingWard w then s
        else let (a, s) := s.free; s.countAccess p (a % 2 ^ 20)
      | some a =>
        if s.hostHolds p then s.holdPosted (.regWrite p a (regBytes off) v)
        else if s.resettingWard w then s
        else if own then f s else s.countAccess p a
  | .m => s
  | .l => s

/-- A read while register space does not answer: Unsupported Request in D3hot (15 R417). -/
def unanswered (s : State) (p : Port) (off : Nat) : State :=
  if s.power.cfgReady then (s.turnedAway p).emit (.unsupported off) else s

/-- A read of the register at `off` of PF0, which a ward's function shows at `vf`, by a host port: as `hostWrite`; what no
register of the ward's own answers reads 0. -/
def hostRead (s : State) (p : Port) (off vf : Nat) (own : Bool) (f : State → Nat × State) : State :=
  let give := fun (a : Nat) => let x := f s; x.2.emit (.readData p a x.1)
  match p with
  | .s =>
    if !s.mmioOpen then s.unanswered p off
    else if s.hostHolds p then s.holdPosted (.regRead p off (regBytes off))
    else give off
  | .w w =>
    if !s.fnOpen (.vf w) then s.unanswered p vf
    else if s.hostHolds p then s.holdPosted (.regRead p vf (regBytes off))
    else if s.resettingWard w then s.emit (.readData p vf 0)
    else if own then give vf else (s.countAccess p vf).emit (.readData p vf 0)
  | .m => s
  | .l => s

/-- Where a ward's function shows a register of a tile, of an engine, or of the ward's own blocks (01 R52, R53). -/
def tilVf (t : TileId) (l : Nat) : Option Nat := some (0x40000 + 0x400 * t.val + l)
def engVf (e : EngId) (l : Nat) : Option Nat := some (0x80000 + 0x1000 * e.val + l)
def ownVf (p : Port) (w : WardId) (a : Nat) : Option Nat := if p = .w w then some a else none

def heldLantern (s : State) : Nat := s.held (fun e => e.lantern)
def ldgMin (s : State) (w : WardId) : Nat := s.getF (F.LDGW_SHARE_MIN w.val)
def ldgCeil (s : State) (w : WardId) : Nat := s.getF (F.LDGW_SHARE_CEIL w.val)
def poolSize (s : State) : Nat := 28672 - ((List.finRange 8).map s.ldgMin).sum
def poolUsed (s : State) : Nat := ((List.finRange 8).map (fun w => s.heldBy w - s.ldgMin w)).sum

/-- The grant rule of a ward (spec 13 R359). -/
def grantWard (s : State) (w : WardId) : Bool :=
  if s.heldBy w < s.ldgMin w then true
  else if s.ldgCeil w ≤ s.heldBy w then false
  else decide (s.poolUsed < s.poolSize)

/-- The grant rule of the reserve (spec 13 R361). -/
def grantRsv (s : State) (e : LEntry) : Bool :=
  decide (s.heldRsv < 4096) && (e.req.kind.isHost || decide (s.heldRsv - s.heldHost < 3072))
    && (match e.bulk with
      | none => true
      | some f => decide (s.heldBulk f < 512))
    && (!e.lantern || decide (s.heldLantern < 16))

def canGrant (s : State) (e : LEntry) : Bool :=
  match e.charge with
  | .ward w => s.grantWard w
  | .reserve => s.grantRsv e

/-- A newcomer is granted only when no source that waits could take the same capacity (spec 13 R360, R361). -/
def grantsNow (s : State) (e : LEntry) : Bool :=
  s.canGrant e && match e.charge with
    | .ward w =>
      !s.ledger.waiting.any (fun x => x.charge == .ward w) &&
        (decide (s.heldBy w < s.ldgMin w) || !s.ledger.waiting.any (fun x => x.charge != .reserve && s.canGrant x))
    | .reserve => !s.ledger.waiting.any (fun x => x.charge == .reserve && s.canGrant x)

/-! ### Entries -/

def lowestFree {α : Type} : List (Nat × α) → Nat → Nat
  | [], k => k
  | (k', _) :: r, k => if k' = k then lowestFree r (k + 1) else k

def entry (s : State) (x : Nat) : Option LEntry := s.ledger.entries.get none x
def setEntry (s : State) (x : Nat) (e : Option LEntry) : State :=
  { s with ledger := { s.ledger with entries := s.ledger.entries.put none x e } }
def updEntry (s : State) (x : Nat) (f : LEntry → LEntry) : State :=
  match s.entry x with
  | none => s
  | some e => s.setEntry x (some (f e))

/-- Send a request packet of an entry to its home or to the filter. -/
def sendReq (s : State) (x : Nat) (r : Req) : State :=
  let dst := homeStop (reqHome r.line)
  s.sendPkt (mkPkt .req r.kind.code (r.src.node dst) dst (r.src.stamp r.ward) 0 x false (.request r) r.line)

/-- Take an entry: its number, and the state that holds it (spec 13 R356). -/
def openEntry (s : State) (e : LEntry) : Nat × State :=
  let x := lowestFree s.ledger.entries.cells 0
  let s := s.setEntry x (some { e with tag := x })
  (x, match e.charge with
    | .ward w => s.highF (F.LDGW_HOLD_PEAK w.val) (s.heldBy w)
    | .reserve => s)

/-- Take an entry and issue its request (spec 13 R356). A cacheless request to a host window leaves through the
host link (spec 12, Cacheless agents; 15 R413): a read waits for its completion, a write is posted. In viral no write leaves
(16 R443; DEDUCED, log 77). -/
def takeEntry (s : State) (e : LEntry) : State :=
  let (x, s) := s.openEntry e
  if e.hostMem then
    match e.wdata with
    | none => s.emit (.ioRead x (e.req.line.n * 64) 64 e.relaxed e.ido)
    | some v => (if s.link.viral then s else s.emit (.ioWrite (e.req.line.n * 64) e.req.mask v e.relaxed e.ido)).setEntry x none
  else s.sendReq x e.req

/-- Issue a transaction, or wait for an entry (spec 13 R356, R363). -/
def issue (s : State) (e : LEntry) : State :=
  if s.grantsNow e then s.takeEntry e
  else { s with ledger := { s.ledger with waiting := s.ledger.waiting ++ [e] } }

/-- An aborted entry is counted for its ward or its Bulk Port's ward (spec 13, LDG_W_ABORT). -/
def countAbort (s : State) (e : LEntry) : State :=
  match e.charge, e.bulk with
  | .ward w, _ => s.bumpF (F.LDGW_ABORT_COUNT w.val) 1
  | .reserve, some (.vf w) => s.bumpF (F.LDGW_ABORT_COUNT w.val) 1
  | .reserve, _ => s

/-- One of the transactions of entry `x` has had its final response: the entry closes with the last of them
(spec 13 R357, R365, R367). -/
def closeEntry (s : State) (x : Nat) : State :=
  match s.entry x with
  | none => s
  | some e =>
    if 1 < e.pend then s.setEntry x (some { e with pend := e.pend - 1 })
    else
      let s := s.setEntry x none
      if e.aborted then s.countAbort e else s

/-- Some open or waiting transaction of a quarter for a line. -/
def quarterAsks (s : State) (q : QuarterId) (l : LineAddr) : Bool :=
  s.ledger.entries.cells.any (fun c => match c.2 with
    | some e => e.req.src.quarter? == some q && e.req.line == l && decide (e.req.kind ≠ .wb ∧ e.req.kind ≠ .wbP ∧ e.req.kind ≠ .evict)
    | none => false)
  || s.ledger.waiting.any (fun e => e.req.src.quarter? == some q && e.req.line == l && decide (e.req.kind ≠ .wb ∧ e.req.kind ≠ .wbP ∧ e.req.kind ≠ .evict))

/-- Some open or waiting transaction of a tile itself. -/
def tileAsks (s : State) (t : TileId) (l : LineAddr) : Bool :=
  s.ledger.entries.cells.any (fun c => match c.2 with
    | some e => e.req.src == .tile t && e.req.line == l
    | none => false)
  || s.ledger.waiting.any (fun e => e.req.src == .tile t && e.req.line == l)

/-! ### Handing out freed capacity (spec 13 R360) -/

/-- The entry that is served next: wards in rotation after the ward served last, then the reserve in the order of
refusal. -/
def nextWaiting (s : State) : Option LEntry :=
  let start := match s.ledger.lastWard with
    | none => 0
    | some w => w.val + 1
  let byWard := (List.range 8).findSome? (fun k =>
    let w : WardId := Fin.ofNat 8 (start + k)
    s.ledger.waiting.find? (fun e => e.charge == .ward w && s.canGrant e))
  match byWard with
  | some e => some e
  | none => s.ledger.waiting.find? (fun e => e.charge == .reserve && s.canGrant e)

/-- The entry that is served leaves the wait. -/
def unwait (s : State) (e : LEntry) : State :=
  { s with ledger := { s.ledger with
      waiting := s.ledger.waiting.erase e
      lastWard := match e.charge with
        | .ward w => some w
        | .reserve => s.ledger.lastWard } }

/-- What cannot be issued waits where it is, with its place in the order of refusal (spec 13 R360, R363). -/
def waitAtSource (s : State) (e : LEntry) : State :=
  let e := { e with atSource := true }
  if s.ledger.waiting.any (fun x => x.atSource && x.req.src == e.req.src && x.req.line == e.req.line) then s else { s with ledger := { s.ledger with waiting := s.ledger.waiting ++ [e] } }

end State

end Sys2Proof.Machine
end

