-- ==== Sys2Proof/Machine/Quarter.lean ====
section
/-! DEFINITION. The quarter cache as an array (spec 11): lookup, exact LRU, allocation, check codes and injection,
write-validate, the through-traffic detector, and the store buffer's drain into it. -/

namespace Sys2Proof.Machine

/-! ### Places -/

def setOf (l : LineAddr) : Nat := l.n % 4096
def Quarter.way (q : Quarter) (set w : Nat) : CWay := q.ways.get CWay.free (set * 16 + w)
def CWay.full (c : CWay) : Bool := c.valid == fullMask
def CWay.sealWard (c : CWay) : Option WardId := if c.sealed then some c.ward else none
def CWay.held (c : CWay) : Bool := decide (c.st ≠ CState.i)
def QBuf.line (b : QBuf) : LineAddr := b.req.line
def QBuf.mask (b : QBuf) : Mask64 := b.req.mask
def QBuf.kind (b : QBuf) : ReqKind := b.req.kind
/-- The ward under whose seal the line stands at its home. -/
def QBuf.sealWard (b : QBuf) : Option WardId := b.req.sealWard
def CWay.asking (c : CWay) : Bool := decide (c.st = CState.sm ∨ c.st = CState.im)

/-- Row w all ones, then column w cleared (spec 11 R296). -/
def lruTouch (m : BitVec 256) (w : Nat) : BitVec 256 :=
  let row : Nat := 65535 * 2 ^ (16 * w)
  let col : Nat := (List.range 16).foldl (fun a i => a + 2 ^ (16 * i + w)) 0
  (m ||| BitVec.ofNat 256 row) &&& ~~~ BitVec.ofNat 256 col

/-- The candidate whose row, restricted to the candidates, is all zeros (spec 11 R296). -/
def lruPick (m : BitVec 256) (cands : List Nat) : Option Nat :=
  cands.find? (fun w => cands.all (fun c => !m.getLsbD (16 * w + c)))

/-- The ways of a mask, ascending. -/
def waysIn (m : BitVec 16) : List Nat := (List.range 16).filter (fun w => m.getLsbD w)

/-- Detector step (spec 11 R303): the trackers, most recent first, and the run count a full-line drain reaches. -/
def ttStep (ts : List Tracker) (w : WardId) (n : Nat) (full : Bool) : List Tracker × Nat :=
  match ts.find? (fun t => t.ward == w && t.next == n) with
  | some t =>
    let rest := ts.erase t
    if full then ({ t with next := n + 1, count := t.count + 1 } :: rest, t.count + 1) else (rest, 0)
  | none => if full then (⟨w, n + 1, 1⟩ :: ts.take 7, 1) else (ts, 0)

/-- What a lookup finds. -/
inductive QProbe where
  | absent
  /-- the line is held but a needed byte is not valid -/
  | short (w : Nat) (c : CWay)
  | hit (w : Nat) (c : CWay)
  deriving DecidableEq, Repr

namespace State

def updQuarter (s : State) (q : QuarterId) (f : Quarter → Quarter) : State := s.setQuarter q (f (s.quarter q))
def qcCount (s : State) (q : QuarterId) (n : Nat) : State := s.bumpF (F.QC_CNT_VALUE q.val n) 1

/-! ### Events and writes of the arrays (spec 11 R317, R318) -/

/-- Record an event of the quarter cache: QC_ERR, then the Beacon (spec 11, QC_ERR; 16 R434, R438). -/
def qcEvent (s : State) (q : QuarterId) (cls errKind kind set w : Nat) (ward : Option WardId) : State :=
  let s := if cls = 1 then s.bumpF (F.QC_ERR_CORRECTED q.val) 1 else s.bumpF (F.QC_ERR_UNCORR q.val) 1
  let s := if errKind = 4 then s.bumpF (F.QC_ERR_TAGPAR q.val) 1 else s
  let s := ((s.setF (F.QC_ERR_SET q.val) set).setF (F.QC_ERR_WAY q.val) w).setF (F.QC_ERR_KIND q.val) errKind
  s.event ⟨q.val, cls, kind, 48, wardBit ward, BitVec.ofNat 64 (s.storedWord (0x100020 + 0x10000 * q.val))⟩

/-- An armed injection meets a write of its array into a way (spec 11 R318): whether it fires, and the state. -/
def injects (s : State) (q : QuarterId) (tagArray : Bool) (set w : Nat) : Bool × State :=
  if s.isF (F.QC_INJ_ARM q.val) && (s.isF (F.QC_INJ_ARRAY q.val) == tagArray) && bitN (s.getF (F.QC_INJ_WAYS q.val)) w then
    (true, ((s.setF (F.QC_INJ_ARM q.val) 0).setF (F.QC_INJ_FIRED q.val) 1).setF (F.QC_INJ_SET q.val) set)
  else (false, s)

/-- Write a way: `written` are the data bytes written. The stored codes of those bytes are fresh. -/
def writeWay (s : State) (q : QuarterId) (set w : Nat) (c : CWay) (written : Mask64) : State :=
  let old := (s.quarter q).way set w
  let c := { c with errs := c.errs.filter (fun e => !written.getLsbD e.1) }
  let tagWrite : Bool := decide (old.line ≠ c.line) || decide (old.st ≠ c.st) || (old.full != c.full) || (old.poison != c.poison)
  let (tagHit, s) := if tagWrite then s.injects q true set w else (false, s)
  let (dataHit, s) := if written = 0 then (false, s) else s.injects q false set w
  let c := if tagWrite then { c with tagBad := tagHit } else c
  let b := s.getF (F.QC_INJ_BYTE q.val)
  let c := if dataHit then { c with errs := (b, BitVec.ofNat 13 (s.getF (F.QC_INJ_MASK q.val))) :: c.errs.filter (fun e => e.1 != b) } else c
  s.updQuarter q (fun x => { x with ways := x.ways.put CWay.free (set * 16 + w) c })

def touchWay (s : State) (q : QuarterId) (set w : Nat) : State :=
  s.updQuarter q (fun x => { x with lru := x.lru.put 0 set (lruTouch (x.lru.get 0 set) w) })

/-! ### Copies in the L1 caches (spec 10 R277; DESIGN CHOICE, log 8) -/

def tilesOf (q : QuarterId) : List TileId := (List.range 16).map (fun m => Fin.ofNat 256 (16 * q.val + m))

/-- Copies of a line that await their invalidation. -/
def markStale (c : List L1Line) (l : LineAddr) : List L1Line := c.map (fun x => if x.line = l then { x with stale := true } else x)

/-- The quarter cache line has changed: the other tiles' L1D copies of it await their invalidation (spec 10 R277; DEDUCED,
log 36), and every tile's instruction copies of it are of an old form (05 R170). -/
def staleCopies (s : State) (q : QuarterId) (l : LineAddr) (self : Option TileId) : State :=
  (tilesOf q).foldl (fun s t =>
    let tl := s.tile t
    let has := fun (c : List L1Line) => c.any (fun x => decide (x.line = l))
    let d : Bool := has tl.l1d && some t != self
    if d || has tl.l1i || has tl.fetchBuf.toList then
      s.setTile t { tl with l1d := if d then markStale tl.l1d l else tl.l1d, l1i := markStale tl.l1i l,
                            fetchBuf := tl.fetchBuf.map (fun x => if x.line = l then { x with stale := true } else x) }
    else s) s

/-! ### Reading the arrays (spec 11 R306–R308) -/

def putWay (s : State) (q : QuarterId) (set w : Nat) (c : CWay) : State := s.writeWay q set w c 0

/-- An entry becomes invalid; the copies of its line follow it. -/
def clearWay (s : State) (q : QuarterId) (set w : Nat) : State :=
  let c := (s.quarter q).way set w
  let s := s.putWay q set w CWay.free
  if c.held then s.staleCopies q c.line none else s

/-- Reading the tags of a set finds the entries with bad parity: the entry is lost (spec 11 R308). -/
def tagScan (s : State) (q : QuarterId) (set : Nat) : State :=
  (List.range 16).foldl (fun s w =>
    let c := (s.quarter q).way set w
    if c.tagBad then
      let s := s.clearWay q set w
      let s := if c.held then s.updQuarter q (fun x => { x with lost := x.lost ++ [c.line] }) else s
      s.qcEvent q 2 4 9 set w (if c.held then some c.ward else none)
    else s) s

/-- The way that holds a line. -/
def qFind (s : State) (q : QuarterId) (l : LineAddr) : Option Nat :=
  (List.range 16).find? (fun w => let c := (s.quarter q).way (setOf l) w; c.held && decide (c.line = l))

/-- Byte `k` of a line's byte-valid mask. -/
def maskByte (m : Mask64) (k : Nat) : Nat := m.toNat / 256 ^ k % 256

/-- Reading a line's byte-valid mask checks its bytes. With an uncorrectable one the line becomes FULL and POISON; a line
in E becomes M, so that it is written back with its poison (spec 11 R305, R307; DEDUCED, log 78). -/
def checkMask (s : State) (q : QuarterId) (set w : Nat) : State :=
  ((s.quarter q).way set w).maskErrs.foldl (fun s e =>
    let c := (s.quarter q).way set w
    if !c.maskErrs.contains e then s
    else
      let rest := c.maskErrs.filter (fun z => z.1 != e.1)
      match decode13 (encode13 (maskByte c.valid e.1) ^^^ e.2.toNat) with
      | .clean _ => s.putWay q set w { c with maskErrs := rest }
      | .corrected _ => (s.putWay q set w { c with maskErrs := rest }).qcEvent q 1 1 1 set w (some c.ward)
      | .uncorrectable _ =>
        (s.putWay q set w { c with maskErrs := [], valid := fullMask, poison := true, st := if c.st = .e then .m else c.st }).qcEvent q 2 3 2 set w (some c.ward)) s

/-- A lookup: the tags of the set and the mask of the line found are read. -/
def qLook (s : State) (q : QuarterId) (l : LineAddr) : Option Nat × State :=
  let s := s.tagScan q (setOf l)
  match s.qFind q l with
  | none => (none, s)
  | some w => (some w, s.checkMask q (setOf l) w)

/-- Check the valid bytes that an access reads (spec 11 R306). False: the line was clean and is dropped, to be
fetched afresh. -/
def checkBytes (s : State) (q : QuarterId) (set w : Nat) (need : Mask64) : Bool × State :=
  let c := (s.quarter q).way set w
  c.errs.foldl (fun (p : Bool × State) e =>
    let (ok, s) := p
    let c := (s.quarter q).way set w
    if !ok || !(need &&& c.valid).getLsbD e.1 || !c.errs.contains e then (ok, s)
    else
      let put := fun (x : Nat) (s : State) =>
        s.writeWay q set w { c with data := mergeLine c.data (placeBytes e.1 1 x) (rangeMask e.1 1) } (rangeMask e.1 1)
      match decode13 (encode13 (byteAt c.data e.1).toNat ^^^ e.2.toNat) with
      | .clean x => (true, put x s)
      | .corrected x => (true, (put x s).qcEvent q 1 1 1 set w (some c.ward))
      | .uncorrectable _ =>
        if decide (c.st = CState.s ∨ c.st = CState.e) && c.full then
          (false, (s.clearWay q set w).qcEvent q 1 2 2 set w (some c.ward))
        else (true, (s.putWay q set w { c with poison := true, errs := c.errs.filter (fun z => z.1 != e.1) }).qcEvent q 2 2 2 set w (some c.ward))) (true, s)

/-- Look a line up for the bytes of `need`. -/
def qProbe (s : State) (q : QuarterId) (l : LineAddr) (need : Mask64) : QProbe × State :=
  let set := setOf l
  match s.qLook q l with
  | (none, s) => (.absent, s)
  | (some w, s) =>
    let (ok, s) := s.checkBytes q set w need
    let c := (s.quarter q).way set w
    if !ok then (.absent, s)
    else if need &&& c.valid = need then (.hit w c, s) else (.short w c, s)

/-! ### The write-back, notice and bypass buffers -/

def bufOf (s : State) (q : QuarterId) (l : LineAddr) : Option QBuf := (s.quarter q).bufs.find? (fun b => decide (b.line = l))
def addBuf (s : State) (q : QuarterId) (b : QBuf) : State := s.updQuarter q (fun x => { x with bufs := x.bufs ++ [b] })

/-- A line leaves its way: M goes to its home as WB, or as WB_P when not every byte is valid; S and E send their
notice (spec 11 R300, R301; DESIGN CHOICE, log 17). The request travels under XID `x`. -/
def leaveWay (s : State) (q : QuarterId) (set w x : Nat) (src : Source) : State :=
  let s := s.tagScan q set
  let s := if ((s.quarter q).way set w).held then s.checkMask q set w else s
  let s := if ((s.quarter q).way set w).st = CState.m then (s.checkBytes q set w fullMask).2 else s
  let c := (s.quarter q).way set w
  if !c.held then s
  else
    let kind : ReqKind := if c.st = CState.m then (if c.full then .wb else .wbP) else .evict
    let s := s.clearWay q set w
    let r := { Req.make kind c.line src (some c.ward) c.sealed with mask := c.valid }
    let s := s.addBuf q { xid := x, req := r, v := ⟨c.data, c.poison⟩, way := w }
    let s := if kind = .evict then s else s.qcCount q 4
    let s := if kind = .wbP then s.qcCount q 3 else s
    s.sendReq x r

/-! ### Allocation (spec 11 R293, R296, R297, R301) -/

/-- The way that a ward's allocation in a set takes; none when every candidate is in SM or IM, or the ward owns
no way. -/
def pickWay (s : State) (q : QuarterId) (wd : WardId) (set : Nat) : Option Nat :=
  let cands := waysIn (s.waysOf wd q)
  let x := s.quarter q
  match cands.find? (fun w => !(x.way set w).held) with
  | some w => some w
  | none => lruPick (x.lru.get 0 set) (cands.filter (fun w => !(x.way set w).asking))

/-- Take a way for a line; the victim leaves under the XID of the request that allocates. -/
def allocWay (s : State) (q : QuarterId) (wd : WardId) (l : LineAddr) (x : Nat) : Option (Nat × State) :=
  let set := setOf l
  match s.pickWay q wd set with
  | none => none
  | some w =>
    if ((s.quarter q).way set w).held then
      let s := s.updEntry x (fun e => { e with pend := e.pend + 1 })
      let src := match s.entry x with
        | some e => e.req.src
        | none => .drain q
      some (w, s.leaveWay q set w x src)
    else some (w, s)

/-! ### The path of an access -/

def draining (s : State) (q : QuarterId) : Bool := s.isF (F.QC_STATUS_DRAINING q.val)
def qcOn (s : State) (q : QuarterId) : Bool := s.isF (F.QC_CTRL_ENABLE q.val) && !s.draining q

/-- The access goes through the quarter cache (spec 11 R297, R312; 15 R412; DEDUCED, log 18). -/
def cached (s : State) (q : QuarterId) (wd : WardId) (host : Bool) : Bool :=
  s.qcOn q && s.waysOf wd q != 0 && (!host || (s.link.cxl && !s.link.disableCaching))

/-- The open entry under which a quarter asks for a line. -/
def askingXid (s : State) (q : QuarterId) (l : LineAddr) : Option Nat :=
  (s.ledger.entries.cells.find? (fun c => match c.2 with
    | some e => e.req.src.quarter? == some q && decide (e.req.line = l)
    | none => false)).map (·.1)

/-- A quarter asks for a line on behalf of a tile (spec 13 R357). -/
def quarterReq (s : State) (k : ReqKind) (t : TileId) (wd : WardId) (sl : Bool) (l : LineAddr) : State :=
  s.issue (LEntry.make (Req.make k l (.quarter (tileQuarter t) t) (some wd) sl) (.ward wd))

/-! ### Scratch (spec 04 R120; 11 R309, R310) -/

/-- The scratch ways of a ward in a quarter, ascending. -/
def scratchList (s : State) (wd : WardId) (q : QuarterId) : List Nat := waysIn ((s.own wd).scratch.getD q.val 0)
def scratchSize (s : State) (wd : WardId) (q : QuarterId) : Nat := 262144 * (s.scratchList wd q).length
/-- The physical place of a scratch offset. -/
def scratchPlace (s : State) (wd : WardId) (q : QuarterId) (o : Nat) : Nat :=
  (s.scratchList wd q).getD (o / 262144) 0 * 262144 + o % 262144

/-- Bad parity of a scratch entry is found when its line is read or written (spec 11 R308, R310; DESIGN CHOICE, log 19). -/
def scratchTag (s : State) (q : QuarterId) (wd : Option WardId) (ln : Nat) : State :=
  if (s.quarter q).scratchTagBad.get false ln then
    let s := s.updQuarter q (fun x => { x with scratchTagBad := x.scratchTagBad.put false ln false,
                                               scratchPoison := x.scratchPoison.drop (fun k => k / 8 == ln) })
    s.qcEvent q 2 4 9 (ln % 4096) (ln / 4096) wd
  else s

/-- Write masked bytes of a scratch line; a word written whole loses its mark (spec 11 R310). -/
def scratchWrite (s : State) (q : QuarterId) (wd : Option WardId) (ln : Nat) (mask : Mask64) (d : Line512) : State :=
  let s := s.scratchTag q wd ln
  let marks := (List.range 8).filter (fun i => mask.toNat / 256 ^ i % 256 == 255)
  let tagWrite := marks.any (fun i => (s.quarter q).scratchPoison.get false (ln * 8 + i))
  let s := s.updQuarter q (fun x => { x with
    scratch := (List.range 64).foldl (fun t i => if mask.getLsbD i then t.put 0 (ln * 64 + i) (byteAt d i) else t) x.scratch
    scratchErrs := x.scratchErrs.drop (fun k => k / 64 == ln && mask.getLsbD (k % 64))
    scratchPoison := x.scratchPoison.drop (fun k => k / 8 == ln && marks.contains (k % 8)) })
  let (th, s) := if tagWrite then s.injects q true (ln % 4096) (ln / 4096) else (false, s)
  let s := if th then s.updQuarter q (fun x => { x with scratchTagBad := x.scratchTagBad.put false ln true }) else s
  let (dh, s) := s.injects q false (ln % 4096) (ln / 4096)
  if dh then
    s.updQuarter q (fun x => { x with scratchErrs := x.scratchErrs.put 0 (ln * 64 + s.getF (F.QC_INJ_BYTE q.val)) (BitVec.ofNat 13 (s.getF (F.QC_INJ_MASK q.val))) })
  else s

/-- The words of a scratch line that a mask touches are poisoned. -/
def scratchMark (s : State) (q : QuarterId) (ln : Nat) (mask : Mask64) : State :=
  s.updQuarter q (fun x => { x with scratchPoison := (List.range 8).foldl (fun t i =>
    if maskByte mask i = 0 then t else t.put false (ln * 8 + i) true) x.scratchPoison })

/-- Read `n` bytes at a physical place: the value and whether a word read carries poison. -/
def scratchRead (s : State) (q : QuarterId) (wd : Option WardId) (p n : Nat) : Nat × Bool × State :=
  let s := s.scratchTag q wd (p / 64)
  let s := (List.range n).foldl (fun s i =>
    let k := p + i
    let fl := (s.quarter q).scratchErrs.get 0 k
    if fl = 0 then s
    else
      let d := ((s.quarter q).scratch.get 0 k).toNat
      let fix := fun (x : Nat) (bad : Bool) => s.updQuarter q (fun y =>
        let marks := if bad then y.scratchPoison.put false (k / 8) true else y.scratchPoison
        { y with scratch := y.scratch.put 0 k (BitVec.ofNat 8 x), scratchErrs := y.scratchErrs.put 0 k 0, scratchPoison := marks })
      match decode13 (encode13 d ^^^ fl.toNat) with
      | .clean x => fix x false
      | .corrected x => (fix x false).qcEvent q 1 1 1 (k / 64 % 4096) (k / 262144) wd
      | .uncorrectable x => (fix x true).qcEvent q 2 5 2 (k / 64 % 4096) (k / 262144) wd) s
  (ofLe ((List.range n).map (fun i => (s.quarter q).scratch.get 0 (p + i))), (s.quarter q).scratchPoison.get false (p / 8), s)

/-! ### The store buffer (spec 10 R272, R273, R298) -/

/-- Some store of the tile to the line is on its uncached way. -/
def uncachedWrite (s : State) (t : TileId) (l : LineAddr) : Bool :=
  s.ledger.entries.cells.any (fun c => match c.2 with
    | some e => e.req.src == .tile t && decide (e.req.line = l) && decide (e.req.kind = .wrInv)
    | none => false)
  || s.ledger.waiting.any (fun e => !e.atSource && e.req.src == .tile t && decide (e.req.line = l) && decide (e.req.kind = .wrInv))

/-- A store that drains updates its own tile's L1D copy; the other copies of the quarter await their invalidation
(spec 10 R277; DEDUCED, log 80). -/
def storeCopies (s : State) (q : QuarterId) (t : TileId) (e : SbEntry) : State :=
  let s := s.updTile t (fun tl => { tl with l1d := tl.l1d.map (fun x =>
    if x.line = e.line then
      { x with v := ⟨mergeLine x.v.data e.data e.mask, x.v.poison && e.mask != fullMask || e.poison⟩, valid := x.valid ||| e.mask }
    else x) })
  s.staleCopies q e.line (some t)

/-- Write masked bytes into a way that holds the line (spec 11 R298, R302). -/
def storeWay (s : State) (q : QuarterId) (set w : Nat) (t : TileId) (e : SbEntry) (st : CState) (upg : Mask64) : State :=
  let c := (s.quarter q).way set w
  let c := { c with st := st, data := mergeLine c.data e.data e.mask, valid := c.valid ||| e.mask,
                    poison := (c.poison && e.mask != fullMask) || e.poison, upgMask := upg, hold := false }
  ((s.writeWay q set w c e.mask).touchWay q set w).storeCopies q t e

/-- A store of the quarter's tiles to the line that is quarter-early and not yet at its home: after a disable the
uncached accesses of the tiles come after it (spec 10 R279; 11 R304, R312). -/
def earlyHere (s : State) (q : QuarterId) (l : LineAddr) : Bool :=
  (match s.qFind q l with
    | some w => ((s.quarter q).way (setOf l) w).asking
    | none => false)
  || (s.quarter q).bufs.any (fun b => decide (b.line = l) && decide (b.kind = .wrInv))

/-- The Ledger has an entry for the drain: it is called, or may be granted at once. -/
def mayTake (s : State) (called : Bool) (e : LEntry) : Bool := if called then s.canGrant e else s.grantsNow e

/-- Drain one entry (spec 10 R273; 11 R298, R302–R304, R312; 13 R363): true when the entry has left. A drain that the
Ledger refuses waits with its entry until the Ledger calls it. -/
def drainEntryBy (s : State) (called : Bool) (t : TileId) (e : SbEntry) : Bool × State :=
  let q := tileQuarter t
  let set := setOf e.line
  let gone := fun (s : State) => s.updTile t (fun tl => { tl with sb := tl.sb.erase e })
  if e.scratch then
    let s := s.scratchWrite q (some e.ward) e.line.n e.mask e.data
    (true, gone (if e.poison then s.scratchMark q e.line.n e.mask else s))
  else if s.uncachedWrite t e.line then (false, s)
  else if !s.cached q e.ward e.line.host then
    if s.earlyHere q e.line then (false, s)
    else
      let r := { Req.make .wrInv e.line (.tile t) (some e.ward) e.sealed with mask := e.mask }
      let en := { LEntry.make r (.ward e.ward) with wdata := some ⟨e.data, e.poison⟩, hostMem := e.line.host, relaxed := e.relaxed, ido := e.ido }
      if s.mayTake called en then (true, (gone s).takeEntry en) else (false, s.waitAtSource en)
  else
    let (found, s) := s.qLook q e.line
    let full : Bool := e.mask == fullMask
    let ttOn := s.isF (F.QC_CTRL_TT_EN q.val) && !e.line.host
    let (ts, run) := if ttOn then ttStep (s.quarter q).trackers e.ward e.line.n full else ((s.quarter q).trackers, 0)
    let tt := fun (s : State) => s.updQuarter q (fun x => { x with trackers := ts })
    if (s.bufOf q e.line).isSome then (false, s)
    else match found with
    | some w =>
      let c := (s.quarter q).way set w
      if c.st = CState.s then
        if s.quarterAsks q e.line then (false, s)
        else
          let en := LEntry.make (Req.make .upg e.line (.quarter q t) (some e.ward) e.sealed) (.ward e.ward)
          if s.mayTake called en then
            (true, gone ((((tt s).storeWay q set w t e .sm e.mask).takeEntry en).qcCount q 0))
          else (false, s.waitAtSource en)
      else
        let st : CState := if c.st = CState.e then .m else c.st
        let upg := if c.st = CState.sm then c.upgMask ||| e.mask else c.upgMask
        (true, gone (((tt s).storeWay q set w t e st upg).qcCount q 0))
    | none =>
      if ttOn && full && decide (s.getF (F.QC_CTRL_TT_RUN q.val) < run) then
        let r := Req.make .wrInv e.line (.quarter q t) (some e.ward) e.sealed
        let en := { LEntry.make r (.ward e.ward) with wdata := some ⟨e.data, e.poison⟩ }
        if 16 ≤ ((s.quarter q).bufs.filter (fun b => decide (b.kind = .wrInv))).length then (false, s)
        else if s.mayTake called en then
          let x := lowestFree s.ledger.entries.cells 0
          let s := (tt s).addBuf q { xid := x, req := r, v := ⟨e.data, e.poison⟩, way := 0 }
          let s := (s.takeEntry en).qcCount q 2
          (true, gone (s.storeCopies q t e))
        else (false, s.waitAtSource en)
      else
        let fill := fun (s : State) (x : Nat) => match s.allocWay q e.ward e.line x with
          | none => (false, s)
          | some (w, s) =>
            let c := { CWay.free with line := e.line, ward := e.ward, sealed := e.sealed }
            let s := s.updQuarter q (fun y => { y with ways := y.ways.put CWay.free (set * 16 + w) c })
            (true, gone (((tt s).storeWay q set w t e .im 0).qcCount q 1))
        match s.askingXid q e.line with
        | some x => fill s x
        | none =>
          if s.quarterAsks q e.line then (false, s)
          else
            let en := LEntry.make (Req.make .own e.line (.quarter q t) (some e.ward) e.sealed) (.ward e.ward)
            if (s.pickWay q e.ward set).isNone then (false, s)
            else if s.mayTake called en then
              let x := lowestFree s.ledger.entries.cells 0
              fill ((s.takeEntry en).countTile t 19 1) x
            else (false, s.waitAtSource en)

/-- A drain that nothing has called. -/
def drainEntry (s : State) (t : TileId) (e : SbEntry) : Bool × State := s.drainEntryBy false t e

/-- Drain a tile's entries for which `p` holds; true when all of them have left. -/
def drainWhere (s : State) (t : TileId) (p : SbEntry → Bool) : Bool × State :=
  ((s.tile t).sb.filter p).foldl (fun (a : Bool × State) e => let (ok, s) := a.2.drainEntry t e; (a.1 && ok, s)) (true, s)

end State
end Sys2Proof.Machine
end

