-- ==== Sys2Proof/Machine/TileRun.lean ====
section
/-! DEFINITION. How a tile runs an instruction: when it may begin, the Lantern comparators, the fetch, the
exceptions of the fetch and of the encoding, and retirement (spec 04 R116, R127–R137; 05 R150; 19 R507–R513). -/

namespace Sys2Proof.Machine

/-- What a fetch meets. -/
inductive Fetch where
  /-- the fetched word, and the state after the fetch -/
  | ok (s : State) (word : W32)
  | fault (code wc : Nat) (s : State)
  | wait (s : State)

/-- A full L1 cache drops its oldest line (DESIGN CHOICE, log 8). -/
def pushL1 (c : List L1Line) (x : L1Line) : List L1Line :=
  let c := c.filter (fun y => decide (y.line ≠ x.line))
  (if 512 ≤ c.length then c.drop 1 else c) ++ [x]

namespace State

/-! ### Lantern halts and events (spec 19 R505, R513, R514) -/

def scopeCovers (s : State) (scope target : Nat) (t : TileId) : Bool :=
  if scope = 0 then t.val == target
  else if scope = 1 then t.val / 16 == target
  else if scope = 2 then (s.tileWard t).map (·.val) == some target
  else true

/-- Some halt in force covers the tile. -/
def haltCovers (s : State) (t : TileId) : Bool := s.lantern.halts.any (fun h => s.scopeCovers h.scope h.target t)

/-- A halt is added; the freeze setting applies from it on (spec 19 R505, R506, R514). -/
def addHalt (s : State) (scope target : Nat) : State :=
  let h : LHalt := ⟨scope, target⟩
  { s with lantern := { s.lantern with
      halts := if s.lantern.halts.contains h then s.lantern.halts else s.lantern.halts ++ [h],
      freezeNow := BitVec.ofNat 6 (s.getF F.LNT_FREEZE_BITS) } }

/-- A debug event replaces any earlier one (spec 19 R513). -/
def debugEvent (s : State) (kind idx : Nat) (t : TileId) (pc addr : W64) : State :=
  let s := ((((((s.setF F.LNT_EVENT_KIND kind).setF F.LNT_EVENT_INDEX idx).setF F.LNT_EVENT_TILE t.val).bumpF
    F.LNT_EVENT_COUNT 1).setF F.LNT_EVENT_PC_VALUE pc.toNat).setF F.LNT_EVENT_ADDR_VALUE addr.toNat)
  { s with lantern := { s.lantern with eventNew := true } }

/-- Carry out a comparator's ACTION at a tile: halt it, its ward, or the device. -/
def compAction (s : State) (t : TileId) (action : Nat) : State :=
  let s := s.updTile t (fun tl => { tl with halted := true })
  if action = 1 then
    match s.tileWard t with
    | some w => s.addHalt 2 w.val
    | none => s.addHalt 0 t.val
  else if action = 2 then s.addHalt 3 0
  else s.addHalt 0 t.val

/-- The breakpoints that hit at the tile's PC (spec 19 R511). -/
def bpHits (s : State) (t : TileId) : List Nat :=
  (List.range 8).filter (fun n => s.isF (F.LNT_BP_CTRL_EN n) && s.scopeCovers (s.getF (F.LNT_BP_CTRL_SCOPE n)) (s.getF (F.LNT_BP_CTRL_TARGET n)) t
    && s.getF (F.LNT_BP_ADDR_VALUE n) / 4 == (s.tile t).pc.toNat / 4)

/-- A breakpoint halts the tile before the instruction; a step is not stopped by one (DEDUCED, log 20). -/
def breakHit (s : State) (t : TileId) : Option State :=
  if (s.tile t).stepping then none
  else match s.bpHits t with
    | [] => none
    | n :: rest =>
      let s1 := (n :: rest).foldl (fun s k =>
        let s := s.compAction t (s.getF (F.LNT_BP_CTRL_ACTION k))
        if s.isF (F.LNT_BP_CTRL_ONESHOT k) then s.setF (F.LNT_BP_CTRL_EN k) 0 else s) s
      some (s1.debugEvent 1 n t (s.tile t).pc 0)

/-- The watchpoints that an access of `n` bytes at `a` hits (spec 19 R512). -/
def wpHits (s : State) (t : TileId) (load store : Bool) (a n : Nat) : List Nat :=
  (List.range 4).filter (fun k =>
    let sz := 2 ^ s.getF (F.LNT_WP_CTRL_LOG2SIZE k)
    let b := s.getF (F.LNT_WP_ADDR_VALUE k) / sz * sz
    s.isF (F.LNT_WP_CTRL_EN k) && s.scopeCovers (s.getF (F.LNT_WP_CTRL_SCOPE k)) (s.getF (F.LNT_WP_CTRL_TARGET k)) t
      && ((load && s.isF (F.LNT_WP_CTRL_LOAD k)) || (store && s.isF (F.LNT_WP_CTRL_STORE k)))
      && decide (a < b + sz) && decide (b < a + n))

/-- A retiring access meets the watchpoints; the halt takes effect before the next instruction. -/
def watch (s : State) (t : TileId) (load store : Bool) (a : W64) (n : Nat) : State :=
  match s.wpHits t load store a.toNat n with
  | [] => s
  | k :: rest =>
    let s1 := (k :: rest).foldl (fun s j =>
      let s := s.compAction t (s.getF (F.LNT_WP_CTRL_ACTION j))
      if s.isF (F.LNT_WP_CTRL_ONESHOT j) then s.setF (F.LNT_WP_CTRL_EN j) 0 else s) s
    s1.debugEvent 2 k t (s.tile t).pc a

/-! ### When a tile may begin an instruction -/

/-- The core domain executes: not in reset, dim or quiesced (spec 17 R456, R460). -/
def coreActive (s : State) : Bool := s.power.coreUp && !s.power.dimDrain && !s.power.plwRunning

/-- An engine feeds from the tile (spec 09 R248): its core is held as though RUN were 0. -/
def feedHeld (s : State) (t : TileId) : Bool :=
  (List.range 86).any (fun e => s.isF (F.ENG_CTRL_FEED_EN e) && s.getF (F.ENG_CTRL_FEED_TILE e) == t.val)

/-- The interrupt that is taken at the next boundary (spec 04 R126–R128). -/
def pendingInt (s : State) (t : TileId) : Option Nat :=
  let st := (s.tileStatus t).toNat
  let im := (s.tile t).im.toNat
  if bitN st 16 && bitN im 0 then some 0x20
  else if bitN st 17 && bitN im 1 then some 0x21
  else if bitN st 18 && bitN im 2 then some 0x22
  else none
def intReady (s : State) (t : TileId) : Bool := (s.tile t).ie && !(s.tile t).stepping && (s.pendingInt t).isSome

/-- The tile stands at an instruction boundary at which it may go on. -/
def canRun (s : State) (t : TileId) : Bool :=
  s.coreActive && (s.tileWard t).isSome && !s.feedHeld t
    && (!(s.tile t).halted || ((s.tile t).stepping && !(s.tile t).stepDone))
def tileReady (s : State) (t : TileId) : Bool :=
  s.canRun t && decide ((s.tile t).mode = TileMode.running) && !s.intReady t

/-! ### Reading a line for a tile -/

/-- The bytes of a line for a tile's fetch, load, PTEST or atomic: the line and its valid bytes, or none when the
tile waits for the request that this sends or that is on its way (spec 10; 11 R293, R297, R299, R304, R306, R312;
DESIGN CHOICE, log 17). -/
def lineRead (s : State) (t : TileId) (wd : WardId) (x : Xlat) (need : Mask64) : Option (LineVal × Mask64) × State :=
  let q := tileQuarter t
  let l : LineAddr := ⟨x.host, x.addr / 64⟩
  if s.cached q wd x.host then
    match (s.quarter q).bufs.find? (fun b => decide (b.line = l) && decide (b.kind = .wrInv)) with
    | some b => (some (b.v, b.mask), s)
    | none =>
      match s.qProbe q l need with
      | (.hit w c, s) =>
        let s := (if (s.tile t).mode = TileMode.running then s.qcCount q 0 else s).touchWay q (setOf l) w
        let s := if c.hold then s.putWay q (setOf l) w { c with hold := false } else s
        (some (⟨c.data, c.poison⟩, c.valid), s)
      | (.short _ c, s) =>
        if c.asking || s.quarterAsks q l then (none, s)
        else (none, (((s.qcCount q 1).qcCount q 3).countTile t 19 1).quarterReq .fill t wd x.sealed l)
      | (.absent, s) =>
        if (s.bufOf q l).isSome || s.quarterAsks q l || (s.pickWay q wd (setOf l)).isNone then (none, s)
        else (none, ((s.qcCount q 1).countTile t 19 1).quarterReq .rdS t wd x.sealed l)
  else if s.earlyHere q l || s.tileAsks t l then (none, s)
  else (none, s.issue { LEntry.make (Req.make .rdC l (.tile t) (some wd) x.sealed) (.ward wd) with
    hostMem := x.host, relaxed := x.relaxed, ido := x.ido })

/-! ### Fetch (spec 04 R127, R128, R136; 05 R170) -/

def pushL1i (s : State) (t : TileId) (x : L1Line) : State :=
  s.updTile t (fun tl => { tl with l1i := pushL1 tl.l1i x, fetchBuf := some x })

/-- The word at byte offset `o` of a line. -/
def wordAt (d : Line512) (o : Nat) : W32 := BitVec.ofNat 32 (lineBytes d o 4)

/-- A fetch that brings a word: a vector's fetch ends the delivery of its exception (spec 04 R133). -/
def fetched (s : State) (t : TileId) (w : W32) : Fetch :=
  .ok (if (s.tile t).vectoring.isSome then s.updTile t (fun tl => { tl with vectoring := none }) else s) w

/-- The word at offset `o` of local store: the line fetched ahead may serve its old form until SYNC.I, which a free
value decides (spec 05 R170; DESIGN CHOICE, log 3). -/
def fetchLs (s : State) (t : TileId) (o : Nat) : Fetch :=
  let s := s.lsCorrect t o 4
  let line := BitVec.ofNat 512 ((s.tile t).lsRead (o / 64 * 64) 64)
  let fresh := fun (s : State) => (s.updTile t (fun tl => { tl with lsBuf := some (o / 64, line) })).fetched t (wordAt line (o % 64))
  match (s.tile t).lsBuf with
  | none => fresh s
  | some (k, d) =>
    if k ≠ o / 64 then fresh s
    else if wordAt d (o % 64) = wordAt line (o % 64) then s.fetched t (wordAt line (o % 64))
    else
      let (v, s) := s.free
      if v % 2 = 0 then s.fetched t (wordAt d (o % 64)) else fresh s

/-- The copy of a line in the fetch buffer or L1I that serves the bytes of `need`. A copy whose line has changed may
still serve its old form, which a free value decides; else it is dropped and the line is asked for again (spec 05
R170; DESIGN CHOICE, log 3). -/
def l1iRead (s : State) (t : TileId) (l : LineAddr) (need : Mask64) : Option L1Line × State :=
  match ((s.tile t).fetchBuf.toList ++ (s.tile t).l1i).find? (fun y => decide (y.line = l) && (need &&& y.valid == need)) with
  | none => (none, s)
  | some y =>
    if y.stale then
      let (v, s) := s.free
      if v % 2 = 0 then (some y, s)
      else (none, s.updTile t (fun tl => { tl with l1i := tl.l1i.filter (fun z => decide (z.line ≠ l)), fetchBuf := tl.fetchBuf.filter (fun z => decide (z.line ≠ l)) }))
    else (some y, s)

/-- The fetch of the instruction at the tile's PC: its word, what it raises, or a wait for its line. -/
def fetch (s : State) (t : TileId) : Fetch :=
  let pc := (s.tile t).pc
  match s.fetchFault t pc with
  | some (c, wc) => .fault c wc s
  | none =>
    if lsBase ≤ pc.toNat then s.fetchLs t (pc.toNat / 4 * 4 - lsBase)
    else match s.tileWard t with
      | none => .fault 4 1 s
      | some w => match s.translate w (pc.toNat / 4 * 4) 4 .fetch with
        | .inl c => .fault 4 c s
        | .inr x =>
          let l : LineAddr := ⟨x.host, x.addr / 64⟩
          let need := rangeMask (x.addr % 64) 4
          match s.l1iRead t l need with
          | (some y, s) =>
            if y.v.poison then .fault 8 0 s
            else (s.updTile t (fun tl => { tl with fetchBuf := some y })).fetched t (wordAt y.v.data (x.addr % 64))
          | (none, s) =>
            let s := s.countTile t 3 1
            match s.lineRead t w x need with
            | (some (v, valid), s) =>
              let s := s.pushL1i t ⟨l, v, valid, false⟩
              if v.poison then .fault 8 0 s else s.fetched t (wordAt v.data (x.addr % 64))
            | (none, s) => .wait (s.updTile t (fun tl => { tl with mode := .inMemory l .fetch }))

/-- A fetch fault: FETCH_WINDOW, POISON_FETCH, LOCAL_ADDR or LS_ERROR at the PC; at the vector of an exception it
strands the tile (spec 04 R127, R133). -/
def fetchExcept (s : State) (t : TileId) (c wc : Nat) : State :=
  match (s.tile t).vectoring with
  | some fr => s.deliveryFault t c wc (s.tile t).pc fr
  | none => s.takeException t c wc 0 (s.tile t).pc (s.tile t).pc

/-- Wrong-path fills: lines from `a` on that the quarter cache holds and an EXEC window covers (spec 04 R136,
R137); how many, up to the 16 instructions fetched ahead, is a free value (DESIGN CHOICE, log 3). -/
def wrongFill (s : State) (t : TileId) (a : Nat) : Nat → State
  | 0 => s
  | k + 1 =>
    match s.tileWard t with
    | none => s
    | some w => match s.translate w a 4 .fetch with
      | .inl _ => s
      | .inr x =>
        let l : LineAddr := ⟨x.host, x.addr / 64⟩
        let q := tileQuarter t
        if (s.tile t).l1i.any (fun y => decide (y.line = l)) || !s.cached q w x.host then s
        else match s.qProbe q l fullMask with
        | (.hit wy c, s) =>
          let s := (s.qcCount q 0).touchWay q (setOf l) wy
          if c.poison then s
          else
            let s := s.updTile t (fun tl => ({ tl with l1i := pushL1 tl.l1i ⟨l, ⟨c.data, false⟩, c.valid, false⟩, wpFetch := tl.wpFetch + 1 }).countEv 5 1)
            s.wrongFill t (a / 64 * 64 + 64) k
        | (_, s) => s

/-- A branch may have been mispredicted (spec 04 R136): a free value says so and how far the wrong path went. -/
def mispredict (s : State) (t : TileId) (wrong : W64) : State :=
  let (v, s) := s.free
  if v % 2 = 0 then s
  else (s.countTile t 6 1).wrongFill t wrong.toNat (v / 2 % 3)

/-! ### Retirement -/

/-- The instruction at the PC retires and the tile goes on at `next` (spec 04 R116, R147; 19 R503, R508). `alone`:
it never issues in a pair. Whether it was the younger of a pair with the adjacent instruction retired before it is a
free value (spec 05 R171; DESIGN CHOICE, log 3). -/
def retireAs (s : State) (t : TileId) (alone : Bool) (next : W64) : State :=
  let tl := s.tile t
  let may : Bool := tl.counts 2 && tl.older && !alone && tl.trace.head? == some (tl.pc - 4)
  let (pair, s) := if may then s.free else (0, s)
  let s := if pair % 2 = 1 then s.countTile t 2 1 else s
  s.updTile t (fun tl =>
    let tl2 := { tl with
      pc := next, retired := tl.retired + 1, trace := (tl.pc :: tl.trace).take 16, stepDone := tl.stepping, mode := .running,
      older := !alone && pair % 2 == 0 }
    tl2.countEv 1 1)

/-- Retirement of an instruction that may issue in a pair. -/
def retire (s : State) (t : TileId) (next : W64) : State := s.retireAs t false next

/-- Retire and go on at the next instruction. -/
def retireNext (s : State) (t : TileId) : State := s.retire t ((s.tile t).pc + 4)

/-- The same of an instruction that always issues alone (spec 05 R171). -/
def retireAlone (s : State) (t : TileId) : State := s.retireAs t true ((s.tile t).pc + 4)

/-- Take an exception of the instruction at the PC. -/
def except (s : State) (t : TileId) (code : Nat) (bad : W64) : State := s.takeException t code 0 0 bad (s.tile t).pc

/-- RUN AN INSTRUCTION, the command `c` (spec 04 R128; 05 R150): nothing at a tile that cannot begin one; the
breakpoints; the fetch and its exceptions; ILLEGAL for a word that R150 does not list, whatever instruction the command
names; nothing when the word is another instruction (DESIGN CHOICE, log 24); ILLEGAL for its fields; PRIV; then the
instruction's own effect. -/
def tileOp (s : State) (c : Instr) (t : TileId) (bad priv : Bool) (body : State → State) : State :=
  if !s.tileReady t then s
  else match s.breakHit t with
    | some s => s
    | none =>
      match s.fetch t with
      | .wait s => s
      | .fault code wc s => s.fetchExcept t code wc
      | .ok u w =>
        match decodeTile t w with
        | none => u.except t 1 0
        | some i =>
          if i ≠ c then s
          else if bad then u.except t 1 0
          else if priv && !(u.tile t).k then u.except t 2 0
          else body u

/-- FDIV.S and FSQRT.S, of the instructions that only change registers, always issue alone (spec 05 R171). -/
def divides : Instr → Bool
  | .fdivS _ _ => true
  | .fsqrtS _ _ => true
  | _ => false

/-- An instruction that only changes its tile's registers. -/
def regOp (s : State) (c : Instr) (t : TileId) (bad : Bool) (f : Tile → Tile) : State :=
  s.tileOp c t bad false (fun s =>
    let s := s.updTile t f
    s.retireAs t (divides c) ((s.tile t).pc + 4))

end State
end Sys2Proof.Machine
end

