-- ==== Sys2Proof/Machine/TileMem.lean ====
section
/-! DEFINITION. Loads, stores, poison tests and atomics of a tile: the tile-local region, the store buffer, L1D,
the quarter cache and the points of coherence (spec 04 R119–R123, R142–R145; 05 R155, R156, R162, R163;
10 R272–R279; 12 R336). -/

namespace Sys2Proof.Machine

/-- The areas of the address space as a tile's data access finds them (spec 04, The tile-local region). -/
inductive Area where
  | ls (o : Nat)
  | page (n : Nat)
  | scratch (o : Nat)
  | ward
  | hole
  deriving DecidableEq, Repr

def areaOf (a : Nat) : Area :=
  if a < lsBase then .ward
  else if a < lsBase + lsSize then .ls (a - lsBase)
  else if cpBase ≤ a ∧ a < cpBase + 2048 then .page ((a - cpBase) / 8)
  else if qsBase ≤ a ∧ a < qsBase + 3145728 then .scratch (a - qsBase)
  else .hole

namespace State

/-! ### Control registers (spec 04 R124, R125, R147) -/

/-- What control register `n` reads. -/
def readCr (s : State) (t : TileId) (n : Nat) : W64 :=
  let tl := s.tile t
  match n with
  | 0x00 => s.tileStatus t
  | 0x01 => tl.epc
  | 0x02 => tl.cause
  | 0x03 => tl.badaddr
  | 0x04 => tl.vbase
  | 0x05 => tl.timecmp
  | 0x06 => BitVec.ofNat 64 s.supTime
  | 0x07 => BitVec.ofNat 64 (t.val + match s.tileWard t with
      | some w => 256 * w.val + 2048
      | none => 0)
  | 0x08 => tl.wkmask.setWidth 64
  | 0x09 => BitVec.ofNat 64 tl.inbox.length
  | 0x0A => match s.tileWard t with
      | some w => BitVec.ofNat 64 (s.scratchSize w (tileQuarter t))
      | none => 0
  | 0x0B => tl.fpsr
  | 0x10 => tl.pmctl
  | 0x11 => tl.retired.setWidth 64
  | 0x12 => tl.wpFetch.setWidth 64
  | 0x14 => (tl.pmc.get 0).setWidth 64
  | 0x15 => (tl.pmc.get 1).setWidth 64
  | 0x16 => (tl.pmc.get 2).setWidth 64
  | 0x17 => (tl.pmc.get 3).setWidth 64
  | _ => 0

/-- A write of control register `n`; a read-only one is left (spec 04 R125). STATUS.K takes effect at ERET only,
from the frame, and CAUSE is read only. -/
def writeCr (tl : Tile) (n : Nat) (v : W64) : Tile :=
  match n with
  | 0x00 => { tl with
      ie := v.getLsbD 1, im := BitVec.ofNat 3 (v.toNat / 256), ipDoorbell := tl.ipDoorbell && !v.getLsbD 18 }
  | 0x01 => { tl with epc := v }
  | 0x03 => { tl with badaddr := v }
  | 0x04 => { tl with vbase := v &&& ~~~ 1023 }
  | 0x05 => { tl with timecmp := v }
  | 0x08 => { tl with wkmask := v.setWidth 16 }
  | 0x0B => tl.setFpsr v
  | 0x10 => tl.setPmctl v
  | 0x11 => { tl with retired := v.setWidth 48 }
  | 0x12 => { tl with wpFetch := v.setWidth 48 }
  | 0x14 => { tl with pmc := tl.pmc.set 0 (v.setWidth 48) }
  | 0x15 => { tl with pmc := tl.pmc.set 1 (v.setWidth 48) }
  | 0x16 => { tl with pmc := tl.pmc.set 2 (v.setWidth 48) }
  | 0x17 => { tl with pmc := tl.pmc.set 3 (v.setWidth 48) }
  | _ => tl

/-! ### Checks of a data access (spec 04 R118, R119, R122, R128) -/

/-- How an instruction stands to the control page: LD and SD reach it, the other loads and stores do not, atomics and
PTEST have no such access in their exception sets (spec 04 R118, R119; 05 R155, R163). -/
inductive PageUse where
  | reaches | narrow | other
  deriving DecidableEq, Repr

/-- The exception that a data access of `n` bytes at `a` meets before it touches memory, with its WCAUSE: PRIV for a
load or store of the control page at level T (spec 04 R118, R128; DEDUCED, log 31). -/
def dataFault (s : State) (t : TileId) (a : W64) (n : Nat) (k : AccKind) (page : PageUse) : Option (Nat × Nat) :=
  let area := areaOf a.toNat
  let onPage : Bool := match area with
    | .page _ => true
    | _ => false
  if onPage && decide (page ≠ .other) && !(s.tile t).k then some (2, 0)
  else if a.toNat % n ≠ 0 then some (3, 0)
  else match area with
    | .ls _ => none
    | .page c => if decide (page = .reaches) && n == 8 && crListed c then none else some (6, 0)
    | .scratch o => match s.tileWard t with
      | none => some (6, 0)
      | some w => if o + n ≤ s.scratchSize w (tileQuarter t) then none else some (6, 0)
    | .hole => some (6, 0)
    | .ward => match s.tileWard t with
      | none => some (5, 1)
      | some w => match s.translate w a.toNat n k with
        | .inl c => some (5, c)
        | .inr _ => none

/-- Where a data access that met no fault goes in ward memory. -/
def dataXlat (s : State) (t : TileId) (a : W64) (n : Nat) (k : AccKind) : WardId × Xlat :=
  let w := (s.tileWard t).getD 0
  match s.translate w a.toNat n k with
  | .inl _ => (w, ⟨false, 0, false, false, false⟩)
  | .inr x => (w, x)

def dataExcept (s : State) (t : TileId) (f : Nat × Nat) (a : W64) : State :=
  s.takeException t f.1 f.2 0 (if f.1 = 2 then 0 else a) (s.tile t).pc

/-! ### The store buffer and L1D as the tile reads them -/

/-- The open entry of the tile for a line. -/
def sbFor (s : State) (t : TileId) (scr : Bool) (l : LineAddr) : Option SbEntry :=
  (s.tile t).sb.find? (fun e => (e.scratch == scr) && decide (e.line = l))
def sbMask (e : Option SbEntry) : Mask64 := match e with
  | some e => e.mask
  | none => 0
/-- Some byte of [o, o + n) of the entry's line is poisoned in the store buffer. -/
def sbBad (e : Option SbEntry) (o n : Nat) : Bool := e.any (fun e => e.poison && e.mask &&& rangeMask o n != 0)
def sbOver (e : Option SbEntry) (d : Line512) : Line512 := match e with
  | some e => mergeLine d e.data e.mask
  | none => d

/-- The L1D copy that serves the bytes of `need`. A copy that awaits its invalidation may still serve them: a free
value says (spec 10 R277). -/
def l1dRead (s : State) (t : TileId) (l : LineAddr) (need : Mask64) : Option LineVal × State :=
  match (s.tile t).l1d.find? (fun y => decide (y.line = l) && (need &&& y.valid == need)) with
  | none => (none, s)
  | some y =>
    if y.stale then
      let (v, s) := s.free
      if v % 2 = 0 then (some y.v, s)
      else (none, s.updTile t (fun tl => { tl with l1d := tl.l1d.filter (fun z => decide (z.line ≠ l)) }))
    else (some y.v, s)

/-- The access is tried for the first time: it does not come from a wait. -/
def firstTry (s : State) (t : TileId) : Bool := decide ((s.tile t).mode = TileMode.running)

/-- Ward-memory bytes for a load or PTEST: the value and whether it is poisoned, or none while the tile waits. A
first try that L1D does not serve is an L1D miss (spec 04 R147). -/
def wardRead (s : State) (t : TileId) (wd : WardId) (x : Xlat) (n : Nat) : Option (Nat × Bool) × State :=
  let l : LineAddr := ⟨x.host, x.addr / 64⟩
  let o := x.addr % 64
  let e := s.sbFor t false l
  let need := rangeMask o n &&& ~~~ sbMask e
  let value := fun (d : Line512) => lineBytes (sbOver e d) o n
  let bad := sbBad e o n
  if need = 0 then (some (value 0, bad), s)
  else match s.l1dRead t l need with
    | (some v, s) => (some (value v.data, v.poison || bad), s)
    | (none, s) =>
      let s := if s.firstTry t then s.countTile t 4 1 else s
      if s.uncachedWrite t l then (none, s)
      else match s.lineRead t wd x need with
        | (none, s) => (none, s)
        | (some (v, valid), s) =>
          let s := s.updTile t (fun tl => { tl with l1d := pushL1 tl.l1d ⟨l, v, valid, false⟩ })
          (some (value v.data, v.poison || bad), s)

def waitFor (s : State) (t : TileId) (l : LineAddr) (what : MemWait) : State :=
  s.updTile t (fun tl => { tl with mode := .inMemory l what })

/-! ### Loads (spec 05 R155; 04 R123) -/

/-- A load binds its value and retires, or raises POISON_DATA. -/
def finishLoad (s : State) (t : TileId) (op : Nat) (rd : BitVec 5) (a : W64) (v : Nat) (poison : Bool) : State :=
  if poison then s.except t 7 a
  else ((s.watch t true false a (opSize op)).updTile t (fun tl => tl.loadInto op rd v)).retireNext t

/-- The access of a load that met no earlier fault. -/
def doLoad (s : State) (t : TileId) (op : Nat) (rd : BitVec 5) (a : W64) : State :=
  let n := opSize op
  match areaOf a.toNat with
  | .ls o =>
    let tl := s.tile t
    let s := s.lsCorrect t o n
    if tl.marked o n then s.except t 7 a
    else if tl.lsError o n then s.except t 9 a
    else s.finishLoad t op rd a (tl.lsRead o n) false
  | .page c => s.finishLoad t op rd a (s.readCr t c).toNat false
  | .scratch o =>
    let q := tileQuarter t
    let wd := (s.tileWard t).getD 0
    let p := s.scratchPlace wd q o
    let e := s.sbFor t true ⟨false, p / 64⟩
    let need := rangeMask (p % 64) n &&& ~~~ sbMask e
    let bad := sbBad e (p % 64) n
    if need = 0 then s.finishLoad t op rd a (lineBytes (sbOver e 0) (p % 64) n) bad
    else
      let (v, po, s) := s.scratchRead q (some wd) p n
      s.finishLoad t op rd a (lineBytes (sbOver e (placeBytes (p % 64) n v)) (p % 64) n) (po || bad)
  | .ward =>
    let (wd, x) := s.dataXlat t a n .read
    match s.wardRead t wd x n with
    | (some (v, po), s) => s.finishLoad t op rd a v po
    | (none, s) => s.waitFor t ⟨x.host, x.addr / 64⟩ (.load op rd a)
  | .hole => s

/-- A load instruction of major opcode `op`. -/
def loadOp (s : State) (c : Instr) (t : TileId) (f : IForm) (op : Nat) : State :=
  s.tileOp c t false false (fun s =>
    let a := (s.tile t).ea f.ra f.imm
    match s.dataFault t a (opSize op) .read (if op = 0x16 then .reaches else .narrow) with
    | some e => s.dataExcept t e a
    | none => s.doLoad t op f.rd a)

/-! ### PTEST (spec 05 R156) -/

def finishPtest (s : State) (t : TileId) (rd : BitVec 5) (a : W64) (p : Bool) : State :=
  ((s.watch t true false a 8).updTile t (fun tl => tl.wg rd (boolWord p))).retireNext t

def doPtest (s : State) (t : TileId) (rd : BitVec 5) (a : W64) : State :=
  match areaOf a.toNat with
  | .ls o =>
    let tl := s.tile t
    let s := s.lsCorrect t o 8
    if tl.lsError o 8 then (s.lsErrorEvent t a).finishPtest t rd a true
    else s.finishPtest t rd a (tl.marked o 8)
  | .scratch o =>
    let q := tileQuarter t
    let wd := (s.tileWard t).getD 0
    let p := s.scratchPlace wd q o
    let e := s.sbFor t true ⟨false, p / 64⟩
    let bad := sbBad e (p % 64) 8
    if rangeMask (p % 64) 8 &&& ~~~ sbMask e = 0 then s.finishPtest t rd a bad
    else
      let (_, po, s) := s.scratchRead q (some wd) p 8
      s.finishPtest t rd a (po || bad)
  | .ward =>
    let (wd, x) := s.dataXlat t a 8 .read
    match s.wardRead t wd x 8 with
    | (some (_, po), s) => s.finishPtest t rd a po
    | (none, s) => s.waitFor t ⟨x.host, x.addr / 64⟩ (.ptest rd a)
  | _ => s

/-! ### Stores (spec 10 R272; 04 R122) -/

/-- Room in the store buffer for a store to a line: the merged or new entry's place, draining the oldest entry
when the buffer is full. False: the store stalls. -/
def sbRoom (s : State) (t : TileId) (scr : Bool) (l : LineAddr) : Bool × State :=
  if (s.sbFor t scr l).isSome || (s.tile t).sb.length < 16 then (true, s)
  else match (s.tile t).sb with
    | [] => (true, s)
    | e :: _ => (if s.firstTry t then s.countTile t 7 1 else s).drainEntry t e

/-- Put `n` bytes at offset `o` of a line in the store buffer. -/
def sbPut (s : State) (t : TileId) (scr : Bool) (l : LineAddr) (wd : WardId) (x : Xlat) (o n v : Nat) : State :=
  let m := rangeMask o n
  let d := placeBytes o n v
  match s.sbFor t scr l with
  | some e =>
    let e2 := { e with mask := e.mask ||| m, data := mergeLine e.data d m }
    s.updTile t (fun tl => { tl with sb := tl.sb.map (fun y => if y = e then e2 else y) })
  | none => s.updTile t (fun tl => { tl with sb := tl.sb ++ [⟨scr, l, m, d, wd, x.sealed, x.relaxed, x.ido, false⟩] })

/-- An entry whose line is full drains (spec 10 R273). -/
def drainFull (s : State) (t : TileId) (scr : Bool) (l : LineAddr) : State :=
  match s.sbFor t scr l with
  | none => s
  | some e => if e.mask = fullMask then (s.drainEntry t e).2 else s

/-- The access of a store that met no earlier fault; a full store buffer that cannot drain its oldest entry holds the
store up, and interrupts wait until it has issued (spec 04 R142; 13 R363). -/
def doStore (s : State) (t : TileId) (op v : Nat) (a : W64) : State :=
  let n := opSize op
  match areaOf a.toNat with
  | .ls o => ((s.watch t false true a n).updTile t (fun tl => tl.lsStore o n v)).retireNext t
  | .page c =>
    let s := (s.watch t false true a n).retireNext t
    s.updTile t (fun tl => writeCr tl c (BitVec.ofNat 64 v))
  | .scratch o =>
    let wd := (s.tileWard t).getD 0
    let p := s.scratchPlace wd (tileQuarter t) o
    let l : LineAddr := ⟨false, p / 64⟩
    let (ok, s) := s.sbRoom t true l
    if !ok then s.waitFor t l (.store op v a)
    else (((s.sbPut t true l wd ⟨false, p, false, false, false⟩ (p % 64) n v).watch t false true a n).retireNext t).drainFull t true l
  | .ward =>
    let (wd, x) := s.dataXlat t a n .write
    let l : LineAddr := ⟨x.host, x.addr / 64⟩
    let (ok, s) := s.sbRoom t false l
    if !ok then s.waitFor t l (.store op v a)
    else (((s.sbPut t false l wd x (x.addr % 64) n v).watch t false true a n).retireNext t).drainFull t false l
  | .hole => s

/-- A store instruction of major opcode `op`. -/
def storeOp (s : State) (c : Instr) (t : TileId) (f : SForm) (op : Nat) : State :=
  s.tileOp c t false false (fun s =>
    let a := (s.tile t).ea f.ra f.imm
    match s.dataFault t a (opSize op) .write (if op = 0x1D then .reaches else .narrow) with
    | some e => s.dataExcept t e a
    | none => s.doStore t op ((s.tile t).storeValue op f.rs) a)

/-! ### Atomics (spec 04 R144, R145; 05 R163; 10 R276; 12 R336) -/

/-- An atomic returns its old value and retires; `near` and `far` say which of the two counts it has. -/
def finishAtomic (s : State) (t : TileId) (a : AtReq) (rd : BitVec 5) (addr : W64) (old : Nat) (ev : Nat) : State :=
  let s := s.watch t true true addr a.size
  let s := if ev = 0 then s else s.countTile t ev 1
  (s.updTile t (fun tl => tl.wg rd (a.result old))).retireAlone t

/-- ATOMIC_POLICY with the hint (spec 01 R44; 04 R145): 0 predict, 1 near, 2 far. -/
def atomicMode (s : State) (wd : WardId) (hint : Nat) : Nat :=
  let p := s.getF (F.WRD_CTRL_ATOMIC_POLICY wd.val)
  if p = 0 then hint else p

/-- Perform an atomic in the quarter on a line held in E or M whose bytes are valid. -/
def nearAtomicAt (s : State) (t : TileId) (w : Nat) (c : CWay) (a : AtReq) (rd : BitVec 5) (addr : W64) : State :=
  let q := tileQuarter t
  if c.poison then s.except t 7 addr
  else
    let old := lineBytes c.data a.off a.size
    let e : SbEntry := ⟨false, c.line, rangeMask a.off a.size, placeBytes a.off a.size (a.apply old), c.ward, c.sealed, false, false, false⟩
    ((if s.firstTry t then s.qcCount q 0 else s).storeWay q (setOf c.line) w t e .m c.upgMask).finishAtomic t a rd addr old 17

/-- An atomic to ward memory: in the quarter, or by a request (spec 12 R336). `hint` is the mode in force. -/
def wardAtomic (s : State) (t : TileId) (wd : WardId) (x : Xlat) (mode : Nat) (a : AtReq) (rd : BitVec 5) (addr : W64) : State :=
  let q := tileQuarter t
  let l : LineAddr := ⟨x.host, x.addr / 64⟩
  let a := { a with off := x.addr % 64 }
  let near := fun (s : State) => s.waitFor t l (.nearAtomic mode a rd addr)
  let far := fun (s : State) => s.waitFor t l (.farAtomic a rd addr)
  let send := fun (k : ReqKind) (src : Source) (s : State) =>
    s.issue (LEntry.make { Req.make k l src (some wd) x.sealed with at? := some a } (.ward wd))
  let (ok, s) := s.drainWhere t (fun e => !e.scratch && decide (e.line = l))
  if !ok || s.uncachedWrite t l then near s
  else if !s.cached q wd x.host then
    if s.earlyHere q l || s.tileAsks t l then near s else far (send .atFar (.tile t) s)
  else
    match s.qProbe q l (rangeMask a.off a.size) with
    | (probe, s) =>
      let own : Option (Nat × CWay × Bool) := match probe with
        | .hit w c => if c.st = CState.e ∨ c.st = CState.m then some (w, c, true) else none
        | .short w c => if c.st = CState.m then some (w, c, false) else none
        | .absent => none
      let asking : Bool := match probe with
        | .hit _ c => c.asking
        | .short _ c => c.asking
        | .absent => false
      let shared : Option (Nat × CWay) := match probe with
        | .hit w c => if c.st = CState.s then some (w, c) else none
        | _ => none
      if asking || s.quarterAsks q l || (s.bufOf q l).isSome then near s
      else if mode = 2 ∧ !x.host then far (send .atFar (.quarter q t) s)
      else match own with
        | some (w, c, true) => s.nearAtomicAt t w c a rd addr
        | some (_, _, false) => near ((((s.qcCount q 1).qcCount q 3).countTile t 19 1).quarterReq .fill t wd x.sealed l)
        | none =>
          if mode = 0 ∧ !x.host then far (send .atP (.quarter q t) s)
          else match shared with
          | some (w, c) => near (send .upg (.quarter q t) (s.writeWay q (setOf l) w { c with st := .sm, upgMask := 0 } 0))
          | none =>
          if (s.pickWay q wd (setOf l)).isNone then near s
          else near (((s.qcCount q 1).countTile t 19 1).quarterReq .rdX t wd x.sealed l)

/-- The access of an atomic that met no earlier fault. -/
def doAtomic (s : State) (t : TileId) (hint : Nat) (a : AtReq) (rd : BitVec 5) (addr : W64) : State :=
  let n := a.size
  match areaOf addr.toNat with
  | .ls o =>
    let tl := s.tile t
    let s := s.lsCorrect t o n
    if tl.marked o n then s.except t 7 addr
    else if tl.lsError o n then s.except t 9 addr
    else
      let old := tl.lsRead o n
      (s.updTile t (fun tl => tl.lsStore o n (a.apply old))).finishAtomic t a rd addr old 0
  | .scratch o =>
    let q := tileQuarter t
    let wd := (s.tileWard t).getD 0
    let p := s.scratchPlace wd q o
    let (_, s) := s.drainWhere t (fun e => e.scratch && decide (e.line = ⟨false, p / 64⟩))
    let (old, po, s) := s.scratchRead q (some wd) p n
    if po then s.except t 7 addr
    else
      (s.scratchWrite q (some wd) (p / 64) (rangeMask (p % 64) n) (placeBytes (p % 64) n (a.apply old))).finishAtomic t a rd addr old 0
  | .ward =>
    let (wd, x) := s.dataXlat t addr n .atomic
    s.wardAtomic t wd x (s.atomicMode wd hint) a rd addr
  | _ => s

/-- An atomic instruction. -/
def atomicOp (s : State) (c : Instr) (t : TileId) (f : AtForm) (op : AtOp) : State :=
  s.tileOp c t f.bad false (fun s =>
    let tl := s.tile t
    let addr := tl.rg f.ra
    let a := tl.atReq op f
    match s.dataFault t addr a.size .atomic .other with
    | some e => s.dataExcept t e addr
    | none => s.doAtomic t f.hint.toNat a f.rd addr)

/-! ### Answers reach the tile -/

/-- The atomic's answer arrives from the home or the filter (spec 12 R337, R349). The tile's own L1D copy is of
before it, and a later access of the tile to the same byte comes after it (10 R279; DEDUCED, log 37; DEDUCED, log 38). -/
def farResult (s : State) (t : TileId) (v : W64) (poison : Bool) : State :=
  match (s.tile t).mode with
  | .inMemory l (.farAtomic a rd addr) =>
    let s := s.updTile t (fun tl => { tl with l1d := tl.l1d.filter (fun z => decide (z.line ≠ l)) })
    if poison then s.except t 7 addr
    else s.finishAtomic t a rd addr (v.toNat % 2 ^ (8 * a.size)) 18
  | _ => s

/-- A tile that waits tries its access again: the quarter cache has changed. -/
def wakeTile (s : State) (t : TileId) : State :=
  match (s.tile t).mode with
  | .inMemory l .fetch =>
    match s.tileWard t with
    | none => s
    | some w => match s.translate w ((s.tile t).pc.toNat / 4 * 4) 4 .fetch with
      | .inl _ => s.updTile t (fun tl => { tl with mode := .running })
      | .inr x => match s.lineRead t w x (rangeMask (x.addr % 64) 4) with
        | (some (v, valid), s) => (s.pushL1i t ⟨l, v, valid, false⟩).updTile t (fun tl => { tl with mode := .running })
        | (none, s) => s
  | .inMemory _ (.load op rd a) => s.doLoad t op rd a
  | .inMemory _ (.ptest rd a) => s.doPtest t rd a
  | .inMemory _ (.store op v a) => s.doStore t op v a
  | .inMemory _ (.nearAtomic mode a rd addr) =>
    let (wd, x) := s.dataXlat t addr a.size .atomic
    s.wardAtomic t wd x mode a rd addr
  | .inMemory l (.farAtomic a rd addr) =>
    if s.quarterAsks (tileQuarter t) l || s.tileAsks t l then s
    else
      let again := fun (s : State) => let (wd, x) := s.dataXlat t addr a.size .atomic; s.wardAtomic t wd x 0 a rd addr
      match s.qProbe (tileQuarter t) l (rangeMask a.off a.size) with
      | (.hit w c, s) => if c.st = CState.e ∨ c.st = CState.m then s.nearAtomicAt t w c a rd addr else again s
      | (_, s) => again s
  | _ => s

def wakeQuarter (s : State) (q : QuarterId) : State := (tilesOf q).foldl wakeTile s

/-- The line of a tile's own uncached read arrives (spec 11 R297, R312). -/
def uncachedDone (s : State) (t : TileId) (l : LineAddr) (v : LineVal) : State :=
  match (s.tile t).mode with
  | .inMemory l2 what =>
    if l2 ≠ l then s
    else
      let e := s.sbFor t false l
      let bytes := fun (a : W64) (n : Nat) =>
        let o := a.toNat % 64
        (lineBytes (sbOver e v.data) o n, (v.poison && rangeMask o n &&& ~~~ sbMask e != 0) || sbBad e o n)
      match what with
      | .fetch =>
        if v.poison then s.fetchExcept t 8 0
        else s.updTile t (fun tl => { tl with fetchBuf := some ⟨l, v, fullMask, false⟩, mode := .running })
      | .load op rd a => let b := bytes a (opSize op); s.finishLoad t op rd a b.1 b.2
      | .ptest rd a => let b := bytes a 8; s.finishPtest t rd a b.2
      | _ => s
  | _ => s

end State

/-! ### The instructions -/

/-- LB (spec 05 R155). -/
def execLb (t : TileId) (f : IForm) (s : State) : Result := .next (s.loadOp (.lb t f) t f 0x10)
/-- LBU (spec 05 R155). -/
def execLbu (t : TileId) (f : IForm) (s : State) : Result := .next (s.loadOp (.lbu t f) t f 0x11)
/-- LH (spec 05 R155). -/
def execLh (t : TileId) (f : IForm) (s : State) : Result := .next (s.loadOp (.lh t f) t f 0x12)
/-- LHU (spec 05 R155). -/
def execLhu (t : TileId) (f : IForm) (s : State) : Result := .next (s.loadOp (.lhu t f) t f 0x13)
/-- LW (spec 05 R155). -/
def execLw (t : TileId) (f : IForm) (s : State) : Result := .next (s.loadOp (.lw t f) t f 0x14)
/-- LWU (spec 05 R155). -/
def execLwu (t : TileId) (f : IForm) (s : State) : Result := .next (s.loadOp (.lwu t f) t f 0x15)
/-- LD (spec 05 R155). -/
def execLd (t : TileId) (f : IForm) (s : State) : Result := .next (s.loadOp (.ld t f) t f 0x16)
/-- FLW (spec 05 R155). -/
def execFlw (t : TileId) (f : IForm) (s : State) : Result := .next (s.loadOp (.flw t f) t f 0x17)
/-- FLH (spec 05 R155). -/
def execFlh (t : TileId) (f : IForm) (s : State) : Result := .next (s.loadOp (.flh t f) t f 0x18)
/-- PTEST (spec 05 R156). -/
def execPtest (t : TileId) (f : IForm) (s : State) : Result :=
  .next (s.tileOp (.ptest t f) t false false (fun s =>
    let a := (s.tile t).ea f.ra f.imm
    match s.dataFault t a 8 .read .other with
    | some e => s.dataExcept t e a
    | none => s.doPtest t f.rd a))
/-- SB (spec 05 R155). -/
def execSb (t : TileId) (f : SForm) (s : State) : Result := .next (s.storeOp (.sb t f) t f 0x1A)
/-- SH (spec 05 R155). -/
def execSh (t : TileId) (f : SForm) (s : State) : Result := .next (s.storeOp (.sh t f) t f 0x1B)
/-- SW (spec 05 R155). -/
def execSw (t : TileId) (f : SForm) (s : State) : Result := .next (s.storeOp (.sw t f) t f 0x1C)
/-- SD (spec 05 R155). -/
def execSd (t : TileId) (f : SForm) (s : State) : Result := .next (s.storeOp (.sd t f) t f 0x1D)
/-- FSW (spec 05 R155). -/
def execFsw (t : TileId) (f : SForm) (s : State) : Result := .next (s.storeOp (.fsw t f) t f 0x1E)
/-- FSH (spec 05 R155). -/
def execFsh (t : TileId) (f : SForm) (s : State) : Result := .next (s.storeOp (.fsh t f) t f 0x1F)
/-- ATOMIC.SWAP (spec 05 R162, R163). -/
def execAtomicSwap (t : TileId) (f : AtForm) (s : State) : Result := .next (s.atomicOp (.atomicSwap t f) t f .swap)
/-- ATOMIC.CAS (spec 05 R162, R163). -/
def execAtomicCas (t : TileId) (f : AtForm) (s : State) : Result := .next (s.atomicOp (.atomicCas t f) t f .cas)
/-- ATOMIC.ADD (spec 05 R162, R163). -/
def execAtomicAdd (t : TileId) (f : AtForm) (s : State) : Result := .next (s.atomicOp (.atomicAdd t f) t f .add)
/-- ATOMIC.AND (spec 05 R162, R163). -/
def execAtomicAnd (t : TileId) (f : AtForm) (s : State) : Result := .next (s.atomicOp (.atomicAnd t f) t f .and)
/-- ATOMIC.OR (spec 05 R162, R163). -/
def execAtomicOr (t : TileId) (f : AtForm) (s : State) : Result := .next (s.atomicOp (.atomicOr t f) t f .or)
/-- ATOMIC.XOR (spec 05 R162, R163). -/
def execAtomicXor (t : TileId) (f : AtForm) (s : State) : Result := .next (s.atomicOp (.atomicXor t f) t f .xor)
/-- ATOMIC.MIN (spec 05 R162, R163). -/
def execAtomicMin (t : TileId) (f : AtForm) (s : State) : Result := .next (s.atomicOp (.atomicMin t f) t f .min)
/-- ATOMIC.MAX (spec 05 R162, R163). -/
def execAtomicMax (t : TileId) (f : AtForm) (s : State) : Result := .next (s.atomicOp (.atomicMax t f) t f .max)
/-- ATOMIC.MINU (spec 05 R162, R163). -/
def execAtomicMinu (t : TileId) (f : AtForm) (s : State) : Result := .next (s.atomicOp (.atomicMinu t f) t f .minu)
/-- ATOMIC.MAXU (spec 05 R162, R163). -/
def execAtomicMaxu (t : TileId) (f : AtForm) (s : State) : Result := .next (s.atomicOp (.atomicMaxu t f) t f .maxu)
/-- STORE_BUFFER_DRAIN (spec 10 R273): entry `i` drains whole, or waits; a store that the full buffer held up goes on. -/
def execStoreBufferDrain (t : TileId) (i : Nat) (s : State) : Result :=
  match (s.tile t).sb[i]? with
  | none => .next s
  | some e => .next ((s.drainEntry t e).2.wakeTile t)

end Sys2Proof.Machine
end

