-- ==== Sys2Proof/Machine/TileMsg.lean ====
section
/-! DEFINITION. Messages, scheduled work and fences of a tile (spec 04 R138–R143; 05 R164–R167; 06 R182–R190;
10 R280–R282). -/

namespace Sys2Proof.Machine

/-- The exception of a message or scheduling operand of `n` bytes aligned to `al` (spec 05 R164, R165). -/
def lsOperand (a : W64) (n al : Nat) : Option Nat :=
  if a.toNat % al ≠ 0 then some 3
  else if n = 0 ∨ inLs a.toNat n then none
  else some 6

/-- The physical position of a logical tile, 17 × row + column: its row's retired column is passed over (spec 02 R64). -/
def physPlace (retired : Nat → Nat) (t : Nat) : Nat := 17 * (t / 16) + (if t % 16 < retired (t / 16) then t % 16 else t % 16 + 1)

/-- The effective retired column of a row (spec 02 R64). -/
def State.retiredIn (s : State) (q : Nat) : Nat := s.plan.retired.get 16 q

/-- The logical tile at a physical position; none where the column is retired, whose tile is held in tile reset and whose
crossing is bypassed (spec 02 R64). -/
def State.tileAt (s : State) (place : Nat) : Option Nat :=
  let c := s.retiredIn (place / 17)
  if place % 17 = c then none else some (16 * (place / 17) + (if place % 17 < c then place % 17 else place % 17 - 1))

/-- The route of a destination in a ward's table, which names physical positions (spec 02 R65; 06 R185, R186). -/
def State.route (s : State) (w : WardId) (d : TileId) : Option Route :=
  s.plan.routes.find? (fun r => r.valid && r.sward == w.val && s.tileAt r.place == some d.val)

/-- The gate of an index. -/
def State.gate (s : State) (g : Nat) : Option Gate := s.plan.gates.get none g

/-- Bits of a token from its 32 bytes (spec 07 R196). -/
def tokenOf (b : List Byte) : Token :=
  let f := fun (o n : Nat) => ofLe ((b.drop o).take n)
  { node := BitVec.ofNat 32 (f 0 4), port := BitVec.ofNat 8 (f 4 1), tflags := BitVec.ofNat 8 (f 5 1), sward := BitVec.ofNat 8 (f 6 1),
    list := BitVec.ofNat 8 (f 7 1), tag := BitVec.ofNat 32 (f 8 4), delay := BitVec.ofNat 32 (f 12 4), payload := BitVec.ofNat 128 (f 16 16) }

def Token.poisoned (t : Token) : Bool := t.tflags.getLsbD 0
def Token.last (t : Token) : Bool := t.tflags.getLsbD 1
def Token.global (t : Token) : Bool := t.tflags.getLsbD 2
def Token.byKey (t : Token) : Bool := t.tflags.getLsbD 3
def Token.delayed (t : Token) : Bool := t.tflags.getLsbD 4
def Token.gated (t : Token) : Bool := t.tflags.getLsbD 5

/-- `n` bytes of local store at an address inside it. -/
def Tile.lsBytes (t : Tile) (a : W64) (n : Nat) : List Byte := leBytes n (t.lsRead (a.toNat - lsBase) n)

namespace State

/-! ### SEND (spec 05 R164, R165; 06 R178, R186) -/

/-- The crossing accepts the message, or the tile waits for a credit. -/
def doSend (s : State) (t : TileId) (a : W64) (n : Nat) (d : TileId) : State :=
  match s.tileWard t with
  | none => s
  | some w =>
    match s.route w d with
    | none => s.except t 12 0
    | some r =>
      if s.hasCredit (.tile t) w.val then
        let s := s.lsCorrect t (a.toNat - lsBase) n
        let tl := s.tile t
        let po : Bool := decide (n ≠ 0) && tl.marked (a.toNat - lsBase) n
        let m : Msg := { srcTile := t, ward := w, gated := r.gate != 0xFF, gate := if r.gate = 0xFF then 0 else r.gate, poison := po, bytes := tl.lsBytes a n }
        let p := mkPkt .msg 0 (.tile t) (.tile d) w w.val 0 po (.message m) noLine
        ((s.sendPkt p).countTile t 10 1).retireAlone t
      else s.updTile t (fun tl => { tl with mode := .inSend a n d })

/-- SEND's operands after the encoding. -/
def sendOp (s : State) (c : Instr) (t : TileId) (f : MsgForm) : State :=
  s.tileOp c t f.badSend false (fun s =>
    let tl := s.tile t
    let a := tl.rg f.rb
    let d := (tl.rg f.ra).toNat
    let n := f.len.toNat
    match lsOperand a n 8 with
    | some c => s.except t c a
    | none =>
      if n ≠ 0 ∧ tl.lsError (a.toNat - lsBase) n then s.except t 9 a
      else if 256 ≤ d then s.except t 12 0
      else s.doSend t a n (Fin.ofNat 256 d))

/-! ### RECV (spec 04 R138; 05 R165, R166) -/

/-- The header word of a message. -/
def recvWord (m : Msg) : W64 :=
  BitVec.ofNat 64 (m.bytes.length + 128 * bN m.poison + 256 * (m.srcTile.val % 16) + 4096 * (m.srcTile.val / 16) + 65536 * m.ward.val
    + 524288 * bN m.gated)

/-- The oldest message is taken and written. -/
def doRecv (s : State) (t : TileId) (a : W64) (rd : BitVec 5) : State :=
  match (s.tile t).inbox with
  | [] => s.updTile t (fun tl => { tl with mode := .inRecv a rd })
  | m :: rest =>
    let words := (m.bytes.length + 7) / 8
    let o := a.toNat - lsBase
    let bytes := m.bytes ++ List.replicate (8 * words - m.bytes.length) 0
    let s := s.updTile t (fun tl => { (((tl.lsWriteBytes o bytes).markWords o m.poison words).wg rd (recvWord m)) with inbox := rest })
    (s.countTile t 11 1).retireAlone t

def recvOp (s : State) (c : Instr) (t : TileId) (f : MsgForm) : State :=
  s.tileOp c t f.badRecv false (fun s =>
    let a := (s.tile t).rg f.ra
    match lsOperand a 64 8 with
    | some c => s.except t c a
    | none => s.doRecv t a f.rd)

/-! ### GETWORK (spec 04 R139, R140; 07 R205, R206, R210) -/

/-- The item that the tile holds ends; AUTO_OUT sends its tokens. -/
def endItem (s : State) (t : TileId) : State :=
  match (s.tile t).item with
  | none => s
  | some it =>
    let s := s.updTile t (fun tl => { tl with item := none })
    let lw := s.lampw it.ward
    let s := s.setLampw it.ward { lw with running := lw.running.filter (fun r => r.item.seq != it.seq) }
    match s.nodeByKey it.ward it.key with
    | none => s
    | some nd => if nd.nflags.getLsbD 1 then s.emitOuts it.ward it.key it.tag false 0 (.autoOut t) else s

/-- The pools that a tile takes work from: those of its ward's POOL records that name it, under WKMASK. -/
def subscribed (s : State) (t : TileId) : List Nat :=
  match s.tileWard t with
  | none => []
  | some w => (List.range 16).filter (fun p => (s.tile t).wkmask.getLsbD p &&
      (s.sec w).pools.any (fun r => r.1 == p && r.2.getLsbD t.val))

def getworkOp (s : State) (c : Instr) (t : TileId) (f : MsgForm) : State :=
  s.tileOp c t f.badRecv false (fun s =>
    let a := (s.tile t).rg f.ra
    match lsOperand a 96 32 with
    | some c => s.except t c a
    | none =>
      let s := s.endItem t
      if s.subscribed t = [] then (s.updTile t (fun tl => tl.wg f.rd 0)).retireAlone t
      else
        let s := { s with gwQueue := s.gwQueue.erase t ++ [t] }
        s.updTile t (fun tl => { tl with mode := .inGetwork a f.rd }))

/-- The 96 bytes of a work record (spec 07 R205). -/
def workRecord (it : Item) (arity : Nat) : List Byte :=
  leBytes 4 it.node ++ leBytes 4 it.key.toNat ++ leBytes 4 it.tag.toNat
    ++ [BitVec.ofNat 8 it.present.toNat, BitVec.ofNat 8 (bN (it.ppoison != 0) + 2 * bN it.last), BitVec.ofNat 8 it.ppoison.toNat, BitVec.ofNat 8 arity]
    ++ leBytes 8 it.seq ++ leBytes 4 it.waited ++ leBytes 4 0
    ++ (List.range 4).flatMap (fun p => leBytes 16 (it.operands.getD p 0).toNat)

/-- Both packets of the record have arrived: the record is written with its marks and GETWORK returns. -/
def finishGetwork (s : State) (t : TileId) : State :=
  match (s.tile t).mode, (s.tile t).workIn with
  | .inGetwork a rd, some it =>
    let nd := s.nodeByKey it.ward it.key
    let o := a.toNat - lsBase
    let arity := (nd.map (·.arity)).getD 0
    let entry := (nd.map (·.entry)).getD 0
    let bad := (s.tile t).workBad
    let s := s.updTile t (fun tl =>
      let tl := ((tl.lsWriteBytes o (workRecord it arity)).markWords o false 12)
      let tl := (List.range 4).foldl (fun tl p => if it.ppoison.getLsbD p then tl.markWords (o + 32 + 16 * p) true 2 else tl) tl
      let tl := if bad.getLsbD 0 then tl.markWords o true 8 else tl
      let tl := if bad.getLsbD 1 then tl.markWords (o + 64) true 4 else tl
      let tl := tl.wg rd entry
      { tl with item := some it, workIn := none, workParts := 0, workBad := 0 })
    let s := { s with gwQueue := s.gwQueue.erase t }
    (s.countTile t 8 1).retireAlone t
  | _, _ => s

/-! ### PUTTOK (spec 04 R143; 07 R197, R198) -/

/-- Is the token of the tile's PUTTOK on its way or waiting at Lamplighter? -/
def puttokOut (s : State) (t : TileId) : Bool :=
  s.net.any (fun p => match p.payload with
    | .token _ (.puttok u) => u == t && !p.dead
    | _ => false)
  || (List.finRange 8).any (fun w => (s.lampw w).waiting.any (fun x => x.2 == .puttok t))

/-- Send the token when the crossing has a credit; the tile waits until it is accepted (R141). -/
def doPuttok (s : State) (t : TileId) (a : W64) : State :=
  match s.tileWard t with
  | none => s
  | some w =>
    let s := s.updTile t (fun tl => { tl with mode := .inPuttok a })
    if s.puttokOut t || !s.hasCredit (.tile t) w.val then s
    else
      let s := s.lsCorrect t (a.toNat - lsBase) 32
      let tl := s.tile t
      let tk := tokenOf (tl.lsBytes a 32)
      let po := tl.marked (a.toNat - lsBase) 32
      let tk := { tk with tflags := BitVec.ofNat 8 (putBitN tk.tflags.toNat 0 po), sward := BitVec.ofNat 8 w.val }
      s.sendPkt (mkPkt .msg 1 (.tile t) lampStop w w.val 0 po (.token tk (.puttok t)) noLine)

/-- PUTTOK's NODE check (R197, R198). -/
def nodeFault (s : State) (w : WardId) (tk : Token) : Bool :=
  if tk.gated then
    tk.delayed || (match s.gate (tk.node.toNat % 16) with
      | none => true
      | some g => !g.token || g.src != w.val)
  else !tk.byKey && decide ((s.own w).nodeCount ≤ tk.node.toNat)

def puttokOp (s : State) (c : Instr) (t : TileId) (f : MsgForm) : State :=
  s.tileOp c t f.badPut false (fun s =>
    let tl := s.tile t
    let a := tl.rg f.ra
    match lsOperand a 32 32 with
    | some c => s.except t c a
    | none =>
      if tl.lsError (a.toNat - lsBase) 32 then s.except t 9 a
      else match s.tileWard t with
        | none => s
        | some w => if s.nodeFault w (tokenOf (tl.lsBytes a 32)) then s.except t 13 0 else s.doPuttok t a)

/-- The token of a PUTTOK has been accepted: the instruction completes (R141). -/
def puttokDone (s : State) (t : TileId) : State :=
  match (s.tile t).mode with
  | .inPuttok _ => s.retireAlone t
  | _ => s

/-! ### Leaving a buffer of the network -/

/-- A buffer at a tile's own crossing has been freed: a blocked SEND or PUTTOK goes on. -/
def retrySender (s : State) (n : Node) : State :=
  match n with
  | .stop _ => s
  | .tile t =>
    if s.feedHeld t then s
    else match (s.tile t).mode with
    | .inSend a k d => s.doSend t a k d
    | .inPuttok a => s.doPuttok t a
    | _ => s

/-- Take the packet at place `i` off the network. -/
def takePkt (s : State) (i : Nat) : State :=
  match s.net[i]? with
  | none => s
  | some p => let s := s.dropPkt i; if p.prev == p.cur then s.retrySender p.cur else s

/-! ### Abandoning a blocked instruction (spec 04 R141) -/

/-- The packets that `p` selects will be discarded where they arrive: none is dropped on its way (06 R180, R190). -/
def killPackets (s : State) (p : Packet → Bool) : State :=
  { s with net := s.net.map (fun x => if p x then { x with dead := true } else x) }

/-- Tokens of the tile's PUTTOK that are not accepted leave. -/
def dropPuttok (s : State) (t : TileId) : State :=
  let mine : TokSrc → Bool := fun x => x == .puttok t
  let s := s.killPackets (fun p => match p.payload with
    | .token _ x => mine x
    | _ => false)
  (List.finRange 8).foldl (fun s w =>
    let lw := s.lampw w
    if lw.waiting.any (fun x => mine x.2) then s.setLampw w { lw with waiting := lw.waiting.filter (fun x => !mine x.2) } else s) s

/-- A blocked SEND, RECV, GETWORK or PUTTOK is given up, with no effect; false when it must complete. -/
def abandon (s : State) (t : TileId) : Bool × State :=
  let go := fun (s : State) => s.updTile t (fun tl => { tl with mode := .running })
  match (s.tile t).mode with
  | .running => (true, s)
  | .inMemory _ .fetch => (true, go s)
  | .inSend _ _ _ => (true, go s)
  | .inRecv _ _ => (true, go s)
  | .inGetwork _ _ => if (s.tile t).workIn.isSome then (false, s) else (true, go { s with gwQueue := s.gwQueue.erase t })
  | .inPuttok _ => (true, go (s.dropPuttok t))
  | _ => (false, s)

/-! ### Fences (spec 10 R280–R282) -/

/-- A line that the quarter cache shows before its home has ordered it (spec 10 R274, R280). -/
def quarterEarly (s : State) (q : QuarterId) (l : LineAddr) : Bool :=
  (match s.qFind q l with
    | none => false
    | some w =>
      let c := (s.quarter q).way (setOf l) w
      decide (c.st = CState.im) || (decide (c.st = CState.sm) && c.upgMask != 0))
  || (s.quarter q).bufs.any (fun b => decide (b.line = l) && decide (b.kind = .wrInv))

/-- The quarter-early lines of a quarter (DEDUCED, log 30). -/
def earlyLines (s : State) (q : QuarterId) : List LineAddr :=
  ((s.quarter q).ways.cells.map (fun c => c.2.line) ++ (s.quarter q).bufs.map (·.line)).filter (s.quarterEarly q)

/-- A line of a quarter has been ordered at its point of coherence. -/
def orderedLine (s : State) (q : QuarterId) (l : LineAddr) : State :=
  (tilesOf q).foldl (fun s t =>
    match (s.tile t).mode with
    | .inFence sc fm ls =>
      if ls.contains l && !(s.tile t).sb.any (fun e => !e.scratch && decide (e.line = l)) then
        s.updTile t (fun tl => { tl with mode := .inFence sc fm (ls.filter (fun x => decide (x ≠ l))) })
      else s
    | _ => s) s

/-- Some store of the tile is on its uncached way to its point of coherence. -/
def tileStoresOut (s : State) (t : TileId) : Bool :=
  s.ledger.entries.cells.any (fun c => match c.2 with
    | some e => e.req.src == .tile t && decide (e.req.kind = .wrInv)
    | none => false)
  || s.ledger.waiting.any (fun e => e.req.src == .tile t && decide (e.req.kind = .wrInv))

def linesDone (s : State) (t : TileId) (ls : List LineAddr) : Bool := ls.all (fun l => !s.quarterEarly (tileQuarter t) l)
def releaseDone (s : State) (t : TileId) (ls : List LineAddr) : Bool := (s.tile t).sb.isEmpty && !s.tileStoresOut t && s.linesDone t ls

/-- Lines that scope S waits for; the quarter's early lines take in every early line of the tile. -/
def fenceLines (s : State) (t : TileId) (sc : FScope) : List LineAddr :=
  match sc with
  | .s => s.earlyLines (tileQuarter t) ++ ((s.tile t).sb.filter (fun e => !e.scratch)).map (·.line)
  | _ => []

def acquireEnd (s : State) (t : TileId) : State :=
  (s.updTile t (fun tl => { tl with l1d := [] })).retireAlone t

/-- A fence issues: scope C is performed at once, a release drains the store buffer. -/
def fenceOp (s : State) (c : Instr) (t : TileId) (f : FenceForm) (sc : FScope) (fm : FForm) : State :=
  s.tileOp c t f.bad false (fun s =>
    match sc with
    | .c => s.retireAlone t
    | _ =>
      let s := if fm = .acquire then s else (s.drainWhere t (fun _ => true)).2
      let ls := if fm = .acquire then (if sc = .s then s.earlyLines (tileQuarter t) else []) else s.fenceLines t sc
      s.updTile t (fun tl => { tl with mode := .inFence sc fm ls }))

/-- The next stage of a fence that has issued. -/
def fenceStep (s : State) (t : TileId) : State :=
  match (s.tile t).mode with
  | .inFence _ .acquire ls => if s.linesDone t ls then s.acquireEnd t else s
  | .inFence _ .release ls => if s.releaseDone t ls then s.retireAlone t else s
  | .inFence sc .releaseAcquire ls =>
    if s.releaseDone t ls then
      let early := if sc = .s then s.earlyLines (tileQuarter t) else []
      if early = [] then s.acquireEnd t else s.updTile t (fun tl => { tl with mode := .inFence sc .acquire early })
    else s
  | _ => s

end State

/-! ### The instructions -/

/-- SEND (spec 05 R164). -/
def execSend (t : TileId) (f : MsgForm) (s : State) : Result := .next (s.sendOp (.send t f) t f)
/-- RECV (spec 04 R138; 05 R164). -/
def execRecv (t : TileId) (f : MsgForm) (s : State) : Result := .next (s.recvOp (.recv t f) t f)
/-- GETWORK (spec 04 R140; 05 R164). -/
def execGetwork (t : TileId) (f : MsgForm) (s : State) : Result := .next (s.getworkOp (.getwork t f) t f)
/-- PUTTOK (spec 05 R164; 07 R197). -/
def execPuttok (t : TileId) (f : MsgForm) (s : State) : Result := .next (s.puttokOp (.puttok t f) t f)
/-- PSET (spec 05 R164, R166): the mark of one word. -/
def execPset (t : TileId) (f : MsgForm) (s : State) : Result :=
  .next (s.tileOp (.pset t f) t f.badPut false (fun s =>
    let a := (s.tile t).rg f.ra
    match lsOperand a 8 8 with
    | some c => s.except t c a
    | none => (s.updTile t (fun tl => { tl with lsPoison := tl.lsPoison.put false ((a.toNat - lsBase) / 8) true })).retireAlone t))
/-- FENCE.C acquire (spec 05 R167; 10 R281). -/
def execFenceCAcquire (t : TileId) (f : FenceForm) (s : State) : Result := .next (s.fenceOp (.fenceCAcquire t f) t f .c .acquire)
/-- FENCE.C release (spec 05 R167; 10 R281). -/
def execFenceCRelease (t : TileId) (f : FenceForm) (s : State) : Result := .next (s.fenceOp (.fenceCRelease t f) t f .c .release)
/-- FENCE.C release, then acquire (spec 05 R167; 10 R281). -/
def execFenceCReleaseAcquire (t : TileId) (f : FenceForm) (s : State) : Result := .next (s.fenceOp (.fenceCReleaseAcquire t f) t f .c .releaseAcquire)
/-- FENCE.Q acquire (spec 05 R167; 10 R281). -/
def execFenceQAcquire (t : TileId) (f : FenceForm) (s : State) : Result := .next (s.fenceOp (.fenceQAcquire t f) t f .q .acquire)
/-- FENCE.Q release (spec 05 R167; 10 R281). -/
def execFenceQRelease (t : TileId) (f : FenceForm) (s : State) : Result := .next (s.fenceOp (.fenceQRelease t f) t f .q .release)
/-- FENCE.Q release, then acquire (spec 05 R167; 10 R281). -/
def execFenceQReleaseAcquire (t : TileId) (f : FenceForm) (s : State) : Result := .next (s.fenceOp (.fenceQReleaseAcquire t f) t f .q .releaseAcquire)
/-- FENCE.S acquire (spec 05 R167; 10 R281). -/
def execFenceSAcquire (t : TileId) (f : FenceForm) (s : State) : Result := .next (s.fenceOp (.fenceSAcquire t f) t f .s .acquire)
/-- FENCE.S release (spec 05 R167; 10 R281). -/
def execFenceSRelease (t : TileId) (f : FenceForm) (s : State) : Result := .next (s.fenceOp (.fenceSRelease t f) t f .s .release)
/-- FENCE.S release, then acquire (spec 05 R167; 10 R281). -/
def execFenceSReleaseAcquire (t : TileId) (f : FenceForm) (s : State) : Result := .next (s.fenceOp (.fenceSReleaseAcquire t f) t f .s .releaseAcquire)
/-- FENCE_COMPLETE (spec 10 R281, R282): an issued fence completes when its accesses are performed. -/
def execFenceComplete (t : TileId) (s : State) : Result := .next (s.fenceStep t)

end Sys2Proof.Machine
end

