-- ==== Sys2Proof/Machine/PlanImage.lean ====
section
/-! DEFINITION. Plan images (spec 02 R54–R77, R516, R517; 01 R25, R26, R33; 06 R185; 07 R195): rejection, the
range check and clamp of every field, and what an image installs. -/

namespace Sys2Proof.Machine

/-! ### The image under check -/

/-- An image with the words that clamps have changed so far, the records they gave, and where the check stands. -/
structure Ck where
  img : List Byte
  now : Tbl (Option Nat)
  recs : List ClampRec
  section_ : Nat
  ward : Nat
  record : Nat
  deriving DecidableEq, Repr

namespace Ck

def found (c : Ck) (i : Nat) : Nat := ofLe ((c.img.drop (8 * i)).take 8)
def word (c : Ck) (i : Nat) : Nat := (c.now.get none i).getD (c.found i)
def byte (c : Ck) (o : Nat) : Byte := BitVec.ofNat 8 (c.word (o / 8) >>> (8 * (o % 8)))
/-- The field of `n` bytes at offset `o` as it stands. -/
def get (c : Ck) (o n : Nat) : Nat := ofLe ((List.range n).map (fun i => c.byte (o + i)))
def setByte (c : Ck) (o : Nat) (b : Byte) : Ck :=
  let w := c.word (o / 8)
  let sh := 8 * (o % 8)
  { c with now := c.now.put none (o / 8) (some (w - (w >>> sh) % 256 * 2 ^ sh + b.toNat * 2 ^ sh)) }

/-- One Clamp Report record for the field at `o` (R77). -/
def note (c : Ck) (rule o : Nat) : Ck :=
  { c with recs := c.recs ++ [{ seq := c.recs.length, section_ := c.section_, ward := c.ward, rule := rule, offset := o, record := c.record,
                                written := BitVec.ofNat 64 (c.found (o / 8)), effective := BitVec.ofNat 64 (c.word (o / 8)) }] }

/-- Set a field; each 8-byte word of it that changes is one record (R73, R77; DEDUCED, log 22). -/
def put (c : Ck) (rule o n v : Nat) : Ck :=
  if c.get o n = v then c
  else
    let d := ((List.range n).zip (leBytes n v)).foldl (fun d x => d.setByte (o + x.1) x.2) c
    ((List.range ((o + n + 7) / 8 - o / 8)).filter (fun i => d.word (o / 8 + i) != c.word (o / 8 + i))).foldl (fun d i => d.note rule (max o (8 * (o / 8 + i)))) d

/-- Reserved bytes that are not 0 (rule 7), word by word. -/
def rsv (c : Ck) (o n : Nat) : Ck := c.put 7 o n 0
/-- Reserved bits of a field of `n` bytes: those outside `keep` (rule 7). -/
def rsvBits (c : Ck) (o n keep : Nat) : Ck := c.put 7 o n (c.get o n &&& keep)
/-- An integer with a range (rules 1 and 2). -/
def range (c : Ck) (o n lo hi : Nat) : Ck :=
  let v := c.get o n
  if v < lo then c.put 1 o n lo else if hi < v then c.put 2 o n hi else c

end Ck

/-! ### Rejection (R58) -/

structure SecEntry where
  ix : Nat
  kind : Nat
  ward : Nat
  off : Nat
  len : Nat
  records : Nat
  deriving DecidableEq, Repr

/-- `n` bytes of an image at `o`. -/
def imgF (b : List Byte) (o n : Nat) : Nat := ofLe ((b.drop o).take n)

def secEntries (b : List Byte) : List SecEntry :=
  let t := imgF b 0x18 4
  (List.range (min 16 (imgF b 0x0C 2))).map (fun i =>
    let o := t + 16 * i
    { ix := i, kind := imgF b o 2, ward := imgF b (o + 2) 1, off := imgF b (o + 4) 4, len := imgF b (o + 8) 4, records := imgF b (o + 12) 4 })

def countKind (l : List SecEntry) (k : Nat) : Nat := (l.filter (fun e => e.kind == k)).length

/-- Item 5 of R58: the structure is broken. -/
def badStructure (b : List Byte) (swap : Option WardId) : Bool :=
  let n := imgF b 0x0C 2
  let t := imgF b 0x18 4
  let stop := b.length - 32
  let l := secEntries b
  let within := fun (o len : Nat) => decide (0x40 ≤ o) && decide (o + len ≤ stop)
  let lap := fun (a n b m : Nat) => decide (a < b + m) && decide (b < a + n)
  n == 0 || decide (16 < n) || t % 8 != 0 || l.any (fun e => e.off % 8 != 0) || !within t (16 * n) || l.any (fun e => !within e.off e.len)
    || l.any (fun e => lap t (16 * n) e.off e.len) || l.any (fun e => l.any (fun f => e.ix != f.ix && lap e.off e.len f.off f.len))
    || l.any (fun e => e.len % 8 != 0 || decide (e.len < 8) || (e.kind == 1 && e.len != 1184))
    || l.any (fun e => e.kind == 5 && decide (7 < e.ward))
    || (match swap with
      | none => countKind l 1 != 1 || [2, 3, 4].any (fun k => decide (1 < countKind l k))
          || (List.range 8).any (fun w => decide (1 < (l.filter (fun e => e.kind == 5 && e.ward == w)).length))
      | some w => [1, 2, 3, 4].any (fun k => countKind l k != 0) || countKind l 5 != 1 || l.any (fun e => e.kind == 5 && e.ward != w.val))

/-- The RESULT of a rejected image, 0 for one that passes (R58, R78): `staged` is the staged length. -/
def rejectCode (b : List Byte) (staged : Nat) (poison : Bool) (swap : Option WardId) : Nat :=
  let len := imgF b 8 4
  if imgF b 0 4 ≠ 0x59565A44 then 3
  else if imgF b 4 2 ≠ 1 ∨ imgF b 6 1 ≠ 2 ∨ imgF b 7 1 ≠ (if swap.isSome then 1 else 0) then 4
  else if len % 8 ≠ 0 ∨ len < 120 ∨ 8388608 < len ∨ len ≠ staged then 5
  else if sha256Bytes (b.take (len - 32)) ≠ (b.take len).drop (len - 32) then 6
  else if badStructure (b.take len) swap then 7
  else if poison then 8
  else 0

/-! ### Records of a WARD section (R69) -/

/-- A record: place, type and length. -/
structure RecAt where
  off : Nat
  rtype : Nat
  len : Nat
  deriving DecidableEq, Repr

def fullLen (rtype : Nat) : Nat :=
  if rtype = 1 then 516 else if rtype = 2 then 40 else if rtype = 3 then 136 else if rtype = 4 then 20 else if rtype = 5 then 36 else 0

/-- The records of [o, stop), and where a record ended the section before its end. -/
def walkRecs (b : List Byte) (stop : Nat) : Nat → Nat → List RecAt × Option Nat
  | 0, _ => ([], none)
  | k + 1, o =>
    if stop ≤ o then ([], none)
    else
      let len := imgF b (o + 2) 2
      if len < 4 ∨ len % 4 ≠ 0 ∨ stop < o + len then ([], some o)
      else let (l, e) := walkRecs b stop k (o + len); (⟨o, imgF b o 2, len⟩ :: l, e)

def recsOf (b : List Byte) (e : SecEntry) : List RecAt × Option Nat := walkRecs b (e.off + e.len) (e.len / 4 + 1) e.off

/-! ### Header and section table (R516, R517) -/

/-- How many records of a section are read (R516). -/
def recordsRead (e : SecEntry) : Nat :=
  if e.kind = 1 then 1
  else if e.kind = 2 then min e.records (min 16 (e.len / 8))
  else if e.kind = 3 then min e.records (min 2048 (e.len / 8))
  else min e.records (min 16 (e.len / 16))

def checkHeader (b : List Byte) : Ck :=
  let c : Ck := { img := b, now := .empty, recs := [], section_ := 0xFFFF, ward := 0xFF, record := 0 }
  (c.rsvBits 0x0E 2 1).rsv 0x1C 36

/-- One section table entry (R516, R517). In a WARD section the record that ends it is not counted among the records found
(DESIGN CHOICE, log 82). -/
def checkEntry (t : Nat) (c : Ck) (e : SecEntry) : Ck :=
  let o := t + 16 * e.ix
  let c := { c with section_ := e.ix, ward := 0xFF, record := 0 }
  if e.kind = 0 ∨ 5 < e.kind then ((c.note 13 o).rsv (o + 2) 1).rsv (o + 3) 1
  else
    let c := if e.kind = 5 then { c with ward := e.ward } else c.rsv (o + 2) 1
    let c := c.rsv (o + 3) 1
    let r := o + 12
    if e.kind = 1 then c.range r 4 1 1
    else if e.kind = 5 then
      let n := (recsOf c.img e).1.length
      if e.records < n then c.put 1 r 4 n else c.put 2 r 4 n
    else
      let (lo, hi, sz) := if e.kind = 2 then (16, 16, 8) else if e.kind = 3 then (0, 2048, 8) else (0, 16, 16)
      let c := c.range r 4 lo hi
      if lo ≤ e.records ∧ e.records ≤ hi ∧ e.len / sz < e.records then c.put 2 r 4 (e.len / sz) else c

/-! ### GLOBAL (R59–R62, R73, R74) -/

/-- A size rounded down to its unit (rule 4), then cut to fit (rule 2). -/
def cutSize (c : Ck) (o unit room : Nat) : Ck :=
  let c := c.put 4 o 8 (c.get o 8 / unit * unit)
  if room / unit * unit < c.get o 8 then c.put 2 o 8 (room / unit * unit) else c

def mib2 : Nat := 2097152

/-- The commons and the tick period (R59, R73). A misaligned COMMONS_BASE sets COMMONS_SIZE to 0: no record when it is 0
already. -/
def checkCommons (c : Ck) (g cap : Nat) : Ck :=
  let c := if c.get g 8 % mib2 ≠ 0 then
c.put 4 (g + 8) 8 0
    else cutSize c (g + 8) mib2 (cap - c.get g 8)
  let v := c.get (g + 0x10) 4
  let c := if v % 2 ^ 15 < 3 then c.put 1 (g + 0x10) 4 (v - v % 2 ^ 15 + 3)
    else if 25000 < v % 2 ^ 15 then c.put 2 (g + 0x10) 4 (v - v % 2 ^ 15 + 25000) else c
  (c.rsvBits (g + 0x10) 4 0x7FFF).rsv (g + 0x14) 12

/-- What the wards checked first have claimed. -/
structure Claims where
  tiles : Nat
  engines : Nat
  ways : List Nat
  ldg : Nat
  nodes : List (Nat × Nat)
  quota : Nat

def Claims.none : Claims := ⟨0, 0, List.replicate 16 0, 0, [], 0⟩

/-- `n` bits of `v` outside `taken`. -/
def clearTaken (v taken : Nat) : Nat := v - (v &&& taken)

/-- The largest prefix of an index range that overlaps none before it. -/
def freePrefix (base n : Nat) (l : List (Nat × Nat)) : Nat :=
  l.foldl (fun k x => if x.2 = 0 ∨ x.1 + x.2 ≤ base then k else if x.1 ≤ base then 0 else min k (x.1 - base)) n

/-- Pieces of 16 bits, joined. -/
def join16 (l : List Nat) : Nat := l.foldr (fun x a => x + 65536 * a) 0

def checkOwn (c : Ck) (k : Claims) (o : Nat) : Ck × Claims × Own :=
  let c := c.put 5 o 32 (clearTaken (c.get o 32) k.tiles)
  let c := c.put 5 (o + 0x20) 16 (clearTaken (c.get (o + 0x20) 16 % 2 ^ 86) k.engines)
  let scr0 := (List.range 16).map (fun q => c.get (o + 0x50 + 2 * q) 2 % 4096)
  let ways := (List.range 16).map (fun q => clearTaken (c.get (o + 0x30 + 2 * q) 2) (k.ways.getD q 0 ||| scr0.getD q 0))
  let c := c.put 5 (o + 0x30) 32 (join16 ways)
  let scr := (List.range 16).map (fun q => clearTaken (scr0.getD q 0) (k.ways.getD q 0))
  let c := c.put 5 (o + 0x50) 32 (join16 scr)
  let c := c.range (o + 0x70) 2 0 24576
  let c := if 24576 < k.ldg + c.get (o + 0x70) 2 then c.put 8 (o + 0x70) 2 (24576 - k.ldg) else c
  let mn := c.get (o + 0x70) 2
  let c := c.range (o + 0x72) 2 mn 28672
  let c := (c.range (o + 0x74) 2 0 128).rsv (o + 0x76) 2
  let c := c.range (o + 0x78) 4 0 65535
  let base := c.get (o + 0x78) 4
  let c := c.range (o + 0x7C) 4 0 (65536 - base)
  let c := c.put 10 (o + 0x7C) 4 (freePrefix base (c.get (o + 0x7C) 4) k.nodes)
  let cnt := c.get (o + 0x7C) 4
  let c := c.range (o + 0x80) 4 0 262144
  let c := if 262144 < k.quota + c.get (o + 0x80) 4 then c.put 8 (o + 0x80) 4 (262144 - k.quota) else c
  let quota := c.get (o + 0x80) 4
  let c := c.rsv (o + 0x84) 12
  let k := { k with
    tiles := k.tiles ||| c.get o 32
    engines := k.engines ||| c.get (o + 0x20) 16
    ways := (List.range 16).map (fun q => k.ways.getD q 0 ||| ways.getD q 0 ||| scr.getD q 0)
    ldg := k.ldg + mn
    nodes := k.nodes ++ [(base, cnt)]
    quota := k.quota + quota }
  (c, k, { tiles := BitVec.ofNat 256 (c.get o 32), engines := BitVec.ofNat 128 (c.get (o + 0x20) 16), ways := ways.map (BitVec.ofNat 16),
           scratch := scr.map (BitVec.ofNat 16), ldgMin := mn, ldgCeil := c.get (o + 0x72) 2, vectors := c.get (o + 0x74) 2,
           nodeBase := base, nodeCount := cnt, matchQuota := quota })

def checkGlobal (c : Ck) (g cap : Nat) (ix : Nat) : Ck × List Own :=
  let c := checkCommons { c with section_ := ix, ward := 0xFF, record := 0 } g cap
  let r := (List.range 8).foldl (fun (a : Ck × Claims × List Own) w =>
    let (c, k, o) := checkOwn { a.1 with ward := w } a.2.1 (g + 0x20 + 144 * w)
    (c, k, a.2.2 ++ [o])) (c, Claims.none, [])
  (r.1, r.2.2)

/-! ### TILEMAP, ROUTES and GATES (R63–R68; 06 R185) -/

/-- The effective retired column of quarter `q` (R64). -/
def retiredCol (defect : Option Nat) (retire : Option Nat) : Nat :=
  match defect, retire with
  | some d, _ => d
  | none, some r => if r ≤ 16 then r else 16
  | none, none => 16

def checkTilemap (c : Ck) (e : SecEntry) (defects : List (Nat × Nat)) : Ck × List (Nat × Nat) :=
  (List.range (recordsRead e)).foldl (fun (a : Ck × List (Nat × Nat)) q =>
    let o := e.off + 8 * q
    let c := { a.1 with record := q }
    let r := c.get o 1
    let d := (defects.find? (fun x => x.1 == q)).map (·.2)
    let col := retiredCol d (some r)
    let c := match d with
      | some d => c.put 9 o 1 d
      | none => if 16 < r ∧ r ≠ 0x1F then c.put 2 o 1 16 else c
    (c.rsv (o + 1) 7, a.2 ++ [(q, col)])) ({ c with section_ := e.ix, ward := 0xFF, record := 0 }, [])

def ownsTile (own : List Own) (w t : Nat) : Bool := (own.getD w Own.nothing).tiles.getLsbD t

/-- The gates of a GATES section, with their checks. A SRC or DST above 7 disables its record under rule 6; the reserved
bits of a disabled record's TARGET are not checked; the records' WARD is 0xFF (DESIGN CHOICE, log 82). -/
def checkGates (c : Ck) (e : SecEntry) (own : List Own) : Ck × List (Nat × Gate) :=
  (List.range (recordsRead e)).foldl (fun (a : Ck × List (Nat × Gate)) k =>
    let o := e.off + 16 * k
    let c := { a.1 with record := k }
    let src := c.get o 1
    let dst := c.get (o + 1) 1
    let kind := c.get (o + 2) 1
    let off := fun (c : Ck) (rule at_ : Nat) => (((c.note rule at_).rsv (o + 3) 1).rsv (o + 8) 8, a.2)
    if 7 < src then off c 6 o
    else if 7 < dst then off c 6 (o + 1)
    else if 1 < kind then off c 3 (o + 2)
    else
      let c := c.rsv (o + 3) 1
      let c := if kind = 0 then c.rsvBits (o + 4) 4 0xFF else c
      if kind = 0 && !ownsTile own dst (c.get (o + 4) 4) then ((c.note 6 (o + 4)).rsv (o + 8) 8, a.2)
      else
        let g : Gate := { src := src, dst := dst, token := kind == 1, target := BitVec.ofNat 32 (c.get (o + 4) 4) }
        (c.rsv (o + 8) 8, a.2 ++ [(k, g)])) ({ c with section_ := e.ix, ward := 0xFF, record := 0 }, [])

/-- The routes of a ROUTES section; their records' WARD is 0xFF (DESIGN CHOICE, log 82). -/
def checkRoutes (c : Ck) (e : SecEntry) (own : List Own) (gates : List (Nat × Gate)) (col : Nat → Nat) : Ck × List Route :=
  (List.range (recordsRead e)).foldl (fun (a : Ck × List Route) k =>
    let o := e.off + 8 * k
    let c := { a.1 with record := k }
    let sw := c.get o 1
    let dt := c.get (o + 1) 1
    let g := c.get (o + 2) 1
    let fl := c.get (o + 3) 1
    let gateOk := gates.any (fun x => x.1 == g && !x.2.token && x.2.src == sw && x.2.target.toNat == dt)
    let clear := fun (rule : Nat) => (c.put rule (o + 3) 1 (fl - 1), false)
    let (c, valid) :=
      if fl % 2 = 0 then (c, false)
      else if 7 < sw then clear 6
      else if g = 0xFF && !ownsTile own sw dt then clear 6
      else if g ≠ 0xFF && !gateOk then clear 6
      else if a.2.any (fun r => r.sward == sw && r.dtile == dt) then clear 10
      else (c, true)
    let c := (c.rsvBits (o + 3) 1 1).rsv (o + 4) 4
    (c, if valid then a.2 ++ [{ sward := sw, dtile := dt, gate := g, valid := true, place := physPlace col dt }] else a.2)) ({ c with section_ := e.ix, ward := 0xFF, record := 0 }, [])

/-! ### WARD sections (R69–R72; 01 R25, R26, R33; 07 R195) -/

/-- What the check of a WARD section needs of the rest of the plan. -/
structure WardCtx where
  ward : Nat
  own : Own
  cap : Nat
  commonsBase : Nat
  commonsSize : Nat
  /-- valid windows of the wards checked first -/
  others : List Win
  /-- pins they have bound -/
  pins : List Nat
  gates : List (Nat × Gate)

def lapN (a n b m : Nat) : Bool := decide (a < b + m) && decide (b < a + n)

/-- One window entry; `mine` are the ward's valid windows so far. The SIZE of a host window is also cut so that
TARGET + SIZE does not pass 2^52, and an entry with KIND = 1 and COMMONS = 1 loses its VALID (DESIGN CHOICE, log 82). -/
def checkWindow (x : WardCtx) (mine : List Win) (c : Ck) (o : Nat) : Ck × Win :=
  let valid := fun (c : Ck) => c.get (o + 0x18) 4 % 2 == 1
  let host := fun (c : Ck) => bitN (c.get (o + 0x18) 4) 1
  let commons := fun (c : Ck) => bitN (c.get (o + 0x18) 4) 6
  let unit := if host c then 4096 else mib2
  let drop := fun (c : Ck) (rule : Nat) => c.put rule (o + 0x18) 4 (c.get (o + 0x18) 4 / 2 * 2)
  let c := c.rsvBits o 8 (2 ^ 47 - 1)
  let c := if valid c && c.get o 8 % unit != 0 then drop c 4 else c
  let top := if host c then 2 ^ 52 else x.cap
  let c := if valid c then
      let cut := cutSize c (o + 8) unit (min (2 ^ 47 - c.get o 8) (top - c.get (o + 0x10) 8 % (if host c then 2 ^ 52 else 2 ^ 41)))
      if cut.get (o + 8) 8 = 0 then drop cut (if c.get (o + 8) 8 / unit = 0 then 4 else 2) else cut
    else c
  let c := c.rsvBits (o + 0x10) 8 (if host c then 2 ^ 52 - 1 else 2 ^ 41 - 1)
  let c := if valid c && c.get (o + 0x10) 8 % unit != 0 then drop c 4 else c
  let c := c.rsvBits (o + 0x18) 4 0x1FF
  let force := fun (c : Ck) (bit : Nat) => if bitN (c.get (o + 0x18) 4) bit then c.put 11 (o + 0x18) 4 (c.get (o + 0x18) 4 - 2 ^ bit) else c
  let c := if valid c && commons c then force (force c 3) 5 else c
  let c := if valid c && host c then force c 5 else c
  let c := if valid c && !host c then force (force c 7) 8 else c
  let base := c.get o 8
  let size := c.get (o + 8) 8
  let tgt := c.get (o + 0x10) 8
  let c := if valid c && commons c && (host c || decide (tgt < x.commonsBase) || decide (x.commonsBase + x.commonsSize < tgt + size)) then drop c 11 else c
  let c := if valid c && mine.any (fun w => lapN base size w.base w.size) then drop c 10 else c
  let plain := fun (w : Win) => !w.host && !w.commons
  let c := if valid c && !host c && !commons c && ((mine ++ x.others).any (fun w => plain w && lapN tgt size w.target w.size)
      || (x.commonsSize != 0 && lapN tgt size x.commonsBase x.commonsSize)) then drop c 10 else c
  let c := c.rsv (o + 0x1C) 4
  (c, { base := c.get o 8, size := c.get (o + 8) 8, target := c.get (o + 0x10) 8, flags := BitVec.ofNat 32 (c.get (o + 0x18) 4) })

/-- The node records whose nodes load: offset of the record, relative index, key, effective arity (07 R195). -/
def liveNodes (b : List Byte) (x : WardCtx) (recs : List RecAt) (pools : List Nat) : List (Nat × Nat × Nat × Nat) :=
  (recs.filter (fun r => r.rtype == 3 && decide (136 ≤ r.len))).foldl (fun l r =>
    let ix := imgF b (r.off + 4) 4
    let key := imgF b (r.off + 8) 4
    let cls := imgF b (r.off + 14) 1
    let ar := imgF b (r.off + 12) 1
    let clsOk := if cls < 16 then pools.contains cls else decide (cls ≤ 0x16) && (List.range 86).any (fun e => x.own.engines.getLsbD e && engClassOf e == cls)
    if x.own.nodeCount ≤ ix || l.any (fun n => n.2.1 == ix) || l.any (fun n => n.2.2.1 == key) || !clsOk then l
    else l ++ [(r.off, ix, key, if ar = 0 then 1 else min ar 4)]) []
where
  /-- The dispatch class of an engine slot (01 R53; 07, CLASS). -/
  engClassOf (e : Nat) : Nat :=
    if e < 32 then 0x10 else if e < 48 then 0x11 else if e < 56 then 0x12 else if e < 64 then 0x13
    else if e < 68 then 0x14 else if e < 84 then 0x15 else 0x16

/-- One OUT entry at `o` (07 R195). -/
def checkOut (x : WardCtx) (live : List (Nat × Nat × Nat × Nat)) (c : Ck) (o : Nat) : Ck :=
  let fl := c.get (o + 5) 1
  let gate := bitN fl 2
  let c := if gate then c.rsvBits o 4 0xF else c
  let tgt := c.get o 4
  let bad :=
    (!gate && (match live.find? (fun n => n.2.2.1 == tgt) with
      | none => true
      | some n => decide (n.2.2.2 ≤ c.get (o + 4) 1)))
    || (gate && (bitN fl 1 || !x.gates.any (fun g => g.1 == tgt && g.2.token && g.2.src == x.ward)))
    || (bitN fl 1 && decide (x.own.vectors ≤ c.get (o + 6) 2))
  let c := if bitN fl 0 && bad then c.put 6 (o + 5) 1 (fl - 1) else c
  c.rsvBits (o + 5) 1 7

/-- One PATCH byte of an engine node. -/
def checkPatch (c : Ck) (o : Nat) : Ck :=
  let set := fun (c : Ck) (n : Nat) => c.put 2 o 1 (c.get o 1 - bitsN (c.get o 1) 3 2 * 8 + n * 8)
  let c := if bitsN (c.get o 1) 3 2 = 3 then set c 2 else c
  let first := c.get o 1 % 8
  let c := if 8 < first + bitsN (c.get o 1) 3 2 then set c (8 - first) else c
  c.rsvBits o 1 0x1F

/-- A live node at record offset `r` (07 R194, R195). -/
def checkNode (x : WardCtx) (live : List (Nat × Nat × Nat × Nat)) (c : Ck) (r : Nat) : Ck × PlanNode :=
  let o := r + 8
  let engine := decide (0x10 ≤ c.get (o + 6) 1)
  let c := c.range (o + 4) 1 1 4
  let c := if 1 < c.get (o + 5) 1 then c.put 3 (o + 5) 1 0 else c
  let c := c.rsvBits (o + 7) 1 3
  let c := if engine then (List.range 4).foldl (fun c p => checkPatch c (o + 8 + p)) c else c.rsv (o + 8) 4
  let c := c.rsv (o + 0x0C) 4
  let c := if engine then c.rsv (o + 0x10) 8 else c.rsvBits (o + 0x10) 8 (2 ^ 64 - 4)
  let c := c.rsv (o + 0x18) 8
  let c := (List.range 4).foldl (fun c k => checkOut x live c (o + 0x20 + 8 * k)) c
  let c := if engine then c else c.rsv (o + 0x40) 64
  let out := fun (k : Nat) => ({ target := BitVec.ofNat 32 (c.get (o + 0x20 + 8 * k) 4), port := BitVec.ofNat 8 (c.get (o + 0x24 + 8 * k) 1),
                                 oflags := BitVec.ofNat 8 (c.get (o + 0x25 + 8 * k) 1), vector := BitVec.ofNat 16 (c.get (o + 0x26 + 8 * k) 2) } : OutEntry)
  (c, { index := c.get (r + 4) 4, key := BitVec.ofNat 32 (c.get o 4), arity := c.get (o + 4) 1, rule := c.get (o + 5) 1,
        cls := BitVec.ofNat 8 (c.get (o + 6) 1), nflags := BitVec.ofNat 8 (c.get (o + 7) 1), patch := BitVec.ofNat 32 (c.get (o + 8) 4),
        entry := BitVec.ofNat 64 (c.get (o + 0x10) 8), outs := (List.range 4).map out, template := BitVec.ofNat 512 (c.get (o + 0x40) 64) })

/-- The token of an INIT_TOKEN record: by key (R69). -/
def initToken (c : Ck) (o w : Nat) : Token :=
  let t := tokenOf ((List.range 32).map (fun i => c.byte (o + i)))
  { t with tflags := BitVec.ofNat 8 (putBitN t.tflags.toNat 3 true), sward := BitVec.ofNat 8 w }

/-- The first pass over a WARD section: everything but nodes. -/
structure WardAcc where
  c : Ck
  windows : Option (List Win)
  pools : List (Nat × BitVec 256)
  binds : List EvtBind
  inits : List Token

/-- One record but for nodes (R69–R71). The limit of 4,096 counts the enabled INIT_TOKEN records (DESIGN CHOICE,
log 82). -/
def checkRec (x : WardCtx) (live : List (Nat × Nat × Nat × Nat)) (a : WardAcc) (k : Nat) (r : RecAt) : WardAcc :=
  let c := { a.c with record := k }
  let o := r.off
  let known := decide (1 ≤ r.rtype) && decide (r.rtype ≤ 5)
  let tail := fun (c : Ck) => c.rsv (o + fullLen r.rtype) (r.len - fullLen r.rtype)
  if !known || decide (r.len < fullLen r.rtype) then { a with c := c.note 13 o }
  else if r.rtype = 1 then
    match a.windows with
    | some _ => { a with c := tail (c.note 12 o) }
    | none =>
      let (c, l) := (List.range 16).foldl (fun (b : Ck × List Win) i =>
        let (c, w) := checkWindow x (b.2.filter Win.valid) b.1 (o + 4 + 32 * i)
        (c, b.2 ++ [w])) (c, [])
      { a with c := tail c, windows := some l }
  else if r.rtype = 2 then
    let p := c.get (o + 4) 1
    if 15 < p then { a with c := tail (c.note 6 (o + 4)) }
    else if a.pools.any (fun y => y.1 == p) then { a with c := tail (c.note 12 (o + 4)) }
    else
      let c := c.rsv (o + 5) 3
      let c := c.put 5 (o + 8) 32 (c.get (o + 8) 32 &&& x.own.tiles.toNat)
      { a with c := tail c, pools := a.pools ++ [(p, BitVec.ofNat 256 (c.get (o + 8) 32))] }
  else if r.rtype = 4 then
    let pin := c.get (o + 4) 1
    let act := c.get (o + 6) 1
    if 7 < pin || x.pins.contains pin then { a with c := tail (c.note 6 (o + 4)) }
    else if a.binds.any (fun b => b.pin == pin) then { a with c := tail (c.note 12 (o + 4)) }
    else
      let e := c.get (o + 5) 1
      let c := if e = 0 ∨ 3 < e then c.put 3 (o + 5) 1 1 else c
      if 1 < act then { a with c := tail (c.note 3 (o + 6)) }
      else
        let c := c.range (o + 7) 1 0 3
        if act = 0 && !live.any (fun n => n.2.2.1 == c.get (o + 8) 4) then { a with c := tail (c.note 6 (o + 8)) }
        else if act = 1 && decide (x.own.vectors ≤ c.get (o + 16) 2) then { a with c := tail (c.note 6 (o + 16)) }
        else
          let bd : EvtBind := ⟨pin, c.get (o + 5) 1, act, BitVec.ofNat 8 (c.get (o + 7) 1), BitVec.ofNat 32 (c.get (o + 8) 4),
            BitVec.ofNat 32 (c.get (o + 12) 4), c.get (o + 16) 2, c.get (o + 18) 2⟩
          { a with c := tail c, binds := a.binds ++ [bd] }
  else if r.rtype = 5 then
    if 4096 ≤ a.inits.length then { a with c := tail (c.note 2 o) }
    else if !live.any (fun n => n.2.2.1 == c.get (o + 4) 4) then { a with c := tail (c.note 6 (o + 4)) }
    else
      let c := c.range (o + 8) 1 0 3
      if bitN (c.get (o + 9) 1) 5 then { a with c := tail (c.note 6 (o + 9)) } else
      let c := c.rsvBits (o + 11) 1 7
      let c := if bitN (c.get (o + 9) 1) 4 then c else c.rsv (o + 16) 4
      { a with c := tail c, inits := a.inits ++ [initToken c (o + 4) x.ward] }
  else { a with c := tail c }

def noWindow : Win := ⟨0, 0, 0, 0⟩

/-- The second pass: the node records (07 R195). -/
def checkNodeRec (x : WardCtx) (live : List (Nat × Nat × Nat × Nat)) (a : Ck × List PlanNode) (k : Nat) (r : RecAt) : Ck × List PlanNode :=
  if r.rtype ≠ 3 ∨ r.len < 136 then a
  else
    let c := { a.1 with record := k }
    if live.any (fun n => n.1 == r.off) then
      let (c, n) := checkNode x live c r.off
      (c, a.2 ++ [n])
    else
      let ix := c.get (r.off + 4) 4
      let key := BitVec.ofNat 32 (c.get (r.off + 8) 4)
      if x.own.nodeCount ≤ ix then (c.note 6 (r.off + 4), a.2)
      else if a.2.any (fun n => n.index == ix) then (c.note 12 (r.off + 4), a.2)
      else if a.2.any (fun n => n.key == key) then (c.note 12 (r.off + 8), a.2)
      else (c.note 6 (r.off + 14), a.2)

/-- Numbered from `k`. -/
def numbered {α : Type} : Nat → List α → List (Nat × α)
  | _, [] => []
  | k, a :: l => (k, a) :: numbered (k + 1) l

/-- Check a WARD section and give what it installs. -/
def checkWard (c : Ck) (x : WardCtx) (e : SecEntry) (planId : W64) : Ck × WardSec :=
  let c := { c with section_ := e.ix, ward := x.ward, record := 0 }
  let (recs, stop) := recsOf c.img e
  let pools := ((recs.filter (fun r => r.rtype == 2 && decide (40 ≤ r.len))).map (fun r => imgF c.img (r.off + 4) 1)).filter (fun p => decide (p < 16))
  let live := liveNodes c.img x recs pools
  let rs := numbered 0 recs
  let a := rs.foldl (fun a r => checkRec x live a r.1 r.2) ({ c := c, windows := none, pools := [], binds := [], inits := [] } : WardAcc)
  let c := match stop with
    | some o => ({ a.c with record := recs.length }).note 13 o
    | none => a.c
  let (c, nodes) := rs.foldl (fun b r => checkNodeRec x live b r.1 r.2) (c, [])
  (c, { loaded := true, planId := planId, windows := a.windows.getD (List.replicate 16 noWindow), pools := a.pools, nodes := nodes, binds := a.binds, inits := a.inits })

/-! ### A whole image -/

def listTbl {α : Type} [DecidableEq α] (d : α) (l : List (Nat × α)) : Tbl α := l.foldl (fun t x => t.put d x.1 x.2) .empty

/-- Clamp a full image: the plan it installs, its clamp records, AUTO_SEAL. -/
def clampFull (b : List Byte) (cap : Nat) (defects : List (Nat × Nat)) : Plan × List ClampRec × Bool :=
  let t := imgF b 0x18 4
  let id := BitVec.ofNat 64 (imgF b 0x10 8)
  let l := secEntries b
  let c := l.foldl (checkEntry t) (checkHeader b)
  let sec := fun (k : Nat) => l.find? (fun e => e.kind == k)
  let g := ((sec 1).map (·.off)).getD 0
  let (c, own) := checkGlobal c g cap (((sec 1).map (·.ix)).getD 0)
  let cb := c.get g 8
  let cs := c.get (g + 8) 8
  let period := c.get (g + 0x10) 4 % 2 ^ 15
  let (c, cols) := match sec 2 with
    | some e => checkTilemap c e defects
    | none => (c, [])
  -- the gates decide the routes, and are reported after them
  let gates := match sec 4 with
    | some e => (checkGates c e own).2
    | none => []
  let col := fun (q : Nat) => retiredCol ((defects.find? (fun x => x.1 == q)).map (·.2)) none
  let colOf := fun (q : Nat) => ((cols.find? (fun x => x.1 == q)).map (·.2)).getD (col q)
  let (c, routes) := match sec 3 with
    | some e => checkRoutes c e own gates colOf
    | none => (c, [])
  let c := match sec 4 with
    | some e => (checkGates c e own).1
    | none => c
  let r := (List.range 8).foldl (fun (a : Ck × List (Nat × WardSec)) w =>
    match l.find? (fun e => e.kind == 5 && e.ward == w) with
    | none => a
    | some e =>
      let x : WardCtx := { ward := w, own := own.getD w Own.nothing, cap := cap, commonsBase := cb, commonsSize := cs,
                           others := a.2.flatMap (fun s => s.2.windows.filter Win.valid), pins := a.2.flatMap (fun s => s.2.binds.map (·.pin)), gates := gates }
      let (c, s) := checkWard a.1 x e id
      (c, a.2 ++ [(w, s)])) (c, [])
  let retired := (List.range 16).map (fun q => (q, colOf q))
  ({ planId := id, commonsBase := cb, commonsSize := cs, period := period, own := listTbl Own.nothing ((List.range 8).zip own),
     retired := listTbl 16 retired, routes := routes, gates := listTbl none (gates.map (fun x => (x.1, some x.2))),
     wards := listTbl WardSec.absent r.2 }, r.1.recs, imgF b 0x0E 2 % 2 == 1)

/-- Clamp a ward image against the installed plan (R73, R85 step 3). -/
def clampWard (b : List Byte) (p : Plan) (w : WardId) (cap : Nat) : WardSec × List ClampRec :=
  let t := imgF b 0x18 4
  let id := BitVec.ofNat 64 (imgF b 0x10 8)
  let l := secEntries b
  let c := l.foldl (checkEntry t) (checkHeader b)
  let others := ((List.range 8).filter (· != w.val)).map (fun v => p.wards.get WardSec.absent v)
  let x : WardCtx := { ward := w.val, own := p.own.get Own.nothing w.val, cap := cap, commonsBase := p.commonsBase, commonsSize := p.commonsSize,
                       others := others.flatMap (fun s => s.windows.filter Win.valid), pins := others.flatMap (fun s => s.binds.map (·.pin)),
                       gates := (List.range 16).filterMap (fun k => (p.gates.get none k).map (fun g => (k, g))) }
  match l.find? (fun e => e.kind == 5) with
  | none => (WardSec.absent, c.recs)
  | some e => let (c, s) := checkWard c x e id; (s, c.recs)

end Sys2Proof.Machine
end

