-- ==== Sys2Proof/Machine/TileSys.lean ====
section
/-! DEFINITION. System instructions, interrupts and the resets and run control of one tile (spec 04 R117, R118,
R124–R137, R146; 05 R168–R170; 01 R19, R50). -/

namespace Sys2Proof.Machine

/-- Every operand field of a Y-format word is zero. -/
def sysZero (f : SysForm) : Bool := f.rd == 0 && f.ra == 0 && f.imm == 0

/-- The registers after tile reset (R117, R124): what stays is local store and RUN. -/
def Tile.resetRegs (tl : Tile) (entry : W64) (run : Bool) : Tile :=
  { Tile.init with pc := entry, ls := tl.ls, lsPoison := tl.lsPoison, lsBad := tl.lsBad, lsFix := tl.lsFix, mode := if run then .running else .held,
                   probeSerial := tl.probeSerial, probeOut := tl.probeOut }

namespace State

/-! ### WAIT (spec 05 R169) -/

/-- A tile in WAIT goes on when an enabled mask bit meets a pending interrupt. -/
def endWait (s : State) (t : TileId) : State :=
  if (s.tile t).mode = TileMode.inWait ∧ (s.pendingInt t).isSome then s.retireAlone t else s

/-! ### Interrupts (spec 04 R126, R128, R141) -/

/-- Take the pending interrupt at an instruction boundary; a blocked instruction is given up, a WAIT completes. -/
def takeInterrupt (s : State) (t : TileId) : State :=
  let s := s.endWait t
  if s.canRun t && s.intReady t then
    match s.pendingInt t with
    | none => s
    | some code =>
      match s.abandon t with
      | (false, s) => s
      | (true, s) => s.takeException t code 0 0 0 (s.tile t).pc
  else s

/-! ### Tile reset (spec 04 R146; 13 R368) -/

/-- The messages that a reset takes from the inbox are counted (06 R190). -/
def discardInbox (s : State) (t : TileId) : State := s.bumpF (F.TIL_AVE_CNT_DISCARD t.val) (s.tile t).inbox.length

/-- Halts of the tile and of its quarter are lifted (19 R509; DEDUCED, log 33). -/
def liftTileHalts (s : State) (t : TileId) : State :=
  { s with lantern := { s.lantern with halts := s.lantern.halts.filter (fun h =>
      !((h.scope == 0 && h.target == t.val) || (h.scope == 1 && h.target == t.val / 16))) } }

/-- Fail the item that a tile holds, and one on its way to it (07 R211, reason 3). -/
def failAll (s : State) (t : TileId) (reason : Nat) : State :=
  let s := s.failHeld t reason
  match (s.tile t).workIn with
  | none => s
  | some it =>
    let s := (s.updTile t (fun tl => { tl with workIn := none, workParts := 0, workBad := 0 })).killPackets (fun p =>
      match p.payload with
      | .work _ => p.dst == Node.tile t
      | _ => false)
    s.failItem it reason

/-- An access that answers to the tile itself: an uncached one, or an atomic at the home or the filter. -/
def ownAccess (t : TileId) (e : LEntry) : Bool :=
  decide (e.req.src = .tile t) || (decide (e.req.src = .quarter (tileQuarter t) t) && decide (e.req.kind = .atP ∨ e.req.kind = .atFar))

/-- A tile reset aborts no transaction; the answers go to no instruction, and what waits for an entry is discarded
(13 R367, R368). -/
def forgetAccesses (s : State) (t : TileId) : State :=
  { s with ledger := { s.ledger with
      waiting := s.ledger.waiting.filter (fun e => !ownAccess t e)
      entries := ⟨s.ledger.entries.cells.map (fun c => (c.1, c.2.map (fun e => if ownAccess t e then { e with forgotten := true } else e)))⟩ } }

/-- The steps of R146; a ward reset also clears RUN and local store. -/
def resetTile (s : State) (t : TileId) (wardReset : Bool) : State :=
  let s := s.failAll t 3
  let s := s.dropPuttok t
  let s := s.discardInbox t
  let s := { s with gwQueue := s.gwQueue.erase t }.forgetAccesses t
  let s := s.liftTileHalts t
  let s := if wardReset then s.setF (F.TIL_CTRL_RUN t.val) 0 else s
  let entry := BitVec.ofNat 64 (s.getF (F.TIL_ENTRY_VALUE t.val))
  let s := s.updTile t (fun tl => tl.resetRegs entry (s.isF (F.TIL_CTRL_RUN t.val)))
  let s := if wardReset then s.updTile t (fun tl => { tl with ls := .empty, lsPoison := .empty, lsBad := .empty, lsFix := .empty }) else s
  s.updTile t (fun tl => { tl with halted := s.haltCovers t })

/-- TIL_CTRL.RUN: 1 lets the tile leave its reset entry; under a halt it stays halted there (19 R509; DEDUCED, log 32). -/
def setRun (s : State) (t : TileId) (run : Bool) : State :=
  let s := s.setB (F.TIL_CTRL_RUN t.val) run
  if run && decide ((s.tile t).mode = TileMode.held) && (s.tileWard t).any (fun w => !s.resettingWard w) then s.updTile t (fun tl => { tl with mode := .running, halted := s.haltCovers t }) else s

/-- TIL_CTRL.DOORBELL (R126); a stranded tile ignores it (R134). -/
def doorbell (s : State) (t : TileId) : State :=
  if (s.tile t).mode = TileMode.stranded then s else (s.updTile t (fun tl => { tl with ipDoorbell := true })).endWait t

/-- TIL_CTRL.RESET (R146): none of its own while the tile's ward resets (00 R14). -/
def ctrlReset (s : State) (t : TileId) : State := if (s.tileWard t).any s.resettingWard then s else s.resetTile t false

/-- The tile is the port's own. -/
def ownsTile (s : State) (p : Port) (t : TileId) : Bool :=
  match p with
  | .w w => decide (s.tileWard t = some w)
  | _ => true

end State

/-- MFCR (spec 05 R168). -/
def execMfcr (t : TileId) (f : SysForm) (s : State) : Result :=
  let n := f.imm.toNat
  .next (s.tileOp (.mfcr t f) t (f.ra != 0 || !crListed n) (!crAtT n) (fun s =>
    (s.updTile t (fun tl => tl.wg f.rd (s.readCr t n))).retireAlone t))
/-- MTCR (spec 05 R168; 04 R118, R125, R147): the write follows the instruction's own counts. -/
def execMtcr (t : TileId) (f : SysForm) (s : State) : Result :=
  let n := f.imm.toNat
  .next (s.tileOp (.mtcr t f) t (f.rd != 0 || !crListed n) (n != 0x0B) (fun s =>
    let v := (s.tile t).rg f.ra
    (s.retireAlone t).updTile t (fun tl => State.writeCr tl n v)))
/-- The address of the first word of the frame at `a` whose check fails. -/
def badWord (tl : Tile) (a : W64) : W64 :=
  a + BitVec.ofNat 64 (8 * ((List.range 8).find? (fun i => tl.lsError (a.toNat - lsBase + 8 * i) 8)).getD 0)

/-- ERET (spec 04 R131, R128; 05 R168): any other g2 than one with a whole frame is ILLEGAL, which precedes PRIV; a read
of the frame that meets an uncorrectable error is LS_ERROR. -/
def execEret (t : TileId) (f : SysForm) (s : State) : Result :=
  .next (s.tileOp (.eret t f) t (!sysZero f || !State.eretStack ((s.tile t).rg 2)) true (fun s =>
    let tl := s.tile t
    let a := tl.rg 2
    let s := s.lsCorrect t (a.toNat - lsBase) 64
    if tl.lsError (a.toNat - lsBase) 64 then s.except t 9 (badWord tl a)
    else (s.retireAlone t).returnException t))
/-- TRAP (spec 05 R168; 04 R127, CAUSE). -/
def execTrap (t : TileId) (f : SysForm) (s : State) : Result :=
  .next (s.tileOp (.trap t f) t (f.rd != 0 || f.ra != 0) false (fun s => s.takeException t 0x0A 0 f.imm.toNat 0 (s.tile t).pc))
/-- BRK (spec 05 R168). -/
def execBrk (t : TileId) (f : SysForm) (s : State) : Result :=
  .next (s.tileOp (.brk t f) t (!sysZero f) false (fun s => s.except t 0x0B 0))
/-- WAIT (spec 05 R169). -/
def execWait (t : TileId) (f : SysForm) (s : State) : Result :=
  .next (s.tileOp (.wait t f) t (!sysZero f) false (fun s =>
    if (s.pendingInt t).isSome then s.retireAlone t else s.updTile t (fun tl => { tl with mode := .inWait })))
/-- SYNC.I (spec 05 R168, R170). -/
def execSyncI (t : TileId) (f : SysForm) (s : State) : Result :=
  .next (s.tileOp (.syncI t f) t (!sysZero f) false (fun s => (s.updTile t (fun tl => { tl with fetchBuf := none, lsBuf := none, l1i := [] })).retireAlone t))
/-- TIMECMP_REACHED (spec 04 R126): IP_TIMER is TIME ≥ TIMECMP; a WAIT that enables it ends. -/
def execTimecmpReached (t : TileId) (s : State) : Result :=
  .next (if (s.tile t).timecmp.toNat ≤ s.supTime && s.coreActive then s.endWait t else s)
/-- INTERRUPT_TAKE (spec 04 R128, R130, R141). -/
def execInterruptTake (t : TileId) (s : State) : Result := .next (s.takeInterrupt t)
/-- TIL_CTRL.RESET (spec 04 R146). -/
def execTileReset (p : Port) (t : TileId) (s : State) : Result :=
  .next (s.hostWrite p (F.TIL_CTRL_RUN t.val).off (State.tilVf t 0) (1 + 2 * s.getF (F.TIL_CTRL_RUN t.val)) (s.ownsTile p t) (fun s => s.ctrlReset t))
/-- TIL_CTRL.RUN (spec 04, TIL_CTRL): 1 lets the tile leave its reset entry. -/
def execTilRunWrite (p : Port) (t : TileId) (run : Bool) (s : State) : Result :=
  .next (s.hostWrite p (F.TIL_CTRL_RUN t.val).off (State.tilVf t 0) (2 * bN run) (s.ownsTile p t) (fun s => s.setRun t run))
/-- TIL_CTRL.DOORBELL (spec 04 R126). -/
def execDoorbell (p : Port) (t : TileId) (s : State) : Result :=
  .next (s.hostWrite p (F.TIL_CTRL_RUN t.val).off (State.tilVf t 0) (4 + 2 * s.getF (F.TIL_CTRL_RUN t.val)) (s.ownsTile p t) (fun s => s.doorbell t))

end Sys2Proof.Machine
end

