-- ==== Sys2Proof/Machine/Lamplighter.lean ====
section
/-! DEFINITION. Lamplighter (spec 07): tokens, matching and firing, delay lists and the tick, event inputs, dispatch
to tiles, tracing. Dispatch to engines stands in Engines.lean. -/

namespace Sys2Proof.Machine

/-! ### Slots (spec 07 R199–R204) -/

def LampWard.slots (lw : LampWard) : Nat := lw.tokens.length + (lw.ready.map (·.slots)).sum

def LampWard.standing (lw : LampWard) (node port : Nat) : Option HeldTok :=
  lw.tokens.find? (fun h => h.standing && h.node == node && h.port == port)
def LampWard.oldest (lw : LampWard) (node port : Nat) (tag : BitVec 32) : Option HeldTok :=
  lw.tokens.find? (fun h => !h.standing && h.node == node && h.port == port && h.tag == tag)

/-- What a firing of an ALL node for a tag takes from each port; none when it cannot fire. -/
def LampWard.takes (lw : LampWard) (nd : PlanNode) (tag : BitVec 32) : Option (List HeldTok) :=
  let l := (List.range nd.arity).map (fun p => match lw.oldest nd.index p tag with
    | some h => some h
    | none => lw.standing nd.index p)
  if l.all Option.isSome then some (l.filterMap id) else none

/-- The current depths of the ready queues: the highest depth since a clear starts from them (R222). -/
def LampWard.depths (lw : LampWard) : Tbl Nat :=
  (List.range 23).foldl (fun t c => t.put 0 c (lw.ready.filter (fun r => r.cls.toNat == c)).length) .empty

/-- The item of a firing that uses these tokens. -/
def firedItem (w : WardId) (nd : PlanNode) (tag : BitVec 32) (used : List HeldTok) (now : Nat) : Item :=
  let taken := used.filter (fun h => !h.standing)
  { ward := w, node := nd.index, key := nd.key, tag := tag, cls := nd.cls
    present := used.foldl (fun a h => a ||| BitVec.ofNat 4 (2 ^ h.port)) 0
    ppoison := used.foldl (fun a h => if h.poison then a ||| BitVec.ofNat 4 (2 ^ h.port) else a) 0
    operands := (List.range 4).map (fun p => ((used.find? (fun h => h.port == p)).map (·.payload)).getD 0)
    last := taken.any (·.last), slots := taken.length, readyAt := now, waited := 0, seq := 0 }

/-- Engine classes are 0x10 to 0x16. -/
def engineClass (c : Byte) : Bool := decide (0x10 ≤ c.toNat)

/-- The token of a poisoned packet is poisoned (06 R188, R189). -/
def Token.orPoison (tk : Token) (po : Bool) : Token := { tk with tflags := BitVec.ofNat 8 (putBitN tk.tflags.toNat 0 (tk.poisoned || po)) }

namespace State

def sharedSlots (s : State) : Nat := 262144 - ((List.finRange 8).map (fun w => (s.own w).matchQuota)).sum
def sharedHeld (s : State) : Nat := ((List.finRange 8).map (fun w => (s.lampw w).slots - (s.own w).matchQuota)).sum

/-- The matching store accepts a token of the ward (R204). -/
def storeTakes (s : State) (w : WardId) : Bool :=
  decide ((s.lampw w).slots < (s.own w).matchQuota) || decide (s.sharedHeld < s.sharedSlots)

/-! ### Rotation among the wards (R212; DEDUCED, log 88) -/

/-- The first ward that `p` selects, from the one after the ward served last; ward 0 first while none has been. -/
def rotateWard (last : Option WardId) (p : WardId → Bool) : Option WardId :=
  let start := match last with
    | none => 0
    | some w => w.val + 1
  ((List.range 8).map (fun k => (Fin.ofNat 8 (start + k) : WardId))).find? p

/-- Lantern's freeze class `i` is in force for a ward (19 R514). -/
def wardHalted (s : State) (w : WardId) : Bool := s.lantern.halts.any (fun h => (h.scope == 2 && h.target == w.val) || h.scope == 3)
def frozenWard (s : State) (i : Nat) (w : WardId) : Bool := s.lantern.freezeNow.getLsbD i && s.wardHalted w

/-- The dim state has begun (17 R456). -/
def dimmed (s : State) : Bool := s.getF F.SUP_DIM_STATE != 0

/-- A reset, a swap (02 R85), a freeze or a dim state holds the ward's delay lists. -/
def delaysHeld (s : State) (w : WardId) : Bool := s.frozenWard 2 w || s.resettingWard w || s.swapping w || s.dimmed

/-- A token of the ward stands refused that the store would take now. -/
def wantsStore (s : State) (w : WardId) : Bool :=
  s.storeTakes w && ((s.lampw w).waiting.any (fun x => !x.1.delayed) || (!s.delaysHeld w && (s.lampw w).delays.any (·.begun)))

/-- It is the ward's turn at the matching store. -/
def storeTurn (s : State) (w : WardId) : Bool := decide (rotateWard s.storeServed (fun v => v == w || s.wantsStore v) = some w)

/-! ### Firing (R199–R203, R208) -/

/-- A firing's item enters its ready queue; an engine item with a poisoned operand fails at once (R208; DEDUCED, log 35). -/
def queueItem (s : State) (it : Item) : State :=
  if engineClass it.cls && it.ppoison != 0 then s.failNotice it 4
  else
    let lw := s.lampw it.ward
    let ready := lw.ready ++ [it]
    let d := (ready.filter (fun r => r.cls == it.cls)).length
    let c := it.cls.toNat
    s.setLampw it.ward { lw with ready := ready, obsDepthMax := lw.obsDepthMax.put 0 c (max d (lw.obsDepthMax.get 0 c)) }

/-- Fire an ALL node while it can, in the order of the held tokens. -/
def fireAll (s : State) (w : WardId) (nd : PlanNode) : Nat → State
  | 0 => s
  | k + 1 =>
    let lw := s.lampw w
    match lw.tokens.findSome? (fun h => if !h.standing && h.node == nd.index then (lw.takes nd h.tag).map (fun u => (h.tag, u)) else none) with
    | none => s
    | some (tag, used) =>
      let taken := used.filter (fun h => !h.standing)
      let s := s.setLampw w { lw with tokens := taken.foldl List.erase lw.tokens }
      (s.queueItem (firedItem w nd tag used s.supTime)).fireAll w nd k

/-- A token enters the matching store (R199–R201). -/
def storeToken (s : State) (w : WardId) (nd : PlanNode) (tk : Token) : State :=
  let lw := s.lampw w
  let h : HeldTok := { node := nd.index, port := tk.port.toNat, tag := tk.tag, payload := tk.payload, poison := tk.poisoned, last := tk.last, standing := tk.global }
  let rest := if h.standing then lw.tokens.filter (fun x => !(x.standing && x.node == h.node && x.port == h.port)) else lw.tokens
  if nd.rule = 1 then
    if h.standing then s.setLampw w { lw with tokens := rest ++ [h] }
    else
      let others := ((List.range nd.arity).filter (fun p => p ≠ h.port)).filterMap (fun p => lw.standing nd.index p)
      s.queueItem (firedItem w nd h.tag (h :: others) s.supTime)
  else
    (s.setLampw w { lw with tokens := rest ++ [h] }).fireAll w nd (rest.length + 1)

/-! ### Arrival (R198, R214, R220) -/

/-- The node that a token names, or the counter of its discard. -/
def resolveTok (s : State) (w : WardId) (tk : Token) (viaGate : Option Nat) : PlanNode ⊕ Fld :=
  match (if tk.byKey then s.nodeByKey w tk.node else s.nodeByIndex w tk.node.toNat) with
  | none => .inr (match viaGate with
      | some g => F.GBL_GATE_CNT_DISC_KEY g
      | none => F.LMPW_DISCARD_NO_NODE w.val)
  | some nd => if nd.arity ≤ tk.port.toNat then .inr (F.LMPW_DISCARD_BAD_PORT w.val) else .inl nd

/-- Offer a token to its ward: true when it has been accepted, posted or discarded. -/
def offerTok (s : State) (w : WardId) (tk : Token) (viaGate : Option Nat) : Bool × State :=
  match s.resolveTok w tk viaGate with
  | .inr f => (true, s.bumpF f 1)
  | .inl nd =>
    let lw := s.lampw w
    if tk.delayed then
      if lw.delays.length < 16384 then
        let e : DelayEntry := { due := s.tickCount + tk.delay.toNat, key := nd.key, tag := tk.tag, port := tk.port,
                                dflags := BitVec.ofNat 8 (tk.tflags.toNat % 8), list := tk.list.toNat % 8, payload := tk.payload,
                                ripe := false, begun := false }
        (true, s.setLampw w { lw with delays := lw.delays ++ [e] })
      else (false, s)
    else if s.storeTakes w && s.storeTurn w then (true, { s with storeServed := some w }.storeToken w nd tk)
    else (false, s)

/-- The source of an accepted token goes on. -/
def tokDone (s : State) (src : TokSrc) : State :=
  match src with
  | .puttok t => s.puttokDone t
  | _ => s

/-- Tokens of a source that have not been accepted. -/
def tokensOut (s : State) (src : TokSrc) : Bool :=
  s.arrivals.any (fun x => x.2.2 == src) || (List.finRange 8).any (fun w => (s.lampw w).waiting.any (fun x => x.2 == src))

/-- A token reaches Lamplighter: accepted, or its source waits. -/
def arriveTok (s : State) (w : WardId) (tk : Token) (src : TokSrc) : State :=
  let busy := (s.lampw w).waiting.any (fun x => x.2 == src)
  match (if busy then (false, s) else s.offerTok w tk none) with
  | (true, s) => s.tokDone src
  | (false, s) =>
    let lw := s.lampw w
    s.setLampw w { lw with waiting := lw.waiting ++ [(tk, src)] }

/-! ### Delay lists and the tick (R213–R216) -/

def DelayEntry.lt (a b : DelayEntry) : Bool := decide (a.due < b.due) || (a.due == b.due && decide (a.list < b.list))
def insertDelay (e : DelayEntry) : List DelayEntry → List DelayEntry
  | [] => [e]
  | x :: r => if DelayEntry.lt e x then e :: x :: r else x :: insertDelay e r
/-- Entries in the order of R215: posting order within one due tick and list. -/
def dueOrder (l : List DelayEntry) : List DelayEntry := l.foldl (fun a e => insertDelay e a) []

/-- The token of a fired entry. -/
def delayTok (w : WardId) (e : DelayEntry) : Token :=
  { node := e.key, port := e.port, tflags := BitVec.ofNat 8 (e.dflags.toNat % 8 + 8), sward := BitVec.ofNat 8 w.val, list := 0, tag := e.tag, delay := 0, payload := e.payload }

/-- The first of the entries whose lists nothing holds that its ward accepts; an entry that is refused holds its list
(R215). -/
def fireFirst (s : State) (w : WardId) : List DelayEntry → List Nat → Bool × State
  | [], _ => (false, s)
  | e :: r, held =>
    if held.contains e.list then s.fireFirst w r held
    else match s.offerTok w (delayTok w e) none with
      | (true, s) => (true, let lw := s.lampw w; s.setLampw w { lw with delays := lw.delays.erase e })
      | (false, s) =>
        let lw := s.lampw w
        (s.setLampw w { lw with delays := lw.delays.map (fun x => if x = e then { x with begun := true } else x) }).fireFirst w r (e.list :: held)

/-- Fire one entry of the ward whose tick edge has come. -/
def fireOne (s : State) (w : WardId) : Bool × State :=
  if s.delaysHeld w then (false, s) else s.fireFirst w (dueOrder ((s.lampw w).delays.filter (·.ripe))) []

/-- The entries whose tick edge has come fire, the wards in rotation (R212, R215); what is refused has been offered. -/
def fireRipe (s : State) : Nat → State
  | 0 => s
  | k + 1 => match rotateWard s.storeServed (fun w => (s.fireOne w).1) with
    | none => (List.finRange 8).foldl (fun s w => (s.fireOne w).2) s
    | some w => (s.fireOne w).2.fireRipe k
def fireDue (s : State) : State := s.fireRipe (((List.finRange 8).map (fun w => (s.lampw w).delays.length)).sum + 1)

/-- A tick edge finds an entry due (R215). -/
def ripen (s : State) (w : WardId) : State :=
  let lw := s.lampw w
  if lw.delays.isEmpty then s
  else s.setLampw w { lw with delays := lw.delays.map (fun e => if e.due ≤ s.tickCount then { e with ripe := true } else e) }

/-- A source that waits is served: the first waiting token that is accepted now, else a delay entry that has been
refused (R204, R212, R220). -/
def admitWaiting (s : State) (w : WardId) : State :=
  let rec go : List (Token × TokSrc) → Option State
    | [] => none
    | x :: r => match s.offerTok w x.1 none with
      | (true, s2) => let lw := s2.lampw w; some ((s2.setLampw w { lw with waiting := lw.waiting.erase x }).tokDone x.2)
      | (false, _) => go r
  match go (s.lampw w).waiting with
  | some s => s
  | none => (s.fireOne w).2

/-! ### Tracing (R223, R224) -/

def traceSize (s : State) (w : WardId) : Nat := 2 ^ s.getF (F.LMPW_TR_LOG2_LOG2 w.val)
def traceHead (s : State) (w : WardId) : Nat := s.getF (F.LMPW_TR_HEAD_HEAD w.val)
/-- Records that the device may still write before the ring is full: HEAD + 32 equals TAIL modulo the ring size. -/
def ringRoom (s : State) (w : WardId) : Nat :=
  let n := s.traceSize w
  (s.getF (F.LMPW_TR_TAIL_TAIL w.val) % n + 2 * n - s.traceHead w % n - 32) % n / 32
/-- The ring holds: TRACE_WRAP = 0, and no room for `k` records (R224). -/
def ringHolds (s : State) (w : WardId) (k : Nat) : Bool := !s.isF (F.LMPW_CTRL_TRACE_WRAP w.val) && decide (s.ringRoom w < k)

/-- The record on its way waits for a Ledger entry, and behind it the ward's dispatch (13 R363). -/
def traceRefused (s : State) (w : WardId) : Bool := s.ledger.waiting.any (fun e => e.req.src == .trace w)

/-- Trace mode holds the ward's dispatch: a full ring, or a record that is refused. -/
def traceHolds (s : State) (w : WardId) : Bool :=
  s.traceRefused w || (s.isF (F.LMPW_CTRL_TRACE_EN w.val) && s.ringHolds w ((s.lampw w).traceQ.length + 1))

/-- Send the ward's oldest trace record, when the ring has room. It keeps its place until it is committed, and HEAD
stays (R223). -/
def traceSend (s : State) (w : WardId) : State :=
  let lw := s.lampw w
  match lw.traceQ with
  | [] => s
  | r :: _ =>
    if lw.traceBusy || s.ringHolds w 1 then s
    else
      let a := s.getF (F.LMPW_TR_BASE_BASE w.val) + s.traceHead w
      match s.translate w a 32 .write with
      | .inl c =>
        let s := (s.winFault w c a).setLampw w { lw with traceQ := [] }
        (s.setF (F.LMPW_STATUS_TRACE_FAULT w.val) 1).setF (F.LMPW_CTRL_TRACE_EN w.val) 0
      | .inr x =>
        let o := x.addr % 64
        let q := { Req.make .wrInv ⟨x.host, x.addr / 64⟩ (.trace w) (some w) x.sealed with mask := rangeMask o 32 }
        (s.setLampw w { lw with traceBusy := true }).issue
          { LEntry.make q (.ward w) with wdata := some ⟨placeBytes o 32 (ofLe r), false⟩, hostMem := x.host, relaxed := x.relaxed, ido := x.ido }

/-- The record on its way is committed: HEAD advances. With TRACE_WRAP = 1 a record of a ring whose places are all
taken overwrites the oldest one (R224; DEDUCED, log 34). -/
def traceCommit (s : State) (w : WardId) : State :=
  let lw := s.lampw w
  if !lw.traceBusy then s
  else
    let n := s.traceSize w
    let lost := s.isF (F.LMPW_CTRL_TRACE_WRAP w.val) && decide (n / 32 ≤ lw.traceFill)
    let s := s.setLampw w { lw with traceBusy := false, traceQ := lw.traceQ.drop 1, traceFill := min (n / 32) (lw.traceFill + 1) }
    (if lost then s.bumpF (F.LMPW_TR_LOST_LOST w.val) 1 else s).setF (F.LMPW_TR_HEAD_HEAD w.val) ((s.traceHead w + 32) % n)

/-- The trace's record leaves for a host window at once when it has its entry: it is then posted at the link. -/
def tracePosted (s : State) (w : WardId) : Bool :=
  (s.lampw w).traceBusy && !s.traceRefused w && !s.ledger.entries.cells.any (fun c => match c.2 with
    | some e => e.req.src == .trace w && !e.aborted
    | none => false)

/-- Records are sent as long as nothing holds them: at most those that wait. -/
def traceRun (s : State) (w : WardId) : Nat → State
  | 0 => s
  | k + 1 =>
    let s := s.traceSend w
    if s.tracePosted w then (s.traceCommit w).traceRun w k else s
def tracePump (s : State) (w : WardId) : State := s.traceRun w (s.lampw w).traceQ.length

def traceDone (s : State) (w : WardId) : State := (s.traceCommit w).tracePump w

/-- The write of the record committed nothing (12 R346): it is sent again (DESIGN CHOICE, log 89). -/
def traceAgain (s : State) (w : WardId) : State :=
  let lw := s.lampw w
  (s.setLampw w { lw with traceBusy := false }).tracePump w

def tracePumpAll (s : State) : State := (List.finRange 8).foldl tracePump s

/-! ### Dispatch (R205–R209, R212) -/

/-- Dispatch is held by THROTTLE (17 R462). -/
def throttled (s : State) : Bool := decide (s.supTime < s.power.throttleUntil)

/-- Dispatch of a ward is stopped for a reset, a swap, quarantine or D3hot (02 R85; 16 R442; 15 R417), or held by
tracing. -/
def dispatchStopped (s : State) (w : WardId) : Bool :=
  s.resettingWard w || s.swapping w || s.quarantined w || s.link.d3hot || s.dimmed || s.throttled || s.traceHolds w

/-- The item of a class that is dispatched next: SERIAL nodes with an unended item are passed (R209). -/
def nextItem (s : State) (w : WardId) (cls : Nat) : Option Item :=
  let lw := s.lampw w
  lw.ready.find? (fun it => it.cls.toNat == cls && !(
    ((s.nodeByKey w it.key).map (fun nd => nd.nflags.getLsbD 0)).getD false && lw.running.any (fun r => r.item.key == it.key)))

/-- A tile that waits in GETWORK and may be handed an item. -/
def tileWaits (s : State) (w : WardId) (t : TileId) : Bool :=
  decide (s.tileWard t = some w) && !s.haltCovers t && !s.feedHeld t && !(s.tile t).stepping && s.coreActive
    && (s.tile t).workIn.isNone && (match (s.tile t).mode with
      | .inGetwork _ _ => true
      | _ => false)

/-- The pool from which a tile's rotation takes next: the first after its last pool that has an item (R206). -/
def rotationPool (s : State) (w : WardId) (t : TileId) : Option Nat :=
  let start := match (s.tile t).lastPool with
    | none => 0
    | some p => p.val + 1
  ((List.range 16).map (fun i => (start + i) % 16)).find? (fun p => (s.subscribed t).contains p && (s.nextItem w p).isSome)

/-- The tile that takes the next item of a pool: of those that wait on it, the one that has waited longest. -/
def poolTile (s : State) (w : WardId) (pool : Nat) : Option TileId :=
  match s.gwQueue.find? (fun t => s.tileWaits w t && (s.subscribed t).contains pool) with
  | none => none
  | some t => if s.rotationPool w t = some pool then some t else none

/-- WAITED bucket (R222), WAITED in 40 ns units. -/
def waitBucket (n : Nat) : Nat :=
  if n < 25 then 0 else if n < 100 then 1 else if n < 400 then 2 else if n < 1600 then 3
  else if n < 6400 then 4 else if n < 25000 then 5 else if n < 100000 then 6 else 7

/-- Add 1 to a 64-bit counter, which saturates (R222). -/
def satAdd (t : Tbl Nat) (k : Nat) : Tbl Nat := t.put 0 k (min (2 ^ 64 - 1) (t.get 0 k + 1))

/-- Common part of a dispatch decision: the item leaves its queue, takes SEQ and WAITED, frees the standing tokens
that LAST closes (R202), and is counted and traced. -/
def takeItem (s : State) (it : Item) (onTile : Bool) (who : Nat) : Item × State :=
  let w := it.ward
  let lw := s.lampw w
  let waited := min 0xFFFFFFFF (s.supTime - it.readyAt)
  let it2 := { it with seq := lw.seq, waited := waited }
  let tokens := if it.last then lw.tokens.filter (fun h => !(h.standing && h.node == it.node)) else lw.tokens
  let b := it.cls.toNat * 8 + waitBucket waited
  let s := ({ s with dispatchServed := some w } : State).setLampw w { lw with
    ready := lw.ready.erase it, running := lw.running ++ [⟨it2, onTile, who⟩], seq := lw.seq + 1, tokens := tokens
    obsBuckets := satAdd lw.obsBuckets b }
  (it2, (s.pushTrace it2 (if onTile then 1 else 2) who waited).tracePump w)

/-- Hand an item of a pool to the tile that waits for it (R205, R206; DEDUCED, log 69). -/
def dispatchTile (s : State) (w : WardId) (pool : Fin 16) : State :=
  if s.dispatchStopped w then s
  else match s.poolTile w pool.val, s.nextItem w pool.val with
    | some t, some it =>
      let (it, s) := s.takeItem it true t.val
      let s := s.updTile t (fun tl => { tl with workIn := some it, workParts := 0, workBad := 0, lastPool := some pool })
      let pk := fun (first : Bool) => mkPkt .msg 2 lampStop (.tile t) w w.val 0 false (.work first) noLine
      (s.sendPkt (pk true)).sendPkt (pk false)
    | _, _ => s

/-! ### Ward-view controls (R216, R222, R224) -/

/-- DLY_FLUSH: the lists of the mask lose what has not begun to fire (R216). -/
def flushDelays (s : State) (w : WardId) (mask : Nat) : State :=
  let lw := s.lampw w
  let hit := fun (e : DelayEntry) => bitN mask e.list && !e.begun
  (s.setLampw w { lw with delays := lw.delays.filter (fun e => !hit e) }).bumpF (F.LMPW_DISCARD_FLUSHED w.val) (lw.delays.filter hit).length

def clearObs (s : State) (w : WardId) : State :=
  let lw := s.lampw w
  s.setLampw w { lw with obsDepthMax := lw.depths, obsBuckets := .empty, obsTile := .empty, obsEng := .empty, obsWindow := 0 }

/-- BASE or LOG2 is written: the ring holds no record of before (DESIGN CHOICE, log 34). -/
def newRing (s : State) (w : WardId) : State := s.setLampw w { s.lampw w with traceFill := 0 }

/-- TAIL: bits [4:0] cleared, then modulo the ring size. -/
def writeTraceTail (s : State) (w : WardId) (val : Nat) : State :=
  let v := val % 2 ^ 30
  let e := (v / 32 * 32) % s.traceSize w
  let s := s.setF (F.LMPW_TR_TAIL_TAIL w.val) e
  (if e = v then s else s.setF (F.LMPW_STATUS_CLAMPED w.val) 1).tracePump w

/-! ### Event inputs (R217–R219) -/

/-- The binding of a pin: the ward and its record. -/
def bindOf (s : State) (p : Fin 8) : Option (WardId × EvtBind) :=
  (List.finRange 8).findSome? (fun w => ((s.sec w).binds.find? (fun b => b.pin == p.val)).map (fun b => (w, b)))

/-- The binding's EDGE detects a change to a level (02 R70). -/
def detects (edge : Nat) (level : Bool) : Bool := decide (edge = 3 ∨ (edge = 1 ∧ level) ∨ (edge = 2 ∧ !level))

/-- A level has passed the filter. In D3cold a pin that was bound keeps its EDGE and FILTER and wakes the host
(15 R418; 17 R474). -/
def edgePassed (s : State) (p : Fin 8) (level : Bool) : State :=
  let s := s.setPin p { s.pin p with passed := level, cand := none }
  match s.bindOf p with
  | none =>
    match s.power.coldBinds.find? (fun b => s.power.d3cold && b.1 == p.val) with
    | none => s.bumpF (F.LMP_EVT_CNT_EDGES p.val) 1
    | some (_, e, _) =>
      if detects e level then
        ({ s with wake := s.wake || s.power.coldPme }).bumpF (F.LMP_EVT_CNT_EDGES p.val) 1
      else s
  | some (_, b) =>
    if detects b.edge level then
      let e := match (s.pin p).edge with
        | none => (s.supTime, 1, level, level)
        | some (t, c, _, k) => (t, min 0xFFFFFFFF (c + 1), level, k)
      let at_ := if (s.pin p).edge.isNone then s.tickCount else (s.pin p).latchTick
      (s.setPin p { s.pin p with edge := some e, latchTick := at_ }).bumpF (F.LMP_EVT_CNT_EDGES p.val) 1
    else s

/-- The pin's raw level changes. -/
def pinEdge (s : State) (p : Fin 8) (level : Bool) : State :=
  let x := s.pin p
  if x.level == level then s
  else
    let s := s.setPin p { x with level := level, cand := if level == x.passed then none else some (level, s.supTime) }
    let filter : Nat := match s.bindOf p with
      | some b => b.2.filter
      | none => ((s.power.coldBinds.find? (fun b => s.power.d3cold && b.1 == p.val)).map (fun b => b.2.2)).getD 25
    if filter == 0 && level != x.passed then s.edgePassed p level else s

/-- The payload of an EVT token (R218). -/
def evtPayload (e : Nat × Nat × Bool × Bool) : BitVec 128 :=
  BitVec.ofNat 128 (e.1 % 2 ^ 64 + 2 ^ 64 * e.2.1 + 2 ^ 96 * bN e.2.2.1 + 2 ^ 104 * (if e.2.2.2 then 1 else 2))

/-- The pin's undelivered edge goes to its ward (R218, R219). -/
def deliverEdge (s : State) (p : Fin 8) : State :=
  match (s.pin p).edge, s.bindOf p with
  | some e, some (w, b) =>
    if s.resettingWard w || s.swapping w || s.frozenWard 3 w then s
    else
      let gone := fun (s : State) => s.setPin p { s.pin p with edge := none }
      if b.action = 1 then gone (s.raiseMsix (.vf w) b.vector)
      else
        let tk : Token := { node := b.nodeKey, port := b.port, tflags := 8, sward := BitVec.ofNat 8 w.val, list := 0, tag := b.tag, delay := 0, payload := evtPayload e }
        match s.offerTok w tk none with
        | (true, s) => gone s
        | (false, s) => s
  | _, _ => s

/-! ### Gates (spec 01 R36–R39; 06 R187; 07 R197) -/

/-- The item that GATE_ENTER names: a packet that stands at its destination, or a token of an OUT entry; with what
takes it out of its place, and who sent it. -/
def gateItem (s : State) (g i : Nat) : Option (Packet × Option TokSrc) :=
  if i < s.net.length then
    match s.arrived i with
    | none => none
    | some p => if p.dead then none else match p.payload with
      | .message m => if m.gated && m.gate == g then some (p, none) else none
      | .token tk src => if tk.gated && tk.node.toNat % 16 == g then some (p, some src) else none
      | _ => none
  else match s.arrivals[i - s.net.length]? with
    | none => none
    | some (w, tk, src) =>
      if tk.gated && tk.node.toNat % 16 == g then some (mkPkt .msg 1 lampStop lampStop w w.val 0 false (.token tk src) noLine, some src) else none

/-- The token as the gate's buffer holds it (R197). -/
def gateTok (gt : Gate) (tk : Token) : Token :=
  { tk with node := gt.target, tflags := BitVec.ofNat 8 (tk.tflags.toNat % 8 + 8), sward := BitVec.ofNat 8 gt.src, list := 0, delay := 0 }

def takeGateItem (s : State) (i : Nat) : State :=
  if i < s.net.length then s.takePkt i else { s with arrivals := s.arrivals.eraseIdx (i - s.net.length) }

def gateSrcDone (s : State) (src : Option TokSrc) : State :=
  match src with
  | none => s
  | some x => s.tokDone x

/-- Where an item that reaches a gate during a reset is counted: a message at its tile (06 R190), a token at the gate
(DESIGN CHOICE, log 91). -/
def gateDiscard (p : Packet) (g : GateId) : Fld :=
  match p.dst with
  | .tile t => F.TIL_AVE_CNT_DISCARD t.val
  | .stop _ => F.GBL_GATE_CNT_DISC_RESET g.val

/-- An item enters its gate, or is discarded while either end resets (R38; 06 R190). -/
def enterGate (s : State) (g : GateId) (i : Nat) : State :=
  match s.gateItem g.val i with
  | none => s
  | some (p, src) =>
    match s.gate g.val with
    | none => ((s.takeGateItem i).bumpF (gateDiscard p g) 1).gateSrcDone src
    | some gt =>
      if s.resettingWard (Fin.ofNat 8 gt.src) || s.resettingWard (Fin.ofNat 8 gt.dst) then
        ((s.takeGateItem i).bumpF (gateDiscard p g) 1).gateSrcDone src
      else if (s.gateBuf g.val).length < 8 then
        let pl := match p.payload with
          | .token tk x => .token (gateTok gt tk) x
          | x => x
        let s := s.takeGateItem i
        (s.setGateBuf g.val (s.gateBuf g.val ++ [{ p with payload := pl, gated := true, gate := g.val }])).gateSrcDone src
      else s

/-- A message enters an inbox and completes a waiting RECV (06 R190), unless the tile is held as a feed (09 R248). -/
def inboxPut (s : State) (t : TileId) (m : Msg) : State :=
  let s := s.updTile t (fun tl => { tl with inbox := tl.inbox ++ [m] })
  if s.feedHeld t then s
  else match (s.tile t).mode with
    | .inRecv a rd => s.doRecv t a rd
    | _ => s.endWait t

/-- The oldest item of a gate's buffer leaves it (06 R187; 07 R197, R198). -/
def leaveGate (s : State) (g : GateId) : State :=
  match s.gateBuf g.val, s.gate g.val with
  | p :: rest, some gt =>
    let gone := fun (s : State) => (s.setGateBuf g.val rest).bumpF (F.GBL_GATE_CNT_DELIVERED g.val) 1
    match p.payload, p.dst with
    | .message m, .tile t =>
      if (s.tile t).inbox.length < 16 then
        ((gone s).bumpF (F.TIL_AVE_CNT_GATED_IN t.val) 1).inboxPut t { m with poison := m.poison || p.poison }
      else s
    | .token tk _, _ =>
      match s.offerTok (Fin.ofNat 8 gt.dst) (tk.orPoison p.poison) (some g.val) with
      | (true, s) => gone s
      | (false, s) => s
    | _, _ => s
  | _, _ => s

end State

/-! ### The commands -/

/-- TOKEN_ARRIVE (spec 07 R198): a PUTTOK packet at Lamplighter's stop, or a token that the device itself sends. -/
def execTokenArrive (i : Nat) (s : State) : Result :=
  .next (if i < s.net.length then
      match s.arrived i with
      | none => s
      | some p => match p.payload with
        | .token tk src =>
          if p.dead then s.takePkt i
          else if tk.gated then s
          else (s.takePkt i).arriveTok p.ward (tk.orPoison p.poison) src
        | _ => s
    else match s.arrivals[i - s.net.length]? with
      | none => s
      | some (w, tk, src) =>
        if tk.gated then s
        else ({ s with arrivals := s.arrivals.eraseIdx (i - s.net.length) }).arriveTok w tk src)
/-- MATCH_STORE_ADMIT (spec 07 R204, R220). -/
def execMatchStoreAdmit (w : WardId) (s : State) : Result := .next (s.admitWaiting w)
/-- TICK (spec 07 R213, R215): the count rises, the written period comes into force, due entries fire. -/
def execTick (s : State) : Result :=
  .next (if s.power.vauxGood then
      let s := { s with tickCount := s.tickCount + 1, tickPeriod := s.getF F.LMP_TICK_PERIOD }
      let s := (List.finRange 8).foldl State.ripen s
      if s.coreActive then s.fireDue.tracePumpAll else s
    else s)
/-- DLY_FLUSH (spec 07 R216). -/
def execDlyFlush (p : Port) (w : WardId) (mask : BitVec 8) (s : State) : Result :=
  .next (s.hostWrite p (F.LMPW_CTRL_DLY_FLUSH w.val).off (State.ownVf p w 0x3000) (State.inWord (F.LMPW_CTRL_DLY_FLUSH w.val) mask.toNat (s.keptWord (F.LMPW_CTRL_DLY_FLUSH w.val).off)) true (fun s => s.flushDelays w mask.toNat))
/-- OBS_CLEAR (spec 07 R222). -/
def execObsClear (p : Port) (w : WardId) (s : State) : Result :=
  .next (s.hostWrite p (F.LMPW_CTRL_OBS_CLEAR w.val).off (State.ownVf p w 0x3000) (State.inWord (F.LMPW_CTRL_OBS_CLEAR w.val) 1 (s.keptWord (F.LMPW_CTRL_OBS_CLEAR w.val).off)) true (fun s => s.clearObs w))
/-- TAIL (spec 07, LMP_W_TRACE; R224): bits [4:0] cleared, then modulo the ring size. -/
def execTraceTailWrite (p : Port) (w : WardId) (val : Nat) (s : State) : Result :=
  .next (s.hostWrite p (F.LMPW_TR_TAIL_TAIL w.val).off (State.ownVf p w 0x3048) val true (fun s => s.writeTraceTail w val))
/-- EVT_EDGE (spec 07 R217). -/
def execEvtEdge (pin : Fin 8) (level : Bool) (s : State) : Result := .next (s.pinEdge pin level)
/-- EVT_FILTER_PASS (spec 07 R217): the level has stood for FILTER × 40 ns. -/
def execEvtFilterPass (pin : Fin 8) (s : State) : Result :=
  .next (match (s.pin pin).cand with
    | none => s
    | some (l, _) => s.edgePassed pin l)
/-- EVT_DELIVER (spec 07 R218, R219). -/
def execEvtDeliver (pin : Fin 8) (s : State) : Result := .next (s.deliverEdge pin)
/-- GATE_ENTER (spec 01 R38). -/
def execGateEnter (g : GateId) (i : Nat) (s : State) : Result := .next (s.enterGate g i)
/-- GATE_DELIVER (spec 06 R187). -/
def execGateDeliver (g : GateId) (s : State) : Result := .next (s.leaveGate g)

end Sys2Proof.Machine
end

