-- ==== Sys2Proof/Machine/Traffic.lean ====
section
/-! DEFINITION. Packets of the MSG channel at work: hops, delivery to inboxes and of work records, probes
(spec 06 R177–R193; 07 R205). -/

namespace Sys2Proof.Machine

namespace State

/-- The MSG packet's ward, or its destination tile's ward, is in ward reset (06 R190). -/
def msgDiscards (s : State) (p : Packet) (t : TileId) : Bool :=
  s.resettingWard p.ward || (match s.tileWard t with
    | none => true
    | some w => s.resettingWard w)

/-- The packet at place `i` reaches its tile: a message, or a part of a work record. -/
def deliverMsg (s : State) (i : Nat) : State :=
  match s.arrived i with
  | none => s
  | some p =>
    match p.payload, p.dst with
    | .message m, .tile t =>
      if m.gated && !p.dead then s
      else if p.dead || s.msgDiscards p t then (s.takePkt i).bumpF (F.TIL_AVE_CNT_DISCARD t.val) 1
      else if (s.tile t).inbox.length < 16 then (s.takePkt i).inboxPut t { m with poison := m.poison || p.poison }
      else s
    | .work first, .tile t =>
      let s := s.takePkt i
      if p.dead || (s.tile t).workIn.isNone then s
      else
        let s := s.updTile t (fun tl => { tl with
          workParts := tl.workParts + 1,
          workBad := if p.poison then tl.workBad ||| (if first then 1 else 2) else tl.workBad })
        if (s.tile t).workParts = 2 then s.finishGetwork t else s
    | _, _ => s

/-! ### Probes (06 R192, R193) -/

/-- GO of TIL_AVE_PROBE: the result register clears, an older probe's reflection will be discarded. -/
def sendProbe (s : State) (t : TileId) (val : BitVec 64) : State :=
  let v := val.toNat
  let s := (s.setF (F.TIL_AVE_PROBE_DEST t.val) (bitsN v 0 8)).setF (F.TIL_AVE_PROBE_PATTERN t.val) (bitsN v 16 32)
  if !bitN v 48 then s
  else
    let s := ((((s.setF (F.TIL_AVE_PROBE_RES_RETURNED t.val) 0).setF (F.TIL_AVE_PROBE_RES_TRIP t.val) 0).setF
      (F.TIL_AVE_PROBE_RES_DONE t.val) 0).setF (F.TIL_AVE_PROBE_RES_MISMATCH t.val) 0).setF (F.TIL_AVE_PROBE_RES_POISON t.val) 0
    let s := s.updTile t (fun tl => { tl with probeSerial := tl.probeSerial + 1, probeOut := true })
    s.sendPkt (mkPkt .msg 3 (.tile t) (.tile (Fin.ofNat 256 (bitsN v 0 8))) ((s.tileWard t).getD 0) 8 0 false
      (.probe ⟨BitVec.ofNat 32 (bitsN v 16 32), s.supTime, (s.tile t).probeSerial⟩) noLine)

/-- A probe at its destination crossing: reflected with SRC and DST exchanged once the crossing has a buffer for it
(R179), or absorbed and counted. -/
def probeArrives (s : State) (i : Nat) : State :=
  match s.arrived i with
  | none => s
  | some p =>
    match p.payload, p.dst, p.kind with
    | .probe _, .tile t, 3 =>
      if s.isF (F.TIL_AVE_MIRROR_MIRROR t.val) then
        if s.hasCredit p.dst 8 || p.prev == p.dst then
          (s.takePkt i).sendPkt { p with kind := 4, src := p.dst, dst := p.src, prev := p.dst, cur := p.dst, ward := (s.tileWard t).getD 0 }
        else s
      else (s.takePkt i).bumpF (F.TIL_AVE_MIRROR_ABSORBED t.val) 1
    | _, _, _ => s

/-- A reflected probe is back at its crossing; an older one's reflection is discarded. -/
def probeReturns (s : State) (i : Nat) : State :=
  match s.arrived i with
  | none => s
  | some p =>
    match p.payload, p.dst, p.kind with
    | .probe pr, .tile t, 4 =>
      let s := s.takePkt i
      if (s.tile t).probeOut && pr.serial == (s.tile t).probeSerial then
        let s := s.updTile t (fun tl => { tl with probeOut := false })
        ((((s.setF (F.TIL_AVE_PROBE_RES_RETURNED t.val) pr.pattern.toNat).setF
          (F.TIL_AVE_PROBE_RES_TRIP t.val) (min 0xFFFF (s.supTime - pr.sentAt))).setF
          (F.TIL_AVE_PROBE_RES_DONE t.val) 1).setB
          (F.TIL_AVE_PROBE_RES_MISMATCH t.val) (pr.pattern.toNat != s.getF (F.TIL_AVE_PROBE_PATTERN t.val))).setB
          (F.TIL_AVE_PROBE_RES_POISON t.val) p.poison
      else s
    | _, _, _ => s

/-- One hop; a packet that leaves its sender's own buffer lets a blocked SEND or PUTTOK go on. -/
def advanceAll (s : State) (i : Nat) : State :=
  match s.net[i]? with
  | none => s
  | some p =>
    let s2 := s.advance i
    if p.prev == p.cur && decide (s2.net ≠ s.net) then s2.retrySender p.cur else s2

end State

/-- PACKET_ADVANCE (spec 06 R180). -/
def execPacketAdvance (i : Nat) (s : State) : Result := .next (s.advanceAll i)
/-- MSG_DELIVER (spec 06 R190; 04 R138; 07 R205). -/
def execMsgDeliver (i : Nat) (s : State) : Result := .next (s.deliverMsg i)
/-- GO of TIL_AVE_PROBE (spec 06 R192, R193); S alone writes it. -/
def execProbeGo (p : Port) (t : TileId) (val : BitVec 64) (s : State) : Result :=
  .next (s.hostWrite p (F.TIL_AVE_PROBE_GO t.val).off none val.toNat true (fun s => s.sendProbe t val))
/-- PROBE_ARRIVE (spec 06 R192). -/
def execProbeArrive (i : Nat) (s : State) : Result := .next (s.probeArrives i)
/-- PROBE_RETURN (spec 06 R193). -/
def execProbeReturn (i : Nat) (s : State) : Result := .next (s.probeReturns i)

end Sys2Proof.Machine
end

