-- ==== Sys2Proof/Machine/Coherence.lean ====
section
/-! DEFINITION. Homes, the directory and the host-line filter (spec 12): admission, refusal, snoops, transactions,
evictions, atomics at the home, timeouts and fences. Home 16 is the host-line filter (R347). -/

namespace Sys2Proof.Machine

/-! ### Names -/

/-- The home, or the filter (16), that a ring stop is. -/
def stopHome (n : Node) : Option Nat :=
  match n with
  | .stop n => if 32 ≤ n.val ∧ n.val < 48 then some (n.val - 32) else if n.val = 119 then some 16 else none
  | .tile _ => none

/-- The host as a holder. -/
def hostHolder : Fin 17 := 16
def quarterHolder (q : QuarterId) : Fin 17 := Fin.ofNat 17 q.val

/-- The holder that a request comes from: a quarter, or the host. -/
def Req.holder (r : Req) : Option (Fin 17) :=
  match r.src with
  | .quarter q _ => some (quarterHolder q)
  | .drain q => some (quarterHolder q)
  | .host => some hostHolder
  | _ => none

def DirEntry.holders (d : DirEntry) : List (Fin 17) := (List.finRange 17).filter (fun x => d.pres.getLsbD x.val)
def presOf (l : List (Fin 17)) : BitVec 17 := l.foldl (fun a x => a ||| BitVec.ofNat 17 (2 ^ x.val)) 0

/-- The holder on whose behalf a request comes: a tile's own request is its quarter's (R338). -/
def Req.asker (r : Req) : Option (Fin 17) :=
  match r.src with
  | .tile t => some (quarterHolder (tileQuarter t))
  | _ => r.holder

/-- An entry that a transaction has taken and no cache holds yet (R341). -/
def DirEntry.empty (d : DirEntry) : Bool := d.pres == 0 && !d.excl
/-- The X holder of the entry was fenced (R344). -/
def DirEntry.orphan (d : DirEntry) : Bool := d.pres == 0 && d.excl

/-- The set of a line: of the directory (R322), or of the filter (R347). -/
def dirSetOf (h n : Nat) : Nat :=
  if h < 16 then (lineL n % 8192) ^^^ (lineL n / 8192 % 8192) else (n % 65536) ^^^ (n / 65536 % 65536)

/-- The predictor counter of a line (R338). -/
def predIx (n : Nat) : Nat := (lineL n % 1024) ^^^ (lineL n / 1024 % 1024) ^^^ (lineL n / 1048576 % 1024)

def ReqKind.isRead : ReqKind → Bool
  | .rdS => true
  | .rdX => true
  | .fill => true
  | .rdC => true
  | .hRd => true
  | .atP => true
  | .atFar => true
  | _ => false

def ReqKind.dataFirst : ReqKind → Bool
  | .wrInv => true
  | .hWr => true
  | _ => false

/-- A home takes back the host's copy of a line whose region is wiped: what comes back is discarded (01 R48 step 4;
14 R392). -/
def Txn.recall (t : Txn) : Bool := decide (t.req.kind = .evict) && t.req.src == .host && t.evictFor.isNone

namespace State

def dirGet (s : State) (h n : Nat) : Option DirEntry := (s.homeN h).dir.get none n
def updHome (s : State) (h : Nat) (f : Home → Home) : State := s.setHomeN h (f (s.homeN h))
def dirPut (s : State) (h n : Nat) (d : Option DirEntry) : State := s.updHome h (fun x => { x with dir := x.dir.put none n d })
def dirCount (s : State) (h k : Nat) : State := if h < 16 then s.bumpF (F.HOM_DIR_CNT_VALUE h k) 1 else s
def hlfCount (s : State) (k : Nat) : State := s.bumpF (F.LNK_HLF_CNT_VALUE k) 1

def txnAt (s : State) (h x : Nat) (l : LineAddr) : Option Txn := (s.homeN h).txns.find? (fun t => t.xid == x && decide (t.line = l))
def dropTxn (s : State) (h x : Nat) (l : LineAddr) : State :=
  s.updHome h (fun y => { y with txns := y.txns.filter (fun t => !(t.xid == x && decide (t.line = l))) })
def setTxn (s : State) (h : Nat) (t : Txn) : State :=
  s.updHome h (fun y => { y with txns := y.txns.map (fun u => if u.xid = t.xid ∧ u.line = t.line then t else u) })
def addTxn (s : State) (h : Nat) (t : Txn) : State := s.updHome h (fun y => { y with txns := y.txns ++ [t] })

/-- A line has an active transaction, or takes part in one, or its part is being initialised (R331, R341; 14 R391). -/
def lineActive (s : State) (h : Nat) (l : LineAddr) : Bool :=
  (s.homeN h).txns.any (fun t => decide (t.line = l) || (match t.evictFor with
    | some (_, r) => decide (r.line = l)
    | none => false))
  || (!l.host && (s.homeN h).initing.contains (regionOf l.n))

/-! ### Sending (R321, R344) -/

/-- A response of a home to the source of a request. To a fenced quarter nothing is sent over the ring: the request
completes with poison (R344), and the response stands at the quarter at once. -/
def reply (s : State) (h x : Nat) (r : Req) (k : RspKind) (pl : Payload) (poison : Bool) : State :=
  let src := homeStop h
  let dst := r.src.node src
  let p := mkPkt .rsp k.code src dst (r.ward.getD 0) 0 x poison pl r.line
  if s.fencedDst .rsp dst then { s with net := s.net ++ [{ p with prev := dst, cur := dst, poison := true }] }
  else s.sendPkt p

def snoopKind : SnpKind → SnpKind
  | .inv => .snpInv
  | k => k

/-- A snoop to one holder; to the host as the matching back-invalidate snoop (R324). -/
def sendSnoop (s : State) (h x : Nat) (l : LineAddr) (k : SnpKind) (to_ : Fin 17) : State :=
  if to_ = hostHolder then (s.emit (.biSnp l (snoopKind k))).dirCount h 5
  else
    let src := homeStop h
    s.sendPkt (mkPkt .snp k.code src (quarterStop (Fin.ofNat 16 to_.val) src) 0 0 x false (.lineSnoop l) l)

/-- The answers that complete a request with poison, without the line (R343, R344). -/
def poisonReply (s : State) (h x : Nat) (r : Req) : State :=
  let junk : Payload := .line ⟨BitVec.ofNat 512 s.free.1, true⟩ none
  let s := s.free.2
  match r.kind with
  | .rdS => (s.reply h x r .data junk true).reply h x r .gntS (.empty true) true
  | .rdX => (s.reply h x r .data junk true).reply h x r .gntE (.empty true) true
  | .upg => s.reply h x r .gntX (.empty true) true
  | .own => s.reply h x r .gntX (.empty true) true
  | .fill => s.reply h x r .data junk true
  | .rdC => s.reply h x r .data junk true
  | .hRd => s.reply h x r .data junk true
  | .atP => s.reply h x r .atRes (.oldValue 0 true) true
  | .atFar => s.reply h x r .atRes (.oldValue 0 true) true
  | _ => s.reply h x r .done (.empty true) true

/-- The request comes from a fenced quarter. -/
def fromFenced (s : State) (r : Req) : Bool :=
  match r.src with
  | .quarter q _ => (s.quarter q).fenced
  | .drain q => (s.quarter q).fenced
  | .tile t => (s.quarter (tileQuarter t)).fenced
  | _ => false

/-! ### What a transaction sees and writes -/

/-- The line as an access under seal `w` sees it: memory as read, with the data a snooped holder returned. -/
def viewCur (s : State) (t : Txn) (w : Option WardId) : LineVal :=
  let n := t.line.n
  let mem := fun (w : Option WardId) => match t.rd with
    | some (.stored v) => (⟨s.unsealWith w n v.data, v.poison⟩ : LineVal)
    | _ => ⟨0, false⟩
  let v : LineVal := match t.got with
    | none => mem w
    | some g =>
      let d : LineVal :=
        if g.mask = fullMask then g.v
        else let m := mem g.sealWard; ⟨mergeLine m.data g.v.data g.mask, m.poison || g.v.poison⟩
      if w = g.sealWard then d else ⟨s.unsealWith w n (s.sealWith g.sealWard n d.data), d.poison⟩
  let whole : Bool := t.got.any (fun g => g.mask == fullMask)
  { v with poison := v.poison || (t.poisoned && !whole) || t.keyLost }

/-- The write data of a request merged with the line (R324, R327, R339). -/
def mergeWrite (s : State) (t : Txn) : LineVal :=
  match t.wdata with
  | none => s.viewCur t t.req.sealWard
  | some v =>
    if t.req.mask = fullMask then v
    else let c := s.viewCur t t.req.sealWard; ⟨mergeLine c.data v.data t.req.mask, c.poison || v.poison⟩

/-- The atomic that a transaction performs at its home: old value, whether the line is poisoned, the new line. -/
def homeAtomic (s : State) (t : Txn) : Nat × Bool × LineVal :=
  let c := s.viewCur t t.req.sealWard
  match t.req.at? with
  | none => (0, c.poison, c)
  | some a =>
    let old := lineBytes c.data a.off a.size
    if c.poison then (old, true, c)
    else (old, false, ⟨mergeLine c.data (placeBytes a.off a.size (a.apply old)) (rangeMask a.off a.size), false⟩)



/-- Is a WB or WB_P the write-back of the X holder? -/
def wbLive (s : State) (h : Nat) (r : Req) : Bool :=
  match s.dirGet h r.line.n, r.holder with
  | some d, some q => d.excl && decide (d.pres = presOf [q])
  | _, _ => false

/-- What a transaction writes: the seal and the line; none when memory stays. -/
def writeOf (s : State) (t : Txn) : Option (Option WardId × LineVal) :=
  let back := match t.got with
    | none => none
    | some g => some (g.sealWard, s.viewCur t g.sealWard)
  let lost := some (t.req.sealWard, (⟨s.lineView t.req.sealWard t.line.n, true⟩ : LineVal))
  if t.recall then none
  else if t.doomed then lost
  else if t.evictFor.isSome then (if t.sigDue && back.isNone then lost else back)
  else match t.req.kind with
    | .wrInv => some (t.req.sealWard, s.mergeWrite t)
    | .hWr => some (t.req.sealWard, s.mergeWrite t)
    | .wb => if t.wdata.isSome then some (t.req.sealWard, s.mergeWrite t) else none
    | .wbP => if t.wdata.isSome then some (t.req.sealWard, s.mergeWrite t) else none
    | _ =>
      let back := if t.sigDue && back.isNone then lost else back
      if t.far then
        let a := s.homeAtomic t
        if a.2.1 then back else some (t.req.sealWard, a.2.2)
      else back

/-- A commons line is granted shared (R324; 01 R33). -/
def commonsLine (s : State) (l : LineAddr) : Bool :=
  !l.host && decide (s.plan.commonsBase ≤ l.n * 64) && decide (l.n * 64 < s.plan.commonsBase + s.plan.commonsSize)

/-- The windows of a ward on its own device memory. -/
def wardWins (s : State) (w : WardId) : List Win := (s.sec w).windows.filter (fun x => x.valid && !x.host && !x.commons)
def wardLine (s : State) (w : WardId) (l : LineAddr) : Bool :=
  !l.host && (s.wardWins w).any (fun x => decide (x.target ≤ l.n * 64) && decide (l.n * 64 < x.target + x.size))

/-- From step 2 to step 5 of a ward reset its regions are held from the host and the supervisor (01 R49; DEDUCED, log 49). -/
def heldReset (s : State) (r : Req) : Bool :=
  r.ward.isNone && r.src.quarter?.isNone &&
    (List.finRange 8).any (fun w => s.resettingWard w && s.wardStep.get 0 w.val == 3 && s.wardLine w r.line)

/-- Some request waits for the line at its home. -/
def lineWaited (s : State) (h : Nat) (l : LineAddr) : Bool := (s.homeN h).refused.any (fun e => decide (e.2.line = l) && !s.heldReset e.2)

def fencedHolder (s : State) (q : Fin 17) : Bool := decide (q ≠ hostHolder) && (s.quarter (Fin.ofNat 16 q.val)).fenced

/-- The directory entry after a transaction, from the one before it (R324, R325). -/
def dirAfter (s : State) (h : Nat) (t : Txn) (poison : Bool) : Option DirEntry :=
  let d := s.dirGet h t.line.n
  let use := (d.map (·.lastUse)).getD (s.homeN h).useCtr
  let mk := fun (l : List (Fin 17)) (excl : Bool) =>
    let l := l.filter (fun q => !s.fencedHolder q)
    if l.isEmpty then none else some (⟨presOf l, excl, poison, use⟩ : DirEntry)
  let self := t.req.holder.toList
  let hs := (d.map (·.holders)).getD []
  let rest := hs.filter (fun x => decide (some x ≠ t.req.holder))
  let excl := (d.map (·.excl)).getD false
  let other := excl && decide (t.holder.isSome) && decide (t.holder ≠ t.req.holder)
  let keep := fun (_ : Unit) => (d.filter (fun e => !e.empty)).map (fun e => { e with poison := poison })
  let shared := fun (_ : Unit) =>
    if hs.isEmpty || (excl && !other) then none
    else if other then mk ((if t.kept then rest else []) ++ self) false
    else mk (rest ++ self) false
  match t.req.kind with
  | .rdS => match shared () with
    | some e => some e
    | none => mk self (!s.commonsLine t.line)
  | .rdX => mk self true
  | .upg => mk self true
  | .own => mk self true
  | .fill => keep ()
  | .rdC => keep ()
  | .wb => if t.wdata.isSome then none else keep ()
  | .wbP => if t.wdata.isSome then none else keep ()
  | .evict => if excl then (if hs = self then none else keep ()) else mk rest false
  | .wrInv => none
  | .atP => if t.far then none else mk self true
  | .atFar => none
  | .hRd => match t.req.mv with
    | .i => keep ()
    | .s => match shared () with
      | some e => some e
      | none => mk self false
    | .a => mk self true
  | .hWr => match t.req.mv with
    | .i => none
    | .s => mk [hostHolder] false
    | .a => mk [hostHolder] true

/-- The answers that end a transaction (R324, R337; DEDUCED, log 27). -/
def answer (s : State) (h : Nat) (t : Txn) : State :=
  let r := t.req
  let x := t.xid
  let v := s.viewCur t r.sealWard
  let data := fun (s : State) => s.reply h x r .data (.line v r.sealWard) v.poison
  match r.kind with
  | .rdS =>
    let free : Bool := match s.dirGet h t.line.n with
      | none => true
      | some d => d.empty || (d.excl && decide (t.holder = r.holder))
    let k : RspKind := if free && !s.commonsLine t.line then .gntE else .gntS
    (data s).reply h x r k (.empty false) false
  | .rdX => (data s).reply h x r .gntE (.empty false) false
  | .upg => s.reply h x r .gntX (.empty false) false
  | .own => s.reply h x r .gntX (.empty false) false
  | .fill => data s
  | .rdC => data s
  | .hRd => data s
  | .atP =>
    if t.far then let a := s.homeAtomic t; s.reply h x r .atRes (.oldValue (BitVec.ofNat 64 a.1) a.2.1) a.2.1
    else (data s).reply h x r .gntE (.empty false) false
  | .atFar => let a := s.homeAtomic t; s.reply h x r .atRes (.oldValue (BitVec.ofNat 64 a.1) a.2.1) a.2.1
  | _ => s.reply h x r .done (.empty false) false

/-! ### The host's side of the filter (R348–R351) -/

/-- The filter asks the host; in viral no dirty line leaves (16 R443; DEDUCED, log 60). -/
def askHost (s : State) (t : Txn) (op : D2HOp) (v : Option LineVal) : State :=
  let s := s.setTxn 16 { t with phase := .host op }
  if s.link.viral && decide (op = .dirtyEvict) then s else (s.emit (.d2h t.line op v)).hlfCount 2

/-- Answer a snoop of the host (R350). -/
def answerHost (s : State) (t : Txn) (k : SnpKind) (lost : Bool) : State :=
  let v := s.viewCur t none
  let dirty := t.got.isSome || lost
  let v := if lost then { v with poison := true } else v
  match k with
  | .snpS => s.emit (.hostRsp t.line (if dirty then "RspSFwdM" else "RspSHitSE") (if dirty then some v else none))
  | .snpCur => s.emit (.hostRsp t.line "RspVFwdV" (some v))
  | _ => s.emit (.hostRsp t.line (if dirty then "RspIFwdM" else "RspIHitSE") (if dirty then some v else none))

/-- The filter's atomic buffers in use (R349). -/
def atomicBufs (s : State) : Nat := ((s.homeN 16).txns.filter (fun t => t.far)).length

/-! ### The end of a transaction (R334) -/

/-- The line's waiting requests are called: GO to each that has not been called (R334). -/
def callWaiting (s : State) (h : Nat) (l : LineAddr) : State :=
  (s.homeN h).refused.foldl (fun s e =>
    if e.2.line = l ∧ !e.2.called ∧ !e.2.arrived then
      let r := { e.2 with called := true }
      (s.updHome h (fun y => { y with refused := y.refused.map (fun z => if z.1 = e.1 ∧ z.2.line = l then (z.1, r) else z) })).reply h e.1 r .go (.request r) false
    else s) s

/-- The request of a line that was refused first (R334; DEDUCED, log 26). -/
def firstWaiting (s : State) (h : Nat) (l : LineAddr) : Option (Nat × Req) :=
  ((s.homeN h).refused.filter (fun e => decide (e.2.line = l) && !s.heldReset e.2)).foldl (fun b e =>
    match b with
    | none => some e
    | some c => if e.2.refusedAt.getD 0 < c.2.refusedAt.getD 0 then some e else b) none

/-- The home's own count of admissions and refusals moves on (DEDUCED, log 26). -/
def nextUse (s : State) (h : Nat) : State := s.updHome h (fun y => { y with useCtr := y.useCtr + 1 })

/-- The holders that a request makes the home snoop, and how (R324–R326, R336; DEDUCED, log 28). -/
def snoopsFor (s : State) (h : Nat) (r : Req) (far : Bool) : Option SnpKind × List (Fin 17) :=
  match s.dirGet h r.line.n with
  | none => (none, [])
  | some d =>
    let hs := d.holders
    let others := hs.filter (fun x => decide (some x ≠ r.holder))
    if hs.isEmpty then (none, [])
    else if d.excl then
      let own : Bool := others.isEmpty
      let quarterOwn : Bool := own && decide (r.holder ≠ some hostHolder)
      match r.kind with
      | .wb => (none, [])
      | .wbP => (none, [])
      | .evict => (none, [])
      | .fill => if own then (none, []) else (some .snpCur, hs)
      | .rdC => if quarterOwn then (some .snpInv, hs) else if own then (none, []) else (some .snpCur, hs)
      | .rdS => if quarterOwn then (some .snpInv, hs) else if own then (none, []) else (some .snpS, hs)
      | .hRd => if own then (none, []) else (some (match r.mv with
          | .i => .snpCur
          | .s => .snpS
          | .a => .snpInv), hs)
      | .hWr => if own then (none, []) else (some .snpInv, hs)
      | _ => (some .snpInv, hs)
    else
      let l := match r.kind with
        | .rdX => others
        | .upg => others
        | .own => others
        | .atP => if far then hs else others
        | .atFar => hs
        | .wrInv => hs
        | .hWr => others
        | .hRd => if r.mv = .a then others else []
        | _ => []
      if l.isEmpty then (none, []) else (some .inv, l)

/-- Must the transaction read the line before it can end? -/
def needsLine (t : Txn) : Bool :=
  let partialGot := match t.got with
    | none => false
    | some g => g.mask != fullMask
  let noGot := t.got.isNone
  if t.evictFor.isSome then partialGot
  else match t.req.kind with
    | .upg => partialGot
    | .own => partialGot
    | .evict => false
    | .wb => t.wdata.isSome && t.req.mask != fullMask
    | .wbP => t.wdata.isSome && t.req.mask != fullMask
    | .wrInv => t.req.mask != fullMask && (noGot || partialGot)
    | .hWr => t.req.mask != fullMask && (noGot || partialGot)
    | _ => noGot || partialGot

/-- New transactions: which entry a request needs when it ends (R341). -/
def needsEntry (r : Req) : Bool :=
  match r.kind with
  | .rdS => true
  | .rdX => true
  | .upg => true
  | .own => true
  | .atP => true
  | .hRd => decide (r.mv ≠ .i)
  | .hWr => decide (r.mv ≠ .i)
  | _ => false

/-- The victim of a full set: the least recently used entry whose line has no active transaction; `none` inside
means that every entry is busy. -/
def dirVictim (s : State) (h n : Nat) : Option (Option Nat) :=
  let cells := (s.homeN h).dir.cells.filter (fun c => dirSetOf h c.1 == dirSetOf h n)
  if cells.length < 16 || cells.any (fun c => c.1 == n) then none
  else some (((cells.filter (fun c => !(s.homeN h).txns.any (fun t => t.line.n == c.1))).foldl (fun (b : Option (Nat × Nat)) c =>
    let u := (c.2.map (·.lastUse)).getD 0
    match b with
    | none => some (c.1, u)
    | some (_, v) => if u < v then some (c.1, u) else b) none).map (·.1))

def Txn.start (x : Nat) (r : Req) (l : LineAddr) : Txn :=
  { xid := x, req := r, line := l, phase := .dram, holder := none, got := none, rd := none, wdata := none, kept := false,
    poisoned := false, keyLost := false, sigDue := false, doomed := false, far := false, evictFor := none, hostSnoop := none, applied := none }

/-- Carry out the write of a transaction that ends; `false` when the part must first be initialised. -/
def finishWrite (s : State) (h : Nat) (t : Txn) : Bool × State :=
  match s.writeOf t with
  | none => (true, s)
  | some (w, v) =>
    if 16 ≤ h then (true, s)
    else if s.partInit t.line.n then (true, s.writeDram t.line.n (s.sealWith w t.line.n v.data) v.poison)
    else (false, s)

/-- The request can take its transaction now: the table, the line's set and the filter's atomic buffers have room
(R330, R341, R349). -/
def enterable (s : State) (h : Nat) (r : Req) : Bool :=
  decide ((s.homeN h).txns.length < 1024) && !(needsEntry r && s.dirVictim h r.line.n == some none)
    && !(h == 16 && decide (r.kind = .atFar) && decide (16 ≤ s.atomicBufs))

/-- An admission is a use of the line's entry; a request that needs one takes it now (R341). -/
def takeDir (s : State) (h : Nat) (r : Req) : State :=
  let use := (s.homeN h).useCtr
  match s.dirGet h r.line.n with
  | some d => s.dirPut h r.line.n (some { d with lastUse := use })
  | none => if needsEntry r then s.dirPut h r.line.n (some ⟨0, false, false, use⟩) else s

/-- A line that the filter can only return as lost. -/
def lostLine (s : State) : LineVal × State :=
  let (f, s) := s.free
  (⟨BitVec.ofNat 512 f, true⟩, s)

/-- A transaction ends with poison after a holder or a sender stayed silent, or was fenced (R343 step 2, R344–R346):
its answers, and its entry. A write-back's entry stays, poisoned (11 R314). -/
def poisonEnd (s : State) (h : Nat) (t : Txn) : State :=
  let d := (s.dirAfter h { t with kept := false } true).filter (fun d => d.pres != 0)
  let d := if t.req.kind = .rdS then d.map (fun d => { d with excl := false }) else d
  ((s.poisonReply h t.xid t.req).dirPut h t.line.n d).dropTxn h t.xid t.line

/-- The poison of the entry after the transaction (R327). -/
def poisonAfter (s : State) (t : Txn) : Bool :=
  match s.writeOf t with
  | some (_, v) => v.poison
  | none => t.poisoned || (match t.rd with
      | some (.stored v) => v.poison
      | _ => false)

mutual

/-- Admit a request (R324, R330, R338, R341). -/
def admitTxn (s : State) (h x : Nat) (r : Req) (wd : Option LineVal) (fuel : Nat) : State :=
  match fuel with
  | 0 => s
  | fuel + 1 =>
    let s := (s.dirCount h 0).nextUse h
    let n := r.line.n
    let isAt : Bool := decide (r.kind = .atP) || decide (r.kind = .atFar)
    let d := s.dirGet h n
    let contended := (d.map (fun d => d.holders.any (fun q => decide (some q ≠ r.asker)))).getD false || r.refusedAt.isSome
    let ctr := (s.homeN h).pred.get 1 (predIx n)
    let far := decide (r.kind = .atFar) || (decide (r.kind = .atP) && decide (2 ≤ ctr.toNat))
    let s := if isAt && h < 16 then
        s.updHome h (fun y => { y with pred := y.pred.put 1 (predIx n) (if contended then (if ctr = 3 then 3 else ctr + 1) else (if ctr = 0 then 0 else ctr - 1)) })
      else s
    let s := if isAt && h < 16 then s.dirCount h (if far then 6 else 7) else s
    let s := s.takeDir h r
    let (k, to_) := s.snoopsFor h r far
    let holder := match d with
      | some e => if e.excl then e.holders.head? else none
      | none => none
    let t := { Txn.start x r r.line with
      far := far, wdata := wd, holder := holder, poisoned := (d.map (·.poison)).getD false && !(r.kind.dataFirst && r.mask == fullMask) }
    -- an X entry whose holder was fenced: the line is lost (R344)
    if d.any (·.orphan) then
      let t := { t with doomed := true }
      (s.addTxn h t).finish h t fuel
    else
    match k with
    | some k =>
      let s := s.addTxn h { t with phase := .snoop to_ }
      to_.foldl (fun s q => s.sendSnoop h x r.line k q) s
    | none => (s.addTxn h t).next h t fuel
termination_by structural fuel

/-- The next stage of a transaction whose snoops are answered. -/
def next (s : State) (h : Nat) (t : Txn) (fuel : Nat) : State :=
  match fuel with
  | 0 => s
  | fuel + 1 =>
    let isWb : Bool := decide (t.req.kind = .wb) || decide (t.req.kind = .wbP)
    if t.evictFor.isNone && t.hostSnoop.isNone && isWb && t.wdata.isNone && s.wbLive h t.req then
      (s.setTxn h { t with phase := .writeData }).reply h t.xid t.req .wgo (.empty false) false
    else if h < 16 then
      if needsLine t && t.rd.isNone then
        if t.poisoned then
          let (f, s) := s.free
          let t := { t with rd := some (.stored ⟨BitVec.ofNat 512 f, true⟩) }
          (s.setTxn h t).finish h t fuel
        else if !s.partInit t.line.n then
          let t := { t with rd := some .zeros }
          (s.setTxn h t).finish h t fuel
        else s.setTxn h { t with phase := .dram }
      else s.finish h t fuel
    else
      -- the filter
      let partialGot := match t.got with
        | none => false
        | some g => g.mask != fullMask
      let curLine := s.viewCur t none
      if partialGot && t.rd.isNone then s.askHost t .rdCurr none
      else if t.hostSnoop == some .snpCur && t.got.isNone && t.rd.isNone && !t.poisoned then s.askHost t .rdCurr none
      else if t.hostSnoop.isSome then s.finish h t fuel
      else if t.evictFor.isSome then
        if t.got.isSome then s.askHost t .dirtyEvict (some curLine) else s.askHost t .cleanEvict none
      else if isWb then
        if t.wdata.isNone then s.finish h t fuel
        else if t.req.mask != fullMask && t.rd.isNone then s.askHost t .rdCurr none
        else s.askHost t .dirtyEvict (some (s.mergeWrite t))
      else match t.req.kind with
        | .atFar =>
          if t.got.isNone && t.rd.isNone then s.askHost t .rdOwn none
          else s.setTxn h { t with phase := .dram }
        | .evict =>
          if (s.dirGet h t.line.n).any (fun d => match t.req.holder with
            | some q => d.pres.getLsbD q.val
            | none => false) then s.askHost t .cleanEvict none
          else s.finish h t fuel
        | k =>
          if t.got.isSome && decide (k ≠ .fill) then s.askHost t .dirtyEvict (some curLine)
          else if t.rd.isSome then s.finish h t fuel
          else match k with
            | .rdS => s.askHost t .rdShared none
            | .rdX => s.askHost t .rdOwn none
            | .upg => s.askHost t .rdOwnNoData none
            | .own => s.askHost t .rdOwnNoData none
            | .fill => if t.got.isSome then s.finish h t fuel else s.askHost t .rdCurr none
            | _ => s.finish h t fuel
termination_by structural fuel

/-- A transaction ends: its write, its answers, its directory entry, and the line's waiting requests. -/
def finish (s : State) (h : Nat) (t : Txn) (fuel : Nat) : State :=
  match fuel with
  | 0 => s
  | fuel + 1 =>
    match s.finishWrite h t with
    | (false, s) =>
      let s := s.setTxn h { t with phase := .initPart }
      if (s.homeN h).initing.length < 4 && !(s.homeN h).initing.contains (regionOf t.line.n) then
        s.updHome h (fun y => { y with initing := y.initing ++ [regionOf t.line.n] })
      else s
    | (true, s) => s.conclude h t fuel
termination_by structural fuel

/-- The part of a transaction's end that follows its write. -/
def conclude (s : State) (h : Nat) (t : Txn) (fuel : Nat) : State :=
  match fuel with
  | 0 => s
  | fuel + 1 =>
    match t.hostSnoop with
    | some k =>
      let s := s.answerHost t k (t.poisoned || t.doomed)
      let s := if t.doomed then s.dirPut h t.line.n none else match k with
        | .snpCur => s
        | .snpS => match t.holder with
          | some q => s.dirPut h t.line.n (if t.kept then some ⟨presOf [q], false, false, (s.homeN h).useCtr⟩ else none)
          | none => s
        | _ => s.dirPut h t.line.n none
      (s.dropTxn h t.xid t.line).pump h t.line fuel
    | none =>
      match t.evictFor with
      | some (x, r) =>
        let s := (s.dirPut h t.line.n none).dropTxn h t.xid t.line
        (s.admitTxn h x r t.wdata fuel).pump h t.line fuel
      | none =>
        if t.recall then ((s.dirPut h t.line.n none).dropTxn h t.xid t.line).pump h t.line fuel
        else if t.doomed then (s.poisonEnd h t).pump h t.line fuel
        else
        let pa := s.poisonAfter t
        let d := s.dirAfter h t pa
        ((s.answer h t).dirPut h t.line.n d |>.dropTxn h t.xid t.line).pump h t.line fuel
termination_by structural fuel

/-- Serve the line's waiting requests after a transaction (R334). -/
def pump (s : State) (h : Nat) (l : LineAddr) (fuel : Nat) : State :=
  match fuel with
  | 0 => s
  | fuel + 1 =>
    let s := s.callWaiting h l
    if s.lineActive h l then s
    else match s.firstWaiting h l with
      | none => s
      | some (x, r) =>
        if r.arrived && s.enterable h r then
          let wd := ((s.homeN h).wbufs.find? (fun b => b.xid == x && decide (b.req.line = l))).bind (·.data)
          let s := s.updHome h (fun y => { y with
            refused := y.refused.filter (fun e => !(e.1 == x && decide (e.2.line = l))),
            wbufs := y.wbufs.filter (fun b => !(b.xid == x && decide (b.req.line = l))) })
          s.enter h x r wd fuel
        else s
termination_by structural fuel

/-- A request takes its transaction, after the eviction of a victim when it needs an entry and its set is full. -/
def enter (s : State) (h x : Nat) (r : Req) (wd : Option LineVal) (fuel : Nat) : State :=
  match fuel with
  | 0 => s
  | fuel + 1 =>
    match (if needsEntry r then s.dirVictim h r.line.n else none) with
    | some (some v) =>
      match s.dirGet h v with
      | none => s.admitTxn h x r wd fuel
      | some d =>
        let l : LineAddr := ⟨r.line.host, v⟩
        let s := s.dirCount h 4
        let s := if h = 16 then s.hlfCount 3 else s
        let hs := d.holders
        let t := { Txn.start x { Req.make .evict l r.src r.ward false with mv := r.mv } l with
          phase := .snoop hs, evictFor := some (x, r), wdata := wd, holder := if d.excl then hs.head? else none, poisoned := d.poison,
          sigDue := d.orphan && h < 16 }
        -- the X holder was fenced: the host gets the line back poisoned (R344, R351)
        let (t, s) := if d.orphan && decide (16 ≤ h) then
            let (v, s) := s.lostLine
            ({ t with got := some ⟨fullMask, v, none⟩ }, s)
          else (t, s)
        let s := s.addTxn h t
        if hs.isEmpty then s.next h t fuel
        else hs.foldl (fun s q => s.sendSnoop h x l (if d.excl then .snpInv else .inv) q) s
    | _ => s.admitTxn h x r wd fuel
termination_by structural fuel

end

/-- Enough stages for one transaction and every request that waits at its home. -/
def homeFuel (s : State) (h : Nat) : Nat := 16 + 8 * (s.homeN h).refused.length

/-- Requests that waited for room and not for their line are admitted (R330, R341). -/
def sweep (s : State) (h : Nat) : State :=
  (s.homeN h).refused.foldl (fun s e => if s.lineActive h e.2.line then s else s.pump h e.2.line (s.homeFuel h)) s

/-- A transaction goes on to its next stage. -/
def goOn (s : State) (h : Nat) (t : Txn) : State := (s.next h t (s.homeFuel h)).sweep h
/-- A transaction ends. -/
def wrapUp (s : State) (h : Nat) (t : Txn) : State := (s.finish h t (s.homeFuel h)).sweep h
/-- A transaction ends with poison: the signature is written first (R343). -/
def doom (s : State) (h : Nat) (t : Txn) : State :=
  let t := { t with doomed := true, got := none, rd := none }
  (s.setTxn h t).wrapUp h t
/-- The waiting requests of a line that is not active are served. -/
def serve (s : State) (h : Nat) (l : LineAddr) : State :=
  if s.lineActive h l then s else s.pump h l (s.homeFuel h)

end State
end Sys2Proof.Machine
end

