-- ==== Sys2Proof/Machine/HomeCmds.lean ====
section
/-! DEFINITION. The commands of homes and of the host-line filter (spec 12): the REQ kinds, the snoop answers,
write data, memory reads, initialisation of a part, timeouts, and the host's side. -/

namespace Sys2Proof.Machine

namespace State

/-! ### Refusal (R331–R334) -/

def reqNode (s : State) (h x : Nat) (r : Req) (k : RspKind) (r2 : Req) : State := s.reply h x r k (.request r2) false

/-- Refuse a request of the packet at place `i`; with a full promoted queue it stays in its channel (R333). -/
def refuse (s : State) (i h x : Nat) (r : Req) : State :=
  let st := r.refusedAt.getD (s.homeN h).useCtr
  let r := { r with refusedAt := some st }
  let wait := fun (s : State) (r : Req) => s.updHome h (fun y => { y with refused := y.refused ++ [(x, r)] })
  let s1 := s.nextUse h
  if r.src = .host then
    if r.kind = .hWr then
      ((wait ((s1.takePkt i).updHome h (fun y => { y with wbufs := y.wbufs ++ [⟨x, r, none⟩] })) { r with called := true })).reply h x r .wgo (.empty false) false
    else wait (s1.takePkt i) { r with called := true, arrived := true }
  else if r.src.quarter?.isSome && decide (r.kind ≠ .atFar) then
    let s1 := if h = 16 then s1.hlfCount 4 else s1.dirCount h 1
    let slot := (s.homeN h).refused.all (fun e => e.2.src.quarter? != r.src.quarter? || decide (e.2.kind = .atFar) || decide (e.2.line = r.line))
    if slot then (wait (s1.takePkt i) r).reqNode h x r .retry r
    else (s1.takePkt i).reqNode h x r .retry { r with arrived := true }
  else
    let n := r.nacks + 1
    if n < 8 then ((s1.takePkt i).dirCount h 2).reqNode h x r .nack { r with nacks := n, arrived := true }
    else if ((s.homeN h).refused.filter (fun e => decide (8 ≤ e.2.nacks))).length < 16 then
      let r := { r with nacks := 8 }
      (wait (((s1.takePkt i).dirCount h 2).dirCount h 3) r).reqNode h x r .nack r
    else s

/-- A request to a region of a ward that is reset waits in its home until step 5 (01 R49); a write sends its data. -/
def holdReset (s : State) (h x : Nat) (r : Req) : State :=
  let st := r.refusedAt.getD (s.homeN h).useCtr
  let r := { r with refusedAt := some st, called := true, arrived := !r.kind.dataFirst }
  let s := (s.nextUse h).updHome h (fun y => { y with refused := y.refused ++ [(x, r)] })
  if r.kind.dataFirst then (s.updHome h (fun y => { y with wbufs := y.wbufs ++ [⟨x, r, none⟩] })).reply h x r .wgo (.empty false) false
  else s

/-! ### Requests (R324, R330, R339) -/

/-- The home has asked the host for its copy of the line: a host write now brings the dirty data (R352; DEDUCED, log 43). -/
def hostCopyAsked (s : State) (h : Nat) (l : LineAddr) : Bool :=
  (s.homeN h).txns.any (fun t => decide (t.line = l) && (match t.phase with
    | .snoop left => left.contains hostHolder
    | _ => false))

/-- A request packet reaches its home or the filter. -/
def takeRequest (s : State) (i : Nat) (k : ReqKind) : State :=
  match s.arrived i with
  | none => s
  | some p =>
    match p.payload, stopHome p.dst with
    | .request r, some h =>
      let x := p.xid
      if r.kind ≠ k then s
      else if s.fromFenced r then (s.takePkt i).poisonReply h x r
      else if p.poison && r.at?.isSome then
        -- a poisoned operand is consumed here (06 R188): answered as on a poisoned line
        (((s.takePkt i).updHome h (fun y => { y with refused := y.refused.filter (fun e => !(e.1 == x && decide (e.2.line = r.line))) })).poisonReply h x r).serve h r.line
      else if r.kind = .hWr ∧ s.hostCopyAsked h r.line then
        ((s.takePkt i).updHome h (fun y => { y with wbufs := y.wbufs ++ [⟨x, r, none⟩] })).reply h x r .wgo (.empty false) false
      else if r.called && (s.homeN h).refused.any (fun e => e.1 == x && decide (e.2.line = r.line)) then
        if r.kind.dataFirst then
          ((s.takePkt i).updHome h (fun y => { y with wbufs := y.wbufs ++ [⟨x, r, none⟩] })).reply h x r .wgo (.empty false) false
        else if !s.enterable h r then s
        else
          ((s.takePkt i).updHome h (fun y => { y with refused := y.refused.map (fun e => if e.1 = x ∧ e.2.line = r.line then (x, { e.2 with arrived := true }) else e) })).serve h r.line
      else if s.heldReset r then (s.takePkt i).holdReset h x r
      else if !s.enterable h r then s
      else if s.lineActive h r.line || s.lineWaited h r.line then s.refuse i h x r
      else if r.kind.dataFirst then
        ((s.takePkt i).updHome h (fun y => { y with wbufs := y.wbufs ++ [⟨x, r, none⟩] })).reply h x r .wgo (.empty false) false
      else (s.takePkt i).enter h x r none (s.homeFuel h)
    | _, _ => s

/-! ### Write data (R339) -/

/-- The write's buffer leaves its home without effect (R339, R346). -/
def dropWbuf (s : State) (h x : Nat) (l : LineAddr) : State :=
  s.updHome h (fun y => { y with
    wbufs := y.wbufs.filter (fun z => !(z.xid == x && decide (z.req.line = l)))
    refused := y.refused.filter (fun e => !(e.1 == x && decide (e.2.line = l))) })

/-- The host's dirty data for a snoop joins the transaction that asked, which writes it before it ends (R352). -/
def hostData (s : State) (h : Nat) (l : LineAddr) (m : Mask64) (v : LineVal) : State :=
  s.updHome h (fun y => { y with txns := y.txns.map (fun t =>
    if t.line = l ∧ t.evictFor.all (fun e => e.2.line ≠ l) then { t with got := some ⟨m, v, none⟩ } else t) })

/-- All 64 data bytes of a write are in the home's buffer, which always takes them (06 R181): the write is admitted, or
waits for its turn. A write whose sender was reset meanwhile is dropped (13 R367). -/
def takeWriteData (s : State) (i : Nat) : State :=
  match s.arrived i with
  | none => s
  | some p =>
    match p.payload, stopHome p.dst with
    | .line v _, some h =>
      let x := p.xid
      let l := p.about
      let v : LineVal := { v with poison := v.poison || p.poison }
      let awaited := fun (t : Txn) => decide (t.phase = TxnPhase.writeData)
      if p.chan ≠ .rsp then s
      else match (s.txnAt h x l).filter awaited with
        | some t =>
          let t := { t with wdata := some v }
          ((s.takePkt i).setTxn h t).goOn h t
        | none =>
          match (s.homeN h).wbufs.find? (fun b => b.xid == x && decide (b.req.line = l) && b.data.isNone) with
          | none => if (stopQuarter p.src).isSome then s else s.takePkt i
          | some b =>
            let s := s.takePkt i
            if (s.entry x).any (fun e => e.aborted && decide (e.req.line = l)) then
              ((s.dropWbuf h x l).reply h x b.req .done (.empty true) true).serve h l
            else if b.req.kind = .hWr ∧ s.hostCopyAsked h l then
              ((s.dropWbuf h x l).hostData h l b.req.mask v).reply h x b.req .done (.empty false) false
            else
              let s := s.updHome h (fun y => { y with wbufs := y.wbufs.map (fun z => if z = b then { b with data := some v } else z) })
              if (s.homeN h).refused.any (fun e => e.1 == x && decide (e.2.line = l)) then
                (s.updHome h (fun y => { y with refused := y.refused.map (fun e => if e.1 = x ∧ e.2.line = l then (x, { e.2 with arrived := true }) else e) })).serve h l
              else if s.lineActive h l || s.lineWaited h l || !s.enterable h b.req then
                let r := { b.req with refusedAt := some (s.homeN h).useCtr, called := true, arrived := true }
                (s.nextUse h).updHome h (fun y => { y with refused := y.refused ++ [(x, r)] })
              else
                ((s.updHome h (fun y => { y with wbufs := y.wbufs.filter (fun z => !(z.xid == x && decide (z.req.line = l))) })).enter h x b.req (some v) (s.homeFuel h)).sweep h
    | _, _ => s

/-! ### Snoop answers (R326, R328) -/

/-- What a holder has answered. -/
inductive SnpAns where
  | ack
  | ackS
  | mask (m : Mask64)
  | data (v : LineVal) (w : Option WardId)
  | lost

/-- A holder's answer to a transaction: the transaction goes on when it was the last. -/
def snoopAnswer (s : State) (h : Nat) (t : Txn) (q : Fin 17) (a : SnpAns) : State :=
  match t.phase with
  | .snoop left =>
    let done := left.erase q
    let go := fun (s : State) (t : Txn) =>
      let t := { t with phase := .snoop done }
      let s := s.setTxn h t
      if done.isEmpty then s.goOn h t else s
    match a with
    | .ack => go s t
    | .ackS => go s { t with kept := true }
    | .mask m => s.setTxn h { t with got := some ⟨m, ⟨0, false⟩, none⟩ }
    | .data v w =>
      let m := match t.got with
        | some g => g.mask
        | none => fullMask
      go s { t with got := some ⟨m, v, w⟩, kept := t.got.isNone }
    | .lost =>
      let excl := ((s.dirGet h t.line.n).map (·.excl)).getD false
      if excl then
        let s := if t.holder = t.req.holder ∧ t.evictFor.isNone then
            s.dirPut h t.line.n ((s.dirGet h t.line.n).map (fun d => { d with pres := 0, excl := false })) else s
        go s { t with poisoned := true, sigDue := decide (h < 16) }
      else go s t
  | _ => s

/-- A snoop answer reaches its home; a late one is discarded. -/
def takeAnswer (s : State) (i : Nat) (kind : RspKind) : State :=
  match s.arrived i with
  | none => s
  | some p =>
    match stopHome p.dst, stopQuarter p.src with
    | some h, some q =>
      if p.chan ≠ .rsp ∨ p.kind ≠ kind.code then s
      else
        let x := p.xid
        let qh := quarterHolder q
        let t? := (s.homeN h).txns.find? (fun t => t.xid == x && decide (t.line = p.about) && (match t.phase with
          | .snoop left => left.contains qh
          | _ => false))
        match t? with
        | none =>
          -- write data is taken by WRITE_DATA_ARRIVE; anything else is late
          let awaited := (s.txnAt h x p.about).any (fun t => decide (t.phase = TxnPhase.writeData))
            || (s.homeN h).wbufs.any (fun b => b.xid == x && decide (b.req.line = p.about))
          if awaited then s else s.takePkt i
        | some t =>
          let s := s.takePkt i
          match p.payload with
          | .mask m => s.snoopAnswer h t qh (.mask m)
          | .line v w => s.snoopAnswer h t qh (.data { v with poison := v.poison || p.poison } w)
          | _ => match kind with
            | .ackS => s.snoopAnswer h t qh .ackS
            | .lost => s.snoopAnswer h t qh .lost
            | _ => s.snoopAnswer h t qh .ack
    | _, _ => s

/-! ### Memory (14 R381, R387, R390, R391, R393) -/

def dramDone (s : State) (h : HomeId) (x : Nat) (err : DramErr) : State :=
  match (s.homeN h.val).txns.find? (fun t => t.xid == x && decide (t.phase = TxnPhase.dram)) with
  | none => s
  | some t =>
    let n := t.line.n
    let s := if err.bitmapBad then s.bitmapFault h.val n else s
    let s := match err.keyBad with
      | some w => s.keyFault h.val n w
      | none => s
    let lost := err.keyBad.isSome && err.keyBad == t.req.sealWard
    let (v, s) := s.readDram n err.masks t.req.ward false
    let t := { t with rd := some (.stored v), keyLost := lost }
    (s.setTxn h.val t).wrapUp h.val t

/-- The transactions of a home that wait for a part's initialisation. -/
def initTxns (s : State) (h r : Nat) : List Txn :=
  (s.homeN h).txns.filter (fun t => decide (t.phase = TxnPhase.initPart) && regionOf t.line.n == r)

/-- Initialisations that can start now. -/
def startInits (s : State) (h : Nat) : State :=
  (s.homeN h).txns.foldl (fun s t =>
    let r := regionOf t.line.n
    if t.phase = TxnPhase.initPart ∧ (s.homeN h).initing.length < 4 ∧ !(s.homeN h).initing.contains r then
      s.updHome h (fun y => { y with initing := y.initing ++ [r] })
    else s) s

def pumpRegion (s : State) (h r : Nat) : State :=
  (s.homeN h).refused.foldl (fun s e => if regionOf e.2.line.n = r ∧ !e.2.line.host then s.pump h e.2.line (s.homeFuel h) else s) s

/-- The home has written its part of a region (R391). -/
def initDone (s : State) (h : HomeId) (r : Nat) : State :=
  if !(s.homeN h.val).initing.contains r then s
  else
    let s0 := s.updHome h.val (fun y => { y with initing := y.initing.erase r })
    match s.initTxns h.val r with
    | [] => s0.startInits h.val
    | t :: rest =>
      let s := match s0.writeOf t with
        | none => s0.conclude h.val t (s0.homeFuel h.val)
        | some (w, v) =>
          let n := t.line.n
          (s0.initPart h.val r w n ⟨s0.sealWith w n v.data, v.poison⟩).conclude h.val t (s0.homeFuel h.val)
      let s := rest.foldl (fun s t => s.finish h.val t (s.homeFuel h.val)) s
      ((s.pumpRegion h.val r).startInits h.val).sweep h.val

/-! ### Timeouts and fences (R342–R346; 11 R314) -/

/-- The timers stand still (19 R514, HOMETO). -/
def timersFrozen (s : State) : Bool := s.lantern.freezeNow.getLsbD 0 && !s.lantern.halts.isEmpty

def toutRec (s : State) (h n kind who : Nat) : State :=
  if h < 16 then
    (((s.bumpF (F.HOM_TOUT_COUNT h) 1).setF (F.HOM_TOUT_KIND h) kind).setF (F.HOM_TOUT_WHO h) who).setF (F.HOM_TOUT_ADDR h) (channelAddr (n * 64))
  else s.hlfCount 5
def toutWord (s : State) (h : Nat) : W64 := if h < 16 then BitVec.ofNat 64 (s.storedWord (0x200010 + 0x10000 * h)) else 0
/-- A home's own timeout event; the filter's is in the link group (16 R434; DESIGN CHOICE, log 41). -/
def toutEvent (s : State) (h : Nat) (w : Option WardId) : State :=
  if h < 16 then s.event ⟨16 + h, 2, 7, 0, wardBit w, s.toutWord h⟩ else s.event ⟨42, 2, 7, 1, wardBit w, 0⟩

/-- Every home and the filter obey a fence on a quarter (R344). -/
def fenceQuarter (s : State) (q : QuarterId) : State :=
  let s := s.updQuarter q (fun y => { y with fenced := true })
  (List.range 17).foldl (fun s h =>
    let clear := fun (d : DirEntry) => { d with pres := d.pres &&& ~~~ BitVec.ofNat 17 (2 ^ q.val) }
    let cells := (s.homeN h).dir.cells.filterMap (fun c => match c.2 with
      | none => none
      | some d =>
        let e := clear d
        if e.empty && !d.empty then none else some (c.1, some e))
    let s := s.updHome h (fun y => { y with dir := ⟨cells⟩ })
    let mine := fun (r : Req) => s.fromFenced r
    let ref := (s.homeN h).refused.filter (fun e => mine e.2)
    let wbs := (s.homeN h).wbufs.filter (fun b => mine b.req && b.data.isNone && !ref.any (fun e => e.1 == b.xid && decide (e.2.line = b.req.line)))
    let s := s.updHome h (fun y => { y with
      refused := y.refused.filter (fun e => !mine e.2), wbufs := y.wbufs.filter (fun b => !(mine b.req && b.data.isNone)) })
    let s := ref.foldl (fun s e => s.poisonReply h e.1 e.2) s
    let s := wbs.foldl (fun s b => s.poisonReply h b.xid b.req) s
    ref.foldl (fun s e => s.pump h e.2.line (s.homeFuel h)) s) s

/-- The ward whose requester a home's own event names: none for a supervisor, host or Lantern requester (R343). -/
def Req.eventWard (r : Req) : Option WardId := if r.src = .lantern then none else r.ward

/-- The ward whose tile, engine or Bulk Port asked (R345). -/
def Req.agentWard (r : Req) : Option WardId :=
  match r.src with
  | .quarter _ _ => r.ward
  | .tile _ => r.ward
  | .engine _ => r.ward
  | .bulk _ => r.ward
  | _ => none

def silentTxn (s : State) (h x : Nat) (q : Fin 17) : Option Txn :=
  (s.homeN h).txns.find? (fun t => t.xid == x && (match t.phase with
    | .snoop left => left.contains q
    | _ => false))

/-- A quarter has not answered a snoop in time (R343; DESIGN CHOICE, log 23). -/
def snoopSilent (s : State) (h x : Nat) (q : QuarterId) : State :=
  match s.silentTxn h x (quarterHolder q) with
  | none => s
  | some t =>
    let s := s.toutRec h t.line.n 1 q.val
    let scope := s.quarterWards q
    let s := s.fenceQuarter q
    let s := s.event ⟨q.val, 3, 7, 48, scope, s.toutWord h⟩
    let w := Req.eventWard t.req
    let covered := match w with
      | some w => scope.getLsbD w.val
      | none => false
    let s := if covered || t.evictFor.isSome || t.hostSnoop.isSome then s else s.toutEvent h w
    s.doom h t

/-- The host has not answered a back-invalidate snoop in time (R345). -/
def biSilent (s : State) (h x : Nat) : State :=
  match s.silentTxn h x hostHolder with
  | none => s
  | some t =>
    let n := t.line.n
    let s := s.toutRec h n 2 16
    let s := match s.dirGet h n with
      | none => s
      | some d => s.dirPut h n (some { d with pres := d.pres &&& ~~~ BitVec.ofNat 17 65536 })
    let s := s.event ⟨42, 3, 10, 0, 0, 6⟩
    let s := if t.evictFor.isSome then s else match Req.agentWard t.req with
      | some w => s.toutEvent h (some w)
      | none => s
    s.doom h t

def whoCode (r : Req) : Nat :=
  match r.src.quarter?, r.src with
  | some q, _ => q.val
  | none, .host => 16
  | none, _ => 17

/-- Write data has not arrived in time after WGO (R346). -/
def dataSilent (s : State) (h x : Nat) : State :=
  match (s.homeN h).txns.find? (fun t => t.xid == x && decide (t.phase = TxnPhase.writeData)) with
  | some t =>
    let n := t.line.n
    let s := s.toutRec h n 3 (whoCode t.req)
    let s := match t.req.src.quarter? with
      | some q =>
        let way := ((s.quarter q).bufs.find? (fun (b : QBuf) => b.xid == x && decide (b.line = t.line))).map QBuf.way
        s.qcEvent q 2 6 2 (setOf t.line) (way.getD 0) t.req.ward
      | none => s
    if h = 16 then
      let (v, s) := s.lostLine
      (((((s.emit (.d2h t.line .dirtyEvict (some v))).poisonReply h x t.req).dirPut h n none).dropTxn h x t.line).serve h t.line).sweep h
    else s.doom h t
  | none =>
    match (s.homeN h).wbufs.find? (fun b => b.xid == x && b.data.isNone) with
    | none => s
    | some b =>
      let s := s.toutRec h b.req.line.n 3 (whoCode b.req)
      ((((s.dropWbuf h x b.req.line).poisonReply h x b.req).toutEvent h (Req.eventWard b.req)).serve h b.req.line).sweep h

/-! ### The host (R348–R352) -/

/-- The data in an answer of the host. -/
def grantData (r : HostGrant) : Option LineVal :=
  match r with
  | .shared v => some v
  | .own v => some v
  | .curr v => some v
  | _ => none

/-- The host's answer to a request of the filter. -/
def hostAnswer (s : State) (l : LineAddr) (r : HostGrant) : State :=
  match (s.homeN 16).txns.find? (fun t => decide (t.line = l) && (match t.phase with
    | .host _ => true
    | _ => false)) with
  | none => s
  | some t =>
    let s := if (grantData r).any (·.poison) then s.reportRas false 4 "Cache Poison Received" else s
    let take := fun (v : LineVal) =>
      let t := match t.got with
        | some g =>
          if g.mask = fullMask then { t with rd := some (.stored v) }
          else { t with rd := some (.stored v), got := some ⟨fullMask, ⟨mergeLine v.data g.v.data g.mask, v.poison || g.v.poison⟩, none⟩ }
        | none => { t with rd := some (.stored v) }
      (s.setTxn 16 t).goOn 16 t
    match t.phase, r with
    | .host .rdShared, .shared v => take v
    | .host .rdOwn, .own v => take v
    | .host .rdCurr, .curr v => take v
    | .host .rdOwnNoData, .ownNoData => s.wrapUp 16 t
    | .host .dirtyEvict, .evictDone =>
      if t.evictFor.isSome ∨ t.req.kind = .wb ∨ t.req.kind = .wbP ∨ t.far then s.wrapUp 16 t
      else let t := { t with got := none, rd := none }; (s.setTxn 16 t).goOn 16 t
    | .host .cleanEvict, .evictDone => s.wrapUp 16 t
    | _, _ => s

/-- The filter applies an atomic to the line in its buffer and returns the line to the host (R349 steps 4, 5). -/
def filterApply (s : State) (l : LineAddr) : State :=
  match (s.homeN 16).txns.find? (fun t => decide (t.line = l) && t.far && decide (t.phase = TxnPhase.dram)) with
  | none => s
  | some t =>
    let cur := s.viewCur t none
    let a := s.homeAtomic t
    let t := { t with applied := some (BitVec.ofNat 64 a.1) }
    if a.2.1 || (a.2.2.data == cur.data && t.got.isNone) then s.askHost t .cleanEvict none
    else s.askHost t .dirtyEvict (some a.2.2)

/-- A snoop of the host at the filter (R349, R350; DEDUCED, log 42); none has credits during CXL Reset (15 R422). -/
def hostSnoops (s : State) (l : LineAddr) (k : SnpKind) : State :=
  if !l.host || s.link.cxlResetBusy then s
  else match (s.homeN 16).txns.find? (fun t => decide (t.line = l)) with
    | some t =>
      if t.phase = TxnPhase.host .dirtyEvict ∨ t.phase = TxnPhase.host .cleanEvict then
        ((s.emit (.hostRsp l "RspIHitI" none)).hlfCount 0).hlfCount 1
      else s
    | none =>
      let s := s.hlfCount 0
      match s.dirGet 16 l.n with
      | none => (s.emit (.hostRsp l "RspIHitI" none)).hlfCount 1
      | some d =>
        if !d.excl && decide (k ≠ .snpInv) then (s.emit (.hostRsp l "RspSHitSE" none)).hlfCount 1
        else
          let hs := d.holders
          let t := { Txn.start (32768 + l.n) (Req.make .rdC l .host none false) l with
            phase := .snoop hs, holder := if d.excl then hs.head? else none, hostSnoop := some k }
          if hs.isEmpty then (s.answerHost t k true).dirPut 16 l.n none
          else hs.foldl (fun s q => s.sendSnoop 16 (32768 + l.n) l (if d.excl then k else .inv) q) (s.addTxn 16 t)

/-- The host answers a back-invalidate snoop: it keeps a clean copy, or none. Its dirty data came before, as H_WR
(R352; DEDUCED, log 43). -/
def biAnswer (s : State) (l : LineAddr) (kept : Bool) : State :=
  let h := homeOf (l.n * 64)
  match (s.homeN h).txns.find? (fun t => decide (t.line = l) && (match t.phase with
    | .snoop left => left.contains hostHolder
    | _ => false)) with
  | none => s
  | some t => s.snoopAnswer h t hostHolder (if kept then .ackS else .ack)

end State

/-! ### The commands -/

/-- RD_S (spec 12 R324). -/
def execRdS (i : Nat) (s : State) : Result := .next (s.takeRequest i .rdS)
/-- RD_X (spec 12 R324). -/
def execRdX (i : Nat) (s : State) : Result := .next (s.takeRequest i .rdX)
/-- UPG (spec 12 R324). -/
def execUpg (i : Nat) (s : State) : Result := .next (s.takeRequest i .upg)
/-- OWN (spec 12 R324). -/
def execOwn (i : Nat) (s : State) : Result := .next (s.takeRequest i .own)
/-- FILL (spec 12 R324). -/
def execFill (i : Nat) (s : State) : Result := .next (s.takeRequest i .fill)
/-- WB (spec 12 R324). -/
def execWb (i : Nat) (s : State) : Result := .next (s.takeRequest i .wb)
/-- WB_P (spec 12 R324). -/
def execWbP (i : Nat) (s : State) : Result := .next (s.takeRequest i .wbP)
/-- EVICT (spec 12 R324). -/
def execEvict (i : Nat) (s : State) : Result := .next (s.takeRequest i .evict)
/-- RD_C (spec 12 R324). -/
def execRdC (i : Nat) (s : State) : Result := .next (s.takeRequest i .rdC)
/-- WR_INV (spec 12 R324, R339). -/
def execWrInv (i : Nat) (s : State) : Result := .next (s.takeRequest i .wrInv)
/-- AT_P (spec 12 R336–R338). -/
def execAtP (i : Nat) (s : State) : Result := .next (s.takeRequest i .atP)
/-- AT_FAR (spec 12 R337, R349). -/
def execAtFar (i : Nat) (s : State) : Result := .next (s.takeRequest i .atFar)
/-- H_RD (spec 12 R324). -/
def execHRd (i : Nat) (s : State) : Result := .next (s.takeRequest i .hRd)
/-- H_WR (spec 12 R324, R325). -/
def execHWr (i : Nat) (s : State) : Result := .next (s.takeRequest i .hWr)
/-- ACK (spec 12 R324, R328). -/
def execAck (i : Nat) (s : State) : Result := .next (s.takeAnswer i .ack)
/-- ACK_S (spec 12 R324, R328). -/
def execAckS (i : Nat) (s : State) : Result := .next (s.takeAnswer i .ackS)
/-- SNP_MASK (spec 11 R300; 12 R328). -/
def execSnpMask (i : Nat) (s : State) : Result := .next (s.takeAnswer i .snpMask)
/-- LOST (spec 12 R326). -/
def execLost (i : Nat) (s : State) : Result := .next (s.takeAnswer i .lost)
/-- DRAM_READ_COMPLETE (spec 14 R381). -/
def execDramReadComplete (h : HomeId) (x : Nat) (err : DramErr) (s : State) : Result := .next (s.dramDone h x err)
/-- WRITE_DATA_ARRIVE (spec 12 R339). -/
def execWriteDataArrive (i : Nat) (s : State) : Result := .next (s.takeWriteData i)
/-- SNOOP_TIMEOUT (spec 12 R343). -/
def execSnoopTimeout (h : Fin 17) (x : Nat) (q : QuarterId) (s : State) : Result := .next (if s.timersFrozen then s else s.snoopSilent h.val x q)
/-- BI_SNOOP_TIMEOUT (spec 12 R345). -/
def execBiSnoopTimeout (h : HomeId) (x : Nat) (s : State) : Result := .next (if s.timersFrozen then s else s.biSilent h.val x)
/-- WRITE_DATA_TIMEOUT (spec 12 R346). -/
def execWriteDataTimeout (h : Fin 17) (x : Nat) (s : State) : Result := .next (if s.timersFrozen then s else s.dataSilent h.val x)
/-- LAZY_INIT_DONE (spec 14 R391). -/
def execLazyInitDone (h : HomeId) (region : Nat) (s : State) : Result := .next (s.initDone h region)
/-- HOST_CACHE_RESPONSE (spec 12 R348). -/
def execHostCacheResponse (line : LineAddr) (r : HostGrant) (s : State) : Result := .next (s.hostAnswer line r)
/-- HOST_SNP_DATA (spec 12 R350). -/
def execHostSnpData (line : LineAddr) (s : State) : Result := .next (s.hostSnoops line .snpS)
/-- HOST_SNP_INV (spec 12 R350). -/
def execHostSnpInv (line : LineAddr) (s : State) : Result := .next (s.hostSnoops line .snpInv)
/-- HOST_SNP_CUR (spec 12 R350). -/
def execHostSnpCur (line : LineAddr) (s : State) : Result := .next (s.hostSnoops line .snpCur)
/-- BI_RSP (spec 12 R352). -/
def execBiRsp (line : LineAddr) (kept : Bool) (s : State) : Result := .next (s.biAnswer line kept)
/-- FILTER_ATOMIC (spec 12 R349). -/
def execFilterAtomic (line : LineAddr) (s : State) : Result := .next (s.filterApply line)

end Sys2Proof.Machine
end

