-- ==== Sys2Proof/Machine/Cache.lean ====
section
/-! DEFINITION. The quarter's side of coherence (spec 11, 12): snoops and their answers, grants, fills, the hold
window, draining, and the commands of the QC_ registers. -/

namespace Sys2Proof.Machine

/-- The tile for which a quarter asks. -/
def Source.tileOf : Source → Option TileId
  | .quarter _ t => some t
  | _ => none

namespace State

/-! ### Small steps -/

/-- A response of a quarter to a home or the filter. -/
def quarterRsp (s : State) (q : QuarterId) (h x : Nat) (l : LineAddr) (k : RspKind) (pl : Payload) (poison : Bool) : State :=
  let dst := homeStop h
  s.sendPkt (mkPkt .rsp k.code (quarterStop q dst) dst 0 0 x poison pl l)

def freezes (s : State) (q : QuarterId) : Bool :=
  s.lantern.freezeNow.getLsbD 1 && s.lantern.halts.any (fun h => (h.scope == 1 && h.target == q.val) || h.scope == 3)

/-- A grant or fill for the line is on its way to the quarter, or waits there for its grant (DEDUCED, log 25). -/
def grantInFlight (s : State) (q : QuarterId) (l : LineAddr) : Bool :=
  s.net.any (fun p => decide (p.chan = .rsp) && decide (p.about = l) && decide (p.kind ≤ 3) && stopQuarter p.dst == some q)
  || s.ledger.entries.cells.any (fun c => match c.2 with
    | some e => e.req.src.quarter? == some q && decide (e.req.line = l) && (e.rdata.isSome || e.grant.isSome)
    | none => false)

/-! ### Draining (11 R311, R312, R314) -/

/-- One line of a draining quarter: filled when it is partial, else written back or given notice of. A line that the
Ledger refuses waits in its way until the Ledger calls it (13 R360, R363). -/
def drainLine (s : State) (q : QuarterId) (set w : Nat) (called : Bool) : State :=
  let s := s.tagScan q set
  let s := if ((s.quarter q).way set w).held then s.checkMask q set w else s
  let c := (s.quarter q).way set w
  if !c.held || c.asking || (s.bufOf q c.line).isSome then s
  else if c.st = CState.m ∧ !c.full then
    if s.quarterAsks q c.line then s
    else (s.issue (LEntry.make (Req.make .fill c.line (.drain q) (some c.ward) c.sealed) (.ward c.ward))).qcCount q 3
  else
    let k : ReqKind := if c.st = CState.m then .wb else .evict
    let e := LEntry.make (Req.make k c.line (.drain q) (some c.ward) c.sealed) (.ward c.ward)
    if s.mayTake called e then
      let (x, s) := s.openEntry e
      s.leaveWay q set w x (.drain q)
    else s.waitAtSource e

/-- The lines that drain: all of a draining quarter's, the host lines of every quarter while the device flushes (15 R412). -/
def drains (s : State) (q : QuarterId) (l : LineAddr) : Bool := s.draining q || (s.link.flushing && l.host)

/-- A draining quarter sends its lines by the steps of R311: 3, the lines in SM and IM become M and the bypass buffers
empty; 4, the M lines are written back; 5, the rest is invalidated with its notices. -/
def drainPump (s : State) (q : QuarterId) : State :=
  if s.draining q || s.link.flushing then
    let mine := fun (s : State) => (s.quarter q).ways.cells.filter (fun c => c.2.held && s.drains q c.2.line)
    let bufs := fun (s : State) (k : QBuf → Bool) => (s.quarter q).bufs.any (fun b => s.drains q b.line && k b)
    if (mine s).any (fun c => c.2.asking) || bufs s (fun b => decide (b.kind = .wrInv)) then s
    else
      let s := ((mine s).filter (fun c => decide (c.2.st = CState.m))).foldl (fun s c => s.drainLine q (c.1 / 16) (c.1 % 16) false) s
      if (mine s).any (fun c => decide (c.2.st = CState.m)) || bufs s (fun b => decide (b.kind ≠ .evict)) then s
      else (mine s).foldl (fun s c => s.drainLine q (c.1 / 16) (c.1 % 16) false) s
  else s

/-- Nothing of the quarter's cache is held or on its way. -/
def drainEmpty (s : State) (q : QuarterId) : Bool :=
  (s.quarter q).ways.cells.all (fun c => !c.2.held) && (s.quarter q).bufs.isEmpty
    && !s.ledger.entries.cells.any (fun c => match c.2 with
      | some e => e.req.src.quarter? == some q
      | none => false)
    && !s.ledger.waiting.any (fun e => e.req.src.quarter? == some q)

/-- The L1 caches of a quarter's tiles are invalidated. -/
def dropL1 (s : State) (q : QuarterId) : State :=
  (tilesOf q).foldl (fun s t => s.updTile t (fun tl => { tl with l1d := [], l1i := [], fetchBuf := none })) s

/-- ENABLE is cleared: the drain begins (R311). -/
def startDrain (s : State) (q : QuarterId) : State :=
  if s.isF (F.QC_CTRL_ENABLE q.val) then
    (((s.setF (F.QC_CTRL_ENABLE q.val) 0).setF (F.QC_STATUS_DRAINING q.val) 1).dropL1 q).drainPump q
  else s

def stopDrain (s : State) (q : QuarterId) : State :=
  let s := s.drainPump q
  if s.draining q && s.drainEmpty q then s.setF (F.QC_STATUS_DRAINING q.val) 0 else s

/-- ENABLE is set (R313). -/
def enableCache (s : State) (q : QuarterId) : State :=
  if s.draining q then s.setF (F.QC_STATUS_REFUSED q.val) 1 else s.setF (F.QC_CTRL_ENABLE q.val) 1

/-! ### Snoops (12 R328, R329, R335) -/

/-- Send a line's valid bytes: DATA, or SNP_MASK and DATA. -/
def sendLine (s : State) (q : QuarterId) (h x : Nat) (l : LineAddr) (m : Mask64) (v : LineVal) (w : Option WardId) : State :=
  let s := if m = fullMask then s else s.quarterRsp q h x l .snpMask (.mask m) false
  s.quarterRsp q h x l .data (.line v w) v.poison

/-- The quarter holds a line again whose tag was lost, or has said that it was (11 R308). -/
def found (s : State) (q : QuarterId) (l : LineAddr) : State :=
  s.updQuarter q (fun y => { y with lost := y.lost.filter (fun z => decide (z ≠ l)) })

/-- The quarter's answer by the state of its line. -/
def answerSnoop (s : State) (q : QuarterId) (h x : Nat) (l : LineAddr) (k : SnpKind) : State :=
  let set := setOf l
  let s := s.tagScan q set
  let ack := fun (s : State) => s.quarterRsp q h x l .ack (.empty false) false
  if (s.quarter q).lost.contains l then
    (s.found q l).quarterRsp q h x l .lost (.empty false) false
  else match s.qFind q l with
    | none =>
      match (s.quarter q).bufs.find? (fun b => decide (b.line = l) && (decide (b.kind = .wb) || decide (b.kind = .wbP))) with
      | some b => if k = .inv then ack s else s.sendLine q h x l b.mask b.v b.sealWard
      | none => ack s
    | some w =>
      let c := (s.quarter q).way set w
      match c.st, k with
      | .s, .inv => ack (s.clearWay q set w)
      | .e, .snpS => (s.putWay q set w { c with st := .s }).quarterRsp q h x l .ackS (.empty false) false
      | .e, .snpInv => ack (s.clearWay q set w)
      | .e, .snpCur => s.quarterRsp q h x l .ackS (.empty false) false
      | .m, .inv => ack s
      | .m, k =>
        let s := s.checkMask q set w
        let s := (s.checkBytes q set w fullMask).2
        let c := (s.quarter q).way set w
        let s := if c.full then s else s.qcCount q 3
        let s := match k with
          | .snpS => if c.full then s.putWay q set w { c with st := .s } else s.clearWay q set w
          | .snpInv => s.clearWay q set w
          | _ => s
        s.sendLine q h x l c.valid ⟨c.data, c.poison⟩ c.sealWard
      | .sm, .inv => ack ((s.putWay q set w { c with st := .im, valid := c.upgMask }).staleCopies q l none)
      | _, _ => ack s

def takeSnoop (s : State) (i : Nat) (k : SnpKind) : State :=
  match s.arrived i with
  | none => s
  | some p =>
    match stopQuarter p.dst, stopHome p.src with
    | some q, some h =>
      let l := p.about
      let held : Bool := match s.qFind q l with
        | some w => ((s.quarter q).way (setOf l) w).hold
        | none => false
      if decide (p.chan ≠ .snp ∨ p.kind ≠ k.code) || held || s.freezes q || s.grantInFlight q l then s
      else ((s.takePkt i).answerSnoop q h p.xid l k).wakeQuarter q
    | _, _ => s

/-! ### Grants and fills (11 R298–R300; 12 R324) -/

def holdOn (s : State) : Bool := s.getF F.HOM_CFG_HOLD != 0

/-- The quarter's entry that a response at a row end is for. -/
def quarterEntry (s : State) (p : Packet) : Option (QuarterId × LEntry) :=
  match stopQuarter p.dst, s.entry p.xid with
  | some q, some e => if e.req.src.quarter? = some q ∧ e.req.line = p.about then some (q, e) else none
  | _, _ => none

/-- A grant with the line (GNT_S, GNT_E): the line is installed, or joined to the bytes stored while it was asked
for. None when no way can be taken yet. -/
def installLine (s : State) (q : QuarterId) (x : Nat) (e : LEntry) (v : LineVal) (excl : Bool) : Option State :=
  let l := e.req.line
  let set := setOf l
  let wd := e.req.ward.getD 0
  match s.qLook q l with
  | (some w, s) =>
    let c := (s.quarter q).way set w
    let fresh : Mask64 := ~~~ c.valid
    let st : CState := if c.asking then (if excl then .m else .sm) else if c.st = .s ∧ excl then .e else c.st
    let c2 := { c with st := st, data := mergeLine v.data c.data c.valid, valid := fullMask, poison := c.poison || (v.poison && fresh != 0), upgMask := c.valid, hold := excl && s.holdOn }
    let s := (((s.writeWay q set w c2 fresh).touchWay q set w).found q l).closeEntry x
    if st = .sm then
      match e.req.src.tileOf with
      | some t => some (s.quarterReq .upg t wd e.req.sealed l)
      | none => some (s.issue (LEntry.make (Req.make .upg l e.req.src e.req.ward e.req.sealed) e.charge))
    else some (s.orderedLine q l)
  | (none, s) =>
    match s.allocWay q wd l x with
    | none => none
    | some (w, s) =>
      let c := { CWay.free with line := l, st := if excl then .e else .s, valid := fullMask, poison := v.poison, data := v.data, hold := excl && s.holdOn, ward := wd, sealed := e.req.sealed }
      some ((((s.writeWay q set w c fullMask).touchWay q set w).found q l).closeEntry x)

/-- GNT_X: SM and IM become M (11 R298); a line that has gone is held in M with no byte valid. None when no way can be
taken yet. -/
def ownLine (s : State) (q : QuarterId) (x : Nat) (e : LEntry) (poison : Bool) : Option State :=
  let l := e.req.line
  let set := setOf l
  match s.qLook q l with
  | (some w, s) =>
    let c := (s.quarter q).way set w
    let st : CState := if c.asking ∨ c.st = .s then .m else c.st
    let s := s.putWay q set w { c with st := st, poison := c.poison || poison, hold := s.holdOn }
    some (((s.found q l).closeEntry x).orderedLine q l)
  | (none, s) =>
    match s.allocWay q (e.req.ward.getD 0) l x with
    | none => none
    | some (w, s) =>
      let c := { CWay.free with line := l, st := .m, poison := poison, hold := s.holdOn, ward := e.req.ward.getD 0, sealed := e.req.sealed }
      some ((((s.writeWay q set w c 0).touchWay q set w).found q l).closeEntry x)

/-- The grant that entry `x` holds takes effect; none when it must wait. -/
def useGrant (s : State) (q : QuarterId) (x : Nat) (e : LEntry) : Option State :=
  match e.grant, e.rdata with
  | some (.gntX, po), _ => s.ownLine q x e (po || e.bad)
  | some (k, po), some v => s.installLine q x e { v with poison := v.poison || po || e.bad } (decide (k = .gntE))
  | _, _ => none

/-- What follows a change of the quarter's lines: the grants that wait for a way, fences and waiting tiles, then the
drain (11 R297, R312). -/
def settle (s : State) (q : QuarterId) : State :=
  let s := s.ledger.entries.cells.foldl (fun s c => match s.entry c.1 with
    | some e => if e.req.src.quarter? = some q ∧ e.grant.isSome then (s.useGrant q c.1 e).getD s else s
    | none => s) s
  (s.wakeQuarter q).drainPump q

/-- A grant arrives and leaves its packet at once (06 R181); its DATA is there before it (06 R182). -/
def takeGrant (s : State) (i : Nat) (k : RspKind) : State :=
  match s.arrived i with
  | none => s
  | some p =>
    if p.chan ≠ .rsp ∨ p.kind ≠ k.code then s
    else match s.quarterEntry p with
      | none => s.takePkt i
      | some (q, e) => ((s.takePkt i).setEntry p.xid (some { e with grant := some (k, p.poison) })).settle q

/-- The data of a masked fill: bytes not yet valid come from it (11 R300). -/
def fillLine (s : State) (q : QuarterId) (x : Nat) (e : LEntry) (v : LineVal) : State :=
  let l := e.req.line
  let set := setOf l
  match (s.closeEntry x).qLook q l with
  | (none, s) => s.settle q
  | (some w, s) =>
    let c := (s.quarter q).way set w
    let fresh : Mask64 := ~~~ c.valid
    let c2 := { c with data := mergeLine v.data c.data c.valid, valid := fullMask, poison := c.poison || v.poison || e.bad }
    ((s.writeWay q set w c2 fresh).touchWay q set w).settle q

/-! ### What the Ledger calls (13 R360, R363) -/

/-- A source whose transaction waited where it was is called: its store-buffer entry drains, or its line leaves. -/
def callSource (s : State) (e : LEntry) : State :=
  let l := e.req.line
  let drainOf := fun (t : TileId) =>
    match (s.tile t).sb.find? (fun y => !y.scratch && decide (y.line = l)) with
    | none => s
    | some y => (s.drainEntryBy true t y).2.wakeTile t
  match e.req.src with
  | .drain q => match s.qFind q l with
    | none => s
    | some w => if s.drains q l || s.job.isLoad || s.resettingWard ((s.quarter q).way (setOf l) w).ward then s.drainLine q (setOf l) w true else s
  | .tile t => drainOf t
  | .quarter _ t => drainOf t
  | _ => s

/-- Quarter reset (spec 11 R315): every tile of the quarter is reset. -/
def resetQuarter (s : State) (q : QuarterId) : State := (tilesOf q).foldl (fun s t => s.resetTile t false) s

/-- QC_INJ as written (spec 11, QC_INJ; R318). -/
def armCache (s : State) (q : QuarterId) (v : Nat) : State :=
  let n := q.val
  let tag := bitN v 1
  let b := bitsN v 8 6
  let b2 := if tag then min b 40 else b
  let s := (((s.setB (F.QC_INJ_ARRAY n) tag).setF (F.QC_INJ_BYTE n) b2).setF (F.QC_INJ_MASK n) (bitsN v 16 13)).setF (F.QC_INJ_WAYS n) (bitsN v 32 16)
  let s := if b2 = b then s else s.setF (F.QC_STATUS_CLAMPED n) 1
  let s := if bitN v 48 then s.setF (F.QC_INJ_FIRED n) 0 else s
  if bitN v 0 then s.setF (F.QC_INJ_ARM n) 1 else s

end State

/-! ### The commands -/

/-- INV (spec 12 R328). -/
def execInv (i : Nat) (s : State) : Result := .next (s.takeSnoop i .inv)
/-- SNP_S (spec 12 R328). -/
def execSnpS (i : Nat) (s : State) : Result := .next (s.takeSnoop i .snpS)
/-- SNP_INV (spec 12 R328). -/
def execSnpInv (i : Nat) (s : State) : Result := .next (s.takeSnoop i .snpInv)
/-- SNP_CUR (spec 12 R328). -/
def execSnpCur (i : Nat) (s : State) : Result := .next (s.takeSnoop i .snpCur)
/-- GNT_S (spec 11 R298; 12 R324). -/
def execGntS (i : Nat) (s : State) : Result := .next (s.takeGrant i .gntS)
/-- GNT_E (spec 11 R298; 12 R324). -/
def execGntE (i : Nat) (s : State) : Result := .next (s.takeGrant i .gntE)
/-- GNT_X (spec 11 R298; 12 R324). -/
def execGntX (i : Nat) (s : State) : Result := .next (s.takeGrant i .gntX)
/-- HOLD_EXPIRE (spec 12 R335). -/
def execHoldExpire (q : QuarterId) (line : LineAddr) (s : State) : Result :=
  .next (match s.qFind q line with
    | none => s
    | some w => s.putWay q (setOf line) w { (s.quarter q).way (setOf line) w with hold := false })
/-- QC_DISABLE (spec 11 R311); S alone writes QC_CTRL. -/
def execQcDisable (p : Port) (q : QuarterId) (s : State) : Result :=
  .next (s.hostWrite p (F.QC_CTRL_ENABLE q.val).off none (State.inWord (F.QC_CTRL_ENABLE q.val) 0 (s.keptWord (F.QC_CTRL_ENABLE q.val).off)) true (fun s => s.startDrain q))
/-- QC_DRAIN_DONE (spec 11 R311). -/
def execQcDrainDone (q : QuarterId) (s : State) : Result := .next (s.stopDrain q)
/-- QC_ENABLE (spec 11 R313). -/
def execQcEnable (p : Port) (q : QuarterId) (s : State) : Result :=
  .next (s.hostWrite p (F.QC_CTRL_ENABLE q.val).off none (State.inWord (F.QC_CTRL_ENABLE q.val) 1 (s.keptWord (F.QC_CTRL_ENABLE q.val).off)) true (fun s => s.enableCache q))
/-- QRESET (spec 11 R315): every tile of the quarter is reset. -/
def execQreset (p : Port) (q : QuarterId) (s : State) : Result :=
  .next (s.hostWrite p (F.QC_CTRL_QRESET q.val).off none (State.inWord (F.QC_CTRL_QRESET q.val) 1 (s.keptWord (F.QC_CTRL_QRESET q.val).off)) true (fun s => s.resetQuarter q))
/-- A write of QC_INJ (spec 11, QC_INJ; R318). -/
def execQcInjArm (p : Port) (q : QuarterId) (val : BitVec 64) (s : State) : Result :=
  .next (s.hostWrite p (F.QC_INJ_ARM q.val).off none val.toNat true (fun s => s.armCache q val.toNat))

end Sys2Proof.Machine
end

