-- ==== Sys2Proof/Machine/Aborts.lean ====
section
/-! DEFINITION. What a reset does with the transactions of the sources it stops (spec 13 R367). -/

namespace Sys2Proof.Machine
namespace State

/-- An entry closes ABORTED. -/
def closeAborted (s : State) (x : Nat) : State := (s.updEntry x (fun e => { e with aborted := true, pend := 1 })).closeEntry x

/-- A write or an atomic has no effect before its home has admitted it; a read completes (R367). -/
def droppable (k : ReqKind) : Bool := decide (k = .wrInv) || decide (k = .atFar) || decide (k = .atP)

/-- Some packet of the transaction is on its way. -/
def onTheWay (s : State) (x : Nat) (l : LineAddr) : Bool := s.net.any (fun k => k.xid == x && decide (k.about = l))

/-- What a request still holds at its home is given up, and its entry closes ABORTED (R339, R346, R367; DEDUCED, log 44). -/
def giveUp (s : State) (x : Nat) (l : LineAddr) : State :=
  let h := reqHome l
  let s := s.updHome h (fun y => { y with
    refused := y.refused.filter (fun r => !(r.1 == x && decide (r.2.line = l))),
    wbufs := y.wbufs.filter (fun b => !(b.xid == x && decide (b.req.line = l) && b.data.isNone)) })
  (s.closeAborted x).serve h l

/-- One entry of a source that is reset (R367): a write or an atomic that its home has not admitted is given up, at once
or when the packet that is on its way arrives; everything else completes at its home and closes ABORTED. -/
def abortEntry (s : State) (x : Nat) (e : LEntry) : State :=
  let l := e.req.line
  let s := s.updEntry x (fun e => { e with aborted := true })
  let waits := e.req.arrived || (s.homeN (reqHome l)).refused.any (fun r => r.1 == x && decide (r.2.line = l) && !r.2.arrived)
  if !e.hostMem && droppable e.req.kind && waits && !s.onTheWay x l then s.giveUp x l else s

/-- Every transaction of the sources that `p` selects (R367): what waits for an entry is discarded. -/
def abortWhere (s : State) (p : LEntry → Bool) : State :=
  let s := { s with ledger := { s.ledger with waiting := s.ledger.waiting.filter (fun e => !p e) } }
  s.ledger.entries.cells.foldl (fun s c => match c.2 with
    | some e => if p e && !e.aborted then s.abortEntry c.1 e else s
    | none => s) s

end State
end Sys2Proof.Machine
end

