-- ==== Sys2Proof/Machine/Fp.lean ====
section
/-! DEFINITION. IEEE 754-2019 arithmetic as the tile core and the engines use it (spec 05 R158–R161): values are
exact (a sign, a Nat and a power of two), each operation rounds once, tininess is found after rounding, and
every NaN result is canonical. Flags: 1 invalid, 2 divide-by-zero, 4 overflow, 8 underflow, 16 inexact, the order
in which spec 05 R124 lists FPSR[8:4] (DEDUCED, log 16). -/

namespace Sys2Proof.Machine

/-- A binary format: exponent bits and significand bits with the hidden one. -/
structure Fmt where
  eb : Nat
  p : Nat
  deriving DecidableEq, Repr

def fp32 : Fmt := ⟨8, 24⟩
def bf16 : Fmt := ⟨8, 8⟩
def fp16 : Fmt := ⟨5, 11⟩

def Fmt.bias (f : Fmt) : Nat := 2 ^ (f.eb - 1) - 1
/-- The exponent of the last place of the subnormals. -/
def Fmt.qmin (f : Fmt) : Int := 2 - (f.bias : Int) - (f.p : Int)
def Fmt.sbit (f : Fmt) : Nat := 2 ^ (f.eb + f.p - 1)
def Fmt.infBits (f : Fmt) : Nat := (2 ^ f.eb - 1) * 2 ^ (f.p - 1)
def Fmt.nanBits (f : Fmt) : Nat := f.infBits + 2 ^ (f.p - 2)
def Fmt.maxBits (f : Fmt) : Nat := f.infBits - 1

/-- A value: `fin s m e` is (−1)^s · m · 2^e. -/
inductive Num where
  | nan (sig : Bool)
  | inf (s : Bool)
  | fin (s : Bool) (m : Nat) (e : Int)
  deriving DecidableEq, Repr

def unpack (f : Fmt) (b : Nat) : Num :=
  let s := bitN b (f.eb + f.p - 1)
  let ex := bitsN b (f.p - 1) f.eb
  let fr := b % 2 ^ (f.p - 1)
  if ex = 2 ^ f.eb - 1 then
    if fr = 0 then .inf s else .nan (!(bitN fr (f.p - 2)))
  else if ex = 0 then .fin s fr f.qmin
  else .fin s (2 ^ (f.p - 1) + fr) (f.qmin + (ex : Int) - 1)

def Num.isNan : Num → Bool
  | .nan _ => true
  | _ => false
def Num.isSig : Num → Bool
  | .nan sg => sg
  | _ => false
def Num.neg : Num → Num
  | .nan sg => .nan sg
  | .inf s => .inf (!s)
  | .fin s m e => .fin (!s) m e

/-- Number of significant bits. -/
def bitLen (m : Nat) : Nat := if m = 0 then 0 else Nat.log2 m + 1

/-- Whether the kept part goes up: mode, sign, kept part, discarded part `rem` of `sh` bits (spec 04 R124: 0 to
nearest even, 1 toward zero, 2 toward +∞, 3 toward −∞). -/
def roundUp (rm : Nat) (s : Bool) (keep rem sh : Nat) : Bool :=
  if rem = 0 then false
  else if rm = 1 then false
  else if rm = 2 then !s
  else if rm = 3 then s
  else
    let half := 2 ^ (sh - 1)
    decide (half < rem) || (decide (rem = half) && decide (keep % 2 = 1))

/-- m · 2^e cut to a multiple of 2^q: kept part, discarded part and its width. -/
def cutAt (m : Nat) (e q : Int) : Nat × Nat × Nat :=
  if q ≤ e then (m * 2 ^ (e - q).toNat, 0, 0)
  else
    let sh := (q - e).toNat
    (m / 2 ^ sh, m % 2 ^ sh, sh)

/-- A result and its flags. -/
abbrev FpRes := Nat × Nat

def Fmt.zero (f : Fmt) (s : Bool) : Nat := if s then f.sbit else 0
def Fmt.invalid (f : Fmt) : FpRes := (f.nanBits, 1)

/-- What overflow gives: infinity, or the largest finite value where the mode rounds toward zero. -/
def overflowBits (f : Fmt) (rm : Nat) (s : Bool) : Nat :=
  let big := if rm = 1 then f.maxBits else if rm = 2 then (if s then f.maxBits else f.infBits)
    else if rm = 3 then (if s then f.infBits else f.maxBits) else f.infBits
  f.zero s + big

/-- Round (−1)^s · m · 2^e, m > 0, to the format once. -/
def roundNum (f : Fmt) (rm : Nat) (s : Bool) (m : Nat) (e : Int) : FpRes :=
  if m = 0 then (f.zero s, 0)
  else
    let top : Int := e + (bitLen m : Int) - 1
    let qn : Int := top - (f.p : Int) + 1
    let q := if qn < f.qmin then f.qmin else qn
    let (keep, rem, sh) := cutAt m e q
    let mant := if roundUp rm s keep rem sh then keep + 1 else keep
    let inexact := decide (rem ≠ 0)
    -- the value as it would be rounded with no lower limit of the exponent decides tininess
    let (k2, r2, s2) := cutAt m e qn
    let m2 := if roundUp rm s k2 r2 s2 then k2 + 1 else k2
    let tiny := decide (qn < f.qmin) && !(decide (qn + 1 = f.qmin) && decide (m2 = 2 ^ f.p))
    let bx : Int := q - f.qmin
    let bits := bx.toNat * 2 ^ (f.p - 1) + mant
    if f.infBits ≤ bits then (overflowBits f rm s, 4 + 16)
    else (f.zero s + bits, (if inexact then 16 else 0) + (if tiny && inexact then 8 else 0))

/-- The sign of an exact zero sum (spec 05 R161). -/
def zeroSumSign (rm : Nat) (sa sb : Bool) : Bool := if sa == sb then sa else decide (rm = 3)

/-- The exact sum of two finite values, as a sign, a magnitude and an exponent. -/
def exactSum (rm : Nat) (sa : Bool) (ma : Nat) (ea : Int) (sb : Bool) (mb : Nat) (eb : Int) : Bool × Nat × Int :=
  let e := if ea ≤ eb then ea else eb
  let a : Int := (ma * 2 ^ (ea - e).toNat : Nat)
  let b : Int := (mb * 2 ^ (eb - e).toNat : Nat)
  let t : Int := (if sa then -a else a) + (if sb then -b else b)
  if t = 0 then (zeroSumSign rm sa sb, 0, e) else (decide (t < 0), t.natAbs, e)

def sigFlag (l : List Num) : Nat := if l.any Num.isSig then 1 else 0

def addNum (f : Fmt) (rm : Nat) (a b : Num) : FpRes :=
  match a, b with
  | .fin sa ma ea, .fin sb mb eb =>
    let (s, m, e) := exactSum rm sa ma ea sb mb eb
    roundNum f rm s m e
  | .inf sa, .inf sb => if sa == sb then (f.zero sa + f.infBits, 0) else f.invalid
  | .inf sa, .fin _ _ _ => (f.zero sa + f.infBits, 0)
  | .fin _ _ _, .inf sb => (f.zero sb + f.infBits, 0)
  | a, b => (f.nanBits, sigFlag [a, b])

def mulNum (f : Fmt) (rm : Nat) (a b : Num) : FpRes :=
  match a, b with
  | .fin sa ma ea, .fin sb mb eb => roundNum f rm (sa != sb) (ma * mb) (ea + eb)
  | .inf sa, .inf sb => (f.zero (sa != sb) + f.infBits, 0)
  | .inf sa, .fin sb mb _ => if mb = 0 then f.invalid else (f.zero (sa != sb) + f.infBits, 0)
  | .fin sa ma _, .inf sb => if ma = 0 then f.invalid else (f.zero (sa != sb) + f.infBits, 0)
  | a, b => (f.nanBits, sigFlag [a, b])

def divNum (f : Fmt) (rm : Nat) (a b : Num) : FpRes :=
  match a, b with
  | .fin sa ma ea, .fin sb mb eb =>
    let s := sa != sb
    if mb = 0 then (if ma = 0 then f.invalid else (f.zero s + f.infBits, 2))
    else if ma = 0 then (f.zero s, 0)
    else
      let k := f.p + 4 + bitLen mb
      let q := ma * 2 ^ k / mb
      let st := if ma * 2 ^ k % mb = 0 then 0 else 1
      roundNum f rm s (2 * q + st) (ea - eb - (k : Int) - 1)
  | .inf _, .inf _ => f.invalid
  | .inf sa, .fin sb _ _ => (f.zero (sa != sb) + f.infBits, 0)
  | .fin sa _ _, .inf sb => (f.zero (sa != sb), 0)
  | a, b => (f.nanBits, sigFlag [a, b])

/-- Integer square root, `k` bits of the root still to find from the top. -/
def isqrtFrom (n : Nat) : Nat → Nat → Nat
  | 0, r => r
  | k + 1, r => let t := r + 2 ^ k; isqrtFrom n k (if t * t ≤ n then t else r)
def isqrt (n : Nat) : Nat := isqrtFrom n (bitLen n / 2 + 1) 0

def sqrtNum (f : Fmt) (rm : Nat) : Num → FpRes
  | .nan sg => (f.nanBits, if sg then 1 else 0)
  | .inf s => if s then f.invalid else (f.infBits, 0)
  | .fin s m e =>
    if m = 0 then (f.zero s, 0)
    else if s then f.invalid
    else
      let k : Nat := 2 * (f.p + 2)
      let (m1, e1) := if e % 2 = 0 then (m * 2 ^ k, e - (k : Int)) else (m * 2 ^ (k + 1), e - (k : Int) - 1)
      let r := isqrt m1
      let st := if r * r = m1 then 0 else 1
      roundNum f rm false (2 * r + st) (e1 / 2 - 1)

/-- ±(a × b) ± c with one rounding (spec 05 R161); `a` and `c` already carry their negations. -/
def fmaNum (f : Fmt) (rm : Nat) (a b c : Num) : FpRes :=
  let zi : Bool := match a, b with
    | .inf _, .fin _ m _ => decide (m = 0)
    | .fin _ m _, .inf _ => decide (m = 0)
    | _, _ => false
  if zi then (f.nanBits, 1)
  else match a, b, c with
    | .fin sa ma ea, .fin sb mb eb, .fin sc mc ec =>
      let (s, m, e) := exactSum rm (sa != sb) (ma * mb) (ea + eb) sc mc ec
      roundNum f rm s m e
    | .fin _ _ _, .fin _ _ _, .inf sc => (f.zero sc + f.infBits, 0)
    | a, b, c =>
      if a.isNan || b.isNan || c.isNan then (f.nanBits, sigFlag [a, b, c])
      else
        let s : Bool := match a, b with
          | .inf x, .inf y => x != y
          | .inf x, .fin y _ _ => x != y
          | .fin x _ _, .inf y => x != y
          | _, _ => false
        match c with
        | .inf sc => if sc == s then (f.zero s + f.infBits, 0) else f.invalid
        | _ => (f.zero s + f.infBits, 0)

/-- Order of two values that are not NaNs: −1, 0 or 1. -/
def cmpNum : Num → Num → Int
  | .inf sa, .inf sb => if sa == sb then 0 else if sa then -1 else 1
  | .inf sa, _ => if sa then -1 else 1
  | _, .inf sb => if sb then 1 else -1
  | .fin sa ma ea, .fin sb mb eb =>
    let e := if ea ≤ eb then ea else eb
    let a : Int := (ma * 2 ^ (ea - e).toNat : Nat)
    let b : Int := (mb * 2 ^ (eb - e).toNat : Nat)
    let x := if sa then -a else a
    let y := if sb then -b else b
    if x < y then -1 else if x = y then 0 else 1
  | _, _ => 0

/-- minimumNumber (`mx = false`) and maximumNumber, on bits, with −0 < +0 (spec 05 R160). -/
def minMaxBits (f : Fmt) (mx : Bool) (x y : Nat) : FpRes :=
  let a := unpack f x
  let b := unpack f y
  let fl := sigFlag [a, b]
  if a.isNan && b.isNan then (f.nanBits, fl)
  else if a.isNan then (y, fl)
  else if b.isNan then (x, fl)
  else
    let c := cmpNum a b
    let aFirst := if c = 0 then decide (f.sbit ≤ x) else decide (c < 0)
    if mx then (if aFirst then y else x, fl) else (if aFirst then x else y, fl)

/-- Round to an integer in a mode: magnitude and whether it is inexact. -/
def roundToInt (rm : Nat) (s : Bool) (m : Nat) (e : Int) : Nat × Bool :=
  let (keep, rem, sh) := cutAt m e 0
  (if roundUp rm s keep rem sh then keep + 1 else keep, decide (rem ≠ 0))

/-- FCVT.L.S and FCVT.LU.S (spec 05 R160). -/
def toInt64 (rm : Nat) (signed : Bool) : Num → W64 × Nat
  | .nan _ => (0, 1)
  | .inf s => if signed then (if s then BitVec.ofNat 64 (2 ^ 63) else BitVec.ofNat 64 (2 ^ 63 - 1), 1)
              else (if s then 0 else BitVec.ofNat 64 (2 ^ 64 - 1), 1)
  | .fin s m e =>
    let (n, ix) := roundToInt rm s m e
    let fl := if ix then 16 else 0
    if signed then
      if s then (if 2 ^ 63 < n then (BitVec.ofNat 64 (2 ^ 63), 1) else (BitVec.ofInt 64 (-(n : Int)), fl))
      else (if 2 ^ 63 ≤ n then (BitVec.ofNat 64 (2 ^ 63 - 1), 1) else (BitVec.ofNat 64 n, fl))
    else
      if s then (if n = 0 then (0, fl) else (0, 1))
      else (if 2 ^ 64 ≤ n then (BitVec.ofNat 64 (2 ^ 64 - 1), 1) else (BitVec.ofNat 64 n, fl))

/-- Round an integer to the format. -/
def ofInt (f : Fmt) (rm : Nat) (v : Int) : FpRes := roundNum f rm (decide (v < 0)) v.natAbs 0

/-- Convert a value to a format (spec 05 R160 FCVT.BF.S; the engines' read-outs). -/
def convNum (f : Fmt) (rm : Nat) : Num → FpRes
  | .nan sg => (f.nanBits, if sg then 1 else 0)
  | .inf s => (f.zero s + f.infBits, 0)
  | .fin s m e => roundNum f rm s m e

end Sys2Proof.Machine
end

