-- ==== Sys2Proof/Machine/Accum.lean ====
section
/-! DEFINITION. The long accumulator (spec 08 R229–R235): element formats, exact sums, raw elements, read-out. -/

namespace Sys2Proof.Machine

/-- A long accumulator as it is formed: the exact value in units of 2^−300 and the flag byte (spec 08 R230). -/
structure Acc640 where
  v : Int
  flags : Nat
  deriving DecidableEq, Repr

def accZero : Acc640 := ⟨0, 0⟩
def accNan : Nat := 1
def accPinf : Nat := 2
def accNinf : Nat := 4
def accOvf : Nat := 8
def accPoison : Nat := 16

/-- FP8-E4M3: no infinity, NaN only 0x7F and 0xFF (spec 08 R229). -/
def unpackE4M3 (b : Nat) : Num :=
  let s := bitN b 7
  let ex := bitsN b 3 4
  let fr := b % 8
  if ex = 15 ∧ fr = 7 then .nan false
  else if ex = 0 then .fin s fr (-9)
  else .fin s (8 + fr) ((ex : Int) - 10)

def fp8e5m2 : Fmt := ⟨5, 3⟩

/-- The bytes of an input element (AFMT, BFMT of spec 08 R227). -/
def inSize (fmt : Nat) : Nat := if fmt ≤ 1 then 2 else 1

/-- The value of an input element (spec 08 R229). -/
def inNum (fmt bits : Nat) : Num :=
  if fmt = 0 then unpack bf16 bits
  else if fmt = 1 then unpack fp16 bits
  else if fmt = 2 then unpackE4M3 bits
  else if fmt = 3 then unpack fp8e5m2 bits
  else .fin (bitN bits 7) (if bitN bits 7 then 256 - bits else bits) 0

/-- ±m · 2^e in units of 2^−300; every value the engines add has e ≥ −300 (spec 08 R231). -/
def accUnits (s : Bool) (m : Nat) (e : Int) : Int :=
  let n : Int := (m * 2 ^ (e + 300).toNat : Nat)
  if s then -n else n

/-- Add one value, or set the flag of one that is not finite (spec 08 R230, R231). -/
def accAdd (a : Acc640) : Num → Acc640
  | .nan _ => { a with flags := a.flags ||| accNan }
  | .inf s => { a with flags := a.flags ||| (if s then accNinf else accPinf) }
  | .fin s m e => { a with v := a.v + accUnits s m e }

/-- The exact product with a power-of-two scale, as a value (spec 08 R231). -/
def prodNum (x y : Num) (scale : Int) : Num :=
  match x, y with
  | .fin sa ma ea, .fin sb mb eb => .fin (sa != sb) (ma * mb) (ea + eb + scale)
  | .inf sa, .inf sb => .inf (sa != sb)
  | .inf sa, .fin sb mb _ => if mb = 0 then .nan false else .inf (sa != sb)
  | .fin sa ma _, .inf sb => if ma = 0 then .nan false else .inf (sa != sb)
  | _, _ => .nan false

/-- The low 632 bits of the exact sum as a two's-complement value, OVF when it left the range (spec 08 R231). -/
def accWrap (a : Acc640) : Acc640 :=
  if -(2 ^ 631 : Int) ≤ a.v ∧ a.v < 2 ^ 631 then a
  else
    let u := (a.v % (2 ^ 632 : Int)).toNat
    ⟨if u < 2 ^ 631 then (u : Int) else (u : Int) - 2 ^ 632, a.flags ||| accOvf⟩

/-- A raw element: V in 79 bytes, little-endian, and the flag byte (spec 08 R232). -/
def accBytes (a : Acc640) : List Byte :=
  leBytes 79 (a.v % (2 ^ 632 : Int)).toNat ++ [BitVec.ofNat 8 (a.flags % 32)]

def accOfBytes (b : List Byte) : Acc640 :=
  let u := ofLe (b.take 79)
  ⟨if u < 2 ^ 631 then (u : Int) else (u : Int) - 2 ^ 632, ((b.getD 79 0).toNat) % 32⟩

/-- Exact raw addition: the exact sum of the V parts and the OR of the flag bytes (spec 08 R233). -/
def accPlus (a b : Acc640) : Acc640 := accWrap ⟨a.v + b.v, a.flags ||| b.flags⟩

/-- The 64-bit finaliser and the draw of spec 08 R235. -/
def mix64 (z : Nat) : Nat :=
  let m := 2 ^ 64
  let z := z ^^^ (z >>> 30)
  let z := z * 0xBF58476D1CE4E5B9 % m
  let z := z ^^^ (z >>> 27)
  let z := z * 0x94D049BB133111EB % m
  z ^^^ (z >>> 31)

def draw24 (ward key tag salt row col : Nat) : Nat :=
  let h := mix64 ((salt ^^^ (ward * 2 ^ 32)) ^^^ key)
  let h := mix64 (h ^^^ tag)
  let h := mix64 ((h ^^^ ((row % 2 ^ 32) * 2 ^ 32)) ^^^ (col % 2 ^ 32))
  h >>> 40

/-- Deterministic stochastic rounding of ±m · 2^e, m > 0, with a 24-bit draw (spec 08 R235, R236). -/
def roundDraw (f : Fmt) (draw : Nat) (s : Bool) (m : Nat) (e : Int) : FpRes :=
  let top : Int := e + (bitLen m : Int) - 1
  let qn : Int := top - (f.p : Int) + 1
  let q := if qn < f.qmin then f.qmin else qn
  let (keep, rem, sh) := cutAt m e q
  let base := (q - f.qmin).toNat * 2 ^ (f.p - 1)
  if f.infBits ≤ base + keep then (f.zero s + f.infBits, 4 + 16)
  else if rem = 0 then (f.zero s + base + keep, 0)
  else
    let den := 2 ^ sh
    let part := if s then den - rem else rem
    let frac24 := part * 2 ^ 24 / den
    let hi := decide (draw < frac24)
    -- for a negative value `hi` is the neighbour toward zero
    let mag := if hi == s then keep else keep + 1
    let bits := base + mag
    if f.infBits ≤ bits then (f.zero s + f.infBits, 4 + 16)
    else (f.zero s + bits, 16 + (if bits < 2 ^ (f.p - 1) then 8 else 0))

/-- Read out an accumulator: V × 2^DSCALE rounded once to the format (spec 08 R234, R235). -/
def accRead (f : Fmt) (round draw : Nat) (dscale : Int) (a : Acc640) : FpRes :=
  let p := bitN a.flags 1
  let n := bitN a.flags 2
  if bitN a.flags 0 || (p && n) || bitN a.flags 3 then (f.nanBits, 1)
  else if p then (f.infBits, 0)
  else if n then (f.zero true + f.infBits, 0)
  else if a.v = 0 then (0, 0)
  else
    let s := decide (a.v < 0)
    if round = 4 then roundDraw f draw s a.v.natAbs (dscale - 300)
    else roundNum f round s a.v.natAbs (dscale - 300)

end Sys2Proof.Machine
end

