-- ==== Sys2Proof/Machine/RealFn.lean ====
section
/-! DEFINITION. The functions of the Row whose results spec 09 R258 and R259 bound by a distance in ulp: the real
value, taken to some 250 significant bits in fixed point, and the elements of a format that lie within the bound of it. -/

namespace Sys2Proof.Machine

/-! ### Fixed point with 400 fraction bits -/

def fixOne : Int := 2 ^ 400
/-- A rational in fixed point, rounded down. -/
def fixOf (x : Rat) : Int := x.num * fixOne / (x.den : Int)
def fixRat (v : Int) : Rat := mkRat v (2 ^ 400)

/-- `y` squared `n` times. -/
def fixSquare : Nat → Int → Int
  | 0, y => y
  | n + 1, y => fixSquare n (y * y / fixOne)

/-- 1 + r (1 + r/2 (1 + r/3 …)) with the terms from `k` up to `k + n`. -/
def expTail (r : Int) : Nat → Nat → Int
  | 0, _ => fixOne
  | n + 1, k => fixOne + r * expTail r n (k + 1) / (fixOne * (k : Int))

/-- exp; beyond the range of every format a value that is as large or as small as they need. -/
def expReal (x : Rat) : Rat :=
  if 128 < x then (2 ^ 190 : Nat)
  else if x < -160 then mkRat 1 (2 ^ 230)
  else fixRat (fixSquare 9 (expTail (fixOf x / 2 ^ 9) 70 1))

/-- Σ z^(2k+1) / (2k+1), alternating when `alt`: artanh or arctan of a fixed-point number. -/
def oddSeries (alt : Bool) (z2 : Int) : Nat → Nat → Int → Int
  | 0, _, _ => 0
  | n + 1, k, p => p / ((2 * k + 1 : Nat) : Int) + oddSeries alt z2 n (k + 1) ((if alt then -1 else 1) * (p * z2 / fixOne))

def artanhFix (z : Int) : Int := oddSeries false (z * z / fixOne) 130 0 z
def arctanFix (z : Int) : Int := oddSeries true (z * z / fixOne) 90 0 z

/-- log of m · 2^e, m > 0. -/
def logReal (m : Nat) (e : Int) : Rat :=
  let k := bitLen m - 1
  let y := fixOf (mkRat m (2 ^ k))
  let ln2 := 2 * artanhFix (fixOne / 3)
  fixRat (2 * artanhFix ((y - fixOne) * fixOne / (y + fixOne)) + (e + (k : Int)) * ln2)

/-- The square root of a positive rational. -/
def sqrtReal (x : Rat) : Rat :=
  -- 2^800 of scale leave 270 bits of every value that occurs
  mkRat (isqrt (x.num.natAbs * 2 ^ 800 / x.den)) (2 ^ 400)

def tanhReal (x : Rat) : Rat :=
  let a := if x < 0 then -x else x
  let v :=
    if a < mkRat 1 (2 ^ 40) then a * (1 - mkRat 1 (2 ^ 100))
    else if 60 < a then 1 - mkRat 1 (2 ^ 100)
    else let y := expReal (2 * a); (y - 1) / (y + 1)
  if x < 0 then -v else v

def piReal : Rat := fixRat (16 * arctanFix (fixOne / 5) - 4 * arctanFix (fixOne / 239))

/-- 1 + y/3 (1 + y/5 (1 + y/7 …)), y = 2x². -/
def erfTail (y : Int) : Nat → Nat → Int
  | 0, _ => fixOne
  | n + 1, k => fixOne + y * erfTail y n (k + 1) / (fixOne * ((2 * k + 1 : Nat) : Int))

def erfReal (x : Rat) : Rat :=
  let a := if x < 0 then -x else x
  let v :=
    if 7 < a then 1 - mkRat 1 (2 ^ 70)
    else 2 * a * expReal (-(a * a)) * fixRat (erfTail (fixOf (2 * a * a)) 320 1) / sqrtReal piReal
  if x < 0 then -v else v

/-! ### Values of a format by their magnitude bits -/

def ratPow2 (e : Int) : Rat := if 0 ≤ e then ((2 ^ e.toNat : Nat) : Rat) else mkRat 1 (2 ^ (-e).toNat)
def Num.toRat : Num → Rat
  | .fin s m e => (if s then -1 else 1) * (m : Rat) * ratPow2 e
  | _ => 0

/-- ⌊log2 x⌋ of a positive rational. -/
def ratLog2 (x : Rat) : Int :=
  let k := (bitLen x.num.natAbs : Int) - (bitLen x.den : Int)
  if x < ratPow2 k then k - 1 else k

/-- One ulp at a positive value: the spacing of its binade. -/
def Fmt.ulpExp (f : Fmt) (x : Rat) : Int := let q := ratLog2 x - (f.p : Int) + 1; if q < f.qmin then f.qmin else q
/-- The magnitude of bits without the sign; the bits of infinity stand for the first value beyond the largest. -/
def Fmt.magRat (f : Fmt) (b : Nat) : Rat :=
  let ex := b / 2 ^ (f.p - 1)
  let fr := b % 2 ^ (f.p - 1)
  if ex = 0 then (fr : Rat) * ratPow2 f.qmin else ((2 ^ (f.p - 1) + fr : Nat) : Rat) * ratPow2 (f.qmin + (ex : Int) - 1)
/-- The magnitude bits of the largest value at or below a positive one. -/
def Fmt.floorBits (f : Fmt) (x : Rat) : Nat :=
  let q := f.ulpExp x
  (q - f.qmin).toNat * 2 ^ (f.p - 1) + (x / ratPow2 q).floor.toNat

/-- The elements of a format within `milli` thousandths of an ulp of a real value, by distance from the smallest. -/
def nearBits (f : Fmt) (milli : Nat) (x : Rat) : List Nat :=
  let s := decide (x < 0)
  let a := if s then -x else x
  if a = 0 then [0]
  else
    let k := f.floorBits a
    let u := ratPow2 (f.ulpExp a)
    if f.infBits ≤ k then [f.zero s + f.infBits]
    else ((List.range 18).map (fun i => (k : Int) + (i : Int) - 8)).filterMap (fun o =>
      let v : Rat := if o < 0 then -(f.magRat o.natAbs) else f.magRat o.natAbs
      let d := if v < a then a - v else v - a
      if (f.infBits : Int) < o ∨ (milli : Rat) * u < 1000 * d then none
      else some (if o < 0 then f.zero (!s) + o.natAbs else f.zero s + o.natAbs))

/-- One of the elements within the bound; `free` says which (DESIGN CHOICE, log 14). -/
def pickNear (f : Fmt) (milli : Nat) (x : Rat) (free : Nat) : Nat :=
  let l := nearBits f milli x
  l.getD (free % l.length) 0

end Sys2Proof.Machine
end

