-- ==== Sys2Proof/Machine/EngineOps.lean ====
section
/-! DEFINITION. What each operation of the Row computes (spec 09 R254–R267), as a plan: its PARAM checks, the
extents it touches, and the bytes it writes as a function of the bytes it reads. GEMM stands in Mxe.lean. -/

namespace Sys2Proof.Machine

/-! ### Plans -/

/-- `n` bytes at an address of the engine, and whether one of them is poisoned. -/
abbrev Rd := Nat → Nat → List Byte × Bool

/-- An extent of an operand; `cf` is bits [7:1] of CFLAGS in place, `base` where the operand starts (R253). -/
structure Extent where
  a : Nat
  n : Nat
  write : Bool
  cf : Nat
  base : Nat
  deriving DecidableEq, Repr

/-- Bytes to write. -/
structure Chunk where
  a : Nat
  bytes : List Byte
  poison : Bool
  cf : Nat
  base : Nat
  deriving DecidableEq, Repr

/-- A part of the output with the extents that are checked as they are used (R255). The second reader sees the
output of the parts before it. -/
structure Part where
  touch : List Extent
  chunks : Rd → Rd → List Chunk

structure OpOut where
  parts : List Part
  /-- the first index out of range (R263) -/
  index : Option Nat
  detail : Nat
  rflags : Nat

structure OpPlan where
  /-- a PARAM failure that the header shows (R254) -/
  bad : Bool
  /-- COUNT = 0 of R256: nothing is read or written -/
  empty : Bool
  /-- bytes of the body, 0 for none -/
  body : Nat
  badBody : List Byte → Bool
  /-- the contiguous operand extents, checked before any operand is read (R255) -/
  extents : List Byte → List Extent
  out : List Byte → Rd → OpOut

/-- The pieces of [a, a + n) by lines. -/
def pieces (a n : Nat) : List (Nat × Nat) :=
  if n = 0 then []
  else (List.range ((a % 64 + n + 63) / 64)).map (fun i =>
    let lo := max a ((a / 64 + i) * 64)
    (lo, min (a + n) ((a / 64 + i + 1) * 64) - lo))

/-! ### Header fields (R244) -/

/-- Field of `n` bytes at offset `o` of the header. -/
def Desc.hf (d : Desc) (o n : Nat) : Nat := bitsN d.hdr.toNat (8 * o) (8 * n)
def Desc.op (d : Desc) : Nat := d.hf 0 1
def Desc.irq (d : Desc) : Bool := bitN (d.hf 1 1) 0
def Desc.replyBit (d : Desc) : Bool := bitN (d.hf 1 1) 1
def Desc.vector (d : Desc) : Nat := d.hf 2 2
def Desc.tagN (d : Desc) : Nat := d.hf 4 4
def Desc.src0 (d : Desc) : Nat := d.hf 0x10 8
def Desc.src1 (d : Desc) : Nat := d.hf 0x18 8
def Desc.dst (d : Desc) : Nat := d.hf 0x20 8
def Desc.count (d : Desc) : Nat := d.hf 0x28 4
def Desc.param (d : Desc) : Nat := d.hf 0x30 8
def Desc.bodyA (d : Desc) : Nat := d.hf 0x38 8

/-- Field of a body. -/
def bodyF (b : List Byte) (o n : Nat) : Nat := ofLe ((b.drop o).take n)

/-- The engine type of a slot (spec 01 R53). -/
def engType (e : Nat) : EngType :=
  if e < 32 then .mxe else if e < 48 then .ewe else if e < 56 then .ope else if e < 64 then .gse
  else if e < 68 then .cre else if e < 84 then .bme else .dge

/-- The type that performs an OP. -/
def opType (op : Nat) : Option EngType :=
  if op = 1 then some .mxe
  else if 0x10 ≤ op ∧ op ≤ 0x16 then some .ewe
  else if 0x20 ≤ op ∧ op ≤ 0x22 then some .ope
  else if 0x30 ≤ op ∧ op ≤ 0x33 then some .gse
  else if op = 0x40 ∨ op = 0x41 then some .cre
  else if 0x50 ≤ op ∧ op ≤ 0x52 then some .bme
  else if op = 0x60 ∨ op = 0x61 then some .dge
  else none

/-- The dispatch class of an engine type (spec 07, CLASS). -/
def engClass : EngType → Nat
  | .mxe => 0x10 | .ewe => 0x11 | .ope => 0x12 | .gse => 0x13 | .cre => 0x14 | .bme => 0x15 | .dge => 0x16

/-- CFLAGS bits of operand SRC0, SRC1, DST and BODY, and of an address in a body (R253). -/
def cfSrc0 : Nat := 0
def cfSrc1 : Nat := 2
def cfDst : Nat := 4
def cfBody : Nat := 6
def cfList (entry : Nat) : Nat := 8 + 16 * entry

/-! ### Values -/

/-- The formats of the common element encoding (FMT 0–2). -/
def rowFmt (fmt : Nat) : Fmt := if fmt = 0 then fp32 else if fmt = 1 then bf16 else fp16
def rowSize (fmt : Nat) : Nat := if fmt = 0 then 4 else 2

/-- The exact sum as a value. -/
def addX (rm : Nat) (a b : Num) : Num :=
  match a, b with
  | .fin sa ma ea, .fin sb mb eb => let (s, m, e) := exactSum rm sa ma ea sb mb eb; .fin s m e
  | .inf sa, .inf sb => if sa == sb then .inf sa else .nan false
  | .inf sa, .fin _ _ _ => .inf sa
  | .fin _ _ _, .inf sb => .inf sb
  | _, _ => .nan false

/-- The exact product as a value. -/
def mulX (a b : Num) : Num := prodNum a b 0

/-- Round a value once to a format by ROUND (R257; spec 08 R235 for code 4). -/
def roundOut (f : Fmt) (round draw : Nat) : Num → Nat
  | .nan _ => f.nanBits
  | .inf s => f.zero s + f.infBits
  | .fin s m e => if m = 0 then f.zero s else if round = 4 then (roundDraw f draw s m e).1 else (roundNum f round s m e).1

/-- A stand-in for the square root that rounds as the root does: 40 bits more than any format and a sticky bit. -/
def sqrtX : Num → Num
  | .nan _ => .nan false
  | .inf s => if s then .nan false else .inf false
  | .fin s m e =>
    if m = 0 then .fin s 0 e
    else if s then .nan false
    else
      let (m1, e1) := if e % 2 = 0 then (m * 2 ^ 128, e - 128) else (m * 2 ^ 129, e - 129)
      let r := isqrt m1
      .fin false (2 * r + (if r * r = m1 then 0 else 1)) (e1 / 2 - 1)

/-- FP32 operations to nearest even on bits. -/
def fAdd (a b : Nat) : Nat := (addNum fp32 0 (unpack fp32 a) (unpack fp32 b)).1
def fSub (a b : Nat) : Nat := (addNum fp32 0 (unpack fp32 a) (unpack fp32 b).neg).1
def fMul (a b : Nat) : Nat := (mulNum fp32 0 (unpack fp32 a) (unpack fp32 b)).1
def fDiv (a b : Nat) : Nat := (divNum fp32 0 (unpack fp32 a) (unpack fp32 b)).1
def fSqrt (a : Nat) : Nat := (sqrtNum fp32 0 (unpack fp32 a)).1
def fOne : Nat := 0x3F800000
def fOfNat (n : Nat) : Nat := (roundNum fp32 0 false n 0).1
/-- The exact sum of FP32 values, rounded once (R257). -/
def fSum (l : List Nat) : Nat := (accRead fp32 0 0 0 (accWrap (l.foldl (fun a x => accAdd a (unpack fp32 x)) accZero))).1

/-- Read an element: its bits, and its poison. -/
def rdElt (rd : Rd) (fmt a : Nat) : Nat × Bool := let x := rd a (rowSize fmt); (ofLe x.1, x.2)

/-- The draw of the Row (R257; spec 08 R235). -/
def rowDraw (w : Nat) (d : Desc) (salt i j : Nat) : Nat := draw24 w d.key.toNat d.tagN salt i j

/-! ### EWE (R258, R259) -/

/-- The values that IEEE 754 fixes: NaN, an infinity, a zero, exp(0); none where R259 only bounds the result. -/
def unarySpecial (fn : Nat) (x : Num) : Option Num :=
  match x with
  | .nan _ => some (.nan false)
  | .inf s =>
    if fn = 0 then some (if s then .fin false 0 0 else .inf false)
    else if fn = 1 ∨ fn = 3 then some (if s then .nan false else .inf false)
    else if fn = 2 then some (if s then .nan false else .fin false 0 0)
    else some (.fin s 1 0)
  | .fin s m _ =>
    if m = 0 then
      (if fn = 0 then some (.fin false 1 0) else if fn = 1 then some (.inf true)
       else if fn = 2 then some (.inf s) else some (.fin s 0 0))
    else if s ∧ 1 ≤ fn ∧ fn ≤ 3 then some (.nan false)
    else none

/-- f of a number that is not special, as a real (R258). -/
def unaryReal (fn m : Nat) (e : Int) (x : Rat) : Rat :=
  if fn = 0 then expReal x
  else if fn = 1 then logReal m e
  else if fn = 2 then 1 / sqrtReal x
  else if fn = 3 then sqrtReal x
  else if fn = 4 then tanhReal x
  else erfReal x

/-- The bound of R259 in thousandths of an ulp: the table's for FP32, 0.501 for the other formats. -/
def unaryBound (fn ofmt : Nat) : Nat := if ofmt ≠ 0 then 501 else if 4 ≤ fn then 2000 else 1000

/-- f(x) in OFMT, x an FP32 number: sqrt correctly rounded in FP32, every other result within its bound (R258, R259;
DESIGN CHOICE, log 14). -/
def unaryOut (fn ofmt round draw x : Nat) : Nat :=
  let n := unpack fp32 x
  match unarySpecial fn n, n with
  | some v, _ => roundOut (rowFmt ofmt) round draw v
  | none, .fin _ m e =>
    if fn = 3 ∧ ofmt = 0 then roundOut fp32 round draw (sqrtX n)
    else pickNear (rowFmt ofmt) (unaryBound fn ofmt) (unaryReal fn m e n.toRat) (Config.engineFn (fn + 32 * (ofmt + 4 * round)) (BitVec.ofNat 32 x)).toNat
  | none, _ => (rowFmt ofmt).nanBits

/-- The elementwise results: a in IFMT, b in IFMT. -/
def eweElt (op fn scalar ifmt ofmt round draw a b : Nat) : Nat :=
  let x := unpack (rowFmt ifmt) a
  let y := unpack (rowFmt ifmt) b
  let o := rowFmt ofmt
  if op = 0x10 then roundOut o round draw (addX round x y)
  else if op = 0x11 then roundOut o round draw (mulX x y)
  else if op = 0x12 then roundOut o round draw (addX round (mulX (unpack fp32 scalar) x) y)
  else if op = 0x13 then unaryOut fn ofmt round draw (mulNum fp32 0 (unpack fp32 scalar) x).1
  else roundOut o round draw x

def anyNan (l : List Num) : Bool := l.any Num.isNan
def Num.isInf : Num → Bool
  | .inf _ => true
  | _ => false

/-- The exact sum of finite numbers. -/
def ratSum (l : List Num) : Rat := (l.map Num.toRat).foldl (· + ·) 0

/-- What a row is divided by the root of: Σ sq / n − mean² + SCALAR, exactly; `some none` when it is +∞, none when
its root is NaN (R259). -/
def rowDen (sq : List Num) (mean : Rat) (scalar : Num) : Option (Option Rat) :=
  if anyNan sq || scalar.isNan || decide (scalar = .inf true) then none
  else if sq.any Num.isInf || scalar.isInf then some none
  else
    let r := ratSum sq / (sq.length : Rat) - mean * mean + scalar.toRat
    if r < 0 then none else some (some r)

/-- A result within 3 ulp of FP32 of a real value, then rounded to the output format (R259; DESIGN CHOICE, log 14). -/
def rowRound (o : Fmt) (round draw : Nat) (x : Rat) (free : Nat) : Nat := roundOut o round draw (unpack fp32 (pickNear fp32 3000 x free))

/-- z × rsqrt(den) × gain; `zs` stands for z where the product is a special value. -/
def normElt (o : Fmt) (round draw free : Nat) (z : Rat) (zs : Num) (den : Option (Option Rat)) (g : Num) : Nat :=
  match den with
  | none => o.nanBits
  | some d =>
    let rs : Num := match d with
      | none => .fin false 0 0
      | some r => if r = 0 then .inf false else .fin false 1 0
    match mulX (mulX zs rs) g, d with
    | .fin s m e, some r => if m = 0 then o.zero s else if r = 0 then roundOut o round draw (.fin s m e) else rowRound o round draw (z * g.toRat / sqrtReal r) free
    | v, _ => roundOut o round draw v

/-- The larger of two numbers that are not NaN. -/
def numMax (a b : Num) : Num :=
  match a, b with
  | .inf s, x => if s then x else a
  | x, .inf s => if s then x else b
  | a, b => if a.toRat < b.toRat then b else a

/-- One result of ROWNORM or SOFTMAX, its mean, variance and Σ taken exactly from the FP32 values of a, a² and exp
(R258, R259; what the bound is measured from: DEDUCED, log 90). -/
def rowElt (op fn scalar gain ofmt round draw : Nat) (row : List Num) (i digest : Nat) : Nat :=
  let x := row.getD i (.nan false)
  let o := rowFmt ofmt
  let free := (Config.rowFn (op + 256 * (fn + 32 * ofmt)) (BitVec.ofNat 32 i) digest).toNat
  let c := unpack fp32 scalar
  let g := unpack fp32 gain
  let sq := row.map (fun x => unpack fp32 (mulNum fp32 0 x x).1)
  if op = 0x16 then
    let l := row.map (fun x => unpack fp32 (mulNum fp32 0 c x).1)
    let top := l.foldl numMax (.inf true)
    if anyNan l || top.isInf then o.nanBits
    else
      let d := fun (y : Num) => (addNum fp32 0 y top.neg).1
      let sum := ratSum (l.map (fun y => unpack fp32 (unaryOut 0 0 0 0 (d y))))
      match unpack fp32 (d (l.getD i (.nan false))) with
      | .fin s m e => rowRound o round draw (expReal (Num.fin s m e).toRat / sum) free
      | _ => 0
  else if fn = 1 then
    if anyNan row || row.any Num.isInf then o.nanBits
    else
      let mean := ratSum row / (row.length : Rat)
      let z := x.toRat - mean
      normElt o round draw free z (.fin (decide (z < 0)) (if z = 0 then 0 else 1) 0) (rowDen sq mean c) g
  else normElt o round draw free x.toRat x (rowDen sq 0 c) g

def ewePlan (w : Nat) (d : Desc) : OpPlan :=
  let op := d.op
  let p := d.param
  let ifmt := bitsN p 0 8
  let ofmt := bitsN p 8 8
  let round := bitsN p 16 3
  let fn := bitsN p 19 5
  let gain := bitN p 24
  let scalar := bitsN p 32 32
  let two := decide (op ≤ 0x12)
  let rowOp := decide (0x15 ≤ op)
  let rows := d.bodyA % 2 ^ 32
  let isz := rowSize ifmt
  let osz := rowSize ofmt
  let n := d.count
  let useGain := op == 0x15 && gain
  let total := if rowOp then n * rows else n
  { bad := decide (2 < ifmt) || decide (2 < ofmt) || decide (4 < round) || bitsN p 25 7 != 0
      || (op == 0x13 && decide (5 < fn)) || (op == 0x15 && decide (1 < fn))
      || d.src0 % isz != 0 || d.dst % osz != 0 || ((two || useGain) && d.src1 % isz != 0)
      || (if rowOp then rows == 0 || decide (65536 < rows) || decide (65536 < n) || d.bodyA / 2 ^ 32 != 0 else d.bodyA != 0)
    empty := n == 0
    body := 0
    badBody := fun _ => false
    extents := fun _ => [⟨d.src0, total * isz, false, cfSrc0, d.src0⟩]
      ++ (if two then [⟨d.src1, total * isz, false, cfSrc1, d.src1⟩] else if useGain then [⟨d.src1, n * isz, false, cfSrc1, d.src1⟩] else [])
      ++ [⟨d.dst, total * osz, true, cfDst, d.dst⟩]
    out := fun _ _ =>
      let chunk := fun (k v : Nat) (po : Bool) => (⟨d.dst + k * osz, leBytes osz v, po, cfDst, d.dst⟩ : Chunk)
      let elts := fun (rd : Rd) => (List.range n).map (fun k =>
        let (a, pa) := rdElt rd ifmt (d.src0 + k * isz)
        let (b, pb) := if two then rdElt rd ifmt (d.src1 + k * isz) else (0, false)
        chunk k (eweElt op fn scalar ifmt ofmt round (rowDraw w d d.dst 0 k) a b) (pa || pb))
      let rowsOut := fun (rd : Rd) => (List.range rows).flatMap (fun r =>
        let raw := rd (d.src0 + r * n * isz) (n * isz)
        let vals := (List.range n).map (fun k => unpack (rowFmt ifmt) (ofLe ((raw.1.drop (k * isz)).take isz)))
        let gv := if useGain then rd d.src1 (n * isz) else ([], false)
        let digest := ofLe (raw.1 ++ gv.1 ++ leBytes 8 p ++ leBytes 4 n)
        (List.range n).map (fun k =>
          let g := if useGain then (convNum fp32 0 (unpack (rowFmt ifmt) (ofLe ((gv.1.drop (k * isz)).take isz)))).1 else fOne
          chunk (r * n + k) (rowElt op fn scalar g ofmt round (rowDraw w d d.dst r k) vals k digest) (raw.2 || gv.2)))
      { parts := [⟨[], fun rd _ => if rowOp then rowsOut rd else elts rd⟩], index := none, detail := 0, rflags := 0 } }

/-! ### OPE (R260) -/

/-- ADAMW: m, v and p after the step; all FP32 bits. -/
def adamw (lr b1 b2 eps wd c1 c2 p g m v : Nat) : Nat × Nat × Nat :=
  let m := fAdd (fMul b1 m) (fMul (fSub fOne b1) g)
  let v := fAdd (fMul b2 v) (fMul (fSub fOne b2) (fMul g g))
  let u := fDiv (fMul m c1) (fAdd (fSqrt (fMul v c2)) eps)
  (m, v, fSub p (fMul lr (fAdd u (fMul wd p))))

/-- SGDM: m and p after the step. -/
def sgdm (lr b1 wd p g m : Nat) : Nat × Nat :=
  let m := fAdd (fMul b1 m) g
  (m, fSub p (fMul lr (fAdd m (fMul wd p))))

/-- FACTORED over a matrix: the new R and C and the new P, all FP32 bits; `g` and `p` by row. -/
def factored (lr b2 eps wd clip : Nat) (r c : List Nat) (g p : List (List Nat)) : List Nat × List Nat × List (List Nat) :=
  let cols := c.length
  let rows := r.length
  let t := g.map (fun row => row.map (fun x => fAdd (fMul x x) eps))
  let upd := fun (old sum cnt : Nat) => fAdd (fMul b2 old) (fMul (fSub fOne b2) (fDiv sum (fOfNat cnt)))
  let r1 := (r.zip t).map (fun x => upd x.1 (fSum x.2) cols)
  let c1 := (List.range cols).map (fun j => upd (c.getD j 0) (fSum (t.map (fun row => row.getD j 0))) rows)
  let rbar := fDiv (fSum r1) (fOfNat rows)
  let u := (g.zip r1).map (fun x => (x.1.zip c1).map (fun y => fDiv y.1 (fSqrt (fDiv (fMul x.2 y.2) rbar))))
  let q := fSum (u.flatMap (fun row => row.map (fun x => fMul x x)))
  let s := (minMaxBits fp32 true fOne (fDiv (fSqrt (fDiv q (fOfNat (rows * cols)))) clip)).1
  (r1, c1, (p.zip u).map (fun x => (x.1.zip x.2).map (fun y => fSub y.1 (fMul lr (fAdd (fDiv y.2 s) (fMul wd y.1))))))

/-- An element widened to FP32 bits. -/
def widen (fmt b : Nat) : Nat := (convNum fp32 0 (unpack (rowFmt fmt) b)).1

def opePlan (w : Nat) (d : Desc) : OpPlan :=
  let op := d.op
  let pf := bitsN d.param 0 8
  let gf := bitsN d.param 8 8
  let round := bitsN d.param 16 3
  let psz := rowSize pf
  let gsz := rowSize gf
  let n := d.count
  let fact := op == 0x22
  let put := fun (a base cf v : Nat) (po : Bool) => (⟨a, leBytes 4 v, po, cf, base⟩ : Chunk)
  let putP := fun (k i j v : Nat) (po : Bool) =>
    let b := if pf = 0 then v else roundOut bf16 round (rowDraw w d d.dst i j) (unpack fp32 v)
    (⟨d.dst + k * psz, leBytes psz b, po, cfDst, d.dst⟩ : Chunk)
  { bad := decide (1 < pf) || decide (2 < gf) || decide (4 < round) || d.src1 != 0
      || d.src0 % gsz != 0 || d.dst % psz != 0 || d.bodyA % 16 != 0 || (fact && decide (65536 < n))
    empty := n == 0
    body := 64
    badBody := fun b =>
      let rows := bodyF b 0x30 4
      bodyF b 0x34 12 != 0 || bodyF b 0 8 % 4 != 0 || (op != 0x21 && bodyF b 8 8 % 4 != 0)
        || (fact && (rows == 0 || decide (65536 < rows) || decide (2 ^ 32 < rows * n)))
    extents := fun b =>
      let rows := if fact then bodyF b 0x30 4 else 1
      [⟨d.src0, rows * n * gsz, false, cfSrc0, d.src0⟩, ⟨d.dst, rows * n * psz, false, cfDst, d.dst⟩,
       ⟨d.dst, rows * n * psz, true, cfDst, d.dst⟩]
    out := fun b _ =>
      let ma := bodyF b 0 8
      let va := bodyF b 8 8
      let f := fun (k : Nat) => bodyF b (0x10 + 4 * k) 4
      let clip := bodyF b 0x2C 4
      let rows := bodyF b 0x30 4
      -- the addresses of the body are checked as they are used (R255)
      let both := fun (a n base entry : Nat) => [(⟨a, n, false, cfList entry, base⟩ : Extent), ⟨a, n, true, cfList entry, base⟩]
      let elt := fun (k : Nat) (rd : Rd) =>
        let (g, pg) := rdElt rd gf (d.src0 + k * gsz)
        let (p, pp) := rdElt rd pf (d.dst + k * psz)
        let (m, pm) := rdElt rd 0 (ma + 4 * k)
        let (v, pv) := if op = 0x20 then rdElt rd 0 (va + 4 * k) else (0, false)
        let po := pg || pp || pm || pv
        if op = 0x20 then
          let (m1, v1, p1) := adamw (f 0) (f 1) (f 2) (f 3) (f 4) (f 5) (f 6) (widen pf p) (widen gf g) m v
          [put (ma + 4 * k) ma (cfList 0) m1 po, put (va + 4 * k) va (cfList 1) v1 po, putP k 0 k p1 po]
        else
          let (m1, p1) := sgdm (f 0) (f 1) (f 4) (widen pf p) (widen gf g) m
          [put (ma + 4 * k) ma (cfList 0) m1 po, putP k 0 k p1 po]
      let mat := fun (rd : Rd) =>
        let rdRow := fun (fmt sz a i : Nat) => (List.range n).map (fun j => rdElt rd fmt (a + (i * n + j) * sz))
        let g := (List.range rows).map (rdRow gf gsz d.src0)
        let p := (List.range rows).map (rdRow pf psz d.dst)
        let r := (List.range rows).map (fun i => rdElt rd 0 (ma + 4 * i))
        let c := (List.range n).map (fun j => rdElt rd 0 (va + 4 * j))
        let po := (g.any (fun l => l.any (·.2))) || (p.any (fun l => l.any (·.2))) || r.any (·.2) || c.any (·.2)
        let (r1, c1, p1) := factored (f 0) (f 2) (f 3) (f 4) clip (r.map (·.1)) (c.map (·.1))
          (g.map (fun l => l.map (fun x => widen gf x.1))) (p.map (fun l => l.map (fun x => widen pf x.1)))
        (List.range rows).map (fun i => put (ma + 4 * i) ma (cfList 0) (r1.getD i 0) po)
        ++ (List.range n).map (fun j => put (va + 4 * j) va (cfList 1) (c1.getD j 0) po)
        ++ (List.range rows).flatMap (fun i => (List.range n).map (fun j => putP (i * n + j) i j ((p1.getD i []).getD j 0) po))
      { parts := if fact then [⟨both ma (rows * 4) ma 0 ++ both va (n * 4) va 1, fun rd _ => mat rd⟩]
          else (List.range n).map (fun k =>
            ⟨both (ma + 4 * k) 4 ma 0 ++ (if op = 0x20 then both (va + 4 * k) 4 va 1 else []), fun rd _ => elt k rd⟩)
        index := none, detail := 0, rflags := 0 } }

/-! ### GSE (R261–R263) -/

/-- Copy by source lines, so that poison goes where its bytes go. -/
def copyChunks (rd : Rd) (src dst n cf base : Nat) (po : Bool) : List Chunk :=
  (pieces src n).map (fun x => let v := rd x.1 x.2; ⟨dst + (x.1 - src), v.1, v.2 || po, cf, base⟩)

/-- An INT32 as a number, none when it is negative. -/
def idxOf (v : Nat) : Option Nat := if v < 2 ^ 31 then some v else none

/-- The PACK sequences: what is copied, the first sequence that does not fit, and the elements written. -/
def packRun (cap elts : Nat) : List (Nat × Nat) → Nat → Nat → List (Nat × Nat × Nat × Nat) × Option Nat × Nat
  | [], _, pos => ([], none, pos)
  | (st, ln) :: r, i, pos =>
    match idxOf st, idxOf ln with
    | some a, some n =>
      if cap < pos + n ∨ elts < a + n then ([], some i, pos)
      else let (l, x, k) := packRun cap elts r (i + 1) (pos + n); ((i, a, n, pos) :: l, x, k)
    | _, _ => ([], some i, pos)

def gsePlan (d : Desc) : OpPlan :=
  let op := d.op
  let rb := d.param % 2 ^ 32
  let lim := d.param / 2 ^ 32
  let n := d.count
  let isz := if op = 0x33 then 8 else 4
  let al := if op = 0x32 then 4 else if op = 0x33 then rb else 1
  let idx := fun (rd : Rd) (i : Nat) => let v := rd (d.src1 + 4 * i) 4; (ofLe v.1, v.2)
  { bad := rb == 0 || decide (65536 < rb) || d.src1 % 4 != 0 || d.src0 % al != 0 || d.dst % al != 0
      || (op == 0x32 && rb % 4 != 0)
      || (if op = 0x33 then d.bodyA % 2 ^ 32 == 0 || d.bodyA / 2 ^ 32 != 0 else d.bodyA != 0)
    empty := n == 0
    body := 0
    badBody := fun _ => false
    extents := fun _ => [⟨d.src1, n * isz, false, cfSrc1, d.src1⟩]
      ++ (if op = 0x30 then [⟨d.dst, n * rb, true, cfDst, d.dst⟩]
          else if op = 0x33 then [] else [⟨d.src0, n * rb, false, cfSrc0, d.src0⟩])
    out := fun _ rd0 =>
      if op = 0x33 then
        let seqs := (List.range n).map (fun i => (ofLe (rd0 (d.src1 + 8 * i) 4).1, ofLe (rd0 (d.src1 + 8 * i + 4) 4).1))
        let (l, bad, pos) := packRun lim (d.bodyA % 2 ^ 32) seqs 0 0
        { parts := l.map (fun x =>
            let (i, a, k, at_) := x
            ⟨[⟨d.src0 + a * rb, k * rb, false, cfSrc0, d.src0⟩, ⟨d.dst + at_ * rb, k * rb, true, cfDst, d.dst⟩],
             fun rd _ => copyChunks rd (d.src0 + a * rb) (d.dst + at_ * rb) (k * rb) cfDst d.dst (rd (d.src1 + 8 * i) 8).2⟩)
          index := bad, detail := pos, rflags := 0 }
      else
        let ok := fun (i : Nat) => (idxOf (idx rd0 i).1).bind (fun k => if k < lim then some k else none)
        { parts := (List.range n).map (fun i =>
            let src := fun (k : Nat) => if op = 0x30 then d.src0 + k * rb else d.src0 + i * rb
            let dst := fun (k : Nat) => if op = 0x30 then d.dst + i * rb else d.dst + k * rb
            match ok i with
            | none =>
              if op = 0x30 then ⟨[], fun rd _ => [⟨dst 0, List.replicate rb 0, (idx rd i).2, cfDst, d.dst⟩]⟩
              else ⟨[], fun _ _ => []⟩
            | some k =>
              if op = 0x30 then ⟨[⟨src k, rb, false, cfSrc0, d.src0⟩], fun rd _ => copyChunks rd (src k) (dst k) rb cfDst d.dst (idx rd i).2⟩
              else if op = 0x31 then ⟨[⟨dst k, rb, true, cfDst, d.dst⟩], fun rd _ => copyChunks rd (src k) (dst k) rb cfDst d.dst (idx rd i).2⟩
              else ⟨[⟨dst k, rb, false, cfDst, d.dst⟩, ⟨dst k, rb, true, cfDst, d.dst⟩], fun rd now =>
                (List.range (rb / 4)).map (fun j =>
                  let (a, pa) := rdElt now 0 (dst k + 4 * j)
                  let (b, pb) := rdElt rd 0 (src k + 4 * j)
                  ⟨dst k + 4 * j, leBytes 4 (fAdd a b), pa || pb || (idx rd i).2, cfDst, d.dst⟩)⟩)
          index := (List.range n).find? (fun i => (ok i).isNone), detail := 0, rflags := 0 } }

/-! ### CRE (R264) -/

def creSize (fmt : Nat) : Nat := if fmt = 3 then 80 else rowSize fmt
/-- Alignment of a format's elements; raw ones as in spec 08 R228. -/
def creAlign (fmt : Nat) : Nat := if fmt = 3 then 16 else rowSize fmt

def crePlan (w : Nat) (d : Desc) : OpPlan :=
  let p := d.param
  let ifmt := bitsN p 0 8
  let ofmt := bitsN p 8 8
  let round := bitsN p 16 3
  let nin := bitsN p 24 5 + 1
  let nout := bitsN p 29 5 + 1
  let ds := bitsN p 40 8
  let dscale : Int := if ds < 128 then (ds : Int) else (ds : Int) - 256
  let isz := creSize ifmt
  let osz := creSize ofmt
  let n := d.count
  let inA := fun (b : List Byte) (k : Nat) => bodyF b (8 * k) 8
  let outA := fun (b : List Byte) (k : Nat) => bodyF b (0x80 + 8 * k) 8
  { bad := decide (3 < ifmt) || !(ofmt == 0 || ofmt == 1 || ofmt == 3) || decide (4 < round) || bitsN p 19 5 != 0 || bitsN p 34 6 != 0
      || bitsN p 48 16 != 0 || decide (16 < nin) || decide (16 < nout) || (d.op == 0x40 && nout != 1)
      || (ofmt == 3 && (round != 0 || ds != 0)) || d.src0 != 0 || d.src1 != 0 || d.dst != 0 || d.bodyA % 16 != 0
    empty := n == 0
    body := 256
    badBody := fun b => (List.range nin).any (fun k => inA b k % creAlign ifmt != 0) || (List.range nout).any (fun k => outA b k % creAlign ofmt != 0)
    extents := fun _ => []
    out := fun b _ =>
      let elt := fun (rd : Rd) (j : Nat) =>
        let ins := (List.range nin).map (fun k => rd (inA b k + j * isz) isz)
        let raw := ins.map (fun x => accOfBytes x.1)
        let po := ins.any (·.2)
        let sum := if ifmt = 3 then accWrap (raw.foldl (fun a x => ⟨a.v + x.v, a.flags ||| x.flags⟩) accZero)
          else accWrap (ins.foldl (fun a x => accAdd a (unpack (rowFmt ifmt) (ofLe x.1))) accZero)
        let bytes := if ofmt = 3 then accBytes (if po then { sum with flags := sum.flags ||| accPoison } else sum)
          else leBytes osz (accRead (rowFmt ofmt) round (rowDraw w d (outA b 0) 0 j) dscale sum).1
        (bytes, po)
      { parts := (List.range n).map (fun j =>
          ⟨(List.range nin).map (fun k => ⟨inA b k + j * isz, isz, false, cfList k, inA b k⟩)
            ++ (List.range nout).map (fun k => ⟨outA b k + j * osz, osz, true, cfList k, outA b k⟩),
           fun rd _ =>
            let (v, po) := elt rd j
            (List.range nout).map (fun k => ⟨outA b k + j * osz, v, po, cfList k, outA b k⟩)⟩)
        index := none, detail := 0, rflags := 0 } }

/-! ### BME (R265) and DGE (R266) -/

def overlaps (a n b m : Nat) : Bool := decide (a < b + m) && decide (b < a + n) && n != 0 && m != 0

def bmePlan (d : Desc) : OpPlan :=
  let op := d.op
  let n := d.count
  let rows := if op = 0x52 then d.param % 2 ^ 32 else 1
  let ss := d.src1 % 2 ^ 32
  let ds := d.src1 / 2 ^ 32
  let src := fun (r : Nat) => d.src0 + r * ss
  let dst := fun (r : Nat) => d.dst + r * ds
  let selfLap := fun (st : Nat) => decide (1 < rows) && decide (st < n)
  { bad := d.bodyA != 0
      || (if op = 0x50 then overlaps d.src0 n d.dst n
          else if op = 0x51 then d.src0 != 0 || d.src1 != 0
          else rows == 0 || selfLap ss || selfLap ds
            || (List.range rows).any (fun r => (List.range rows).any (fun t => overlaps (src r) n (dst t) n)))
    empty := n == 0
    body := 0
    badBody := fun _ => false
    extents := fun _ => (List.range rows).flatMap (fun r =>
      (if op = 0x51 then [] else [⟨src r, n, false, cfSrc0, d.src0⟩]) ++ [⟨dst r, n, true, cfDst, d.dst⟩])
    out := fun _ _ =>
      { parts := [⟨[], fun rd _ =>
          if op = 0x51 then (pieces d.dst n).map (fun x =>
            ⟨x.1, (List.range x.2).map (fun i => BitVec.ofNat 8 (bitsN d.param (8 * ((x.1 + i) % 8)) 8)), false, cfDst, d.dst⟩)
          else (List.range rows).flatMap (fun r => copyChunks rd (src r) (dst r) n cfDst d.dst false)⟩]
        index := none, detail := 0, rflags := 0 } }

def dgePlan (d : Desc) : OpPlan :=
  let n := d.count
  let sha := d.op == 0x60
  { bad := d.bodyA != 0
    empty := n == 0 && sha
    body := 0
    badBody := fun _ => false
    extents := fun _ => [⟨d.src0, n, false, cfSrc0, d.src0⟩, ⟨d.dst, if sha then 32 else 8, true, cfDst, d.dst⟩]
    out := fun _ rd0 =>
      let crc := fun (rd : Rd) => if n = 0 then d.param else crc64Xz d.param (rd d.src0 n).1
      { parts := [⟨[], fun rd _ =>
          let v := rd d.src0 n
          [⟨d.dst, if sha then sha256Bytes v.1 else leBytes 8 (crc rd), v.2, cfDst, d.dst⟩]⟩]
        index := none, detail := if sha then 0 else crc rd0, rflags := 0 } }

end Sys2Proof.Machine
end

