-- ==== Sys2Proof/Machine/Mxe.lean ====
section
/-! DEFINITION. GEMM (spec 08 R226–R242) as a plan of the Row: body checks, the exact sums, read-out, RESULT. -/

namespace Sys2Proof.Machine

/-- The body of an MXE descriptor (R227). -/
structure GemmBody where
  a : Nat
  b : Nat
  c : Nat
  d : Nat
  m : Nat
  n : Nat
  k : Nat
  lda : Nat
  ldb : Nat
  ldc : Nat
  ldd : Nat
  afmt : Nat
  bfmt : Nat
  cfmt : Nat
  dfmt : Nat
  round : Nat
  mflags : Nat
  ascale : Int
  bscale : Int
  dscale : Int
  row0 : Nat
  col0 : Nat
  salt : Nat
  /-- some reserved field is not 0 -/
  rsv : Bool
  deriving DecidableEq, Repr

def sbyte (v : Nat) : Int := if v < 128 then (v : Int) else (v : Int) - 256

def gemmBody (b : List Byte) : GemmBody :=
  { a := bodyF b 0 8, b := bodyF b 8 8, c := bodyF b 0x10 8, d := bodyF b 0x18 8, m := bodyF b 0x20 4, n := bodyF b 0x24 4,
    k := bodyF b 0x28 4, lda := bodyF b 0x30 4, ldb := bodyF b 0x34 4, ldc := bodyF b 0x38 4, ldd := bodyF b 0x3C 4,
    afmt := bodyF b 0x40 1, bfmt := bodyF b 0x41 1, cfmt := bodyF b 0x42 1, dfmt := bodyF b 0x43 1, round := bodyF b 0x44 1,
    mflags := bodyF b 0x45 1, ascale := sbyte (bodyF b 0x46 1), bscale := sbyte (bodyF b 0x47 1), dscale := sbyte (bodyF b 0x48 1),
    row0 := bodyF b 0x4C 4, col0 := bodyF b 0x50 4, salt := bodyF b 0x58 8,
    rsv := bodyF b 0x2C 4 != 0 || bodyF b 0x49 3 != 0 || bodyF b 0x54 4 != 0 || bodyF b 0x60 16 != 0 }

def GemmBody.transA (g : GemmBody) : Bool := bitN g.mflags 0
def GemmBody.transB (g : GemmBody) : Bool := bitN g.mflags 1
/-- Sizes of C and D elements. -/
def cSize (fmt : Nat) : Nat := if fmt = 1 then 4 else if fmt = 2 then 2 else 80
def dSize (fmt : Nat) : Nat := if fmt = 0 then 4 else if fmt = 1 then 2 else 80
def cAlign (fmt : Nat) : Nat := if fmt = 3 then 16 else cSize fmt
def dAlign (fmt : Nat) : Nat := if fmt = 2 then 16 else dSize fmt

/-- A stride or address that its element size does not divide, or a stride below one stored row. -/
def badStride (addr ld al row : Nat) : Bool := addr % al != 0 || ld % al != 0 || decide (ld < row)

/-- The PARAM failures of a body (R228). -/
def GemmBody.bad (g : GemmBody) : Bool :=
  g.rsv || decide (4 < g.afmt) || decide (4 < g.bfmt) || decide (3 < g.cfmt) || decide (2 < g.dfmt) || decide (4 < g.round)
    || decide (3 < g.mflags)
    || g.m == 0 || decide (65536 < g.m) || g.n == 0 || decide (65536 < g.n) || g.k == 0 || decide (1048576 < g.k)
    || badStride g.a g.lda (inSize g.afmt) ((if g.transA then g.m else g.k) * inSize g.afmt)
    || badStride g.b g.ldb (inSize g.bfmt) ((if g.transB then g.k else g.n) * inSize g.bfmt)
    || (g.cfmt != 0 && badStride g.c g.ldc (cAlign g.cfmt) (g.n * cSize g.cfmt))
    || badStride g.d g.ldd (dAlign g.dfmt) (g.n * dSize g.dfmt)
    || (g.ascale != 0 && decide (g.afmt < 2)) || (g.bscale != 0 && decide (g.bfmt < 2))
    || decide (g.ascale < -64) || decide (63 < g.ascale) || decide (g.bscale < -64) || decide (63 < g.bscale)
    || (g.dfmt == 2 && (g.dscale != 0 || g.round != 0))

/-- Rows of an operand as extents. -/
def rowExtents (a ld rows bytes : Nat) (write : Bool) (cf : Nat) : List Extent :=
  (List.range rows).map (fun i => ⟨a + i * ld, bytes, write, cf, a⟩)

def GemmBody.aRows (g : GemmBody) : List Extent :=
  rowExtents g.a g.lda (if g.transA then g.k else g.m) ((if g.transA then g.m else g.k) * inSize g.afmt) false (cfList 0)
def GemmBody.bRows (g : GemmBody) : List Extent :=
  rowExtents g.b g.ldb (if g.transB then g.n else g.k) ((if g.transB then g.k else g.n) * inSize g.bfmt) false (cfList 1)
def GemmBody.cRows (g : GemmBody) : List Extent :=
  if g.cfmt = 0 then [] else rowExtents g.c g.ldc g.m (g.n * cSize g.cfmt) false (cfList 2)
def GemmBody.dRows (g : GemmBody) : List Extent := rowExtents g.d g.ldd g.m (g.n * dSize g.dfmt) true (cfList 3)

/-- C stands where D does, in the same format (R239). -/
def GemmBody.inPlace (g : GemmBody) : Bool := g.c == g.d && g.ldc == g.ldd && g.cfmt == g.dfmt + 1

/-- D overlaps A, B, or a C placed otherwise (R239). -/
def GemmBody.lapped (g : GemmBody) : Bool :=
  (g.aRows ++ g.bRows ++ (if g.inPlace then [] else g.cRows)).any (fun x => g.dRows.any (fun y => overlaps x.a x.n y.a y.n))

/-- Elements of A, B and C: value and poison. -/
def GemmBody.aAt (g : GemmBody) (rd : Rd) (i k : Nat) : Num × Bool :=
  let sz := inSize g.afmt
  let x := rd (g.a + (if g.transA then k * g.lda + i * sz else i * g.lda + k * sz)) sz
  (inNum g.afmt (ofLe x.1), x.2)
def GemmBody.bAt (g : GemmBody) (rd : Rd) (k j : Nat) : Num × Bool :=
  let sz := inSize g.bfmt
  let x := rd (g.b + (if g.transB then j * g.ldb + k * sz else k * g.ldb + j * sz)) sz
  (inNum g.bfmt (ofLe x.1), x.2)
/-- The accumulator that C starts, with a raw C's flags (R231), and its poison. -/
def GemmBody.cAt (g : GemmBody) (rd : Rd) (i j : Nat) : Acc640 × Bool :=
  if g.cfmt = 0 then (accZero, false)
  else
    let x := rd (g.c + i * g.ldc + j * cSize g.cfmt) (cSize g.cfmt)
    if g.cfmt = 3 then (accOfBytes x.1, x.2)
    else (accAdd accZero (unpack (if g.cfmt = 1 then fp32 else bf16) (ofLe x.1)), x.2)

/-- S(i, j) (R231). -/
def GemmBody.sum (g : GemmBody) (rd : Rd) (i j : Nat) : Acc640 :=
  accWrap ((List.range g.k).foldl (fun acc k => accAdd acc (prodNum (g.aAt rd i k).1 (g.bAt rd k j).1 (g.ascale + g.bscale))) (g.cAt rd i j).1)

/-- Poison of a row of A, of a column of B. -/
def GemmBody.rowPoison (g : GemmBody) (rd : Rd) (i : Nat) : Bool := (List.range g.k).any (fun k => (g.aAt rd i k).2)
def GemmBody.colPoison (g : GemmBody) (rd : Rd) (j : Nat) : Bool := (List.range g.k).any (fun k => (g.bAt rd k j).2)

/-- The 64 × 64 blocks that poison fed (R240), by block row and block column. -/
def GemmBody.badBlocks (g : GemmBody) (rd : Rd) : List (Nat × Nat) :=
  let badRows := (List.range g.m).filter (g.rowPoison rd)
  let badCols := (List.range g.n).filter (g.colPoison rd)
  let bms := List.range ((g.m + 63) / 64)
  let bns := List.range ((g.n + 63) / 64)
  let badC := (List.range g.m).flatMap (fun i => ((List.range g.n).filter (fun j => (g.cAt rd i j).2)).map (fun j => (i / 64, j / 64)))
  bms.flatMap (fun x => (bns.filter (fun y =>
    badRows.any (fun i => i / 64 == x) || badCols.any (fun j => j / 64 == y) || badC.contains (x, y))).map (fun y => (x, y)))

/-- One element of D as bytes, with its RFLAGS bits 0–4. -/
def GemmBody.elt (g : GemmBody) (w : Nat) (d : Desc) (acc : Acc640) (po : Bool) (i j : Nat) : List Byte × Nat :=
  let ovf := if bitN acc.flags 3 then 16 else 0
  if g.dfmt = 2 then (accBytes (if po then { acc with flags := acc.flags ||| accPoison } else acc), ovf)
  else
    let f := if g.dfmt = 0 then fp32 else bf16
    let dr := draw24 w d.key.toNat d.tagN g.salt (g.row0 + i) (g.col0 + j)
    let (v, fl) := accRead f g.round dr g.dscale acc
    let nan := (unpack f v).isNan
    (leBytes (dSize g.dfmt) v, bN nan + 2 * bN (bitN fl 2) + 4 * bN (bitN fl 3) + 8 * bN (bitN fl 4) + ovf)

/-- D and RESULT (R236, R239, R240); `open_` gives the bytes of a D that overlaps an operand. -/
def GemmBody.run (g : GemmBody) (w : Nat) (d : Desc) (free : Nat) (rd : Rd) : List Chunk × Nat :=
  let bad := g.badBlocks rd
  let sz := dSize g.dfmt
  let lap := g.lapped
  let elts := (List.range g.m).flatMap (fun i => (List.range g.n).map (fun j =>
    let po := bad.contains (i / 64, j / 64)
    let (v, fl) := g.elt w d (g.sum rd i j) po i j
    let at_ := g.d + i * g.ldd + j * sz
    let v := if lap then (List.range sz).map (fun b => Config.overlapByte free ((i * g.n + j) * 80 + b)) else v
    ((⟨at_, v, po, cfList 3, g.d⟩ : Chunk), fl)))
  let rfl := elts.foldl (fun a x => a ||| x.2) (if bad.isEmpty then 0 else 32)
  let nans := min 0xFFFFFFFF (elts.filter (fun x => bitN x.2 0)).length
  (elts.map (·.1) ++ [⟨d.bodyA + 0x70, leBytes 4 rfl ++ leBytes 4 nans ++ leBytes 8 0, false, cfBody, d.bodyA⟩], rfl)

/-- Block steps of a GEMM (R243). -/
def GemmBody.blocks (g : GemmBody) : Nat := (g.m + 63) / 64 * ((g.n + 63) / 64) * g.k

def gemmPlan (w : Nat) (d : Desc) (free : Nat) : OpPlan :=
  { bad := d.bodyA % 16 != 0
    empty := d.count == 0
    body := 128
    badBody := fun b => (gemmBody b).bad
    extents := fun b => let g := gemmBody b; g.aRows ++ g.bRows ++ g.cRows ++ g.dRows ++ [⟨d.bodyA + 0x70, 16, true, cfBody, d.bodyA⟩]
    out := fun b rd0 =>
      let g := gemmBody b
      { parts := [⟨[], fun rd _ => (g.run w d free rd).1⟩], index := none, detail := 0, rflags := (g.run w d free rd0).2 } }

end Sys2Proof.Machine
end

