-- ==== Sys2Proof/Machine/Engines.lean ====
section
/-! DEFINITION. The engines of the Row (spec 09 R244–R256, R267–R271; 08 R226, R243): submission paths, the queue,
operand reads and output lines, completion, reset. An engine op asks for the lines it needs and computes when it
has them (DESIGN CHOICE, log 21). -/

namespace Sys2Proof.Machine

/-- The kind of access that an extent makes. -/
def Extent.kind (x : Extent) : AccKind := if x.write then .write else .read
def Xlat.lineAddr (x : Xlat) : LineAddr := ⟨x.host, x.addr / 64⟩
/-- A line as an engine reads it: device or host, under the seal or not. -/
def lineKey (l : LineAddr) (sealed : Bool) : Nat := l.n * 4 + 2 * bN sealed + bN l.host

namespace State

/-! ### Translation and transactions -/

/-- An engine's address: through its ward's windows, or a DPA (R245; 01 R22, R30). -/
def engXlat (s : State) (e : EngId) (a n : Nat) (k : AccKind) : Nat ⊕ Xlat :=
  match s.engineWard e with
  | some w => s.translate w a n k
  | none => .inr ⟨false, a, false, false, false⟩

/-- A DPA at or above the populated capacity: reads give 0, writes are discarded (01 R30). -/
def beyond (s : State) (e : EngId) (x : Xlat) : Bool := (s.engineWard e).isNone && decide (s.capacity ≤ x.addr)

def engCharge (s : State) (e : EngId) : Charge :=
  match s.engineWard e with
  | some w => .ward w
  | none => .reserve

def ofEngine (e : EngId) (x : LEntry) : Bool := x.req.src == Source.engine e

/-- Some held or waiting transaction of the engine satisfies `p`. -/
def engHas (s : State) (e : EngId) (p : LEntry → Bool) : Bool :=
  s.ledger.entries.cells.any (fun c => match c.2 with
    | some x => ofEngine e x && p x
    | none => false)
  || s.ledger.waiting.any (fun x => ofEngine e x && p x)

/-- Read a line for an engine, once at a time. -/
def askLine (s : State) (e : EngId) (role : Nat) (x : Xlat) : State :=
  let l := x.lineAddr
  if s.engHas e (fun y => y.role == role && decide (y.req.line = l) && y.req.sealed == x.sealed && decide (y.req.kind = .rdC) && !y.aborted) then s
  else
    let r := Req.make .rdC l (.engine e) (s.engineWard e) x.sealed
    s.issue { LEntry.make r (s.engCharge e) with hostMem := x.host, relaxed := x.relaxed, ido := x.ido, role := role }

/-- The first piece of an extent that faults: its address and cause. -/
def extentFault1 (s : State) (e : EngId) (x : Extent) : Option (Nat × Nat) :=
  (pieces x.a x.n).findSome? (fun p => match s.engXlat e p.1 p.2 x.kind with
    | .inl c => some (p.1, c)
    | .inr _ => none)

/-- The first fault of a list of extents. -/
def extentFault (s : State) (e : EngId) (l : List Extent) : Option (Extent × Nat × Nat) :=
  l.findSome? (fun x => (s.extentFault1 e x).map (fun f => (x, f.1, f.2)))

/-- Record an engine's window fault (01 R29). -/
def engFault (s : State) (e : EngId) (a cause : Nat) : State :=
  match s.engineWard e with
  | some w => s.winFault w cause a
  | none => s

/-- The lines of the pieces of extents, as they translate. -/
def extentLines (s : State) (e : EngId) (l : List Extent) : List Xlat :=
  l.flatMap (fun x => (pieces x.a x.n).filterMap (fun p => match s.engXlat e p.1 p.2 x.kind with
    | .inl _ => none
    | .inr y => some y))

def fetchedLine (s : State) (e : EngId) (x : Xlat) : Option LineVal :=
  if s.beyond e x then some ⟨0, false⟩ else (s.engine e).fetched.get none (lineKey x.lineAddr x.sealed)

/-- Ask for the lines of extents that are not there; none when all of them are. -/
def fetchAll (s : State) (e : EngId) (l : List Extent) : Option State :=
  match (s.extentLines e l).filter (fun x => (s.fetchedLine e x).isNone) with
  | [] => none
  | miss => some (miss.foldl (fun s x => s.askLine e 0 x) s)

/-- What the engine has read. -/
def engRd (s : State) (e : EngId) : Rd := fun a n =>
  (pieces a n).foldl (fun (acc : List Byte × Bool) p =>
    match s.engXlat e p.1 p.2 .read with
    | .inl _ => (acc.1 ++ List.replicate p.2 0, acc.2)
    | .inr x =>
      let v := (s.fetchedLine e x).getD ⟨0, false⟩
      (acc.1 ++ leBytes p.2 (lineBytes v.data (x.addr % 64) p.2), acc.2 || v.poison)) ([], false)

/-- The same after the output lines so far. -/
def engRdNow (s : State) (e : EngId) (outs : List OutLine) : Rd := fun a n =>
  (pieces a n).foldl (fun (acc : List Byte × Bool) p =>
    match s.engXlat e p.1 p.2 .read with
    | .inl _ => (acc.1 ++ List.replicate p.2 0, acc.2)
    | .inr x =>
      let v := (s.fetchedLine e x).getD ⟨0, false⟩
      let v : LineVal := match outs.find? (fun o => decide (o.line = x.lineAddr)) with
        | some o => ⟨mergeLine v.data o.data o.mask, v.poison || o.poison⟩
        | none => v
      (acc.1 ++ leBytes p.2 (lineBytes v.data (x.addr % 64) p.2), acc.2 || v.poison)) ([], false)

/-- Add bytes to the output lines, which stand in the order in which they are first written. -/
def addChunk (s : State) (e : EngId) (outs : List OutLine) (c : Chunk) : List OutLine :=
  (pieces c.a c.bytes.length).foldl (fun outs p =>
    match s.engXlat e p.1 p.2 .write with
    | .inl _ => outs
    | .inr x =>
      let o := x.addr % 64
      let m := rangeMask o p.2
      let v := placeBytes o p.2 (ofLe ((c.bytes.drop (p.1 - c.a)).take p.2))
      let l := x.lineAddr
      if outs.any (fun y => decide (y.line = l)) then
        outs.map (fun y => if y.line = l then { y with mask := y.mask ||| m, data := mergeLine y.data v m, poison := y.poison || c.poison } else y)
      else outs ++ [{ line := l, mask := m, data := v, poison := c.poison, off := p.1 - o - c.base, sealed := x.sealed, relaxed := x.relaxed, ido := x.ido }]) outs

/-! ### The end of an execution -/

/-- CFLAGS.POISON of a status (R253). -/
def statusPoison (status : Nat) : Bool := decide (1 ≤ status) && decide (status ≤ 5)

/-- Write an output line: an invalidating write at its home, a posted write to a host window; beyond the capacity it
is discarded. -/
def writeOut (s : State) (e : EngId) (o : OutLine) : State :=
  if (s.engineWard e).isNone && decide (s.capacity ≤ o.line.n * 64) then s.dpaErr (o.line.n * 64)
  else
    let r := { Req.make .wrInv o.line (.engine e) (s.engineWard e) o.sealed with mask := o.mask }
    s.issue { LEntry.make r (s.engCharge e) with wdata := some ⟨o.data, o.poison⟩, hostMem := o.line.host, relaxed := o.relaxed, ido := o.ido }

/-- The descriptor at the front has executed: its status, and its lines on their way. -/
def endDesc (s : State) (e : EngId) (status cflags : Nat) (detail : W64) (outs : List OutLine) (rflags : Nat) : State :=
  let r : EngRun := { status := status, cflags := cflags + bN (statusPoison status), detail := detail, outs := outs, rflags := rflags, ringBack := 0 }
  outs.foldl (fun s o => s.writeOut e o) (s.setEngine e { s.engine e with run := some r })

/-- PARAM failures of the header that every op shares (R244, R254; 02 R61). -/
def headerBad (s : State) (e : EngId) (d : Desc) : Bool :=
  let lim := match s.engineWard e with
    | some w => (s.own w).vectors
    | none => 512
  decide (4 ≤ d.hf 1 1) || d.hf 0x2C 4 != 0 || (d.path != SubPath.lamp && d.irq && decide (lim ≤ d.vector))

def planOf (s : State) (e : EngId) (d : Desc) : OpPlan :=
  let w := ((s.engineWard e).map (·.val)).getD 0
  match engType e.val with
  | .mxe => gemmPlan w d s.freeCtr
  | .ewe => ewePlan w d
  | .ope => opePlan w d
  | .gse => gsePlan d
  | .cre => crePlan w d
  | .bme => bmePlan d
  | .dge => dgePlan d

/-- What reading a body gives. -/
inductive BodyRead where
  | wait (s : State)
  | fault (off cause : Nat)
  | poison
  | got (b : List Byte)

def bodyOf (s : State) (e : EngId) (d : Desc) (n : Nat) : BodyRead :=
  if n = 0 then .got []
  else if engType e.val = .mxe then
    match d.bodyFault with
    | some o => .fault o 0
    | none =>
      if d.bodyLines.any (fun x => x.2.isNone) then .wait s
      else
        let vals := d.bodyLines.filterMap (·.2)
        if vals.any (·.poison) then .poison
        else .got (((vals.flatMap (fun v => bytesOfLine v.data)).drop (d.bodyA % 64)).take n)
  else
    let x : Extent := ⟨d.bodyA, n, false, cfBody, d.bodyA⟩
    match s.extentFault1 e x with
    | some (a, c) => .fault (a - d.bodyA) c
    | none => match s.fetchAll e [x] with
      | some s => .wait s
      | none => let v := s.engRd e d.bodyA n; if v.2 then .poison else .got v.1

/-- The parts of the output before the first whose extents fault, and that fault (R255). -/
def usable (s : State) (e : EngId) : List Part → List Part × Option (Extent × Nat × Nat)
  | [] => ([], none)
  | p :: r => match s.extentFault e p.touch with
    | some f => ([], some f)
    | none => let (l, f) := usable s e r; (p :: l, f)

def readsOf (l : List Extent) : List Extent := l.filter (fun x => !x.write)
/-- Some byte of the extents is poisoned. -/
def readsPoison (s : State) (e : EngId) (l : List Extent) : Bool :=
  (s.extentLines e l).any (fun x => ((s.fetchedLine e x).map (·.poison)).getD false)

/-- A supervisor engine's reads at or above the populated capacity gave 0 and are recorded (01 R30). -/
def noteBeyond (s : State) (e : EngId) (l : List Extent) : State :=
  ((s.extentLines e l).filter (s.beyond e)).foldl (fun s x => s.dpaErr x.addr) s

/-- The body that an op other than GEMM reads as it executes; the MXE has read its own at acceptance. -/
def bodyExtents (e : EngId) (d : Desc) (n : Nat) : List Extent :=
  if n = 0 ∨ engType e.val = .mxe then [] else [⟨d.bodyA, n, false, cfBody, d.bodyA⟩]

/-- Execute the descriptor at the front of the queue: the checks in their order, then the reads, then the result; the lines
before a body-listed extent that faults stay, and a GEMM with COUNT = 0 ends at once (R255, R256; DEDUCED, log 90). -/
def runOp (s : State) (e : EngId) (d : Desc) : State :=
  let plan := s.planOf e d
  if d.descPoison then s.endDesc e 3 0 0 [] 0
  else if opType d.op ≠ some (engType e.val) || s.headerBad e d || plan.bad then s.endDesc e 1 0 0 [] 0
  else if plan.empty then s.endDesc e 0 0 0 [] 0
  else match s.bodyOf e d plan.body with
    | .wait s => s
    | .fault o c => (if engType e.val = .mxe then s else s.engFault e (d.bodyA + o) c).endDesc e 2 cfBody (BitVec.ofNat 64 o) [] 0
    | .poison => (s.noteBeyond e (bodyExtents e d plan.body)).endDesc e 3 0 0 [] 0
    | .got b =>
      if plan.badBody b then (s.noteBeyond e (bodyExtents e d plan.body)).endDesc e 1 0 0 [] 0
      else
        let ext := plan.extents b
        match s.extentFault e ext with
        | some (x, a, c) => ((s.noteBeyond e (bodyExtents e d plan.body)).engFault e a c).endDesc e 2 x.cf (BitVec.ofNat 64 (a - x.base)) [] 0
        | none => match s.fetchAll e (readsOf ext) with
          | some s => s
          | none =>
            let o := plan.out b (s.engRd e)
            let (parts, flt) := s.usable e o.parts
            let reads := readsOf (parts.flatMap (·.touch))
            match s.fetchAll e reads with
            | some s => s
            | none =>
              let rd := s.engRd e
              let outs := parts.foldl (fun outs p => (p.chunks rd (s.engRdNow e outs)).foldl (s.addChunk e) outs) []
              let s1 := s.noteBeyond e (bodyExtents e d plan.body ++ readsOf ext ++ reads)
              let bad := (outs.filter (·.poison)).length
              let s2 := if engType e.val = .mxe then
                  ((s1.bumpF (F.ENG_MXE_BLOCKS_VALUE e.val) (gemmBody b).blocks).free).2 else s1
              match flt with
              | some (x, a, c) => (s2.engFault e a c).endDesc e 2 x.cf (BitVec.ofNat 64 (a - x.base)) outs o.rflags
              | none =>
                if bad ≠ 0 || s.readsPoison e (readsOf ext ++ reads) then s2.endDesc e 3 0 (BitVec.ofNat 64 bad) outs o.rflags
                else match o.index with
                  | some i => s2.endDesc e 6 0 (BitVec.ofNat 64 i) outs o.rflags
                  | none => s2.endDesc e 0 0 (BitVec.ofNat 64 o.detail) outs o.rflags

/-- An op command: it executes the front descriptor when that carries its OP and is not executed yet. -/
def opCmd (s : State) (e : EngId) (op : Nat) : State :=
  match (s.engine e).queue with
  | [] => s
  | d :: _ =>
    if s.coreActive && d.op == op && d.aborted.isNone && (s.engine e).run.isNone then s.runOp e d else s

/-! ### Submission (R246–R252) -/

/-- Engine reset is in progress: some transaction of the engine is still to close. -/
def engResetting (s : State) (e : EngId) : Bool := s.engHas e (·.aborted)
def ringOut (s : State) (e : EngId) : Bool := s.engHas e (fun x => x.role == 1 && !x.aborted)
/-- Queue entries held. -/
def engHeld (s : State) (e : EngId) : Nat := (s.engine e).queue.length + bN (s.ringOut e)

/-- The engine accepts: it has a free entry and nothing stops acceptance (ENG_CTRL.PAUSE; 16 R442; 01 R48; 15
R417; 19 R514). -/
def engOpen (s : State) (e : EngId) : Bool :=
  s.coreActive && !s.dimmed && !s.link.d3hot && !s.isF (F.ENG_CTRL_PAUSE e.val) && !s.engResetting e && decide (s.engHeld e < 8)
    && (match s.engineWard e with
      | some w => !s.resettingWard w && !s.quarantined w && !s.frozenWard 4 w
      | none => true)

/-- The owned engine of a type that holds the fewest unfinished items, lowest slot first (07 R207). -/
def leastLoaded (s : State) (w : WardId) (ty : EngType) : Option EngId :=
  let load := fun (e : EngId) => ((s.lampw w).running.filter (fun r => !r.onTile && r.who == e.val)).length
  ((List.finRange 86).filter (fun e => engType e.val == ty && (s.own w).engines.getLsbD e.val)).foldl (fun b e =>
    match b with
    | none => some e
    | some c => if load e < load c then some e else b) none

/-- The item that Lamplighter would hand to the engine. -/
def lampCand (s : State) (e : EngId) : Option Item :=
  match s.engineWard e with
  | none => none
  | some w =>
    if s.dispatchStopped w || s.leastLoaded w (engType e.val) != some e then none
    else s.nextItem w (engClass (engType e.val))

/-- The engines that name a tile as their feed. -/
def feedEngines (s : State) (t : TileId) : List EngId :=
  (List.finRange 86).filter (fun e => s.isF (F.ENG_CTRL_FEED_EN e.val) && s.getF (F.ENG_CTRL_FEED_TILE e.val) == t.val)

/-- The engine a message of the feed tile's inbox goes to; none when it is discarded (R248). -/
def feedTarget (s : State) (t : TileId) (m : Msg) : Option EngId :=
  if m.bytes.length ≠ 64 || m.gated then none
  else ((s.feedEngines t).filter (fun e => opType (m.bytes.getD 0 0).toNat == some (engType e.val))).foldl (fun b e =>
    match b with
    | none => some e
    | some c => if s.engHeld e < s.engHeld c then some e else b) none

/-- The oldest message that goes to the engine. -/
def feedCand (s : State) (e : EngId) : Option (TileId × Msg) :=
  if s.isF (F.ENG_CTRL_FEED_EN e.val) then
    let t : TileId := Fin.ofNat 256 (s.getF (F.ENG_CTRL_FEED_TILE e.val))
    ((s.tile t).inbox.find? (fun m => s.feedTarget t m == some e)).map (fun m => (t, m))
  else none

def ringSize (s : State) (e : EngId) : Nat := 2 ^ s.getF (F.ENG_RING_LOG2_LOG2 e.val)
def ringSlot (s : State) (e : EngId) (i : Nat) : Nat := s.getF (F.ENG_RING_BASE_BASE e.val) + i % s.ringSize e * 64
def ringCand (s : State) (e : EngId) : Bool :=
  s.getF (F.ENG_RING_HEAD_HEAD e.val) != s.getF (F.ENG_RING_TAIL_TAIL e.val) && !s.isF (F.ENG_STATUS_RING_FAULT e.val) && !s.ringOut e

def pathWaits (s : State) (e : EngId) : SubPath → Bool
  | .lamp => (s.lampCand e).isSome
  | .feed => (s.feedCand e).isSome
  | .ring => s.ringCand e

/-- The path that is served next: in rotation after the path served last, Lamplighter first (R246). -/
def nextPath (s : State) (e : EngId) : Option SubPath :=
  if s.engOpen e then
    (match (s.engine e).lastPath with
      | none => [SubPath.lamp, .feed, .ring]
      | some .lamp => [SubPath.feed, .ring, .lamp]
      | some .feed => [SubPath.ring, .lamp, .feed]
      | some .ring => [SubPath.lamp, .feed, .ring]).find? (s.pathWaits e)
  else none

/-- A descriptor enters the queue; an MXE asks for its body (08 R226). -/
def acceptDesc (s : State) (e : EngId) (d : Desc) : State :=
  let x := s.engine e
  let d := { d with serial := x.serial }
  let reads := decide (engType e.val = .mxe) && d.op == 1 && !d.descPoison && !s.headerBad e d && !(s.planOf e d).bad && !(s.planOf e d).empty
  let ps := pieces d.bodyA 128
  let push := fun (s : State) (d : Desc) =>
    let x := s.engine e
    s.setEngine e { x with queue := x.queue ++ [d], serial := x.serial + 1, lastPath := some d.path }
  if !reads then push s d
  else match s.extentFault1 e ⟨d.bodyA, 128, false, cfBody, d.bodyA⟩ with
    | some (a, c) => push (s.engFault e a c) { d with bodyFault := some (a - d.bodyA) }
    | none =>
      let xs := ps.filterMap (fun p => match s.engXlat e p.1 p.2 .read with
        | .inl _ => none
        | .inr y => some y)
      let s := push s { d with bodyLines := xs.map (fun y => (lineKey y.lineAddr y.sealed, if s.beyond e y then some ⟨0, false⟩ else none)) }
      xs.foldl (fun s y => if s.beyond e y then s.dpaErr y.addr else s.askLine e (3 + d.serial) y) s

def Desc.blank (hdr : BitVec 512) (path : SubPath) : Desc :=
  { serial := 0, hdr := hdr, descPoison := false, path := path, key := 0, item := none, from? := none, feed? := none, slot := 0,
    bodyFault := none, bodyLines := [], aborted := none }

/-- Some engine would take an item of the ward now. -/
def engineTakes (s : State) (w : WardId) : Bool :=
  (List.finRange 86).any (fun e => decide (s.engineWard e = some w) && decide (s.nextPath e = some .lamp))
/-- Some tile would be handed an item of the ward now. -/
def tileTakes (s : State) (w : WardId) : Bool :=
  !s.dispatchStopped w && (List.range 16).any (fun p => (s.poolTile w p).isSome && (s.nextItem w p).isSome)

/-- It is the ward's turn to dispatch (07 R212). -/
def dispatchTurn (s : State) (w : WardId) : Bool :=
  decide (rotateWard s.dispatchServed (fun v => v == w || s.tileTakes v || s.engineTakes v) = some w)

/-- The descriptor of an item: the template, patched, with the item's tag and SEQ (07 R207; R245). -/
def buildDesc (nd : PlanNode) (it : Item) : BitVec 512 :=
  let put := fun (v : Nat) (lo w x : Nat) => v - bitsN v lo w * 2 ^ lo + x % 2 ^ w * 2 ^ lo
  let v := (List.range 4).foldl (fun v p =>
    let c := bitsN nd.patch.toNat (8 * p) 8
    (List.range (bitsN c 3 2)).foldl (fun v i => put v (64 * (c % 8 + i)) 64 (bitsN (it.operands.getD p 0).toNat (64 * i) 64)) v) nd.template.toNat
  BitVec.ofNat 512 (put (put v 32 32 it.tag.toNat) 64 64 it.seq)

/-- Lamplighter hands an item to the engine. -/
def takeLamp (s : State) (e : EngId) : State :=
  match s.engineWard e, s.lampCand e with
  | some w, some it =>
    if !s.dispatchTurn w then s
    else
    let (it, s) := s.takeItem it false e.val
    match s.nodeByKey w it.key with
    | none => s
    | some nd => s.acceptDesc e { Desc.blank (buildDesc nd it) .lamp with key := it.key, item := some it }
  | _, _ => s

/-- A message of the feed tile becomes a descriptor. -/
def takeFeed (s : State) (e : EngId) : State :=
  match s.feedCand e with
  | none => s
  | some (t, m) =>
    let s := s.updTile t (fun tl => { tl with inbox := tl.inbox.erase m })
    s.acceptDesc e { Desc.blank (BitVec.ofNat 512 (ofLe m.bytes)) .feed with descPoison := m.poison, from? := some m.srcTile, feed? := some t }

/-- Fetch the slot at HEAD (R250, R252). -/
def takeRing (s : State) (e : EngId) : State :=
  let a := s.ringSlot e (s.getF (F.ENG_RING_HEAD_HEAD e.val))
  match s.engXlat e a 64 .read with
  | .inl c => (s.engFault e a c).setF (F.ENG_STATUS_RING_FAULT e.val) 1
  | .inr x =>
    if s.beyond e x then
      let i := s.getF (F.ENG_RING_HEAD_HEAD e.val)
      ((s.setF (F.ENG_RING_HEAD_HEAD e.val) (i + 1)).dpaErr x.addr).acceptDesc e { Desc.blank 0 .ring with slot := i }
    else (s.setEngine e { s.engine e with lastPath := some .ring }).askLine e 1 x

/-- The slot has been read: the descriptor is accepted, and HEAD advances (R250, R252). -/
def ringArrive (s : State) (e : EngId) (v : LineVal) : State :=
  let i := s.getF (F.ENG_RING_HEAD_HEAD e.val)
  (s.setF (F.ENG_RING_HEAD_HEAD e.val) (i + 1)).acceptDesc e { Desc.blank v.data .ring with descPoison := v.poison, slot := i }

/-- Accept from one path. -/
def takePath (s : State) (e : EngId) : SubPath → State
  | .lamp => s.takeLamp e
  | .feed => s.takeFeed e
  | .ring => s.takeRing e

/-- A line that an engine has read arrives. -/
def engineData (s : State) (e : EngId) (x : LEntry) (v : LineVal) : State :=
  let k := lineKey x.req.line x.req.sealed
  if x.role = 0 then let en := s.engine e; s.setEngine e { en with fetched := en.fetched.put none k (some v) }
  else if x.role = 1 then s.ringArrive e v
  else
    let en := s.engine e
    s.setEngine e { en with queue := en.queue.map (fun d =>
      if d.serial + 3 = x.role then { d with bodyLines := d.bodyLines.map (fun y => if y.1 = k then (k, some v) else y) } else d) }

/-! ### Completion (R247, R249, R251, R253; 07 R210) -/

/-- All of the descriptor's writes are committed at their homes. -/
def engCommitted (s : State) (e : EngId) : Bool := !s.engHas e (fun x => decide (x.req.kind = .wrInv) && x.role == 0)

/-- The completion record (R253). -/
def recordOf (e : EngId) (d : Desc) (r : EngRun) : BitVec 128 :=
  BitVec.ofNat 128 (r.status + 2 ^ 8 * e.val + 2 ^ 16 * (r.cflags % 256) + 2 ^ 24 * d.op + 2 ^ 32 * d.tagN + 2 ^ 64 * r.detail.toNat)

/-- What a completion counts and leaves in ENG_LAST0 and ENG_LAST1. -/
def countDone (s : State) (e : EngId) (d : Desc) (r : EngRun) : State :=
  let n := e.val
  let s := s.bumpF (F.ENG_CNT_DESCS n) 1
  let s := if engType n = .mxe then
      (s.bumpF (F.ENG_CNT_SECOND n) (bN (bitN r.rflags 4))).bumpF (F.ENG_CNT_THIRD n) (bN (bitN r.rflags 0))
    else s.bumpF (F.ENG_CNT_SECOND n) (bN (r.status != 0))
  let x := s.engine e
  s.setEngine e { x with queue := x.queue.drop 1, run := none, fetched := .empty, lastRec := recordOf e d r }

/-- The function and vector of an IRQ. -/
def engIrq (s : State) (e : EngId) (d : Desc) : State :=
  if d.irq then
    match s.engineWard e with
    | some w => s.raiseMsix (.vf w) d.vector
    | none => s.raiseMsix .pf0 d.vector
  else s

/-- An engine's item ends with its completion (07 R210). -/
def endEngineItem (s : State) (e : EngId) (d : Desc) (r : EngRun) (it : Item) : State :=
  let s := s.countDone e d r
  let lw := s.lampw it.ward
  s.setLampw it.ward { lw with running := lw.running.filter (fun x => x.item.seq != it.seq) }

/-- Emit the completion of the front descriptor through its path; unchanged while something holds it. -/
def emitDone (s : State) (e : EngId) (d : Desc) (r : EngRun) : State :=
  let rc := recordOf e d r
  let po := bitN r.cflags 0
  if s.tokensOut (.engine e) then s
  else match d.path with
    | .lamp => match d.item with
      | none => s.countDone e d r
      | some it =>
        -- the tokens leave first; the completion has been emitted, and the item ends, when all of them are accepted (07 R210, R220)
        if r.ringBack = 0 then
          let s := (s.setEngine e { s.engine e with run := some { r with ringBack := 1 } }).emitOuts it.ward it.key it.tag po rc (.engine e)
          if s.tokensOut (.engine e) then s else s.endEngineItem e d r it
        else s.endEngineItem e d r it
    | .feed =>
      if d.replyBit then
        match s.engineWard e, d.feed?, d.from? with
        | some w, some t, some dst =>
          if s.hasCredit (.tile t) w.val then
            let m : Msg := { srcTile := t, ward := w, gated := false, gate := 0, poison := po, bytes := leBytes 16 rc.toNat }
            ((s.countDone e d r).sendPkt (mkPkt .msg 0 (.tile t) (.tile dst) w w.val 0 po (.message m) noLine)).engIrq e d
          else s
        | _, _, _ => (s.countDone e d r).engIrq e d
      else (s.countDone e d r).engIrq e d
    | .ring =>
      let done := fun (s : State) =>
        ((s.countDone e d r).setF (F.ENG_RING_DONE_DONE e.val) (s.getF (F.ENG_RING_DONE_DONE e.val) + 1)).engIrq e d
      if r.ringBack = 0 then
        let a := s.ringSlot e d.slot
        match s.engXlat e a 16 .write with
        | .inl c => done (s.engFault e a c)
        | .inr x =>
          if s.beyond e x then done (s.dpaErr x.addr)
          else
            let s := s.setEngine e { s.engine e with run := some { r with ringBack := 1 } }
            let q := { Req.make .wrInv x.lineAddr (.engine e) (s.engineWard e) x.sealed with mask := rangeMask (x.addr % 64) 16 }
            s.issue { LEntry.make q (s.engCharge e) with wdata := some ⟨placeBytes (x.addr % 64) 16 rc.toNat, false⟩, hostMem := x.host, relaxed := x.relaxed, ido := x.ido, role := 2 }
      else if s.engHas e (fun x => x.role == 2) then s
      else done s

/-- The front descriptor's completion (R247): a descriptor whose OP the engine does not perform ends with PARAM
(R254), one that a reset ended with ABORTED (R269). -/
def completeDesc (s : State) (e : EngId) : State :=
  match (s.engine e).queue with
  | [] => s
  | d :: _ =>
    match (s.engine e).run with
    | some r => if s.engCommitted e then s.emitDone e d r else s
    | none =>
      let outcome : Option (Nat × W64) := match d.aborted with
        | some det => some (5, det)
        | none => if opType d.op = some (engType e.val) then none else some (if d.descPoison then 3 else 1, 0)
      match outcome with
      | none => s
      | some (st, det) =>
        let s := s.endDesc e st 0 det [] 0
        match (s.engine e).run with
        | some r => s.emitDone e d r
        | none => s

/-! ### Reset (R269–R271; 13 R367) -/

/-- The line's data has all reached its home. -/
def dataHome (s : State) (x : Nat) (l : LineAddr) : Bool :=
  (s.homeN (reqHome l)).wbufs.any (fun b => b.xid == x && decide (b.req.line = l) && b.data.isSome)
    || (s.txnAt (reqHome l) x l).any (fun t => t.wdata.isSome)

/-- An output line that is committed. -/
def outCommitted (s : State) (e : EngId) (o : OutLine) : Bool :=
  !s.ledger.waiting.any (fun x => ofEngine e x && decide (x.req.kind = .wrInv) && decide (x.req.line = o.line))
    && s.ledger.entries.cells.all (fun c => match c.2 with
      | some x => !(ofEngine e x && decide (x.req.kind = .wrInv) && decide (x.req.line = o.line)) || s.dataHome c.1 o.line
      | none => true)

/-- Offset of the last line of the longest committed prefix of the output, all ones for none (R253). -/
def committedDetail (s : State) (e : EngId) (r : EngRun) : W64 :=
  match (r.outs.takeWhile (s.outCommitted e)).getLast? with
  | some o => BitVec.ofNat 64 o.off
  | none => BitVec.allOnes 64

/-- The emission of the front descriptor's completion has been granted: its tokens are on their way (R271). -/
def emitting (s : State) (e : EngId) : Bool :=
  match (s.engine e).queue, (s.engine e).run with
  | d :: _, some r => decide (d.path = SubPath.lamp) && r.ringBack == 1
  | _, _ => false

/-- Engine reset (R269); a ward reset resets without completions (R270). A completion whose emission was granted first
stands (R271). -/
def resetEngine (s : State) (e : EngId) (silent : Bool) : State :=
  let x := s.engine e
  let stands := s.emitting e && !silent
  let late := fun (d : Desc) => { d with aborted := some (d.aborted.getD (BitVec.allOnes 64)) }
  let q := match x.run with
    | none => x.queue.map late
    | some r => match x.queue with
      | [] => []
      | d :: rest => (if stands then d else { d with aborted := some (if r.status = 5 then r.detail else s.committedDetail e r) }) :: rest.map late
  let x := { x with queue := if silent then [] else q, run := if stands then x.run else none, fetched := .empty, lastPath := if silent then none else x.lastPath }
  (s.setEngine e x).abortWhere (ofEngine e)

/-- The running descriptor ends with status FAULT (03 R113): what is not committed of it is dropped. The reads of the
bodies of later descriptors and the ring fetch go on. -/
def faultEngine (s : State) (e : EngId) : State :=
  match (s.engine e).queue with
  | [] => s
  | d :: _ =>
    if s.emitting e then s
    else (s.abortWhere (fun x => ofEngine e x && (x.role == 0 || x.role == 2 || x.role == d.serial + 3))).endDesc e 4 0 0 [] 0

/-- A write of the engine was closed with poison: its home committed nothing of it (12 R343, R346). An output line
that is lost so ends the descriptor with status POISON (DESIGN CHOICE, log 92). -/
def engineUnwritten (s : State) (e : EngId) (x : LEntry) : State :=
  let en := s.engine e
  match en.run with
  | some r =>
    if x.role = 0 ∧ (r.status = 0 ∨ r.status = 3 ∨ r.status = 6) then
      let n := if r.status = 3 then r.detail.toNat else 0
      s.setEngine e { en with run := some { r with status := 3, cflags := 1, detail := BitVec.ofNat 64 (min (2 ^ 64 - 1) (n + 1)) } }
    else s
  | none => s

/-- The engine is the port's own. -/
def ownsEngine (s : State) (p : Port) (e : EngId) : Bool :=
  match p with
  | .w w => decide (s.engineWard e = some w)
  | _ => true

/-- A tile that no engine feeds from any more goes on with the instruction that it was held in (R248, R249). -/
def feedGone (s : State) (t : TileId) : State :=
  if s.feedHeld t then s
  else match (s.tile t).mode with
    | .inRecv a rd => if (s.tile t).inbox.isEmpty then s else s.doRecv t a rd
    | _ => s.retrySender (.tile t)

/-- FEED_EN and FEED_TILE (R248; ENG_CTRL): an engine feeds only from a tile of its own ward. -/
def setFeed (s : State) (e : EngId) (en : Bool) (tile : TileId) : State :=
  let ok := (s.engineWard e).isSome && decide (s.tileWard tile = s.engineWard e)
  let old : TileId := Fin.ofNat 256 (s.getF (F.ENG_CTRL_FEED_TILE e.val))
  let s1 := ((s.setF (F.ENG_CTRL_FEED_TILE e.val) tile.val).setB (F.ENG_CTRL_FEED_EN e.val) (en && ok)).feedGone old
  if en && !ok then s1.setF (F.ENG_CTRL_CLAMPED e.val) 1 else s1

/-- A read of ENG_LAST0 captures the whole record. -/
def captureLast (s : State) (e : EngId) : State := let x := s.engine e; s.setEngine e { x with capture := x.lastRec }

/-- TAIL: at most DONE + ring size (R250). -/
def writeTail (s : State) (e : EngId) (val : Nat) : State :=
  let v := val % 65536
  let dn := s.getF (F.ENG_RING_DONE_DONE e.val)
  if (v + 65536 - dn) % 65536 ≤ s.ringSize e then s.setF (F.ENG_RING_TAIL_TAIL e.val) v
  else (s.setF (F.ENG_RING_TAIL_TAIL e.val) (dn + s.ringSize e)).setF (F.ENG_CTRL_CLAMPED e.val) 1

end State

/-! ### The commands -/

/-- ENGINE_ACCEPT (R246). -/
def execEngineAccept (e : EngId) (s : State) : Result :=
  .next (match s.nextPath e with
    | none => s
    | some p => s.takePath e p)
/-- WORK_DISPATCH_TILE (spec 07 R206, R212). -/
def execWorkDispatchTile (w : WardId) (pool : Fin 16) (s : State) : Result :=
  .next (let s := s.tracePumpAll; if s.dispatchTurn w then s.dispatchTile w pool else s)
/-- WORK_DISPATCH_ENGINE (spec 07 R207). -/
def execWorkDispatchEngine (w : WardId) (ty : EngType) (s : State) : Result :=
  .next (match s.leastLoaded w ty with
    | none => s
    | some e => if s.nextPath e = some .lamp then s.takeLamp e else s)
/-- FEED_MESSAGE (R248): the first message that is discarded, or that its engine takes. -/
def execFeedMessage (t : TileId) (s : State) : Result :=
  .next (if (s.feedEngines t).isEmpty || !s.coreActive then s
    else match (s.tile t).inbox.findSome? (fun m => match s.feedTarget t m with
        | none => some (none, m)
        | some e => if s.nextPath e = some .feed then some (some e, m) else none) with
      | none => s
      | some (some e, _) => s.takeFeed e
      | some (none, m) => (s.updTile t (fun tl => { tl with inbox := tl.inbox.erase m })).bumpF (F.TIL_AVE_CNT_DISCARD t.val) 1)
/-- RING_FETCH (R250, R252). -/
def execRingFetch (e : EngId) (s : State) : Result := .next (if s.nextPath e = some .ring then s.takeRing e else s)
/-- A write of ENG_RING_TAIL (R250); it waits for the Bulk Port writes of its function (10 R292). -/
def execRingTailWrite (p : Port) (e : EngId) (val : Nat) (s : State) : Result :=
  .next (s.hostWrite p (F.ENG_RING_TAIL_TAIL e.val).off (State.engVf e 0x20) val (s.ownsEngine p e) (fun s => s.writeTail e val))
/-- Software clears RING_FAULT (R252). -/
def execRingFaultClear (p : Port) (e : EngId) (s : State) : Result :=
  .next (s.hostWrite p (F.ENG_STATUS_RING_FAULT e.val).off (State.engVf e 8) 64 (s.ownsEngine p e) (fun s => s.setF (F.ENG_STATUS_RING_FAULT e.val) 0))
/-- A write of FEED_EN and FEED_TILE (R248; ENG_CTRL). -/
def execFeedEnWrite (p : Port) (e : EngId) (en : Bool) (tile : TileId) (s : State) : Result :=
  .next (s.hostWrite p (F.ENG_CTRL_FEED_EN e.val).off (State.engVf e 0) (State.inWord (F.ENG_CTRL_FEED_TILE e.val) tile.val (State.inWord (F.ENG_CTRL_FEED_EN e.val) (bN en) (s.keptWord (F.ENG_CTRL_FEED_EN e.val).off))) (s.ownsEngine p e) (fun s => s.setFeed e en tile))
/-- ENG_CTRL.RESET (R269). -/
def execEngineReset (p : Port) (e : EngId) (s : State) : Result :=
  .next (s.hostWrite p (F.ENG_CTRL_RESET e.val).off (State.engVf e 0) (State.inWord (F.ENG_CTRL_RESET e.val) 1 (s.keptWord (F.ENG_CTRL_RESET e.val).off)) (s.ownsEngine p e) (fun s => s.resetEngine e false))
/-- A read of ENG_LAST0 captures the record (spec 09, ENG_ registers). -/
def execEngLast0Read (p : Port) (e : EngId) (s : State) : Result :=
  .next (s.hostRead p (F.ENG_LAST0_VALUE e.val).off (0x80040 + 0x1000 * e.val) (s.ownsEngine p e)
    (fun s => ((s.engine e).lastRec.toNat % 2 ^ 64, s.captureLast e)))
/-- GEMM (spec 08 R231). -/
def execGemm (e : EngId) (s : State) : Result := .next (s.opCmd e 0x01)
/-- EWE ADD (R258). -/
def execEweAdd (e : EngId) (s : State) : Result := .next (s.opCmd e 0x10)
/-- EWE MUL (R258). -/
def execEweMul (e : EngId) (s : State) : Result := .next (s.opCmd e 0x11)
/-- AXPBY (R258). -/
def execAxpby (e : EngId) (s : State) : Result := .next (s.opCmd e 0x12)
/-- UNARY (R258, R259). -/
def execUnary (e : EngId) (s : State) : Result := .next (s.opCmd e 0x13)
/-- CONVERT (R258). -/
def execConvert (e : EngId) (s : State) : Result := .next (s.opCmd e 0x14)
/-- ROWNORM (R258, R259). -/
def execRownorm (e : EngId) (s : State) : Result := .next (s.opCmd e 0x15)
/-- SOFTMAX (R258, R259). -/
def execSoftmax (e : EngId) (s : State) : Result := .next (s.opCmd e 0x16)
/-- ADAMW (R260). -/
def execAdamw (e : EngId) (s : State) : Result := .next (s.opCmd e 0x20)
/-- SGDM (R260). -/
def execSgdm (e : EngId) (s : State) : Result := .next (s.opCmd e 0x21)
/-- FACTORED (R260). -/
def execFactored (e : EngId) (s : State) : Result := .next (s.opCmd e 0x22)
/-- GATHER (R261, R263). -/
def execGather (e : EngId) (s : State) : Result := .next (s.opCmd e 0x30)
/-- SCATTER (R261–R263). -/
def execScatter (e : EngId) (s : State) : Result := .next (s.opCmd e 0x31)
/-- SCATTER_ADD (R261–R263). -/
def execScatterAdd (e : EngId) (s : State) : Result := .next (s.opCmd e 0x32)
/-- PACK (R261, R263). -/
def execPack (e : EngId) (s : State) : Result := .next (s.opCmd e 0x33)
/-- SUM (R264). -/
def execSum (e : EngId) (s : State) : Result := .next (s.opCmd e 0x40)
/-- ALLREDUCE (R264). -/
def execAllreduce (e : EngId) (s : State) : Result := .next (s.opCmd e 0x41)
/-- COPY (R265). -/
def execCopy (e : EngId) (s : State) : Result := .next (s.opCmd e 0x50)
/-- FILL (R265). -/
def execBmeFill (e : EngId) (s : State) : Result := .next (s.opCmd e 0x51)
/-- STRIDED (R265). -/
def execStrided (e : EngId) (s : State) : Result := .next (s.opCmd e 0x52)
/-- SHA256 (R266). -/
def execSha256 (e : EngId) (s : State) : Result := .next (s.opCmd e 0x60)
/-- CRC64 (R266). -/
def execCrc64 (e : EngId) (s : State) : Result := .next (s.opCmd e 0x61)
/-- ENGINE_COMPLETE (R247). -/
def execEngineComplete (e : EngId) (s : State) : Result := .next (if s.power.coreUp then s.completeDesc e else s)

end Sys2Proof.Machine
end

