-- ==== Sys2Proof/Machine/Wards.lean ====
section
/-! DEFINITION. Ward reset and debug consent (spec 01 R39, R42, R46, R48–R51), and the Swap Report that an
abandoned swap leaves (02 R88, R90). -/

namespace Sys2Proof.Machine

/-- The owner of the block that an offset lies in, for the blocks of one ward. -/
def State.blockWard (s : State) (off : Nat) : Option WardId :=
  match blockAt off with
  | some (.wrd, b) => some (Fin.ofNat 8 ((b - 0x20000) / 0x1000))
  | some (.fltw, b) => some (Fin.ofNat 8 ((b - 0x34000) / 0x1000))
  | some (.lmpw, b) => some (Fin.ofNat 8 ((b - 0x51000) / 0x1000))
  | some (.ldgw, b) => some (Fin.ofNat 8 ((b - 0x60100) / 0x40))
  | some (.til, b) => s.tileWard (Fin.ofNat 256 ((b - 0x100000) / 0x10000 * 16 + (b % 0x10000 - 0x8000) / 0x400))
  | some (.eng, b) => s.engineWard (Fin.ofNat 86 ((b - 0x300000) / 0x1000))
  | some (.blk, b) => if b = 0x800000 then none else some (Fin.ofNat 8 ((b - 0x801000) / 0x1000))
  | _ => none

/-- One entry of the Swap Report (02 R90). -/
def rptEntry (etype num key tag port time : Nat) : List Byte :=
  leBytes 1 etype ++ leBytes 1 num ++ leBytes 2 0 ++ leBytes 4 key ++ leBytes 4 tag ++ leBytes 1 port ++ leBytes 3 0 ++ leBytes 8 time ++ leBytes 8 0

/-- What a swap counts for its report. -/
structure SwapCounts where
  kept : Nat
  dropped : Nat
  rebound : Nat
  lapsed : Nat
  edges : Nat
  unclaimed : Nat
  deriving DecidableEq, Repr

/-- Bytes numbered from `o`. -/
def byteTbl : Nat → List Byte → Tbl Byte → Tbl Byte
  | _, [], t => t
  | o, b :: r, t => byteTbl (o + 1) r (t.put 0 o b)

namespace State

def wardTiles (s : State) (w : WardId) : List TileId := (List.finRange 256).filter (fun t => (s.own w).tiles.getLsbD t.val)
def wardEngines (s : State) (w : WardId) : List EngId := (List.finRange 86).filter (fun e => (s.own w).engines.getLsbD e.val)

/-! ### The Swap Report (02 R90) -/

def swapReport (s : State) (w : WardId) (result : Nat) (oldId newId : W64) (startTick clamps : Nat) (c : SwapCounts) (entries : List (List Byte)) : State :=
  let hdr := leBytes 1 w.val ++ leBytes 1 result ++ leBytes 2 0 ++ leBytes 4 entries.length ++ leBytes 8 oldId.toNat ++ leBytes 8 newId.toNat
    ++ leBytes 8 startTick ++ leBytes 8 s.tickCount ++ leBytes 4 c.kept ++ leBytes 4 c.dropped ++ leBytes 4 c.rebound ++ leBytes 4 c.lapsed
    ++ leBytes 2 c.edges ++ leBytes 2 c.unclaimed ++ leBytes 4 clamps
  { s with swapRpt := byteTbl 0 (hdr ++ (entries.take 510).flatten) .empty }

/-- A swap is abandoned: nothing is installed (02 R88; R51). -/
def abandonSwap (s : State) (result : Nat) : State :=
  match s.job with
  | .swap w sec clamps tick _ =>
    let s := s.swapReport w result (s.sec w).planId sec.planId tick clamps ⟨0, 0, 0, 0, 0, 0⟩ [rptEntry 3 0 0 0 0 s.tickCount]
    let s := (s.setF (F.WRD_STATUS_SWAPPING w.val) 0).setF F.PLN_STATUS_RESULT result
    ({ s with job := .idle }).setF F.PLN_STATUS_BUSY 0
  | .read (some w) _ _ got =>
    -- still in step 2: START_TICK, and NEW_ID before the header is read, are not stated (DESIGN CHOICE, log 52)
    let (a, s) := s.free
    let (b, s) := s.free
    let newId : W64 := match got.getLast? with
      | some v => BitVec.ofNat 64 (lineBytes v.data 16 8)
      | none => BitVec.ofNat 64 a
    let s := s.swapReport w result (s.sec w).planId newId (b % 2 ^ 64) 0 ⟨0, 0, 0, 0, 0, 0⟩ [rptEntry 3 0 0 0 0 s.tickCount]
    ({ s.setF F.PLN_STATUS_RESULT result with job := .idle }).setF F.PLN_STATUS_BUSY 0
  | _ => s

/-! ### Halts that end (19 R505, R509, R510; R42) -/

/-- Some tile of the ward is in a scope of Lantern. -/
def scopeTouches (s : State) (scope target : Nat) (w : WardId) : Bool := (s.wardTiles w).any (s.scopeCovers scope target) || (scope == 2 && target == w.val)

/-- The halts that `p` selects are lifted: tiles that no halt covers go on, and delay entries held by a freeze
fire. -/
def liftHalts (s : State) (p : LHalt → Bool) : State :=
  let s := { s with lantern := { s.lantern with halts := s.lantern.halts.filter (fun h => !p h) } }
  let s := (List.finRange 256).foldl (fun s t =>
    if (s.tile t).halted && !s.haltCovers t then s.updTile t (fun tl => { tl with halted := false, stepping := false, stepDone := false }) else s) s
  s.fireDue

/-- RUN consent of a ward has been cleared: its comparators are removed and it resumes (DEDUCED, log 53). -/
def revokeRun (s : State) (w : WardId) : State :=
  let s := (List.range 8).foldl (fun s n =>
    if s.scopeTouches (s.getF (F.LNT_BP_CTRL_SCOPE n)) (s.getF (F.LNT_BP_CTRL_TARGET n)) w then s.setF (F.LNT_BP_CTRL_EN n) 0 else s) s
  let s := (List.range 4).foldl (fun s n =>
    if s.scopeTouches (s.getF (F.LNT_WP_CTRL_SCOPE n)) (s.getF (F.LNT_WP_CTRL_TARGET n)) w then s.setF (F.LNT_WP_CTRL_EN n) 0 else s) s
  s.liftHalts (fun h => decide (h.scope ≠ 3) && s.scopeTouches h.scope h.target w)

/-! ### Ward reset, steps 2 and 3 (R48) -/

/-- The tile's SEND or PUTTOK through gate `g` has not left its crossing. -/
def gateWaiter (s : State) (g : Nat) (t : TileId) : Bool :=
  match (s.tile t).mode, s.tileWard t with
  | .inSend _ _ d, some w => (s.route w d).any (fun r => r.gate == g)
  | .inPuttok a, some _ => !s.puttokOut t && (let tk := tokenOf ((s.tile t).lsBytes a 32); tk.gated && tk.node.toNat % 16 == g)
  | _, _ => false

/-- A gate that touches the ward is emptied, and every sender that is blocked on it completes: those whose item stands at
the gate, and, behind a full gate, those whose item has not left their crossing (R39). -/
def emptyGate (s : State) (g : Nat) : State :=
  let full : Bool := decide (8 ≤ (s.gateBuf g).length)
  let s := (s.bumpF (F.GBL_GATE_CNT_DISC_RESET g) (s.gateBuf g).length).setGateBuf g []
  let s := if full then (List.finRange 256).foldl (fun s t =>
      if s.gateWaiter g t then (s.bumpF (F.GBL_GATE_CNT_DISC_RESET g) 1).retireAlone t else s) s else s
  (List.range (s.net.length + s.arrivals.length)).reverse.foldl (fun s i => match s.gateItem g i with
    | none => s
    | some (_, src) => ((s.takeGateItem i).bumpF (F.GBL_GATE_CNT_DISC_RESET g) 1).gateSrcDone src) s

def emptyGates (s : State) (w : WardId) : State :=
  (List.range 16).foldl (fun s g => match s.gate g with
    | none => s
    | some gt => if gt.src = w.val ∨ gt.dst = w.val then s.emptyGate g else s) s

/-- Transactions that a ward reset aborts: those of the ward's tiles, engines and trace (13 R368). -/
def abortsForWard (w : WardId) (e : LEntry) : Bool :=
  e.charge == .ward w && (match e.req.src with
    | .tile _ => true
    | .engine _ => true
    | .trace _ => true
    | _ => false)

/-- WARD RESET begins. A ward that resets already goes on. -/
def startWardReset (s : State) (w : WardId) : State :=
  if !s.coreRuns || s.resettingWard w then s
  else
    let s := match s.job with
      | .swap v _ _ _ _ => if v = w then s.abandonSwap 11 else s
      | .read (some v) _ _ _ => if v = w then s.abandonSwap 11 else s
      | _ => s
    let s := ((s.setF (F.WRD_STATUS_RESETTING w.val) 1).emptyGates w).setLampw w LampWard.init
    let s := { s with arrivals := s.arrivals.filter (fun x => x.1 != w), wardStep := s.wardStep.put 0 w.val 3 }
    let s := s.killPackets (fun p => decide (p.chan = .msg) && p.lane != 8 && p.ward == w)
    let s := (s.wardTiles w).foldl (fun s t => s.resetTile t true) s
    let s := (s.wardEngines w).foldl (fun s e => s.resetEngine e true) s
    s.abortWhere (abortsForWard w)

/-! ### Step 4: copies -/

/-- A holder is taken out of a line's entry without a snoop. -/
def dirRemove (s : State) (h n : Nat) (q : Fin 17) : State :=
  match s.dirGet h n with
  | none => s
  | some d =>
    let p := d.pres &&& ~~~ BitVec.ofNat 17 (2 ^ q.val)
    s.dirPut h n (if p = 0 then none else some { d with pres := p })

/-- A copy is discarded without write-back. A line that is being upgraded keeps the bytes stored since. -/
def discardWay (s : State) (q : QuarterId) (set w : Nat) : State :=
  let c := (s.quarter q).way set w
  if !c.held || decide (c.st = CState.im) then s
  else
    let s := if c.st = CState.sm then s.putWay q set w { c with st := .im, valid := c.upgMask } else s.putWay q set w CWay.free
    (s.staleCopies q c.line none).dirRemove (reqHome c.line) c.line.n (quarterHolder q)

/-- Every copy of the quarters that `p` selects is discarded. -/
def discardWays (s : State) (p : QuarterId → CWay → Bool) : State :=
  (List.finRange 16).foldl (fun s q => (s.quarter q).ways.cells.foldl (fun s c => if p q c.2 then s.discardWay q (c.1 / 16) (c.1 % 16) else s) s) s

/-- The host's copies of lines that `p` selects are back-invalidated; what it returns is discarded. A home that works on
the line already is left to end that first. -/
def backInvalidate (s : State) (p : LineAddr → Bool) : State :=
  (List.range 16).foldl (fun s h => (s.homeN h).dir.cells.foldl (fun s c => match c.2 with
    | some d =>
      let l : LineAddr := ⟨false, c.1⟩
      if d.pres.getLsbD 16 && p l && !s.lineActive h l then
        (s.addTxn h { Txn.start (32768 + c.1) (Req.make .evict l .host none false) l with phase := .snoop [hostHolder] }).sendSnoop h (32768 + c.1) l .snpInv hostHolder
      else s
    | none => s) s) s

/-- The ward's host-window lines leave: the modified ones to the host, of the others a notice. -/
def leaveHostLines (s : State) (w : WardId) : State :=
  (List.finRange 16).foldl (fun s q => (s.quarter q).ways.cells.foldl (fun s c =>
    if c.2.ward = w ∧ c.2.line.host then s.drainLine q (c.1 / 16) (c.1 % 16) false else s) s) s

/-- The scratch ways of a mask for each quarter are zeroed. -/
def zeroWays (s : State) (mask : QuarterId → BitVec 16) : State :=
  (List.finRange 16).foldl (fun s q =>
    let m := mask q
    let hit := fun (place : Nat) => m.getLsbD (place / 262144)
    s.updQuarter q (fun x => { x with
      scratch := x.scratch.drop hit, scratchPoison := x.scratchPoison.drop (fun k => hit (k * 8)),
      scratchErrs := x.scratchErrs.drop hit, scratchTagBad := x.scratchTagBad.drop (fun k => hit (k * 64)) })) s

/-- The ward's scratch ways are zeroed. -/
def zeroScratch (s : State) (w : WardId) : State := s.zeroWays (fun q => (s.own w).scratch.getD q.val 0)

/-! ### Steps 4 and 5 -/

/-- Nothing is held for or waits for the ward in the Ledger. -/
def ledgerClear (s : State) (w : WardId) : Bool := s.heldBy w == 0 && !s.ledger.waiting.any (fun e => e.charge == .ward w)

/-- Some home works on a line of the ward's regions. -/
def regionBusy (s : State) (w : WardId) : Bool := (List.range 16).any (fun h => (s.homeN h).txns.any (fun t => s.wardLine w t.line))

/-- Requests that a reset ward's regions held go on. -/
def pumpHeld (s : State) : State :=
  (List.range 16).foldl (fun s h => (s.homeN h).refused.foldl (fun s e => s.pump h e.2.line (s.homeFuel h)) s) s

/-- Clear the init bits of the ward's regions and erase its key (step 5). -/
def forgetRegions (s : State) (w : WardId) : State :=
  let s := ((s.wardWins w).flatMap (fun x => regionsOf x.target (x.target + x.size))).foldl clearRegion s
  { s with keys := s.keys.put none w.val none, keyInstall := s.keyInstall.filter (fun k => k.1 != w) }

/-- Steps 4 and 5; step 4 ends when the ward's last host-window line has left (DESIGN CHOICE, log 45). -/
def wipeWard (s : State) (w : WardId) : State :=
  if !(s.resettingWard w && s.wardStep.get 0 w.val == 3 && !s.link.cxlResetBusy && s.ledgerClear w && !s.regionBusy w && !s.bulkOut (.vf w)) then s
  else
    let s := (s.discardWays (fun _ c => c.ward == w && !c.line.host)).leaveHostLines w
    let s := (s.backInvalidate (s.wardLine w)).zeroScratch w
    if s.regionBusy w then s
    else if (List.finRange 16).any (fun q => (s.quarter q).ways.cells.any (fun c => c.2.held && c.2.ward == w)) then s
    else
      let s := s.forgetRegions w
      ({ s with wardStep := s.wardStep.put 0 w.val 5 }).pumpHeld

/-! ### Steps 6 and 7 -/

/-- The registers of the ward's blocks that ward reset clears. -/
def clearWardRegs (s : State) (w : WardId) : State :=
  { s with fld := s.fld.drop (fun k => decide (s.blockWard (k / 128) = some w) && (fldClass k == some .ward || fldClass k == some .tile)) }

/-- The MSI-X state of a VF as FLR leaves it. -/
def resetVfMsix (s : State) (w : WardId) : State :=
  let fn := w.val + 1
  let l := s.link
  { s with link := { l with msix := l.msix.drop (fun k => k / 1024 == fn), cfg := l.cfg.drop (fun k => k == fn * 4096 + 0x92 || k == fn * 4096 + 0x93) } }

/-- The ward's engines as ward reset leaves them: ENG_LAST0, ENG_LAST1 and the capture are cleared (09, ENG_
registers). -/
def clearWardEngines (s : State) (w : WardId) : State :=
  (s.wardEngines w).foldl (fun s e => s.setEngine e { Engine.init with serial := (s.engine e).serial }) s

/-- WARD RESET ends: the section stays loaded, with empty matching store and delay lists. -/
def endWardReset (s : State) (w : WardId) : State :=
  let s := ((s.revokeRun w).clearWardRegs w).resetVfMsix w
  let s := s.clearWardEngines w
  let s := { s with link := { s.link with bulk := s.link.bulk.put Bulk.init (w.val + 1) Bulk.init, flr := s.link.flr.filter (fun v => v != w.val) } }
  let s := s.setLampw w LampWard.init
  ((s.setF (F.WRD_STATUS_QUARANTINED w.val) 0).setF (F.WRD_STATUS_RESETTING w.val) 0)
    |> (fun s => { s with wardStep := s.wardStep.put 0 w.val 0 })

/-- The ports that start a ward reset: S for every ward, W for its own (R19, R44, R50). -/
def wardResetDone (s : State) (w : WardId) : State :=
  if s.resettingWard w && s.wardStep.get 0 w.val == 5 && !s.link.cxlResetBusy && s.ledgerClear w then s.endWardReset w else s

/-- WRD_DBG_CONSENT (R42, R46): the ward sets and clears; a 1 from S clears. -/
def writeConsent (s : State) (w : WardId) (byWard : Bool) (v : Nat) : State :=
  let had := s.isF (F.WRD_DBG_CONSENT_RUN w.val)
  let new := fun (f : Fld) (i : Nat) => if byWard then bitN v i else s.isF f && !bitN v i
  let r := new (F.WRD_DBG_CONSENT_REGS w.val) 0
  let m := new (F.WRD_DBG_CONSENT_MEM w.val) 1
  let u := new (F.WRD_DBG_CONSENT_RUN w.val) 2
  let s := ((s.setB (F.WRD_DBG_CONSENT_REGS w.val) r).setB (F.WRD_DBG_CONSENT_MEM w.val) m).setB (F.WRD_DBG_CONSENT_RUN w.val) u
  if had && !u then s.revokeRun w else s

end State

/-- WRD_CTRL.RESET (R44, R48). -/
def execWardReset (p : Port) (w : WardId) (s : State) : Result :=
  .next (s.hostWrite p (F.WRD_CTRL_RESET w.val).off (State.ownVf p w 0x1000) (State.inWord (F.WRD_CTRL_RESET w.val) 1 (s.keptWord (F.WRD_CTRL_RESET w.val).off)) true
    (fun s => s.startWardReset w))
/-- Steps 4 and 5 of a ward reset (R48). -/
def execWardResetWipe (w : WardId) (s : State) : Result := .next (s.wipeWard w)
/-- Steps 6 and 7 of a ward reset (R48). -/
def execWardResetDone (w : WardId) (s : State) : Result := .next (s.wardResetDone w)
/-- A write of WRD_DBG_CONSENT (R42, R46): the ward sets and clears; a 1 from S clears. -/
def execDbgConsentWrite (p : Port) (w : WardId) (val : BitVec 3) (s : State) : Result :=
  .next (s.hostWrite p (F.WRD_DBG_CONSENT_REGS w.val).off (State.ownVf p w 0x1010) val.toNat true (fun s => s.writeConsent w (p != .s) val.toNat))

end Sys2Proof.Machine
end

