-- ==== Sys2Proof/Machine/Plan.lean ====
section
/-! DEFINITION. The plan loader's commands (spec 02 R78–R90): load, swap, seal and the boot plan. -/

namespace Sys2Proof.Machine

namespace State

/-! ### READY (00 R3; 17 R469) -/

/-- READY: the boot plan is loaded, CXL.mem is Memory Active, and the device is not dim (DEDUCED, log 74). -/
def readyNow (s : State) : Bool :=
  s.power.bootDone && !s.isF F.PLN_STATUS_NO_BOOT && s.isF F.LNK_STATUS_MEM_ACTIVE && s.getF F.SUP_DIM_STATE == 0
def updReady (s : State) : State := { s with ready := s.readyNow }

/-! ### Outcomes -/

def planBusy (s : State) : Bool := s.isF F.PLN_STATUS_BUSY || !s.power.bootDone
def refusePlan (s : State) : State := s.setF F.PLN_STATUS_REFUSED 1

/-- The Clamp Report and its counts (R77). Places beyond the new records read 0 (DESIGN CHOICE, log 82). -/
def clampReport (s : State) (recs : List ClampRec) : State :=
  let s := { s with clampRpt := recs.take 1024 }
  (s.setF F.PLN_STATUS_CLAMPS (min 0xFFFF recs.length)).setB F.PLN_STATUS_RPT_OVF (decide (1024 < recs.length))

def planResult (s : State) (n : Nat) : State := s.setF F.PLN_STATUS_RESULT n

/-- Inject a section's initial tokens (R72). -/
def injectInits (s : State) (w : WardId) : State := (s.sec w).inits.foldl (fun s tk => s.arriveTok w tk .init) s

/-- Install a full plan (R81 step 3, R83 steps 5 and 6): ownership, shares, the tick period, every section and the
initial tokens of the sections that go live. Every tile begins as after ward reset. Edges latched on the pins are dropped
(DESIGN CHOICE, log 52), and the gate counters clear (06 R191). -/
def installPlan (s : State) (img : List Byte) : State :=
  let (plan, recs, autoSeal) := clampFull img s.capacity s.fuses.defects
  let s := { s with plan := plan }
  let s := (List.finRange 256).foldl (fun s t => s.resetTile t true) s
  let s := (List.range 16).foldl (fun s g =>
    ((s.setF (F.GBL_GATE_CNT_DELIVERED g) 0).setF (F.GBL_GATE_CNT_DISC_KEY g) 0).setF (F.GBL_GATE_CNT_DISC_RESET g) 0) s
  let s := (List.finRange 8).foldl (fun s w =>
    let o := s.own w
    let s := ((s.setLampw w LampWard.init).setF (F.LDGW_SHARE_MIN w.val) o.ldgMin).setF (F.LDGW_SHARE_CEIL w.val) o.ldgCeil
    if (s.sec w).loaded then s.setF (F.PLN_WARD_ID_VALUE w.val) plan.planId.toNat else s) s
  let s := (List.finRange 8).foldl (fun s p => s.setPin p { s.pin p with edge := none }) s
  let s := (s.setF F.LMP_TICK_PERIOD plan.period).clampReport recs
  let s := (s.setF F.PLN_PLAN_ID_VALUE plan.planId.toNat).setF F.PLN_STATUS_LOADED 1
  let s := (s.planResult (if recs.isEmpty then 1 else 2)).setF F.PLN_STATUS_BUSY 0
  let s := if autoSeal then s.setF F.PLN_STATUS_SEALED 1 else s
  (List.finRange 8).foldl injectInits { s with job := .idle }

/-! ### LOAD (R83, R84) -/

def supEngines (s : State) : List EngId := (List.finRange 86).filter (fun e => (s.engineWard e).isNone)

/-- No ward resets, and no tile or engine runs or holds a Ledger entry (R83 step 4). -/
def loadQuiet (s : State) : Bool :=
  (List.finRange 8).all (fun w => !s.resettingWard w && s.ledgerClear w)
    && (List.finRange 86).all (fun e => (s.engine e).queue.isEmpty && !s.engHas e (fun _ => true))

/-- The ward whose scratch a way of a quarter is. -/
def scratchOwner (own : WardId → Own) (q : QuarterId) (w : Nat) : Option WardId := (List.finRange 8).find? (fun v => ((own v).scratch.getD q.val 0).getLsbD w)

/-- A way holds a line of a ward that the new plan does not give the way to (11 R309). -/
def strayWay (own : WardId → Own) (q : QuarterId) (place : Nat) (c : CWay) : Bool := c.held && !((own c.ward).ways.getD q.val 0).getLsbD (place % 16)

/-- The scratch ways that change use. -/
def scratchMoves (s : State) (own : WardId → Own) (q : QuarterId) : BitVec 16 :=
  (List.range 12).foldl (fun m w => if scratchOwner s.own q w = scratchOwner own q w then m else m ||| BitVec.ofNat 16 (2 ^ w)) 0

/-- Step 5: the ways that change use drain, and are zeroed; then the plan is installed. Until then every tile is held in
reset, so that none changes owner while it runs (R83; 11 R309). -/
def finishPlan (s : State) : State :=
  match s.job with
  | .load img =>
    let s := (List.finRange 256).foldl (fun s t => s.resetTile t true) s
    if !s.loadQuiet then s
    else
      let own : WardId → Own := fun w => (clampFull img s.capacity s.fuses.defects).1.own.get Own.nothing w.val
      let s := (List.finRange 16).foldl (fun s q => (s.quarter q).ways.cells.foldl (fun s c =>
        if strayWay own q c.1 c.2 then s.drainLine q (c.1 / 16) (c.1 % 16) false else s) s) s
      if (List.finRange 16).any (fun q => (s.quarter q).ways.cells.any (fun c => strayWay own q c.1 c.2)) || !s.loadQuiet then s
      else (s.zeroWays (s.scratchMoves own)).installPlan img
  | _ => s

/-- A SWAP has been read: its section is clamped, and the ward's dispatch stops (R85 steps 2 to 4). -/
def beginSwap (s : State) (w : WardId) (img : List Byte) : State :=
  let (sec, recs) := clampWard img s.plan w s.capacity
  let s := (s.clampReport recs).setF (F.WRD_STATUS_SWAPPING w.val) 1
  { s with job := .swap w sec recs.length s.tickCount s.supTime }

/-- A LOAD has been read: every ward and every supervisor engine is reset (R83 step 4). -/
def beginLoad (s : State) (img : List Byte) : State :=
  let s := (List.finRange 8).foldl startWardReset { s with job := .load img }
  s.supEngines.foldl (fun s e => s.resetEngine e false) s

/-! ### Reading a staged image (R80; 13 R357) -/

/-- The bytes read, and whether any line of them is poisoned. -/
def gotImage (got : List LineVal) : List Byte := (got.reverse.map (fun v => bytesOfLine v.data)).flatten

/-- The image has been read: it is checked under R58. -/
def checkStaged (s : State) (swap : Option WardId) (len : Nat) (got : List LineVal) : State :=
  let img := gotImage got
  match rejectCode img len (got.any (·.poison)) swap with
  | 0 => match swap with
    | none => s.beginLoad (img.take len)
    | some w => s.beginSwap w (img.take len)
  | r => (({ s with job := .idle }).planResult r).setF F.PLN_STATUS_BUSY 0

/-- The loader asks for its next line, one after another: a coherent supervisor read, through no window and with no
seal, of a reserve entry; the line that holds the header is always read. A line at or above capacity reads 0 (01 R30). -/
def askNext (s : State) : Nat → State
  | 0 => s
  | k + 1 => match s.job with
    | .read swap base len got =>
      if max len 64 ≤ got.length * 64 then s.checkStaged swap len got
      else
        let n := base / 64 + got.length
        if s.capacity ≤ n * 64 then ({ s.dpaErr (n * 64) with job := .read swap base len (⟨0, false⟩ :: got) }).askNext k
        else s.issue (LEntry.make (Req.make .rdC ⟨false, n⟩ .loader none false) .reserve)
    | _ => s

/-- Enough steps for the lines that are left. -/
def loaderFuel (s : State) : Nat :=
  match s.job with
  | .read _ _ len got => len / 64 + 3 - got.length
  | _ => 1

/-- A line of the staged image has arrived. -/
def loaderLine (s : State) (l : LineAddr) (v : LineVal) : State :=
  match s.job with
  | .read swap base len got =>
    if l.host || l.n ≠ base / 64 + got.length then s
    else
      let s := { s with job := .read swap base len (v :: got) }
      s.askNext s.loaderFuel
  | _ => s

/-- A line that a CXL Reset has taken from the loader is asked for again, once the reset is over (13 R368; DEDUCED, log 29). -/
def loaderRetry (s : State) : State :=
  let mine := fun (e : LEntry) => e.req.src == .loader && !e.aborted
  if s.link.cxlResetBusy || s.ledger.waiting.any mine || s.held mine != 0 then s else s.askNext s.loaderFuel

/-- BUSY is set, and the staged image is read (R83 steps 2 and 3; R85 step 2). -/
def startRead (s : State) (swap : Option WardId) : State :=
  let s := { s.setF F.PLN_STATUS_BUSY 1 with job := .read swap (s.getF F.PLN_IMG_DPA_DPA) (s.getF F.PLN_IMG_LEN_LEN) [] }
  s.askNext s.loaderFuel

def startLoad (s : State) : State :=
  if s.planBusy then s.refusePlan
  else if s.isF F.PLN_STATUS_SEALED then s.planResult 9
  else s.startRead none

/-! ### SWAP (R85–R89) -/

def startSwap (s : State) (w : WardId) : State :=
  if s.planBusy || s.resettingWard w then s.refusePlan else s.startRead (some w)

/-- A held token as it was sent. -/
def heldAsToken (w : WardId) (key : BitVec 32) (h : HeldTok) : Token :=
  { node := key, port := BitVec.ofNat 8 h.port, tflags := BitVec.ofNat 8 (bN h.poison + 2 * bN h.last + 4 * bN h.standing + 8),
    sward := BitVec.ofNat 8 w.val, list := 0, tag := h.tag, delay := 0, payload := h.payload }

/-- Ready items and held tokens go over to the new section, in their order (R86): those whose node key it has are
kept under the new node, the others are discarded. Gives what was kept and what was discarded (DEDUCED, log 52). -/
def carryTokens (s : State) (w : WardId) (old new : WardSec) : State × Nat × Nat :=
  let lw := s.lampw w
  let node := fun (k : BitVec 32) => new.nodes.find? (fun n => n.key == k)
  let ready := lw.ready.filterMap (fun it => (node it.key).map (fun nd => { it with node := nd.index, cls := nd.cls }))
  let toks := lw.tokens.filterMap (fun h => (old.nodes.find? (fun n => n.index == h.node)).bind (fun o => (node o.key).bind (fun nd =>
    if nd.arity ≤ h.port then none else some (nd, heldAsToken w nd.key h))))
  let s := s.setLampw w { lw with ready := ready, tokens := [] }
  let s := toks.foldl (fun s x => s.storeToken w x.1 x.2) s
  (s, ready.length + toks.length, (lw.ready.length - ready.length) + (lw.tokens.length - toks.length))

/-- Delay entries (R86): re-bound by key, or lapsed and listed. -/
def carryDelays (s : State) (w : WardId) (new : WardSec) : State × Nat × List (List Byte) :=
  let lw := s.lampw w
  let stay := fun (e : DelayEntry) => new.nodes.any (fun n => n.key == e.key)
  let gone := lw.delays.filter (fun e => !stay e)
  (s.setLampw w { lw with delays := lw.delays.filter stay }, (lw.delays.filter stay).length,
    gone.map (fun e => rptEntry 1 e.list e.key.toNat e.tag.toNat e.port.toNat e.due))

/-- The pin has an edge that the ward's binding detects in its filter window. -/
def filtering (s : State) (old : WardSec) (p : Fin 8) : Bool :=
  (s.pin p).cand.any (fun x => old.binds.any (fun b => b.pin == p.val && detects b.edge x.1))

/-- Pins of the ward with an edge that is latched or in its filter window (R86). -/
def heldEdges (s : State) (old : WardSec) : List (Fin 8) :=
  (List.finRange 8).filter (fun p => old.binds.any (fun b => b.pin == p.val) && ((s.pin p).edge.isSome || s.filtering old p))

/-- The pin's edges with no binding to go to, the latched one and the one in its filter window: each is counted, dropped
and listed. -/
def unclaimedEdge (s : State) (old : WardSec) (p : Fin 8) : State × List (List Byte) :=
  let x := s.pin p
  let entry := fun (t : Nat) => rptEntry 2 p.val 0 0 0 t
  let l := (if x.edge.isSome then [entry x.latchTick] else []) ++ (if s.filtering old p then [entry s.tickCount] else [])
  (l.foldl (fun s _ => s.bumpF (F.LMP_EVT_CNT_UNCLAIMED p.val) 1) (s.setPin p { x with edge := none, passed := x.level, cand := none }), l)

/-- SWAP steps 6 to 8: install, carry over, deliver the held edges, inject the initial tokens, release the delay
entries, report. -/
def finishSwap (s : State) : State :=
  match s.job with
  | .swap w sec clamps tick _ =>
    if !(s.lampw w).running.isEmpty then s
    else
      let old := s.sec w
      let held := s.heldEdges old
      let s := { s with plan := { s.plan with wards := s.plan.wards.put WardSec.absent w.val sec } }
      let (s, kept, dropped) := s.carryTokens w old sec
      let s := s.bumpF (F.LMPW_DISCARD_SWAP w.val) dropped
      let (s, rebound, lapsed) := s.carryDelays w sec
      let s := s.setF (F.WRD_STATUS_SWAPPING w.val) 0
      let (s, edges, lost) := held.foldl (fun (a : State × Nat × List (List Byte)) p =>
        if sec.binds.any (fun b => b.pin == p.val) then 
          let s := a.1.deliverEdge p
          (s, a.2.1 + bN ((a.1.pin p).edge.isSome && (s.pin p).edge.isNone), a.2.2)
        else let (s, e) := a.1.unclaimedEdge old p; (s, a.2.1, a.2.2 ++ e)) (s, 0, [])
      let s := (s.injectInits w).fireDue
      let res := if clamps = 0 then 1 else 2
      let s := s.swapReport w res old.planId sec.planId tick clamps ⟨kept, dropped, rebound, lapsed.length, edges, lost.length⟩ (lapsed ++ lost)
      let s := (s.planResult res).setF (F.PLN_WARD_ID_VALUE w.val) sec.planId.toNat
      ({ s with job := .idle }).setF F.PLN_STATUS_BUSY 0
  | _ => s

/-- The drain has outlasted its limit (R88). -/
def overrunSwap (s : State) : State :=
  match s.job with
  | .swap w _ _ _ _ => if (s.lampw w).running.isEmpty then s else (s.abandonSwap 10).fireDue
  | _ => s

/-! ### The boot plan (R81, R82; 17 R469) -/

/-- What a boot slot holds, as far as its LENGTH says, its header at least; and the staged length, its LENGTH. -/
def slotImage (s : State) (off : Nat) : List Byte × Nat :=
  let rd := fun (o n : Nat) => (List.range n).map (fun i => s.flash.get 0xFF (off + o + i))
  let len := ofLe (rd 8 4)
  (rd 0 (max 64 (min 8388608 len)), len)

/-- Read and check the boot slots, from step 5 of the first second on; BUSY is set meanwhile (DESIGN CHOICE, log 84). -/
def bootLoad (s : State) : State :=
  if !(s.power.coreUp && !s.power.bootDone && decide (s.job = .idle)) then s
  else
    let a := s.slotImage 0x100000
    let b := s.slotImage 0x900000
    let s := if rejectCode a.1 a.2 false none = 0 then { s with job := .boot (some (a.1.take a.2)) false 0 }
      else match rejectCode b.1 b.2 false none with
        | 0 => { s with job := .boot (some (b.1.take b.2)) true 0 }
        | r => { s with job := .boot none true r }
    s.setF F.PLN_STATUS_BUSY 1

/-- Step 8 of the first second: install the accepted image after training, or NO_BOOT. -/
def bootInstall (s : State) : State :=
  match s.job with
  | .boot img slotB result =>
    if !s.power.trained then s
    else
      let s := (s.setF (F.SUP_BOOT_VALUE 3) s.supTime)
      let s := { s with power := { s.power with bootDone := true } }
      let s := match img with
        | some b => (s.installPlan b).setB F.PLN_STATUS_BOOT_SLOT slotB
        | none =>
          let s := ((s.planResult result).setF F.PLN_STATUS_NO_BOOT 1).setF F.PLN_STATUS_BUSY 0
          ({ s with job := .idle }).event ⟨43, 2, 14, 0, 0, BitVec.ofNat 64 (s.storedWord 0x10018)⟩
      s.updReady
  | _ => s

/-- SEAL (R84); RESULT 1 is the code of success (DEDUCED, log 40). -/
def sealPlan (s : State) : State := if s.planBusy then s.refusePlan else (s.setF F.PLN_STATUS_SEALED 1).planResult 1

end State

/-- PLN_CMD LOAD (R83). -/
def execPlnLoad (s : State) : Result :=
  .next (s.hostWrite .s F.PLN_CMD_OP.off none 1 true (fun s => s.startLoad))
/-- LOAD_INSTALL (R83 steps 5 and 6). -/
def execLoadInstall (s : State) : Result := .next s.finishPlan.updReady
/-- PLN_CMD SWAP (R85 steps 1 to 4). -/
def execPlnSwap (w : WardId) (s : State) : Result :=
  .next (s.hostWrite .s F.PLN_CMD_OP.off none (2 + 16 * w.val) true (fun s => s.startSwap w))
/-- SWAP_INSTALL (R85 steps 6 to 8; R86). -/
def execSwapInstall (s : State) : Result := .next s.finishSwap
/-- SWAP_ABANDON (R88). -/
def execSwapAbandon (s : State) : Result := .next s.overrunSwap
/-- PLN_CMD SEAL (R84). -/
def execPlnSeal (s : State) : Result :=
  .next (s.hostWrite .s F.PLN_CMD_OP.off none 3 true (fun s => s.sealPlan))
/-- BOOT_PLAN_LOAD (R81). -/
def execBootPlanLoad (s : State) : Result := .next s.bootLoad
/-- BOOT_PLAN_INSTALL (R81; 17 R469 step 8). -/
def execBootPlanInstall (s : State) : Result := .next s.bootInstall

end Sys2Proof.Machine
end

