-- ==== Sys2Proof/Machine/Beacon.lean ====
section
/-! DEFINITION. The commands of the Beacon and the persistent log in boot flash (spec 16 R436, R444–R450). -/

namespace Sys2Proof.Machine

/-- The CRC of a record whose CRC field stands at byte `o`. -/
def crcOf (b : List Byte) (o : Nat) : Nat := crc16Ccitt (b.take o ++ [0, 0] ++ b.drop (o + 2))

/-- A log entry as it is written (R448). -/
def logBytes (seq : Nat) (e : LogEntry) : List Byte :=
  let g := if e.marker then 0xFF else e.ev.group
  let b := leBytes 4 seq ++ leBytes 1 g ++ leBytes 1 e.ev.cls ++ leBytes 1 e.ev.kind ++ leBytes 1 e.ev.unit ++ leBytes 1 e.ev.wards.toNat
    ++ leBytes 1 (bN e.marker) ++ leBytes 2 e.suppressed ++ [0, 0] ++ leBytes 2 0 ++ leBytes 8 e.time ++ leBytes 8 e.ev.detail.toNat
  b.take 12 ++ leBytes 2 (crcOf b 12) ++ b.drop 14

def logBase : Nat := 0xF0000

namespace State

/-! ### Boot flash -/

def flashBytes (s : State) (o n : Nat) : List Byte := (List.range n).map (fun i => s.flash.get 0xFF (o + i))

def flashWrite (s : State) (o : Nat) : List Byte → State
  | [] => s
  | b :: r => ({ s with flash := s.flash.put 0xFF o b }).flashWrite (o + 1) r

/-- An erased sector reads all ones. -/
def flashErase (s : State) (o n : Nat) : State := { s with flash := s.flash.drop (fun k => decide (o ≤ k) && decide (k < o + n)) }

/-- What a flash operation that fails leaves is open: a free value (DESIGN CHOICE, log 3). -/
def flashSpoil (s : State) (o n : Nat) : State := let (v, s) := s.free; s.flashWrite o (leBytes n v)

/-! ### The log (R448, R449) -/

def logSlot (s : State) (k : Nat) : List Byte := s.flashBytes (logBase + 32 * k) 32
def slotGood (b : List Byte) : Bool := ofLe ((b.drop 12).take 2) == crcOf b 12

/-- The scan at VAUX good: the next SEQ and the next slot. -/
def logScan (s : State) : State :=
  let best := (List.range 2048).foldl (fun (m : Option (Nat × Nat)) k =>
    let b := s.logSlot k
    if slotGood b then
      let q := ofLe (b.take 4)
      match m with
      | none => some (q, k)
      | some (q2, _) => if q2 < q then some (q, k) else m
    else m) none
  match best with
  | none => { s with logNextSeq := 0, logNextSlot := 0 }
  | some (q, k) => { s with logNextSeq := (q + 1) % 2 ^ 32, logNextSlot := (k + 1) % 2048 }

/-- A log write or erase failed: `detail` names the slot, bit 12 an erase. -/
def logFailed (s : State) (detail : Nat) : State :=
  (s.setF F.FLT_STATUS_LOG_FAIL 1).event ⟨48, 2, 2, 0, 0, BitVec.ofNat 64 detail⟩

/-- Program an entry into the next slot; a failed program consumes its slot and its SEQ. -/
def logProgram (s : State) (e : LogEntry) (ok eraseOk : Bool) : State :=
  let slot := s.logNextSlot
  let s := if slot % 128 = 0 then
      let nx := (slot / 128 + 1) % 16
      if eraseOk then s.flashErase (logBase + 4096 * nx) 4096 else (s.flashSpoil (logBase + 4096 * nx) 4096).logFailed (128 * nx + 4096)
    else s
  let s := if ok then s.flashWrite (logBase + 32 * slot) (logBytes s.logNextSeq e)
    else (s.flashSpoil (logBase + 32 * slot) 32).logFailed slot
  { s with logNextSeq := (s.logNextSeq + 1) % 2 ^ 32, logNextSlot := (slot + 1) % 2048 }

/-- The boot marker (R449): DETAIL bit 0 tells that the fuses read correctly. -/
def bootMarker (s : State) : LogEntry :=
  { ev := { group := 0, cls := 0, kind := 0, unit := 0, wards := 0, detail := BitVec.ofNat 64 (bN s.power.fuseGood) }, marker := true, suppressed := 0, time := s.supTime }

/-- A calibration SAVE holds the flash (17 R467). -/
def calSaving (s : State) : Bool := (s.power.calJob.map (·.2)) == some 1

/-- The Gatehouse writes its oldest queued entry, unless an erase or a calibration SAVE holds the flash. -/
def logWriteOne (s : State) (ok eraseOk : Bool) : State :=
  match s.logQueue with
  | [] => s
  | e :: rest =>
    if !s.power.vauxGood || s.isF F.FLT_LOG_CTRL_ERASE || s.calSaving then s
    else ({ s with logQueue := rest }).logProgram e ok eraseOk

/-! ### FLT_LOG_CTRL (R450) -/

/-- The slot of the log read in progress: a later write of SLOT does not redirect it (DEDUCED, log 54). -/
def logReadSlot : Fld := ⟨0x32000, 32, 11⟩

def fltRefuse (s : State) : State := s.setF F.FLT_STATUS_REFUSED 1

def startLogRead (s : State) (slot : Nat) : State :=
  let s := s.setF F.FLT_LOG_CTRL_SLOT slot
  if s.isF F.FLT_LOG_CTRL_BUSY then s.fltRefuse
  else ((s.setF F.FLT_LOG_CTRL_BUSY 1).setF F.FLT_LOG_CTRL_READ 1).setF logReadSlot slot

/-- The slot stands in FLT_LOG_DATA. -/
def endLogRead (s : State) : State :=
  if s.isF F.FLT_LOG_CTRL_READ then
    let b := s.logSlot (s.getF logReadSlot)
    let s := (List.range 4).foldl (fun s i => s.setF (F.FLT_LOG_DATA_VALUE i) (ofLe ((b.drop (8 * i)).take 8))) s
    ((s.setB F.FLT_LOG_CTRL_BADCRC (!slotGood b)).setF F.FLT_LOG_CTRL_BUSY 0).setF F.FLT_LOG_CTRL_READ 0
  else s

def startLogErase (s : State) : State :=
  if s.isF F.FLT_CTRL_LOCK || s.isF F.FLT_LOG_CTRL_BUSY then s.fltRefuse else (s.setF F.FLT_LOG_CTRL_BUSY 1).setF F.FLT_LOG_CTRL_ERASE 1

def endLogErase (s : State) : State :=
  if s.isF F.FLT_LOG_CTRL_ERASE then
    let s := ({ s.flashErase logBase 65536 with logNextSlot := 0 }).logProgram s.bootMarker true true
    (s.setF F.FLT_LOG_CTRL_BUSY 0).setF F.FLT_LOG_CTRL_ERASE 0
  else s

/-! ### Injection (R447) -/

def injectEvent (s : State) (v : Nat) : State :=
  let g := bitsN v 0 6
  let c := bitsN v 6 2
  let g2 := min g 48
  let c2 := max c 1
  let s := (((s.setF F.FLT_INJECT_GROUP g2).setF F.FLT_INJECT_CLASS c2).setF F.FLT_INJECT_WARDS (bitsN v 8 8)).setF F.FLT_INJECT_DETAIL (bitsN v 32 32)
  let s := if g2 = g ∧ c2 = c then s else s.setF F.FLT_STATUS_CLAMPED 1
  if bitN v 16 then s.event ⟨g2, c2, 15, 255, BitVec.ofNat 8 (bitsN v 8 8), BitVec.ofNat 64 (bitsN v 32 32)⟩ else s

/-- Clear and re-arm groups of the device's latches or of a ward's view (R436, R439). -/
def clearBeacon (s : State) (view : Option WardId) (m : Nat) : State :=
  let f : Fld := match view with
    | none => F.FLT_BEACON_GROUPS
    | some w => F.FLTW_BEACON_GROUPS w.val
  s.setF f (s.getF f - (s.getF f &&& m))

end State

/-- A write of 1s to FLT_BEACON, or by S to a ward's view (R436, R439, R445). -/
def execFltBeaconClear (p : Port) (view : Option WardId) (mask : BitVec 64) (s : State) : Result :=
  .next (match view with
    | none => s.hostWrite p F.FLT_BEACON_GROUPS.off none mask.toNat true (fun s => s.clearBeacon none mask.toNat)
    | some w => s.hostWrite p (F.FLTW_BEACON_GROUPS w.val).off (State.ownVf p w 0x2000) mask.toNat (decide (p = .s)) (fun s => s.clearBeacon (some w) mask.toNat))
/-- W1C of FLT_STATUS.FAULTN by S (R444). -/
def execFaultnClear (s : State) : Result :=
  .next (s.hostWrite .s F.FLT_STATUS_FAULTN.off none (State.inWord (F.FLT_STATUS_FAULTN) 1 (s.keptWord (F.FLT_STATUS_FAULTN).off)) true (fun s => s.setF F.FLT_STATUS_FAULTN 0))
/-- FLT_CTRL.LOCK (R446). -/
def execFltLock (s : State) : Result :=
  .next (s.hostWrite .s F.FLT_CTRL_LOCK.off none (State.inWord (F.FLT_CTRL_LOCK) 1 (s.keptWord (F.FLT_CTRL_LOCK).off)) true (fun s => s.setF F.FLT_CTRL_LOCK 1))
/-- A write of FLT_INJECT (R447). -/
def execFltInject (p : Port) (val : BitVec 64) (s : State) : Result :=
  .next (s.hostWrite p F.FLT_INJECT_GO.off none val.toNat true (fun s => s.injectEvent val.toNat))
/-- The Gatehouse writes a log entry (R449). -/
def execLogWrite (ok eraseOk : Bool) (s : State) : Result := .next (s.logWriteOne ok eraseOk)
/-- FLT_LOG_CTRL.READ (R450). -/
def execLogCtrlRead (slot : Nat) (s : State) : Result :=
  .next (s.hostWrite .s F.FLT_LOG_CTRL_READ.off none (1 + slot % 2048 * 65536) true (fun s => s.startLogRead slot))
/-- FLT_LOG_CTRL.ERASE (R450). -/
def execLogCtrlErase (s : State) : Result :=
  .next (s.hostWrite .s F.FLT_LOG_CTRL_ERASE.off none (State.inWord (F.FLT_LOG_CTRL_ERASE) 1 (s.keptWord (F.FLT_LOG_CTRL_ERASE).off)) true (fun s => s.startLogErase))
/-- The erase has ended (R450). -/
def execLogEraseDone (s : State) : Result := .next s.endLogErase
/-- The slot read stands in FLT_LOG_DATA (R450). -/
def execLogCtrlReadDone (s : State) : Result := .next s.endLogRead

end Sys2Proof.Machine
end

