-- ==== Sys2Proof/Machine/HostLink.lean ====
section
/-! DEFINITION. The host link (spec 15): HDM decoders and CXL.mem requests, the CXL.cache controls, CXL Reset, VF
FLR, interrupts, power states, link integrity. -/

namespace Sys2Proof.Machine

namespace State

/-! ### Configuration space as numbers (PRESUMED, log 11) -/

def cfgNum (s : State) (fn off n : Nat) : Nat := ofLe ((List.range n).map (fun i => s.cfgByte fn (off + i)))

/-! ### HDM decoders (R404, R407, R408) -/

def hdm (s : State) (n : Nat) : HdmDec := s.link.hdm.get HdmDec.init n
def setHdm (s : State) (n : Nat) (d : HdmDec) : State := { s with link := { s.link with hdm := s.link.hdm.put HdmDec.init n d } }

def dpaBase (s : State) : Nat → Nat
  | 0 => (s.hdm 0).skip
  | n + 1 => s.dpaBase n + (s.hdm n).size / 2 ^ (s.hdm n).iw + (s.hdm (n + 1)).skip

/-- The DPA of a host address inside decoder `n`. -/
def hdmDpa (s : State) (n a : Nat) : Nat :=
  let d := s.hdm n
  let off := a - d.base
  let g := d.ig + 8
  s.dpaBase n + (off / 2 ^ (g + d.iw)) * 2 ^ g + off % 2 ^ g

def mib256 : Nat := 268435456

/-- A decoder may commit (R407). -/
def hdmGood (s : State) (n : Nat) : Bool :=
  let d := s.hdm n
  d.base % mib256 == 0 && d.size % mib256 == 0 && decide (d.iw ≤ 3) && decide (d.ig ≤ 6) && d.bi
    && (n == 0 || ((s.hdm (n - 1)).committed && decide ((s.hdm (n - 1)).base + (s.hdm (n - 1)).size ≤ d.base)))
    && decide (s.dpaBase n + d.size / 2 ^ d.iw ≤ s.capacity)

/-- Software sets Commit; a locked decoder ignores it. -/
def commitHdm (s : State) (n : Nat) : State :=
  let d := s.hdm n
  if d.committed && d.lock then s
  else if s.hdmGood n then s.setHdm n { d with committed := true, errNot := false }
  else s.setHdm n { d with committed := false, errNot := true }

/-- The base of range 1, used one-way while the decoders are off. -/
def range1Base (s : State) : Nat := (s.cfgNum 0 0x3A0 4) * 2 ^ 32 + (s.cfgNum 0 0x3A4 4) / mib256 * mib256

/-- The DPA of a host address (R404, R408, R411). -/
def hostDpa (s : State) (a : Nat) : Option Nat :=
  if s.link.hdmEnable then
    ((List.range 4).find? (fun n => (s.hdm n).committed && decide ((s.hdm n).base ≤ a) && decide (a < (s.hdm n).base + (s.hdm n).size))).map
      (fun n => s.hdmDpa n a)
  else
    let b := s.range1Base
    if b ≤ a ∧ a < b + s.capacity then some (a - b) else none

/-! ### CXL.mem (R409–R411; 16 R443; 17 R459, R470) -/

/-- The answer that serves nothing: poison for a read, the data of a write discarded. -/
def refuseHost (s : State) (r : HostReq) : State :=
  if r.isRead then
    if r.noData then s.emit (.cmp r.tag (some r.mv))
    else let (v, s) := s.free; s.emit (.memData r.tag ⟨BitVec.ofNat 512 v, true⟩ (some r.mv))
  else s.emit (.cmp r.tag none)

/-- Serve a request; `noData` marks MemInv among the reads and MemClnEvct among the rest. -/
def serveHost (s : State) (r : HostReq) : State :=
  if s.link.viral then s.refuseHost r
  else
    let dpa := (s.hostDpa r.addr).filter (fun d => decide (d < s.capacity))
    match dpa with
    | none => (s.bumpF F.LNK_MEM_ERR_NOMAP 1).refuseHost r
    | some d =>
      let l : LineAddr := ⟨false, d / 64⟩
      if r.isRead then
        let q := { Req.make .hRd l .host none false with mask := if r.noData then 0 else fullMask, mv := r.mv }
        s.issue { LEntry.make q .reserve with hostTag := r.tag }
      else if r.noData then
        let h := homeOf d
        let excl := ((s.dirGet h l.n).map (·.excl)).getD false
        (if excl then s else s.dirRemove h l.n hostHolder).emit (.cmp r.tag none)
      else
        let s := if r.v.poison then s.reportRas false 5 "Mem Poison Received" else s
        let q := { Req.make .hWr l .host none false with mask := r.mask, mv := r.mv }
        s.issue { LEntry.make q .reserve with wdata := some r.v, hostTag := r.tag }

/-- Requests wait: before Memory Active, during CXL Reset, in the dim state and after PLW_N. -/
def hostWaits (s : State) : Bool :=
  !s.isF F.LNK_STATUS_MEM_ACTIVE || s.link.cxlResetBusy || s.dimmed || s.power.plwRunning

def hostRequest (s : State) (r : HostReq) : State :=
  if s.link.refuseAll || s.power.dimOut then s.refuseHost r
  else if s.hostWaits then { s with link := { s.link with held := s.link.held ++ [r] } }
  else s.serveHost r

/-- The link leaves L1: traffic moves on it (R419). -/
def wakeLink (s : State) : State := { s with link := { s.link with l1 := false } }

/-- A request reaches a link that runs CXL. -/
def fromHost (s : State) (f : State → State) : State :=
  if s.link.up && s.link.cxl then f s.wakeLink else s

/-- Held requests are served, or answered. -/
def releaseHeld (s : State) : State :=
  s.link.held.foldl hostRequest { s with link := { s.link with held := [] } }

/-! ### CXL.cache controls (R412) -/

/-- Some quarter still holds or asks for a host line. -/
def hostLinesOut (s : State) : Bool :=
  (List.finRange 16).any (fun q => (s.quarter q).ways.cells.any (fun c => c.2.held && c.2.line.host) || (s.quarter q).bufs.any (fun b => b.line.host))
    || s.ledger.entries.cells.any (fun c => match c.2 with
      | some e => e.req.src.quarter?.isSome && e.req.line.host
      | none => false)
    || s.ledger.waiting.any (fun e => e.req.src.quarter?.isSome && e.req.line.host)
    || !(s.homeN 16).txns.isEmpty

def setDisable (s : State) (b : Bool) : State :=
  let s := s.setCfgBit 0 0x390 0 b
  let l := s.link
  if b then { s with link := { l with disableCaching := true } }
  else { s with link := { l with disableCaching := false, flushing := false, cacheInvalid := false } }.setCfgBit 0 0x392 0 false

def pumpAll (s : State) : State := (List.finRange 16).foldl drainPump s

/-- Initiate Cache Write Back and Invalidation. -/
def startFlush (s : State) : State :=
  if s.link.disableCaching then ({ s with link := { s.link with flushing := true } }).pumpAll else s

def endFlush (s : State) : State :=
  if !s.link.flushing then s
  else
    let s := s.pumpAll
    if s.hostLinesOut then s else ({ s with link := { s.link with flushing := false, cacheInvalid := true } }).setCfgBit 0 0x392 0 true

/-! ### CXL Reset (R422) -/

/-- A quarter begins to drain under steps 3 to 5 of 11 R311 and stays enabled. -/
def beginDrain (s : State) (q : QuarterId) : State :=
  if s.drainEmpty q then s else ((s.setF (F.QC_STATUS_DRAINING q.val) 1).dropL1 q).drainPump q
def beginDrains (s : State) : State := (List.finRange 16).foldl beginDrain s
def allDrained (s : State) : Bool := (List.finRange 16).all s.drainEmpty
def endDrains (s : State) : State := (List.finRange 16).foldl (fun s q => s.setF (F.QC_STATUS_DRAINING q.val) 0) s

/-- Steps 2 and 3 begin; a VF FLR that still waits is absorbed. The requests of quarters run on, so that their lines can be written back, and close ABORTED (13
R368; DEDUCED, log 29). -/
def startCxlReset (s : State) (memClr : Bool) : State :=
  if !s.coreRuns || s.link.cxlResetBusy then s
  else
    let ws := ((List.finRange 8).filter (fun w => s.resettingWard w || s.link.rxq.contains (.flr w))).map (·.val)
    let l := s.link
    let kept := l.rxq.filter (fun c => match c with
      | .flr _ => false
      | _ => true)
    let s := { s with link := { l with
      rxq := kept, cxlResetBusy := true, cxlResetMemClr := memClr, cxlResetWards := ws, cxlResetComplete := false } }
    let s := (List.finRange 8).foldl startWardReset (s.setCfgBit 0 0x392 1 false)
    let s := s.abortWhere (fun e => e.req.src.quarter?.isNone)
    (s.ledger.entries.cells.foldl (fun s c => s.updEntry c.1 (fun e =>
      if e.req.src.quarter?.isSome && !e.req.kind.dataFirst && decide (e.req.kind ≠ .wb ∧ e.req.kind ≠ .wbP ∧ e.req.kind ≠ .evict) then { e with aborted := true } else e)) s).beginDrains

/-- H leaves every directory entry without a snoop. -/
def forgetHost (s : State) : State :=
  (List.range 16).foldl (fun s h => (s.homeN h).dir.cells.foldl (fun s c => s.dirRemove h c.1 hostHolder) s) s

/-- Every init bitmap bit of every home is cleared (14 R389, R392, R397). -/
def clearBitmaps (s : State) : State :=
  let s := (List.range 16).foldl (fun s h => s.updHome h (fun y => { y with bitmap := .empty })) s
  { s with ages := .empty }

def eraseKeys (s : State) : State := { s with keys := .empty, keyInstall := none }

/-- Nothing that a CXL Reset waits for is left. -/
def cxlQuiet (s : State) : Bool :=
  s.allDrained && s.ledger.entries.cells.isEmpty && s.ledger.waiting.isEmpty

/-- Steps 3 to 5 end. -/
def endCxlReset (s : State) : State :=
  if !s.link.cxlResetBusy then s
  else
    let s := s.pumpAll
    if !s.cxlQuiet then s
    else
      let s := s.endDrains.forgetHost
      let s := if s.link.cxlResetMemClr then s.clearBitmaps
        else (List.finRange 8).foldl (fun s w => if s.link.cxlResetWards.contains w.val then s.forgetRegions w else s) s
      let s := (List.finRange 8).foldl endWardReset s.eraseKeys
      let s := (List.range 4).foldl (fun s n => s.setHdm n { s.hdm n with committed := false, lock := false }) s
      let s := if s.link.disableCaching then ({ s with link := { s.link with flushing := false, cacheInvalid := true } }).setCfgBit 0 0x392 0 true else s
      let l := s.link
      let s := { s with link := { l with cxlResetBusy := false, cxlResetWards := [], cxlResetComplete := true } }
      ((s.setCfgBit 0 0x392 1 true).releaseHeld).loaderRetry

/-! ### Interrupts (R415, R416) -/

/-- Pending vectors of a function that nothing masks any more are sent, one message each. -/
def msixFlush (s : State) (fn : Func) : State :=
  if s.msixFnMask fn.ix || !s.msixEnable fn.ix || s.link.d3hot then s
  else (s.link.msix.cells.filter (fun c => c.1 / 1024 == fn.ix)).foldl (fun s c =>
    let v := c.1 % 1024
    let e := s.msixAt fn.ix v
    if e.pending && !e.masked then (s.setMsix fn.ix v { e with pending := false }).emit (.msix fn e.addr e.data) else s) s

def msixUnmask (s : State) (fn : Func) (t : MaskTarget) : State :=
  match t with
  | .vector v => (s.setMsix fn.ix v { s.msixAt fn.ix v with masked := false }).msixFlush fn
  | .function => (s.setCfgBit fn.ix 0x93 6 false).msixFlush fn

/-- PF0's MSI-X Enable changes: every raise that waits moves between the PBA and LNK_INTX_PEND. -/
def setMsixEnable (s : State) (en : Bool) : State :=
  if s.msixEnable 0 == en then s
  else
    let s := s.setCfgBit 0 0x93 7 en
    if en then
      let s := (List.range 512).foldl (fun s v =>
        if bitN (s.getF (F.LNK_INTX_PEND_VALUE (v / 64))) (v % 64) then s.setMsix 0 v { s.msixAt 0 v with pending := true } else s) s
      let s := (List.range 8).foldl (fun s k => s.setF (F.LNK_INTX_PEND_VALUE k) 0) s
      s.updIntx.msixFlush .pf0
    else
      let s := (List.range 512).foldl (fun s v =>
        let e := s.msixAt 0 v
        if e.pending then
          (s.setF (F.LNK_INTX_PEND_VALUE (v / 64)) (putBitN (s.getF (F.LNK_INTX_PEND_VALUE (v / 64))) (v % 64) true)).setMsix 0 v { e with pending := false }
        else s) s
      s.updIntx

/-! ### Power states and link states (R417–R420) -/

def enterD3hot (s : State) : State :=
  if s.coreRuns then { s with link := { s.link with d3hot := true } } else s
/-- Back to D0: every state is kept, dispatch resumes and what waited is sent (DEDUCED, log 76). -/
def leaveD3hot (s : State) : State :=
  if s.link.d3hot then
    let s := { s with link := { s.link with d3hot := false } }
    (List.finRange 8).foldl (fun s w => s.msixFlush (.vf w)) (s.msixFlush .pf0)
  else s

/-- The link is idle: nothing is held for the host and nothing is asked of it. -/
def linkIdle (s : State) : Bool :=
  s.link.held.isEmpty && s.link.rxq.isEmpty && s.heldHost == 0
    && !s.ledger.entries.cells.any (fun c => match c.2 with
      | some e => e.hostMem || e.bulk.isSome
      | none => false)
    && !(s.homeN 16).txns.any (fun t => match t.phase with
      | .host _ => true
      | _ => false)

def aspmL1 (s : State) : Bool := s.cfgBit 0 0x50 1

def requestL1 (s : State) : State :=
  if s.link.up && s.aspmL1 && s.linkIdle then { s with link := { s.link with l1 := true } } else s

/-- A link width in force, L0p included. -/
def setLanes (s : State) (n : Nat) : State :=
  { s with link := { s.link with l0p := n } }
def flit256 (s : State) : Bool := s.link.up && s.link.rate == 6

/-- The ward reset of a VF FLR, and what the VF's configuration space holds (R421). -/
def flrReset (s : State) (w : WardId) : State :=
  let fn := w.val + 1
  let l := s.link
  ({ s with link := { l with cfg := l.cfg.drop (fun k => k / 4096 == fn), flr := if l.flr.contains w.val then l.flr else l.flr ++ [w.val] } }).startWardReset w

/-- A write TLP of the ward's Bulk Port was received and is not committed. -/
def bulkPending (s : State) (w : WardId) : Bool :=
  s.bulkOut (.vf w) || s.link.rxq.any (fun c => match c with
    | .bulkWrite f _ _ => f == .vf w
    | _ => false)

/-- VF FLR: the port's reads are aborted; once its write TLPs received before are committed, the ward reset follows (R421;
13 R368). A CXL Reset absorbs it (00 R14). -/
def vfFlr (s : State) (w : WardId) : State :=
  if !s.power.cfgReady || s.link.cxlResetBusy then s
  else
    let b := s.link.bulk.get Bulk.init (w.val + 1)
    let s := { s with link := { s.link with bulk := s.link.bulk.put Bulk.init (w.val + 1) { b with reads := [], ahead := .empty, gen := b.gen + 1 } } }
    let s := s.abortWhere (fun e => e.bulk == some (.vf w) && e.wdata.isNone)
    if s.bulkPending w then s.holdPosted (.flr w) else s.flrReset w

end State

def linkEv (cls kind unit detail : Nat) : Event := ⟨42, cls, kind, unit, 0, BitVec.ofNat 64 detail⟩

/-! ### The commands -/

/-- Commit of HDM decoder `n` (R407). -/
def execHdmCommit (n : Fin 4) (s : State) : Result :=
  .next (let d := s.hdm n.val
    s.hostWrite .s (0x411220 + 32 * n.val) none (d.ig + 16 * d.iw + 256 * bN d.lock + 512 + 8192 * bN d.bi) true (fun s => s.commitHdm n.val))
/-- MemRd (R409). -/
def execMemRd (addr : Nat) (mv : MetaValue) (tag : Nat) (s : State) : Result :=
  .next (s.fromHost (fun s => s.hostRequest ⟨true, addr, mv, fullMask, ⟨0, false⟩, tag, false⟩))
/-- MemRdData (R409). -/
def execMemRdData (addr tag : Nat) (s : State) : Result :=
  .next (s.fromHost (fun s => s.hostRequest ⟨true, addr, .s, fullMask, ⟨0, false⟩, tag, false⟩))
/-- MemInv (R409). -/
def execMemInv (addr : Nat) (mv : MetaValue) (tag : Nat) (s : State) : Result :=
  .next (s.fromHost (fun s => s.hostRequest ⟨true, addr, mv, 0, ⟨0, false⟩, tag, true⟩))
/-- MemInvNT (R409). -/
def execMemInvNt (addr : Nat) (mv : MetaValue) (tag : Nat) (s : State) : Result :=
  .next (s.fromHost (fun s => s.hostRequest ⟨true, addr, mv, 0, ⟨0, false⟩, tag, true⟩))
/-- MemClnEvct (R409). -/
def execMemClnEvct (addr tag : Nat) (s : State) : Result :=
  .next (s.fromHost (fun s => s.hostRequest ⟨false, addr, .i, 0, ⟨0, false⟩, tag, true⟩))
/-- MemSpecRd is dropped (R409). -/
def execMemSpecRd (_addr _tag : Nat) (s : State) : Result := .next (s.fromHost (fun s => s))
/-- MemWr (R409, R410). -/
def execMemWr (addr : Nat) (mv : MetaValue) (d : LineVal) (tag : Nat) (s : State) : Result :=
  .next (s.fromHost (fun s => s.hostRequest ⟨false, addr, mv, fullMask, d, tag, false⟩))
/-- MemWrPtl (R409, R410). -/
def execMemWrPtl (addr : Nat) (mv : MetaValue) (mask : BitVec 64) (d : LineVal) (tag : Nat) (s : State) : Result :=
  .next (s.fromHost (fun s => s.hostRequest ⟨false, addr, mv, mask, d, tag, false⟩))
/-- BIConflict is acknowledged (R409; 12 R352). -/
def execBiConflict (_addr tag : Nat) (s : State) : Result := .next (s.fromHost (fun s => s.emit (.biAck tag)))
/-- Any other opcode (R409). -/
def execMemBadOpcode (isRead : Bool) (tag : Nat) (s : State) : Result :=
  .next (s.fromHost (fun s => (s.bumpF F.LNK_MEM_ERR_BADOP 1).refuseHost ⟨isRead, 0, .i, 0, ⟨0, false⟩, tag, false⟩))
/-- Disable Caching is set (R412). -/
def execDisableCaching (s : State) : Result := .next (if s.power.cfgReady then s.setDisable true else s)
/-- Initiate Cache Write Back and Invalidation (R412). -/
def execCacheWriteBackAndInvalidation (s : State) : Result := .next s.startFlush
/-- Cache Invalid is set once the last host line and atomic has left (R412). -/
def execCacheInvalidSet (s : State) : Result := .next s.endFlush
/-- CXL Reset begins (R422). -/
def execCxlReset (memClr : Bool) (s : State) : Result := .next (if s.power.cfgReady then s.startCxlReset memClr else s)
/-- VF FLR (R421; 13 R368; 01 R48). -/
def execVfFlr (w : WardId) (s : State) : Result := .next (s.vfFlr w)
/-- A mask is cleared (R415). -/
def execMsixUnmask (fn : Func) (target : MaskTarget) (s : State) : Result :=
  .next (if !s.fnOpen fn then s.unsupportedReq fn
    else match target, fn with
      | .vector v, .pf0 => if s.hostHolds .s then s.holdPosted (.regWrite .s (0x400000C + 16 * v) 4 0) else s.msixUnmask fn target
      | .vector v, .vf w => if s.hostHolds (.w w) then s.holdPosted (.regWrite (.w w) (0x10000C + 16 * v) 4 0) else s.msixUnmask fn target
      | .function, _ => s.msixUnmask fn target)
/-- PF0's MSI-X Enable is written (R416). -/
def execMsixEnableChange (en : Bool) (s : State) : Result := .next (if s.power.cfgReady then s.setMsixEnable en else s)
/-- INTA follows its condition (R416). -/
def execIntxUpdate (s : State) : Result := .next s.updIntx
/-- PF0 enters D3hot (R417). -/
def execD3hotEntry (s : State) : Result := .next (if s.power.cfgReady then s.enterD3hot else s)
/-- PF0 returns to D0 (R417). -/
def execD0Return (s : State) : Result := .next s.leaveD3hot
/-- The device requests L1 (R419). -/
def execL1Request (s : State) : Result := .next s.requestL1
/-- L0p at x8 (R420). -/
def execL0pNarrow (s : State) : Result :=
  .next (if s.flit256 && s.isF F.LNK_PM_L0P_EN && decide (8 < s.link.l0p) then s.setLanes 8 else s)
/-- L0p back at x16 (R420). -/
def execL0pWiden (s : State) : Result :=
  .next (if s.flit256 && s.isF F.LNK_PM_L0P_EN then s.setLanes s.link.width else s)
/-- The partner requests a width (R420). -/
def execL0pPartnerRequest (width : Nat) (s : State) : Result :=
  .next (if s.flit256 && (width == 4 || width == 8 || width == 16) && decide (width ≤ s.link.width) then s.setLanes width else s)
/-- A flit fails its CRC and is replayed; after four failed replays the link enters Recovery (R428). -/
def execFlitCrcFail (fec failsInRow : Nat) (s : State) : Result :=
  .next (if !s.link.up then s
    else
      let s := if s.flit256 then s.bumpF F.LNK_ERR_FEC_CORR fec else s
      let s := (s.bumpF F.LNK_ERR_REPLAY 1).event (linkEv 1 10 0 1)
      if 4 ≤ failsInRow then (s.bumpF F.LNK_ERR_RECOVERY 1).event (linkEv 1 10 0 2) else s)
/-- IDE integrity failure (R430; DESIGN CHOICE, log 12). -/
def execIdeIntegrityFail (stream : IdeStream) (s : State) : Result :=
  .next (match stream with
    | .io n =>
      let s := { s with link := { s.link with insecure := if s.link.insecure.contains n.val then s.link.insecure else s.link.insecure ++ [n.val] } }
      (s.bumpF F.LNK_ERR_IDE_FAIL 1).event (linkEv 2 10 2 (4 + 256 * n.val))
    | .cachemem => ({ s with link := { s.link with ideMemBad := true } }).event (linkEv 3 10 2 5))
/-- IDE_KM programs new keys (R430). -/
def execIdeKmKeyProgram (stream : IdeStream) (s : State) : Result :=
  .next (match stream with
    | .io n => { s with link := { s.link with insecure := s.link.insecure.filter (fun k => k != n.val) } }
    | .cachemem => { s with link := { s.link with ideMemBad := false } })
/-- The DOE mailbox (R405, R429): discovery of its four protocols, SPDM 1.2 and 1.3, and the one DSMAS entry. -/
def execDoeRequest (r : DoeReq) (s : State) : Result :=
  .next (if !s.power.cfgReady then s
    else s.emit (match r with
      | .discovery i => if i < 4 then .doe "discovery" i else .doe "error" 0
      | .spdm v => if v = 0x12 ∨ v = 0x13 then .doe "spdm" v else .doe "version mismatch" v
      | .securedSpdm v => if v = 0x12 ∨ v = 0x13 then .doe "secured spdm" v else .doe "version mismatch" v
      | .cdat i => if i = 0 then .doe "DSMAS" s.capacity else .doe "error" 0))
/-- The link has trained (R401). -/
def execLinkTrained (rate width : Nat) (cxl : Bool) (s : State) : Result :=
  .next (if !s.coreRuns || s.link.up || !(width == 4 || width == 8 || width == 16) || rate == 0 || decide (6 < rate) then s
    else
      let l := s.link
      let runs := cxl && decide (3 ≤ rate)
      let s := { s with link := { l with up := true, rate := rate, width := width, cxl := runs, l0p := width } }
      if rate < 3 then s.event (linkEv 2 10 0 3) else s)
/-- Configuration space is ready (17 R469 step 6). -/
def execConfigSpaceReady (s : State) : Result :=
  .next (if s.coreRuns && !s.power.cfgReady then ({ s with power := { s.power with cfgReady := true } }).setF (F.SUP_BOOT_VALUE 1) s.supTime else s)
/-- Memory Active is reported (17 R469 step 9; 14 R373). -/
def execMemoryActive (s : State) : Result :=
  .next (if s.power.trained && s.power.capGib != 0 && s.link.up && s.link.cxl && !s.link.refuseAll && !s.isF F.LNK_STATUS_MEM_ACTIVE then
      (((s.setF F.LNK_STATUS_MEM_ACTIVE 1).setF (F.SUP_BOOT_VALUE 4) s.supTime).releaseHeld).updReady
    else s)
/-- Memory Active is not reached by P + 1 s (17 R470). -/
def execMemoryActiveTimeout (s : State) : Result :=
  .next (if s.power.pAt.isSome && !s.isF F.LNK_STATUS_MEM_ACTIVE && !s.link.refuseAll then
      (({ s with link := { s.link with refuseAll := true } }).releaseHeld).event (linkEv 3 13 0 4)
    else s)

end Sys2Proof.Machine
end

