-- ==== Sys2Proof/Machine/Bulk.lean ====
section
/-! DEFINITION. The Bulk Ports (spec 15 R414, R423–R427): the pointer's walk, writes as one WR_INV for each line,
reads in arrival order with read-ahead. -/

namespace Sys2Proof.Machine

/-- The pieces that the next `n` bytes of the stream fall into, each within a line and a row, and the port after
them; COUNT and STRIDE come into force at a row start (R424). -/
def bulkWalk (cnt stride : Nat) : Nat → Bulk → Nat → List (Nat × Nat) × Bulk
  | 0, b, _ => ([], b)
  | fuel + 1, b, n =>
    if n = 0 then ([], b)
    else
      let k := max 1 (min n (min (64 - b.ptr % 64) (b.rowStart + b.rowLen - b.ptr)))
      let p := b.ptr + k
      let next := b.rowStart + b.rowStride
      let b2 := if b.rowStart + b.rowLen ≤ p then { b with rowStart := next, rowLen := cnt, rowStride := stride, ptr := next }
        else { b with ptr := p }
      let r := bulkWalk cnt stride fuel b2 (n - k)
      ((b.ptr, k) :: r.1, r.2)

/-- Merge the bytes of a piece into the lines of a TLP. -/
def addBulkBytes (l : List (Nat × Mask64 × Line512)) (a : Nat) : List BulkByte → List (Nat × Mask64 × Line512)
  | [] => l
  | b :: r =>
    let n := a / 64
    let o := a % 64
    let l2 := if !b.en then l
      else
        let m := rangeMask o 1
        let d := placeBytes o 1 b.b.toNat
        if l.any (fun x => x.1 == n) then l.map (fun x => if x.1 = n then (n, x.2.1 ||| m, mergeLine x.2.2 d m) else x)
        else l ++ [(n, m, d)]
    addBulkBytes l2 (a + 1) r

/-- The lines of a TLP, from its pieces and its bytes. -/
def bulkLines : List (Nat × Nat) → List BulkByte → List (Nat × Mask64 × Line512) → List (Nat × Mask64 × Line512)
  | [], _, l => l
  | (a, k) :: r, bytes, l => bulkLines r (bytes.drop k) (addBulkBytes l a (bytes.take k))

def popMask (m : Mask64) : Nat := (List.range 64).foldl (fun a i => a + bN (m.getLsbD i)) 0
def lowBit (m : Mask64) : Nat := ((List.range 64).find? (fun i => m.getLsbD i)).getD 0
def highBit (m : Mask64) : Nat := ((List.range 64).reverse.find? (fun i => m.getLsbD i)).getD 0

namespace State

def bulkOf (s : State) (f : Func) : Bulk := s.link.bulk.get Bulk.init f.ix
def setBulk (s : State) (f : Func) (b : Bulk) : State := { s with link := { s.link with bulk := s.link.bulk.put Bulk.init f.ix b } }

def bulkCount (s : State) (f : Func) : Nat := s.getF (F.BLK_COUNT_COUNT f.ix)
def bulkStride (s : State) (f : Func) : Nat := s.getF (F.BLK_STRIDE_STRIDE f.ix)

/-- Where a byte range of the port goes (R427): the ward's windows, or a DPA. -/
def bulkPeek (s : State) (f : Func) (a n : Nat) (k : AccKind) : Option Xlat :=
  match f with
  | .pf0 => let d := a % 2 ^ 41; if s.capacity ≤ d then none else some ⟨false, d, false, false, false⟩
  | .vf w => match s.translate w a n k with
    | .inl _ => none
    | .inr x => some x

/-- A fault of the port is recorded and counted (01 R29, R30). -/
def bulkFault (s : State) (f : Func) (a n : Nat) (k : AccKind) : State :=
  let s := s.bumpF (F.BLK_STATUS_FAULTS f.ix) 1
  match f with
  | .pf0 => s.dpaErr (a % 2 ^ 41)
  | .vf w => match s.translate w a n k with
    | .inl c => s.winFault w c a
    | .inr _ => s

/-- The port takes nothing: its function does not answer, or the link is down. -/
def bulkClosed (s : State) (fn : Func) : Bool := !s.link.up || !s.fnOpen fn
def bulkResets (s : State) (f : Func) : Bool :=
  match f with
  | .pf0 => false
  | .vf w => s.resettingWard w
def bulkWard : Func → Option WardId
  | .pf0 => none
  | .vf w => some w

/-- Data read ahead is discarded (R424, R426). -/
def dropAhead (s : State) (f : Func) : State :=
  let b := s.bulkOf f
  s.setBulk f { b with ahead := .empty, gen := b.gen + 1 }

/-! ### Writes (R425) -/

/-- Bytes of the port's writes that are not committed. -/
def bulkBytes (s : State) (f : Func) : Nat :=
  let sz := fun (e : LEntry) => if e.bulk = some f ∧ e.wdata.isSome then popMask e.req.mask else 0
  (s.ledger.entries.cells.map (fun c => (c.2.map sz).getD 0)).sum + (s.ledger.waiting.map sz).sum

def bulkTlp (s : State) (f : Func) (tlp : List BulkByte) : List (Nat × Mask64 × Line512) × Bulk :=
  let w := bulkWalk (s.bulkCount f) (s.bulkStride f) tlp.length (s.bulkOf f) tlp.length
  (bulkLines w.1 tlp [], w.2)

/-- The TLP enters the 16 KiB buffer: it fits, and no line of it is still being written by the port. -/
def bulkFits (s : State) (f : Func) (tlp : List BulkByte) : Bool :=
  let out := fun (l : LineAddr) =>
    s.ledger.entries.cells.any (fun c => match c.2 with
      | some e => e.bulk == some f && e.wdata.isSome && decide (e.req.line = l)
      | none => false)
    || s.ledger.waiting.any (fun e => e.bulk == some f && e.wdata.isSome && decide (e.req.line = l))
  decide (s.bulkBytes f + tlp.length ≤ 16384) &&
    (s.bulkTlp f tlp).1.all (fun x => match s.bulkPeek f (x.1 * 64 + lowBit x.2.1) (highBit x.2.1 - lowBit x.2.1 + 1) .write with
      | none => true
      | some y => !out ⟨y.host, y.addr / 64⟩)

/-- One line of a write TLP leaves as WR_INV. -/
def bulkLine (s : State) (f : Func) (ep : Bool) (x : Nat × Mask64 × Line512) : State :=
  let a := x.1 * 64 + lowBit x.2.1
  let n := highBit x.2.1 - lowBit x.2.1 + 1
  match s.bulkPeek f a n .write with
  | none => s.bulkFault f a n .write
  | some y =>
    let q := { Req.make .wrInv ⟨y.host, y.addr / 64⟩ (.bulk f) (bulkWard f) y.sealed with mask := x.2.1 }
    s.issue { LEntry.make q .reserve with bulk := some f, wdata := some ⟨x.2.2, ep⟩, hostMem := y.host, relaxed := y.relaxed, ido := y.ido }

/-- A write TLP takes its bytes' places in the stream. -/
def bulkEnter (s : State) (f : Func) (tlp : List BulkByte) (ep : Bool) : State :=
  let (lines, b) := s.bulkTlp f tlp
  let s := if ep then s.reportTlp f 12 "Poisoned TLP Received" else s
  let s := (s.setBulk f b).setF (F.BLK_DONE_VALUE f.ix) (s.getF (F.BLK_DONE_VALUE f.ix) + tlp.length)
  lines.foldl (fun s x => s.bulkLine f ep x) (s.dropAhead f)

/-! ### Reads (R426, R427) -/

def BulkPiece.need (p : BulkPiece) : List (LineAddr × Bool) := p.line.toList

/-- The line is asked for under the buffer's present generation. -/
def bulkAsked (s : State) (f : Func) (l : LineAddr × Bool) : Bool :=
  let g := (s.bulkOf f).gen
  let hit := fun (e : LEntry) => e.bulk == some f && e.wdata.isNone && e.role == g && decide (e.req.line = l.1) && e.req.sealed == l.2
  s.ledger.entries.cells.any (fun c => match c.2 with
    | some e => hit e
    | none => false)
  || s.ledger.waiting.any hit

def bulkHas (s : State) (f : Func) (l : LineAddr × Bool) : Option LineVal := (s.bulkOf f).ahead.get none (lineKey l.1 l.2)

/-- Ask for a line by RD_C. -/
def bulkAsk (s : State) (f : Func) (l : LineAddr × Bool) : State :=
  if (s.bulkHas f l).isSome || s.bulkAsked f l then s
  else
    let q := Req.make .rdC l.1 (.bulk f) (bulkWard f) l.2
    s.issue { LEntry.make q .reserve with bulk := some f, hostMem := l.1.host, role := (s.bulkOf f).gen }

/-- The next 8 KiB of the stream, as lines: at most 128 of them. -/
def bulkAhead (s : State) (f : Func) : List (LineAddr × Bool) :=
  (((bulkWalk (s.bulkCount f) (s.bulkStride f) 128 (s.bulkOf f) 8192).1.filterMap (fun p => s.bulkPeek f p.1 p.2 .read)).map
    (fun x => ((⟨x.host, x.addr / 64⟩ : LineAddr), x.sealed))).eraseDups

/-- The bytes of a read whose lines are all there, and whether one of them is poisoned. -/
def bulkAnswer (s : State) (f : Func) (ps : List BulkPiece) : List Byte × Bool :=
  ps.foldl (fun a p => match p.line with
    | none => (a.1 ++ leBytes p.n 0, a.2)
    | some l => match s.bulkHas f l with
      | none => a
      | some v => (a.1 ++ leBytes p.n (lineBytes v.data p.off p.n), a.2 || v.poison)) ([], false)

/-- Serve the port's reads in arrival order, then read ahead. -/
def pumpReads (s : State) (f : Func) : Nat → State
  | 0 => s
  | fuel + 1 =>
    match (s.bulkOf f).reads with
    | [] => s
    | (tag, ps) :: rest =>
      let need := ps.flatMap BulkPiece.need
      if need.all (fun l => (s.bulkHas f l).isSome) then
        let (bytes, ep) := s.bulkAnswer f ps
        let s := (s.setBulk f { s.bulkOf f with reads := rest }).emit (.bulkData f tag bytes ep)
        if rest.isEmpty then
          let ahead := s.bulkAhead f
          let b := s.bulkOf f
          let keys := ahead.map (fun l => lineKey l.1 l.2)
          ahead.foldl (fun s l => s.bulkAsk f l) (s.setBulk f { b with ahead := b.ahead.drop (fun k => !keys.contains k) })
        else s.pumpReads f fuel
      else need.foldl (fun s l => s.bulkAsk f l) s

def pumpBulk (s : State) (f : Func) : State := s.pumpReads f ((s.bulkOf f).reads.length + 1)

/-- A read takes its place in the stream; a faulting piece reads 0 and is counted. -/
def bulkReadTake (s : State) (f : Func) (n tag : Nat) : State :=
  let w := bulkWalk (s.bulkCount f) (s.bulkStride f) n (s.bulkOf f) n
  let ps := w.1.map (fun p => match s.bulkPeek f p.1 p.2 .read with
    | none => (⟨none, p.1 % 64, p.2⟩ : BulkPiece)
    | some x => ⟨some (⟨x.host, x.addr / 64⟩, x.sealed), p.1 % 64, p.2⟩)
  let s := w.1.foldl (fun s p => if (s.bulkPeek f p.1 p.2 .read).isSome then s else s.bulkFault f p.1 p.2 .read) s
  let s := s.setF (F.BLK_DONE_VALUE f.ix) (s.getF (F.BLK_DONE_VALUE f.ix) + n)
  (s.setBulk f { w.2 with reads := (s.bulkOf f).reads ++ [(tag, ps)] }).pumpBulk f

/-- A line that the port asked for arrives; one asked for before the buffer was discarded is not kept. -/
def bulkArrive (s : State) (f : Func) (e : LEntry) (v : LineVal) : State :=
  let b := s.bulkOf f
  if e.role = b.gen then (s.setBulk f { b with ahead := b.ahead.put none (lineKey e.req.line e.req.sealed) (some v) }).pumpBulk f
  else s

/-! ### Registers (R423, R424) -/

def clampMark (s : State) (f : Func) (b : Bool) : State := if b then s.setF (F.BLK_STATUS_CLAMPED f.ix) 1 else s

/-- ADDR: the start of row 0. -/
def bulkAddr (s : State) (f : Func) (val : Nat) : State :=
  let v := val % 2 ^ 47
  let a := v / 4 * 4
  let s := ((s.setF (F.BLK_ADDR_ADDR f.ix) a).clampMark f (a != v)).setF (F.BLK_DONE_VALUE f.ix) 0
  let b := s.bulkOf f
  (s.setBulk f { b with rowStart := a, ptr := a, rowLen := s.bulkCount f, rowStride := s.bulkStride f }).dropAhead f |>.pumpBulk f

/-- STRIDE and COUNT; a STRIDE below COUNT becomes COUNT (DEDUCED, log 47). -/
def bulkShape (s : State) (f : Func) (count : Bool) (val : Nat) : State :=
  let s :=
    if count then
      let v := val % 2 ^ 32
      let c := if v = 0 then 4 else max 4 (v / 4 * 4)
      let s := (s.setF (F.BLK_COUNT_COUNT f.ix) c).clampMark f (c != v)
      if s.bulkStride f < c then s.setF (F.BLK_STRIDE_STRIDE f.ix) c else s
    else
      let v := val % 2 ^ 47
      let c := max (v / 4 * 4) (s.bulkCount f)
      (s.setF (F.BLK_STRIDE_STRIDE f.ix) c).clampMark f (c != v)
  (s.dropAhead f).pumpBulk f

/-! ### Arrival in the shared receive queue (R413, R414; 10 R292) -/

/-- Bulk writes are held by withheld credits in the dim state and after PLW_N (17 R456, R460). -/
def bulkHeldOff (s : State) : Bool := s.dimmed || s.power.plwRunning

/-- Can the TLP at the head of the queue take effect now? -/
def rxReady (s : State) : Posted → Bool
  | .bulkWrite f tlp _ => !s.bulkHeldOff && s.bulkFits f tlp
  | .bulkRead f _ _ => !s.bulkOut f
  | .blkAddr f _ => !s.bulkOut f
  | .blkShape f _ _ => !s.bulkOut f
  | .flr w => !s.bulkOut (.vf w)
  | .regWrite p _ _ _ => !(portFn p).any s.bulkOut
  | .regRead p _ _ => !(portFn p).any s.bulkOut

/-- What a Bulk Port command does once it takes effect: the port was open when a write arrived. -/
def bulkEffect (s : State) : Posted → State
  | .bulkWrite f tlp ep => if s.bulkResets f then s else s.bulkEnter f tlp ep
  | .bulkRead f n tag =>
    if s.bulkClosed f then (s.unsupportedReq f).emit (.unsupported tag)
    else if s.bulkResets f then s.emit (.bulkData f tag (leBytes n 0) false)
    else s.bulkReadTake f n tag
  | .blkAddr f val => if s.bulkResets f then s else s.bulkAddr f val
  | .blkShape f count val => if s.bulkResets f then s else s.bulkShape f count val
  | .flr w => s.flrReset w
  | _ => s

/-- A Bulk Port command arrives: it takes effect, or waits behind what arrived before it (DEDUCED, log 55). -/
def rxArrive (s : State) (c : Posted) : State :=
  if s.link.rxq.isEmpty && s.rxReady c then s.bulkEffect c else s.holdPosted c

end State

/-- A write TLP of at most 512 bytes in a Bulk Port aperture (R425). -/
def execBulkWrite (fn : Func) (tlp : List BulkByte) (ep : Bool) (s : State) : Result :=
  .next (if s.bulkClosed fn then s.unsupportedReq fn else if s.bulkResets fn || decide (512 < tlp.length) then s else s.rxArrive (.bulkWrite fn tlp ep))
/-- A read request of at most 4,096 bytes in a Bulk Port aperture (R426). -/
def execBulkRead (fn : Func) (n tag : Nat) (s : State) : Result :=
  .next (if !s.link.up then s
    else if s.bulkClosed fn || decide (4096 < n) then (s.unsupportedReq fn).emit (.unsupported tag)
    else if s.bulkResets fn then s.emit (.bulkData fn tag (leBytes n 0) false)
    else s.rxArrive (.bulkRead fn n tag))
/-- A write of BLK_ADDR by the port's own function (R423, R424). -/
def execBlkAddrWrite (fn : Func) (val : Nat) (s : State) : Result :=
  .next (if s.bulkClosed fn then s.unsupportedReq fn else if s.bulkResets fn then s else s.rxArrive (.blkAddr fn val))
/-- A write of BLK_COUNT or BLK_STRIDE by the port's own function (R423, R424). -/
def execBlkShapeWrite (fn : Func) (count : Bool) (val : Nat) (s : State) : Result :=
  .next (if s.bulkClosed fn then s.unsupportedReq fn else if s.bulkResets fn then s else s.rxArrive (.blkShape fn count val))

end Sys2Proof.Machine
end

