-- ==== Sys2Proof/Machine/MemCmds.lean ====
section
/-! DEFINITION. Device memory's own commands (spec 14): DDR5 training, loading a ward's key, the scrubber's passes
and wipes, coverage ages, error injection. -/

namespace Sys2Proof.Machine

/-! ### Modules and training (R372–R374) -/

/-- The code of the highest of the three rates that a module supports. -/
def rateCode (mts : Nat) : Nat := if 6400 ≤ mts then 3 else if 5600 ≤ mts then 2 else if 4800 ≤ mts then 1 else 0

/-- A module of the table of R372. -/
def dimmKnown (m : DimmInfo) : Bool :=
  (m.gib == 32 && !m.twoRanks && !m.dense32 && m.stack == 1)
    || (m.gib == 64 && m.twoRanks && !m.dense32 && m.stack == 1)
    || (m.gib == 64 && !m.twoRanks && m.dense32 && m.stack == 1)
    || (m.gib == 128 && m.twoRanks && m.dense32 && m.stack == 1)
    || (m.gib == 128 && m.twoRanks && !m.dense32 && m.stack == 2)

def dimmOk (m : DimmInfo) : Bool := m.present && m.rdimm && m.x4 && m.count == 1 && dimmKnown m && rateCode m.rate != 0

def noDimm : DimmInfo := ⟨false, false, false, 0, false, false, 1, 0, 0, false⟩

def minNat (l : List Nat) : Nat := match l with
  | [] => 0
  | a :: r => r.foldl min a

namespace State

/-- HOM_DIMM of a channel, and its event when it has not trained. -/
def trainChannel (s : State) (h : Nat) (m : DimmInfo) (speed c : Nat) : State :=
  let ok := dimmOk m && m.trains
  let s := ((s.setF (F.HOM_DIMM_SPEED h) (if ok then speed else 0)).setB (F.HOM_DIMM_RANKS h) (ok && m.twoRanks)).setB (F.HOM_DIMM_DENSITY h) (ok && m.dense32)
  let s := ((s.setB (F.HOM_DIMM_STACK h) (ok && m.stack == 2)).setB (F.HOM_DIMM_TRAINED h) ok).setB (F.HOM_DIMM_TRIMMED h) (ok && decide (c < m.gib))
  let s := ((s.setB (F.HOM_DIMM_REJECTED h) (m.present && !dimmOk m)).setF (F.HOM_DIMM_C_GIB h) (if ok then c else 0)).setB (F.HOM_DIMM_EMPTY h) (!m.present)
  if ok then s else s.event ⟨16 + h, 3, 13, 2, 0, if m.present && !dimmOk m then 2 else 3⟩

/-- Training of the 16 channels ends (R373; 17 R464 item 3, R469 step 7). -/
def trainAll (s : State) (mods : List DimmInfo) : State :=
  if !s.coreRuns || s.power.trained then s
  else
    let l := (List.range 16).map (fun h => mods.getD h noDimm)
    let speed := minNat ((l.filter dimmOk).map (fun m => rateCode m.rate))
    let c := minNat ((l.filter (fun m => dimmOk m && m.trains)).map (·.gib))
    let s := (List.range 16).foldl (fun s h => s.trainChannel h (l.getD h noDimm) speed c) s
    let s := s.setF (F.SUP_CAL_ITEM_INFORCE 3) (s.getF (F.SUP_CAL_ITEM_USER 3))
    if l.all (fun m => dimmOk m && m.trains) then
      ({ s with power := { s.power with trained := true, capGib := 16 * c } }).setF (F.SUP_BOOT_VALUE 2) s.supTime
    else s

/-! ### The seal (R385, R386) -/

/-- The staged key, its first byte lowest. -/
def stagedKey (s : State) : BitVec 512 :=
  BitVec.ofNat 512 ((List.range 8).foldl (fun a i => a + s.getF (F.HOM_SEAL_KEY_VALUE i) * 2 ^ (64 * i)) 0)

/-- LOAD: the staging registers are zeroed, refused or not. -/
def loadKey (s : State) (w : WardId) : State :=
  let k := s.stagedKey
  let s := (List.range 8).foldl (fun s i => s.setF (F.HOM_SEAL_KEY_VALUE i) 0) s
  if s.keyInstall.isSome || (s.key w).isSome || s.resettingWard w then s.setF F.HOM_SEAL_STATUS_REFUSED 1
  else { s with keyInstall := some (w, k) }

def installKey (s : State) : State :=
  match s.keyInstall with
  | none => s
  | some (w, k) => { s with keys := s.keys.put none w.val (some k), keyInstall := none }

/-! ### The scrubber (R392, R394–R397) -/

/-- A start, refused while another runs or on an empty range. -/
def startScrub (s : State) (wipe : Bool) : State :=
  let a := s.getF F.HOM_SCB_START_VALUE
  let b := s.getF F.HOM_SCB_END_VALUE
  if s.scrub.isSome || decide (b ≤ a) then s.setF F.HOM_SCB_STATUS_REFUSED 1
  else
    let s := { s with scrub := some ⟨wipe, a, b, s.supTime, 0, 0, 0, 0, 0, none, false, none⟩ }
    let s := (List.range 16).foldl (fun s h => s.updHome h (fun y => { y with scrubAt := some (a / 2097152 * 2048), scrubDone := wipe })) s
    ((s.setF F.HOM_SCB_STATUS_BUSY 1).setB F.HOM_SCB_STATUS_OP wipe).setF F.HOM_SCB_STATUS_RESULT 0

def abortScrub (s : State) : State :=
  match s.scrub with
  | none => s
  | some j =>
    if j.result.isSome then s
    else (List.range 16).foldl (fun s h => s.updHome h (fun y => { y with scrubDone := true })) { s with scrub := some { j with aborted := true } }

/-- The scrubber stands still: SCRUB of LNT_FREEZE during a device halt (19 R514). -/
def scrubFrozen (s : State) : Bool := s.lantern.freezeNow.getLsbD 5 && s.lantern.halts.any (fun h => h.scope == 3)

/-- Region `r` is covered in every home: its age becomes 0. -/
def coverRegion (s : State) (r : Nat) : State :=
  if (List.range 16).all (fun h => ((s.homeN h).scrubAt.map (fun p => decide ((r + 1) * 2048 ≤ p))).getD false) then { s with ages := s.ages.put 0 r 0 } else s

/-- A home goes on to place `p` of the pass. -/
def scrubTo (s : State) (h p : Nat) (j : ScrubJob) : State :=
  let s := s.updHome h (fun y => { y with scrubAt := some p, scrubDone := decide (j.stop / 2097152 * 2048 ≤ p) })
  if p % 2048 = 0 then s.coverRegion (p / 2048 - 1) else s

/-- A home scrubs its next line, or passes a part that was never written. -/
def scrubStep (s : State) (h : HomeId) (err : DramErr) : State :=
  match s.scrub, (s.homeN h.val).scrubAt with
  | some j, some p =>
    let r := p / 2048
    if j.wipe || j.aborted || (s.homeN h.val).scrubDone || s.scrubFrozen || !s.coreActive then s
    else if !(s.homeN h.val).bitmap.get false r then
      ({ s with scrub := some { j with skipped := j.skipped + 1 } }).scrubTo h.val ((r + 1) * 2048) j
    else
      let n := dpaOf h.val (p * 64) / 64
      if s.lineActive h.val ⟨false, n⟩ then s
      else
        let s := if err.bitmapBad then s.bitmapFault h.val n else s
        let o := s.dramOutcome n err.masks
        let (_, s) := s.readDram n err.masks none true
        let j := { j with lines := j.lines + 1 }
        let j := match o with
          | .clean _ => j
          | .corrected _ _ => { j with corrected := j.corrected + 1 }
          | .sig _ => { j with poisoned := j.poisoned + 1 }
          | .sigCorrected _ _ => { j with corrected := j.corrected + 1, poisoned := j.poisoned + 1 }
          | .uncorrectable _ => { j with uncorr := j.uncorr + 1, lowest := some (min (n * 64) (j.lowest.getD (n * 64))) }
        ({ s with scrub := some j }).scrubTo h.val (p + 1) j
  | _, _ => s

/-- The summary record. -/
def scrubRecord (s : State) (j : ScrubJob) (result : Nat) : List Byte :=
  leBytes 8 j.start ++ leBytes 8 j.stop ++ leBytes 8 j.tStart ++ leBytes 8 s.supTime ++ leBytes 8 j.lines ++ leBytes 4 j.corrected
    ++ leBytes 4 j.uncorr ++ leBytes 4 j.poisoned ++ leBytes 4 j.skipped ++ leBytes 8 (j.lowest.getD 0 % 2 ^ 41 + result * 2 ^ 48)

/-- Lines of device memory from `a` to before `b`. -/
def inRange (a b : Nat) (l : LineAddr) : Bool := !l.host && decide (a ≤ l.n * 64) && decide (l.n * 64 < b)

/-- Some home works on a line of the range, or initialises a part of it. -/
def rangeBusy (s : State) (a b : Nat) : Bool :=
  (List.range 16).any (fun h => (s.homeN h).txns.any (fun t => inRange a b t.line) || (s.homeN h).initing.any (fun r => (regionsOf a b).contains r))

/-- Step 1 of a wipe: every copy of the range's lines that a directory lists goes. -/
def wipeCopies (s : State) (a b : Nat) : State := (s.discardWays (fun _ c => inRange a b c.line)).backInvalidate (inRange a b)

/-- No directory lists a line of the range any more. -/
def forgetRange (s : State) (a b : Nat) : State :=
  (List.range 16).foldl (fun s h => (s.homeN h).dir.cells.foldl (fun s c => if inRange a b ⟨false, c.1⟩ then s.dirPut h c.1 none else s) s) s

/-- A wipe (R392): none while a home works on the range, so that what was admitted before is wiped; then the bits clear. -/
def wipeStep (s : State) (a b : Nat) : Bool × State :=
  if s.rangeBusy a b then (false, s)
  else
    let s := s.wipeCopies a b
    if s.rangeBusy a b then (false, s) else (true, (regionsOf a b).foldl clearRegion (s.forgetRange a b))

/-- The pass or wipe is over: RESULT, BUSY and the vector (R396). -/
def scrubOver (s : State) : State :=
  match s.scrub with
  | none => s
  | some j =>
    let s := (List.range 16).foldl (fun s h => s.updHome h (fun y => { y with scrubAt := none, scrubDone := false })) { s with scrub := none }
    let s := (s.setF F.HOM_SCB_STATUS_RESULT (j.result.getD 0)).setF F.HOM_SCB_STATUS_BUSY 0
    if s.isF F.HOM_SCB_CTRL_IRQ then s.raiseMsix .pf0 (s.getF F.HOM_SCB_CTRL_VECTOR) else s

/-- The summary record leaves for SUM_DPA as a supervisor write, a WR_INV of a reserve entry (R396; 13 R356, R357). -/
def writeRecord (s : State) (j : ScrubJob) : State :=
  let n := s.getF F.HOM_SCB_SUM_DPA_VALUE / 64
  if s.capacity ≤ n * 64 then (s.dpaErr (n * 64)).scrubOver
  else s.issue { LEntry.make (Req.make .wrInv ⟨false, n⟩ .scrub none false) .reserve with
    wdata := some ⟨lineOfBytes (s.scrubRecord j (j.result.getD 0)), false⟩ }

/-- Every home has finished, or the pass was aborted: a wipe clears its range, and the record is written (R396). -/
def endScrub (s : State) : State :=
  match s.scrub with
  | none => s
  | some j =>
    if !s.coreActive || j.result.isSome || !(List.range 16).all (fun h => (s.homeN h).scrubDone) then s
    else
      let (ok, s) := if j.wipe && !j.aborted then s.wipeStep j.start j.stop else (true, s)
      if !ok then s
      else
        let j := { j with result := some (if j.aborted then 2 else 1) }
        ({ s with scrub := some j }).writeRecord j

/-- A record that a CXL Reset has taken is written again once the reset is over (13 R368; DEDUCED, log 29). -/
def recordRetry (s : State) : State :=
  let mine := fun (e : LEntry) => e.req.src == .scrub && !e.aborted
  match s.scrub with
  | none => s
  | some j => if s.link.cxlResetBusy || j.result.isNone || s.ledger.waiting.any mine || s.held mine != 0 then s else s.writeRecord j

/-- Regions with a bit set in some home. -/
def liveRegions (s : State) : List Nat := ((List.range 16).flatMap (fun h => (s.homeN h).bitmap.cells.map (·.1))).eraseDups

/-- Six minutes pass (R397). -/
def ageRegions (s : State) : State :=
  { s with ages := s.liveRegions.foldl (fun t r => t.put 0 r (min 255 (t.get 0 r + 1))) s.ages }

/-! ### Injection (R398) -/

def armInjection (s : State) (h v : Nat) : State :=
  let a := bitsN v 2 4
  let b := bitsN v 6 4
  let a2 := min a 9
  let b2 := if b < 10 ∨ b = 15 then b else 15
  let s := ((s.setB (F.HOM_ECC_INJ_ADDR_EN h) (bitN v 1)).setF (F.HOM_ECC_INJ_DEV_A h) a2).setF (F.HOM_ECC_INJ_DEV_B h) b2
  let s := if bitN v 10 then s.setF (F.HOM_ECC_INJ_FIRED h) 0 else s
  let s := if bitN v 11 then s.setF (F.HOM_ECC_INJ_CLAMPED h) 0 else s
  let s := if a2 = a ∧ b2 = b then s else s.setF (F.HOM_ECC_INJ_CLAMPED h) 1
  if bitN v 0 then s.setF (F.HOM_ECC_INJ_ARM h) 1 else s

end State

/-- DDR5 training ends (R373, R374). -/
def execDdrTrainingDone (mods : List DimmInfo) (s : State) : Result := .next (s.trainAll mods)
/-- CXL Reset ends (15 R422 step 5). -/
def execCxlResetComplete (s : State) : Result := .next s.endCxlReset.recordRetry
/-- SEAL_CMD.LOAD (R386); S alone reaches SEAL_ (01 R19). -/
def execSealLoad (p : Port) (w : WardId) (s : State) : Result :=
  .next (s.hostWrite p F.HOM_SEAL_CMD_LOAD.off none (1 + 2 * w.val) true (fun s => s.loadKey w))
/-- The key stands in every home (R386). -/
def execSealKeyInstalled (s : State) : Result := .next s.installKey
/-- SCB_CTRL.SCRUB (R395, R396). -/
def execScrub (s : State) : Result :=
  .next (s.hostWrite .s F.HOM_SCB_CTRL_SCRUB.off none (State.inWord (F.HOM_SCB_CTRL_SCRUB) 1 (s.keptWord (F.HOM_SCB_CTRL_SCRUB).off)) true (fun s => s.startScrub false))
/-- SCB_CTRL.WIPE (R392). -/
def execWipe (s : State) : Result :=
  .next (s.hostWrite .s F.HOM_SCB_CTRL_WIPE.off none (State.inWord (F.HOM_SCB_CTRL_WIPE) 1 (s.keptWord (F.HOM_SCB_CTRL_WIPE).off)) true (fun s => s.startScrub true))
/-- SCB_CTRL.ABORT (R396). -/
def execScrubAbort (s : State) : Result :=
  .next (s.hostWrite .s F.HOM_SCB_CTRL_ABORT.off none (State.inWord (F.HOM_SCB_CTRL_ABORT) 1 (s.keptWord (F.HOM_SCB_CTRL_ABORT).off)) true (fun s => s.abortScrub))
/-- A home scrubs a line (R395). -/
def execScrubLine (h : HomeId) (err : DramErr) (s : State) : Result := .next (s.scrubStep h err)
/-- The pass or wipe ends (R396). -/
def execScrubPassEnd (s : State) : Result := .next s.endScrub
/-- Coverage ages rise (R397). -/
def execCoverageAgeTick (s : State) : Result := .next (if s.power.vauxGood then s.ageRegions else s)
/-- A write of ECC_INJ (R398); S alone writes it. -/
def execEccInjArm (p : Port) (h : HomeId) (val : BitVec 32) (s : State) : Result :=
  .next (s.hostWrite p (F.HOM_ECC_INJ_ARM h.val).off none val.toNat true (fun s => s.armInjection h.val val.toNat))

end Sys2Proof.Machine
end

