-- ==== Sys2Proof/Machine/Resets.lean ====
section
/-! DEFINITION. Cold, core cold and warm reset, and the first second (spec 00 Resets, R3, R4, R14; 11 R316; 17 R453,
R464–R473). -/

namespace Sys2Proof.Machine

/-! ### Calibration values (17 R464, R466) -/

/-- A signed byte. -/
def s8 (v : Nat) : Int := if v < 128 then v else (v : Int) - 256
/-- Low bits of a signed number. -/
def intBits (w : Nat) (v : Int) : Nat := (v % (2 ^ w : Int)).toNat

def calRange (n : Nat) : Int × Int :=
  if n = 0 then (-32, 32) else if n = 1 then (-8, 8) else if n = 2 then (0, 3) else if n = 3 then (-8, 8)
  else if n = 4 then (-30, 0) else if n = 5 then (-15, 0) else (0, 0)

def calMagic : Nat := 0x4C414355
def calCopy (b : Bool) : Nat := if b then 0xE1000 else 0xE0000

namespace State

/-- The grade's limits in °C (00 R2). -/
def gradeUpper (s : State) : Int := if s.fuses.gradeX then 105 else 95
def gradeLower (s : State) : Int := if s.fuses.gradeX then -20 else 0

def calUser (s : State) (n : Nat) : Int := s8 (s.getF (F.SUP_CAL_ITEM_USER n))
def calFactory (s : State) (n : Nat) : Int :=
  if n = 1 then s.fuses.droopWarn else if n = 4 then s.gradeUpper - 5 else if n = 5 then s.gradeUpper + 15
  else if n = 6 then s.fuses.ref else 0
/-- The value in force: items 2 and 3 keep the offset last taken up. -/
def calEff (s : State) (n : Nat) : Int :=
  if n = 2 ∨ n = 3 then s8 (s.getF (F.SUP_CAL_ITEM_INFORCE n)) else s.calFactory n + s.calUser n
def calPending (s : State) (n : Nat) : Bool := (n == 2 || n == 3) && s.getF (F.SUP_CAL_ITEM_INFORCE n) != s.getF (F.SUP_CAL_ITEM_USER n)

/-- USER of an item takes an offset, clamped. -/
def setUser (s : State) (n : Nat) (v : Int) : State :=
  let (lo, hi) := calRange n
  let e := max lo (min hi v)
  let s := s.setF (F.SUP_CAL_ITEM_USER n) (intBits 8 e)
  if e = v then s else s.setF (F.SUP_CAL_ITEM_CLAMPED n) 1

def calGood (s : State) (b : Bool) : Bool :=
  let r := s.flashBytes (calCopy b) 32
  ofLe (r.take 4) == calMagic && ofLe ((r.drop 30).take 2) == crcOf r 30
def calSeq (s : State) (b : Bool) : Nat := ofLe (s.flashBytes (calCopy b + 4) 4)

/-- The copy in force: none, or whether it is copy B. -/
def calCurrent (s : State) : Option Bool :=
  match s.calGood false, s.calGood true with
  | false, false => none
  | true, false => some false
  | false, true => some true
  | true, true => some (decide (s.calSeq false < s.calSeq true))

/-- Load the store (R466). -/
def calLoad (s : State) : State :=
  match s.calCurrent with
  | none => ((List.range 7).foldl (fun s n => s.setF (F.SUP_CAL_ITEM_USER n) 0) s).setF F.SUP_CAL_STATUS_STORE_EMPTY 1
      |>.setF F.SUP_CAL_STATUS_SEQ 0
  | some b =>
    let r := s.flashBytes (calCopy b + 8) 7
    let s := (List.range 7).foldl (fun s n => s.setUser n (s8 (r.getD n 0).toNat)) s
    (s.setF F.SUP_CAL_STATUS_STORE_EMPTY 0).setF F.SUP_CAL_STATUS_SEQ (s.calSeq b)

/-- SAVE writes over the older copy; a program that fails leaves that copy open (DESIGN CHOICE, log 3). -/
def calSave (s : State) (ok : Bool) : State :=
  let b := match s.calCurrent with
    | none => false
    | some b => !b
  let seq := (s.getF F.SUP_CAL_STATUS_SEQ + 1) % 2 ^ 32
  if ok then
    let r := leBytes 4 calMagic ++ leBytes 4 seq ++ (List.range 7).map (fun n => BitVec.ofNat 8 (s.getF (F.SUP_CAL_ITEM_USER n))) ++ leBytes 15 0
    let r := r ++ [0, 0]
    let r := r.take 30 ++ leBytes 2 (crcOf r 30)
    (((s.flashErase (calCopy b) 4096).flashWrite (calCopy b) r).setF F.SUP_CAL_STATUS_SEQ seq).setF F.SUP_CAL_STATUS_STORE_EMPTY 0
  else (s.flashSpoil (calCopy b) 32).setF F.SUP_CAL_STATUS_SAVE_FAIL 1

/-! ### What a warm reset writes back (11 R316; 13 R367, R368) -/

/-- Merge masked bytes, as a source under seal `w` sees them, into the stored line. -/
def storeMerged (s : State) (n : Nat) (w : Option WardId) (m : Mask64) (v : LineVal) : State :=
  let (old, s) :=
    if m = fullMask then ((⟨0, false⟩ : LineVal), s)
    else if s.partInit n then let (r, s) := s.readDram n [] none false; (⟨s.unsealWith w n r.data, r.poison⟩, s)
    else (⟨0, false⟩, s)
  let d := s.sealWith w n (mergeLine old.data v.data m)
  let p := v.poison || old.poison
  if s.partInit n then s.writeDram n d p else s.initPart (homeOf (n * 64)) (regionOf n) w n ⟨d, p⟩

/-- A host line that leaves at a reset which keeps the link. A line with bytes that are not valid is first asked for, from
its holder in M by RdCurr, else by RdOwn; what the host gives for those bytes is a free value (12 R348; DESIGN CHOICE,
log 46). -/
def flushHostLine (s : State) (l : LineAddr) (m : Mask64) (v : LineVal) (owned : Bool) : State :=
  if s.link.viral || m = 0 then s
  else if m = fullMask && owned then s.emit (.d2h l .dirtyEvict (some v))
  else
    let (f, s) := s.free
    (s.emit (.d2h l (if owned then .rdCurr else .rdOwn) none)).emit (.d2h l .dirtyEvict (some ⟨mergeLine (BitVec.ofNat 512 f) v.data m, v.poison⟩))

/-- A line's bytes leave for memory, or for the host while the link is up. -/
def flushBytes (s : State) (linkUp : Bool) (l : LineAddr) (w : Option WardId) (m : Mask64) (v : LineVal) (owned : Bool) : State :=
  if m = 0 then s
  else if l.host then (if linkUp then s.flushHostLine l m v owned else s)
  else s.storeMerged l.n w m v

/-- The write-back of a way's line holds an entry that is charged to the way's ward (13 R357). -/
def flushWay (s : State) (linkUp : Bool) (q : QuarterId) (c : CWay) (m : Mask64) (owned : Bool) : State :=
  let (x, s) := s.openEntry (LEntry.make (Req.make (if m = fullMask then .wb else .wbP) c.line (.drain q) (some c.ward) c.sealed) (.ward c.ward))
  (s.flushBytes linkUp c.line c.sealWard m ⟨c.data, c.poison⟩ owned).setEntry x none

/-- The arrays of a quarter are read: the tags of every set in use, the masks, and the bytes of modified lines (11
R306–R308). -/
def scanQuarter (s : State) (q : QuarterId) : State :=
  let s := ((s.quarter q).ways.cells.map (fun c => c.1 / 16)).eraseDups.foldl (fun s set => s.tagScan q set) s
  (s.quarter q).ways.cells.foldl (fun s c =>
    let s := if ((s.quarter q).ways.get CWay.free c.1).held then s.checkMask q (c.1 / 16) (c.1 % 16) else s
    match ((s.quarter q).ways.get CWay.free c.1).st with
    | .m => (s.checkBytes q (c.1 / 16) (c.1 % 16) fullMask).2
    | .im => (s.checkBytes q (c.1 / 16) (c.1 % 16) fullMask).2
    | .sm => (s.checkBytes q (c.1 / 16) (c.1 % 16) fullMask).2
    | _ => s) s

/-- What a quarter owns: its modified lines, and the write-backs on their way that their home still waits for. -/
def flushOwned (s : State) (linkUp : Bool) (q : QuarterId) : State :=
  let s := (s.quarter q).bufs.foldl (fun s b =>
    if (b.kind = .wb ∨ b.kind = .wbP) && s.wbLive (reqHome b.line) b.req then s.flushBytes linkUp b.line b.sealWard b.mask b.v true else s) s
  (s.quarter q).ways.cells.foldl (fun s c => if c.2.st = CState.m then s.flushWay linkUp q c.2 c.2.valid true else s) s

/-- What a quarter has stored in lines that it does not own yet: bytes of IM lines, of SM lines those stored since the upgrade was
asked for, and the bypass buffers. -/
def flushEarly (s : State) (linkUp : Bool) (q : QuarterId) : State :=
  let s := (s.quarter q).ways.cells.foldl (fun s c => match c.2.st with
    | .im => s.flushWay linkUp q c.2 c.2.valid false
    | .sm => s.flushWay linkUp q c.2 c.2.upgMask false
    | _ => s) s
  (s.quarter q).bufs.foldl (fun s b => if b.kind = .wrInv then s.flushBytes linkUp b.line b.sealWard b.mask b.v false else s) s

/-- Transactions that a home or the filter has taken run to their effect on memory: data that a holder returned, committed
write data, atomics that were admitted. -/
def flushHome (s : State) (linkUp : Bool) (h : Nat) : State :=
  let s := (s.homeN h).txns.foldl (fun s t =>
    let n := t.line.n
    let sent : Bool := decide (t.phase = TxnPhase.host .dirtyEvict)
    let s := match t.got with
      | none => s
      | some g => if t.recall || sent then s else s.flushBytes linkUp t.line g.sealWard g.mask g.v true
    let s := match t.wdata with
      | none => s
      | some v => if sent then s else s.flushBytes linkUp t.line t.req.sealWard t.req.mask v true
    if t.far && h < 16 then
      match t.req.at? with
      | none => s
      | some a =>
        let (r, s) := if s.partInit n then s.readDram n [] none false else ((⟨0, false⟩ : LineVal), s)
        let cur := if s.partInit n then s.unsealWith t.req.sealWard n r.data else 0
        if r.poison then s
        else s.storeMerged n t.req.sealWard (rangeMask a.off a.size) ⟨placeBytes a.off a.size (a.apply (lineBytes cur a.off a.size)), false⟩
    else s) s
  (s.homeN h).wbufs.foldl (fun s b => match b.data with
    | none => s
    | some v => s.flushBytes linkUp b.req.line b.req.sealWard b.req.mask v false) s

/-- Dirty lines reach memory, and host lines the host while the link is up: first what is owned, then what the homes hold,
then what was stored without ownership yet, the newest bytes last. Nothing of a fenced quarter is taken (11 R316; 12 R344;
DEDUCED, log 46). -/
def flushAll (s : State) (linkUp : Bool) : State :=
  let qs := (List.finRange 16).filter (fun q => !(s.quarter q).fenced)
  let s := qs.foldl scanQuarter s
  let s := qs.foldl (fun s q => s.flushOwned linkUp q) s
  let s := (List.range 17).foldl (fun s h => s.flushHome linkUp h) s
  qs.foldl (fun s q => s.flushEarly linkUp q) s

/-! ### The resets -/

/-- Groups whose bit and record the island keeps (16 R437, R445; 17 R472). -/
def keptGroups : List Nat := [44, 45, 47, 48]
def keptMask : Nat := keptGroups.foldl (fun a g => a + 2 ^ g) 0

/-- The key of a field of a Beacon record that is kept. -/
def keptRecord (key : Nat) : Bool :=
  let off := key / 128
  decide (0x30100 ≤ off) && keptGroups.contains ((off - 0x30100) / 32)

/-- The register fields after a core cold or a warm reset: SK fields and the island's stay. -/
def resetFld (s : State) (cold : Bool) : Tbl Nat :=
  let clears := fun (k : Nat) => match fldClass k with
    | some .warm => true
    | some .ward => true
    | some .tile => true
    | some .beacon => k != F.FLT_BEACON_GROUPS.key && !keptRecord k
    | some .dimm => cold
    | some .cold => false
    | none => false
  let s := { s with fld := s.fld.drop clears }
  (s.setF F.FLT_BEACON_GROUPS (s.getF F.FLT_BEACON_GROUPS &&& keptMask)).fld

/-- A home as a warm reset leaves it: the init bitmap stays. -/
def homesKept (s : State) : Tbl Home :=
  (List.range 16).foldl (fun t h => t.put Home.init h { Home.init with bitmap := (s.homeN h).bitmap }) .empty

/-- A pin keeps its level; no edge is held over a reset. -/
def pinsKept (s : State) : Tbl EvtPin :=
  (List.finRange 8).foldl (fun t p => let x := s.pin p; t.put EvtPin.init p.val ⟨x.level, x.cand, x.passed, none, 0⟩) .empty

/-- The Gatehouse's part of the power state, which no core reset changes; the capacity that training found stays over a
warm reset, and a core cold reset clears it (00 R16, GBL_CAPS). -/
def powerKept (s : State) (cold : Bool) : Power :=
  let p := s.power
  { Power.off with vauxGood := p.vauxGood, fuseGood := p.fuseGood, coreGood := p.coreGood, perst := p.perst, inBand := p.inBand,
                   belowSince := p.belowSince, calJob := p.calJob, calSince := p.calSince,
                   capGib := if cold then 0 else p.capGib }

/-- The management port goes on; a reset that it was asked for, and that this wider one absorbs, does not follow (18 R491; 00
R14). -/
def mgmtKept (s : State) (cold : Bool) : Mgmt :=
  { s.mgmt with pendingReset := s.mgmt.pendingReset.filter (fun x => x.1 == 2 || (!cold && x.1 == 1)) }

/-- The core domain in reset: everything but the island at its reset value (17 R472). Memory keeps its contents
over a warm reset (14 R389), and reads as zeros after a core cold reset (17 R473). -/
def coreReset (s : State) (cold : Bool) : State :=
  let ln := s.lantern
  { State.reset with
    pending := s.pending
    supTime := s.supTime
    tickCount := s.tickCount
    freeCtr := s.freeCtr
    out := s.out
    fld := s.resetFld cold
    fuses := s.fuses
    power := s.powerKept cold
    thermtrip := s.thermtrip
    wake := s.wake
    smbAlert := s.smbAlert
    flash := s.flash
    pins := s.pinsKept
    homes := if cold then .empty else s.homesKept
    dram := if cold then .empty else s.dram
    sigs := if cold then .empty else s.sigs
    symErrs := if cold then .empty else s.symErrs
    ages := if cold then .empty else s.ages
    logQueue := s.logQueue
    logNextSeq := s.logNextSeq
    logNextSlot := s.logNextSlot
    mgmt := s.mgmtKept cold
    lantern := { Lantern.locked with lock := ln.lock, fails := ln.fails, accFault := ln.accPhase != 0 } }

/-- A thermal trip lasts until the core rails are removed (17 R463; DEDUCED, log 50). -/
def keepTrip (s old : State) : State :=
  if old.thermtrip then
    ((s.setF F.SUP_DIM_STATE (old.getF F.SUP_DIM_STATE)).setF F.SUP_DIM_CAUSE 8).setF F.SUP_THERM_TRIPPED 1
  else s

/-- P: the core domain leaves reset (17 R469 step 5); the trims of item 2 come into force, and WAKE_N is released
(15 R418; DESIGN CHOICE, log 57). -/
def leaveReset (s : State) : State :=
  let p := s.power
  if p.vauxGood && p.fuseGood && p.coreGood && !p.perst && p.pAt.isNone then
    let s := { s with power := { p with pAt := some s.supTime, coreUp := true, d3cold := false, coldBinds := [], coldPme := false }, wake := false }
    (s.setF (F.SUP_BOOT_VALUE 0) s.supTime).setF (F.SUP_CAL_ITEM_INFORCE 2) (s.getF (F.SUP_CAL_ITEM_USER 2))
  else s

/-- A warm reset (00 Resets): `cause` is GBL_RESET_CAUSE.LAST; FLR keeps the link. -/
def warmReset (s : State) (cause : Nat) (keepLink : Bool) : State :=
  let old := if s.isF F.FLT_LOG_CTRL_ERASE then s.endLogErase else s
  let l := old.link
  let r := (old.flushAll keepLink).coreReset false
  let r := if keepLink then
      { r with link := { Link.down with up := l.up, rate := l.rate, width := l.width, cxl := l.cxl, l0p := l.l0p, insecure := l.insecure, ideMemBad := l.ideMemBad } }
    else r
  (((r.keepTrip old).setF F.GBL_RESET_CAUSE_LAST cause).bumpF F.GBL_RESET_CAUSE_WARM_COUNT 1).leaveReset

/-- A core cold reset (17 R472, R473; 18 R477); a thermal trip outlasts it while the core rails stay (17 R463). -/
def coldCore (s : State) : State :=
  let s := if s.isF F.FLT_LOG_CTRL_ERASE then s.endLogErase else s
  ((((s.coreReset true).keepTrip s).setF F.GBL_RESET_CAUSE_LAST 2).bumpF F.GBL_RESET_CAUSE_WARM_COUNT 1).leaveReset

/-- VAUX is lost: cold reset of everything; a flash write that was under way is cut (16, a slot with a bad CRC). -/
def vauxLost (s : State) : State :=
  let s := if s.isF F.FLT_LOG_CTRL_ERASE then s.flashSpoil logBase 65536 else s
  let s := if s.calSaving then s.calSave false else s
  { State.reset with
    pending := s.pending
    freeCtr := s.freeCtr
    out := s.out
    power := { Power.off with perst := s.power.perst }
    flash := s.flash }

/-- VAUX good: fuses, calibration store, log scan, boot marker (17 R453, R466, R468, R469 steps 1 and 2). -/
def vauxUp (s : State) (ok : Bool) (fz : Fuses) : State :=
  if s.power.vauxGood then s
  else
    let s := { s with power := { s.power with vauxGood := true, fuseGood := ok }, fuses := if ok then fz else Fuses.blank }
    let s := s.calLoad.logScan
    let s := s.queueLog s.bootMarker
    let s := if ok then s else s.event ⟨47, 3, 13, 0, 0, 1⟩
    s.leaveReset

/-- The bindings that D3cold keeps (17 R474; DEDUCED, log 58). -/
def bindsNow (s : State) : List (Nat × Nat × Nat) :=
  (List.finRange 8).filterMap (fun p => (s.bindOf p).map (fun b => (p.val, b.2.edge, b.2.filter)))

/-- The core rails are removed while VAUX stays: D3cold (17 R472); the thermal trip ends (R463). Rails that are already
gone keep the core in its cold reset, which a second removal does not begin again (00 R14). -/
def railsLost (s : State) : State :=
  if !s.power.vauxGood || !s.power.coreGood then s
  else
    let binds := s.bindsNow
    let pme := s.pmeEn
    let s := { s with thermtrip := false, power := { s.power with coreGood := false } }.coldCore
    { s with power := { s.power with d3cold := true, coldBinds := binds, coldPme := pme } }

end State

/-- VAUX leaves its range downward, or is removed: cold reset (17 R454). -/
def execVauxLoss (s : State) : Result := .next s.vauxLost
/-- VAUX good (17 R453, R469). -/
def execVauxGood (fuseOk : Bool) (fz : Fuses) (s : State) : Result := .next (s.vauxUp fuseOk fz)
/-- Core good (17 R453). -/
def execCoreGood (s : State) : Result :=
  .next (if s.power.vauxGood then ({ s with power := { s.power with coreGood := true } }).leaveReset else s)
/-- The core rails are removed (17 R472). -/
def execCoreRailLoss (s : State) : Result := .next s.railsLost
/-- PERST_N is asserted: a warm reset that lasts until it is released (15 R421). -/
def execPerstNAssert (s : State) : Result :=
  .next (let up := s.power.coreUp
    let s := { s with power := { s.power with perst := true } }
    if up then s.warmReset 3 false else s)
/-- PERST_N is deasserted (17 R469). -/
def execPerstNDeassert (s : State) : Result := .next ({ s with power := { s.power with perst := false } }).leaveReset
/-- Hot reset (15 R421). -/
def execHotReset (s : State) : Result := .next (if s.coreRuns && s.link.up then s.warmReset 4 false else s)
/-- The link goes down (15 R421, R428). -/
def execLinkDown (s : State) : Result := .next (if s.coreRuns && s.link.up then s.warmReset 5 false else s)
/-- PF0 FLR: a warm reset that keeps the link (15 R421). -/
def execPf0Flr (s : State) : Result := .next (if s.coreRuns && s.power.cfgReady then s.warmReset 6 true else s)

end Sys2Proof.Machine
end

