-- ==== Sys2Proof/Machine/Supply.lean ====
section
/-! DEFINITION. Pace, the stall watch and fabric events (spec 03 R101–R113), rails, droops and the dim state (17
R452–R459), the power-loss quiesce (R460, R461), thermal limits (R462, R463), the calibration store's commands
(R464–R467), and the passing of Gatehouse time (DESIGN CHOICE, log 1). -/

namespace Sys2Proof.Machine

/-! ### Units (03 R112; 16 R434) -/

def unitKind : UnitId → Nat
  | .tile _ => 1
  | .crossing _ => 2
  | .qcache _ => 3
  | .home _ => 4
  | .engine _ => 5
  | .lamp => 6
  | .ledger => 7
  | .ring _ => 8
  | .gatehouse => 0
  | .beacon => 0
def unitNum : UnitId → Nat
  | .tile t => t.val
  | .crossing t => t.val
  | .qcache q => q.val
  | .home h => h.val
  | .engine e => e.val
  | .lamp => 0
  | .ledger => 0
  | .ring n => n.val
  | .gatehouse => 0
  | .beacon => 0
/-- UNIT of SUP_STALL_STATUS. -/
def unitCode (u : UnitId) : Nat := unitKind u * 4096 + unitNum u

/-- Lowest slot of an engine's type (01 R53). -/
def engFirst (e : Nat) : Nat :=
  if e < 32 then 0 else if e < 48 then 32 else if e < 56 then 48 else if e < 64 then 56
  else if e < 68 then 64 else if e < 84 then 68 else 84

/-- The Beacon group and UNIT of a fabric unit. -/
def unitGroup : UnitId → Nat × Nat
  | .tile t => (t.val / 16, State.tileUnit t 0)
  | .crossing t => (t.val / 16, State.tileUnit t 1)
  | .qcache q => (q.val, 48)
  | .home h => (16 + h.val, 0)
  | .engine e => (16 + engClass (engType e.val), e.val - engFirst e.val)
  | .lamp => (40, 0)
  | .ledger => (41, 0)
  | .ring n => (39, n.val)
  | .gatehouse => (47, 0)
  | .beacon => (48, 0)

namespace State

/-- The ward that owns a tile core or an engine, which contains the event (03 R113). -/
def unitOwner (s : State) : UnitId → Option WardId
  | .tile t => s.tileWard t
  | .engine e => s.engineWard e
  | _ => none

/-- The stall watch does not cover the unit: the Gatehouse is clocked, and Lantern may have halted a unit (03 R107). -/
def unwatched (s : State) : UnitId → Bool
  | .tile t => s.haltCovers t
  | .crossing t => s.lantern.halts.any (fun h => s.scopeCovers h.scope h.target t)
  | .qcache q => s.lantern.halts.any (fun h => (h.scope == 1 && h.target == q.val) || h.scope == 3)
  | .engine e => (s.engineWard e).any s.wardHalted
  | .gatehouse => true
  | .beacon => true
  | _ => false

/-- SUP_STALL_STATUS takes a fabric event; UNIT stays for a unit that its table does not name (03 R112; DESIGN CHOICE,
log 85). -/
def recordFabric (s : State) (u : UnitId) (kind : Nat) : State :=
  let s := (s.bumpF F.SUP_STALL_STATUS_EVENTS 1).setF F.SUP_STALL_STATUS_KIND kind
  if unitKind u = 0 then s else s.setF F.SUP_STALL_STATUS_UNIT (unitCode u)

/-- The wards that an F-class event of the unit carries (16 R435). -/
def fatalScope (s : State) : UnitId → BitVec 8
  | .crossing t => s.quarterWards (tileQuarter t)
  | .qcache q => s.quarterWards q
  | _ => 0

/-- A tile whose core has stalled fetches nothing more, and its item fails (03 R113; 07 R211); a stranded tile stays
stranded (04 R134). -/
def holdTile (s : State) (t : TileId) : State :=
  let s := s.failAll t 2
  if (s.tile t).mode = TileMode.stranded then s
  else { s.updTile t (fun tl => { tl with mode := .faultHeld, stepDone := tl.stepping }) with gwQueue := s.gwQueue.erase t }

/-- A stall or an illegal code: `kind` is 1 or 2 of SUP_STALL_STATUS (03 R113; DEDUCED, log 56). -/
def stopUnit (s : State) (u : UnitId) (kind : Nat) : State :=
  let s := s.recordFabric u kind
  let g := unitGroup u
  let ev := fun (cls : Nat) (sc : BitVec 8) => (⟨g.1, cls, kind + 2, g.2, sc, BitVec.ofNat 64 (unitCode u)⟩ : Event)
  match u with
  | .tile t => (s.event (ev 2 (wardBit (s.tileWard t)))).holdTile t
  | .engine e =>
    match s.engineWard e with
    | some w => (s.event (ev 2 (wardBit (some w)))).faultEngine e
    | none => s.event (ev 3 0)
  | _ => s.event (ev 3 (s.fatalScope u))

/-- The oldest packet that stands at a node goes no further (06 R189). -/
def stickAt (s : State) (n : Node) : State :=
  match s.net.findIdx? (fun p => p.cur == n && !p.stuck) with
  | none => s
  | some i => { s with net := s.net.modify i (fun p => { p with stuck := true }) }

/-- An illegal dual-rail code; the Gatehouse is clocked and has none. -/
def illegalCode (s : State) (u : UnitId) : State :=
  match u with
  | .gatehouse => s
  | .crossing t => (s.stickAt (.tile t)).stopUnit u 2
  | .ring n => (s.stickAt (.stop n)).stopUnit u 2
  | _ => s.stopUnit u 2

/-! ### Pace (03 R105, R106) -/

def samplePace (s : State) (p : Nat) : State :=
  let s := s.setF F.SUP_PACE_CURRENT p
  let s := if s.getF F.SUP_PACE_LOW = 0 ∨ p < s.getF F.SUP_PACE_LOW then s.setF F.SUP_PACE_LOW p else s
  let s := if s.getF F.SUP_PACE_HIGH = 0 ∨ s.getF F.SUP_PACE_HIGH < p then s.setF F.SUP_PACE_HIGH p else s
  if p < s.getF F.SUP_PACE_ALARM_THRESH then s.setF F.SUP_PACE_ALARM_BELOW 1 else s

/-! ### Rails and droops (17 R452–R455) -/

/-- Range of a rail in mV: VSRAM to VAUX 3.3 V in whole mV. -/
def railRange (n : Nat) : Nat × Nat :=
  if n = 0 then (600, 900) else if n = 1 then (776, 824) else if n = 2 then (825, 875) else if n = 3 then (1067, 1133)
  else if n = 4 then (1710, 1890) else (3135, 3465)
def railHalf (n : Nat) : Nat := if n = 0 then 375 else if n = 1 then 400 else if n = 2 then 425 else 550
def railIn (n mv : Nat) : Bool := decide ((railRange n).1 ≤ mv) && decide (mv ≤ (railRange n).2)

def supplyEv (cls rail mv : Nat) : Event := ⟨44, cls, 11, rail, 0, BitVec.ofNat 64 (rail + mv % 65536 * 65536)⟩

/-- Tj in 0.125 °C steps as the registers show it: the USER offset of TSENSE comes on top (17 R464). -/
def tjShown (s : State) (t : Int) : Int := t + s.calUser 0

/-- LOWEST of SUP_DROOP_STAT takes every lower VCORE that the device reads, in 5 mV steps (DEDUCED, log 70). -/
def droopLowest (s : State) (mv : Nat) : State := s.lowF F.SUP_DROOP_STAT_LOWEST (mv / 5 * 5)

def sampleRail (s : State) (n mv : Nat) : State :=
  let s := if n = 0 then s.droopLowest mv else s
  let s := ((s.setF (F.SUP_RAIL_NOW n) mv).lowF (F.SUP_RAIL_LOW n) mv).highF (F.SUP_RAIL_HIGH n) mv
  if railIn n mv then s.setF (F.SUP_RAIL_OUT n) 0 else s

/-- One sensor's reading; the highest so far gives TJ and HOT. -/
def sampleSensor (s : State) (n : Nat) (t : Int) : State := s.setF (F.SUP_TSENSE_VALUE n) (intBits 16 (s.tjShown t))
def hottest : List Int → Nat → Option (Nat × Int)
  | [], _ => none
  | t :: r, n => match hottest r (n + 1) with
    | none => some (n, t)
    | some (m, u) => if t < u then some (m, u) else some (n, t)

def sampleRails (s : State) (mv : List Nat) (tj : List Int) : State :=
  let s := (mv.take 6).zipIdx.foldl (fun s x => s.sampleRail x.2 x.1) s
  let s := (tj.take 18).zipIdx.foldl (fun s x => s.sampleSensor x.2 x.1) s
  match hottest (tj.take 18) 0 with
  | none => s
  | some (n, t) => (s.setF F.SUP_THERM_TJ (intBits 16 (s.tjShown t))).setF F.SUP_THERM_HOT n

/-- Step 1 of the dim state (R456); READY falls. -/
def enterDim (s : State) (cause : Nat) : State :=
  if s.dimmed then s
  else (((s.setF F.SUP_DIM_STATE 1).setF F.SUP_DIM_CAUSE cause).bumpF F.SUP_DIM_ENTRIES 1).updReady

/-- A core rail enters the dim state with its F-class event, which is latched for each cause once it is met. -/
def dimRail (s : State) (rail mv : Nat) : State :=
  let s := if rail = 0 then s.droopLowest mv else s.setF (F.SUP_RAIL_OUT rail) 1
  (s.event (supplyEv 3 rail mv)).enterDim rail

/-- A rail has been out of its range for more than 2 µs (R452, R454); it reports once until it is in range again (DEDUCED, log 63). -/
def railOut (s : State) (n mv : Nat) : State :=
  if railIn n mv || !s.power.vauxGood then s
  else
    let was := s.isF (F.SUP_RAIL_OUT n)
    let s := s.setF (F.SUP_RAIL_OUT n) 1
    if 4 ≤ n then
      if mv < (railRange n).1 then s.vauxLost else if was then s else s.event (supplyEv 3 n mv)
    else if mv < railHalf n then
      s.railsLost
    else if n = 0 then
      if mv < 570 ∧ s.coreRuns ∧ !(s.dimmed && s.getF F.SUP_DIM_CAUSE == 0) then s.dimRail 0 mv else s
    else if s.coreRuns && !was then s.dimRail n mv else s

/-- DROOP_WARN in force, in 2.5 mV steps. -/
def belowWarn (s : State) (mv : Nat) : Bool := decide ((mv : Int) * 2 < s.calEff 1 * 5)

def droopFall (s : State) (mv : Nat) : State :=
  if !s.power.coreGood || !s.belowWarn mv || s.power.belowSince.isSome then s
  else
    let s := (s.bumpF F.SUP_DROOP_STAT_COUNT 1).droopLowest mv
    { s with power := { s.power with belowSince := some s.supTime } }

/-- Entry into the band from 0.57 V to below 0.60 V (R455). -/
def bandEntry (s : State) (mv : Nat) : State :=
  if !s.power.coreGood || s.power.inBand || !(decide (570 ≤ mv) && decide (mv < 600)) then s
  else
    let s := (s.bumpF F.SUP_DROOP_STAT_BAND 1).droopLowest mv
    ({ s with power := { s.power with inBand := true } }).event (supplyEv 1 0 mv)

/-- VCORE rises: the band is re-armed at 0.61 V, and a stay below DROOP_WARN ends at the threshold. -/
def vcoreRise (s : State) (mv : Nat) : State :=
  let s := if 610 ≤ mv then { s with power := { s.power with inBand := false } } else s
  if s.belowWarn mv then s
  else match s.power.belowSince with
    | none => s
    | some t =>
      { (s.highF F.SUP_DROOP_STAT_LONGEST (min 0xFFFF (s.supTime - t))) with power := { s.power with belowSince := none } }

/-! ### The dim state (17 R456–R459) -/

/-- Nothing that was dispatched or accepted runs any more (step 2). -/
def workEnded (s : State) : Bool :=
  (List.finRange 8).all (fun w => (s.lampw w).running.isEmpty)
    && (List.finRange 86).all (fun e => (s.engine e).queue.isEmpty && !s.ringOut e)

/-- Steps 3 and 4: the quarters drain, then memory enters self-refresh. -/
def dimDeeper (s : State) : State :=
  if s.getF F.SUP_DIM_STATE ≠ 1 || !s.workEnded then s
  else
    let s := if s.power.dimDrain then s.pumpAll else ({ s with power := { s.power with dimDrain := true } }).beginDrains
    if s.allDrained then s.endDrains.setF F.SUP_DIM_STATE 2 else s

/-- LIMIT has passed (R459). -/
def dimTimeout (s : State) : State :=
  if !s.dimmed || s.power.dimOut then s
  else
    let rail := s.getF F.SUP_DIM_CAUSE
    let low := if rail < 6 then s.getF (F.SUP_RAIL_LOW rail) else 0
    let s := (s.setF F.SUP_DIM_TIMED_OUT 1).event (supplyEv 3 (rail % 8) low)
    ({ s with power := { s.power with dimOut := true } }).releaseHeld

/-! ### The power-loss quiesce (17 R460, R461) -/

/-- A tile's store buffer drains as far as the Ledger lets it. -/
def drainBuffers (s : State) : State :=
  s.tiles.cells.foldl (fun s c => (s.drainWhere (Fin.ofNat 256 c.1) (fun _ => true)).2) s

/-- Steps 1 to 3 begin (DEDUCED, log 65). -/
def plwBegin (s : State) : State :=
  let s := (s.setF F.SUP_PLW_LEVEL 1).event ⟨44, 2, 11, 6, 0, 6⟩
  if s.power.plwRunning || !s.coreRuns then s
  else
    let s := { s with power := { s.power with plwRunning := true } }
    let s := (List.finRange 86).foldl (fun s e => s.resetEngine e false) s
    s.drainBuffers

/-- Step 3 goes on until every store buffer and every quarter is empty; then step 4. -/
def plwStep (s : State) : State :=
  if !s.power.plwRunning || s.isF F.SUP_PLW_QUIESCED then s
  else
    let s := s.drainBuffers
    if s.tiles.cells.any (fun c => !c.2.sb.isEmpty) then s
    else
      let s := s.pumpAll.beginDrains
      if s.allDrained then s.endDrains.setF F.SUP_PLW_QUIESCED 1 else s

/-! ### Thermal limits (17 R462, R463) -/

def thermalEv (cls sensor : Nat) (t : Int) : Event :=
  ⟨45, cls, 12, sensor, 0, BitVec.ofNat 64 (sensor % 16 + intBits 16 t * 65536)⟩

def tripNow (s : State) (t : Int) (n : Nat) : State :=
  if !s.power.vauxGood || s.thermtrip || t < 8 * s.calEff 5 then s
  else
    let s := (({ s with thermtrip := true }).setF F.SUP_THERM_TRIPPED 1).event (thermalEv 3 n t)
    if s.dimmed then s.setF F.SUP_DIM_CAUSE 8 else s.enterDim 8

/-- Each condition is re-armed 2 °C on the safe side of its threshold (R462). -/
def rearm (s : State) (t0 : Int) : State :=
  let t := s.tjShown t0
  let s := if t ≤ 8 * s.calEff 4 - 16 then { s.setF F.SUP_THERM_WARN 0 with power := { s.power with throttleUntil := 0 } } else s
  let s := if t ≤ 8 * s.gradeUpper - 16 then s.setF F.SUP_THERM_OVER 0 else s
  if 8 * s.gradeLower + 16 ≤ t then s.setF F.SUP_THERM_COLD 0 else s

/-! ### The calibration store (17 R464–R467) -/

/-- The arbiter gives the store to a command: 0 a USER write, 1 SAVE, 2 RELOAD. -/
def calHold (s : State) (byM : Bool) (what : Nat) : State :=
  let s := { s with power := { s.power with calJob := some (bN byM, what), calSince := s.supTime } }
  (s.setF F.SUP_CAL_STATUS_BUSY 1).setF F.SUP_CAL_STATUS_OWNER (bN byM)
def calFree (s : State) : State :=
  let s := { s with power := { s.power with calJob := none } }
  (s.setF F.SUP_CAL_STATUS_BUSY 0).setF F.SUP_CAL_STATUS_OWNER 0
def calBusy (s : State) : Bool := s.power.calJob.isSome
def calRefuse (s : State) : State := s.setF F.SUP_CAL_STATUS_REFUSED 1

/-- A write of USER (DEDUCED, log 59). -/
def calUserWrite (s : State) (byM : Bool) (n : Nat) (v : Int) : State := (s.setUser n v).calHold byM 0
def calZeroAll (s : State) (byM : Bool) : State :=
  ((List.range 7).foldl (fun s n => s.setF (F.SUP_CAL_ITEM_USER n) 0) s).calHold byM 0

/-- S writes CAL_ITEMn.USER. -/
def calUserS (s : State) (n : Nat) (v : Int) : State := if s.calBusy then s.calRefuse else s.calUserWrite false n v
def calSaveS (s : State) : State := if s.calBusy || !s.power.bootDone then s.calRefuse else s.calHold false 1
def calReloadS (s : State) : State := if s.calBusy then s.calRefuse else s.calHold false 2
def calZeroS (s : State) : State := if s.calBusy then s.calRefuse else s.calZeroAll false

/-! ### Time (00 R14; 03 R104; 04 R147; 07 R217, R222; 13 R363) -/

/-- A tile's access waits for a Ledger entry. -/
def atBound (s : State) (t : TileId) : Bool :=
  s.ledger.waiting.any (fun e => decide (e.req.src = .tile t) || (match e.req.src with
    | .quarter _ u => decide (u = t)
    | _ => false))

/-- 40 ns at one tile: the blocked times, and copies whose invalidation arrives. -/
def tileTime (s : State) (t : TileId) : State :=
  let tl := s.tile t
  let tl := match tl.mode with
    | .inGetwork _ _ => tl.countEv 9 1
    | .inPuttok _ => tl.countEv 12 1
    | .inMemory _ _ => if s.atBound t then tl.countEv 13 1 else tl
    | _ => tl
  s.setTile t { tl with l1d := tl.l1d.filter (fun l => !l.stale) }

/-- A token or a posting of the ward stands refused: by the store, by the delay lists (R217; DEDUCED, log 64). -/
def heldAtStore (s : State) (w : WardId) : Bool :=
  (s.lampw w).waiting.any (fun x => !x.1.delayed)
    || (!s.delaysHeld w && (s.lampw w).delays.any (·.begun))
    || (!s.storeTakes w && ((List.range 16).any (fun g => !(s.gateBuf g).isEmpty && ((s.gate g).any (fun x => x.token && x.dst == w.val)))
      || (List.finRange 8).any (fun p => (s.pin p).edge.isSome && (s.bindOf p).any (fun b => b.1 == w))))
def heldAtLists (s : State) (w : WardId) : Bool := (s.lampw w).waiting.any (fun x => x.1.delayed)

/-- 40 ns of a ward's counters. -/
def wardTime (s : State) (w : WardId) : State :=
  let lw := s.lampw w
  let busyT := s.tiles.cells.filter (fun c => c.2.item.isSome && s.tileWard (Fin.ofNat 256 c.1) == some w)
  let busyE := s.engines.cells.filter (fun c => c.2.queue.any (fun d => d.item.isSome) && s.engineWard (Fin.ofNat 86 c.1) == some w)
  let lw := { lw with
    obsTile := busyT.foldl (fun t c => satAdd t c.1) lw.obsTile
    obsEng := busyE.foldl (fun t c => satAdd t c.1) lw.obsEng
    obsWindow := min (2 ^ 64 - 1) (lw.obsWindow + 1) }
  let st := s.heldAtStore w
  let dl := s.heldAtLists w
  let mine := s.ledger.waiting.any (fun e => e.charge == .ward w)
  let s := s.setLampw w lw
  let s := if st then s.bumpF (F.LMPW_BOUND_STORE_TIME w.val) 1 else s
  let s := if dl then s.bumpF (F.LMPW_BOUND_DELAY_TIME w.val) 1 else s
  if mine && decide (s.ldgMin w ≤ s.heldBy w) then
    if s.ldgCeil w ≤ s.heldBy w then s.bumpF (F.LDGW_BOUND_CEIL_TIME w.val) 1
    else if s.poolSize ≤ s.poolUsed then s.bumpF (F.LDGW_BOUND_POOL_TIME w.val) 1 else s
  else s

/-- 40 ns of Gatehouse time. -/
def passTime (s : State) : State :=
  if !s.power.vauxGood then s
  else
    let s := { s with supTime := (s.supTime + 1) % 2 ^ 64 }
    if !s.power.coreUp then s
    else
      let s := s.tiles.cells.foldl (fun s c => s.tileTime (Fin.ofNat 256 c.1)) s
      let s := (List.finRange 8).foldl wardTime s
      let s := if 32768 ≤ s.held (fun _ => true) then s.bumpF F.LDG_BOUND_FULL_TIME 1 else s
      let s := if s.ledger.waiting.any (fun e => e.req.kind.isHost) then s.bumpF F.LDG_BOUND_CXLMEM_WAIT 1 else s
      s.tracePumpAll

end State

/-! ### The commands -/

/-- A pace sample is taken (R105, R106). -/
def execPaceSample (pace : Nat) (s : State) : Result := .next (if s.coreRuns then s.samplePace pace else s)
/-- The stall watch times out on a unit (R107, R108, R113). -/
def execStallEvent (u : UnitId) (s : State) : Result :=
  .next (if s.coreRuns && s.isF F.SUP_STALL_CTRL_ENABLE && !s.unwatched u then s.stopUnit u 1 else s)
/-- The self-test of the stall watch (R109); UNIT of SUP_STALL_STATUS stays (DESIGN CHOICE, log 85). -/
def execStallSelftest (fired : Bool) (s : State) : Result :=
  .next (if s.coreRuns && s.isF F.SUP_STALL_CTRL_SELFTEST && !fired then
      (((s.bumpF F.SUP_STALL_STATUS_EVENTS 1).setF F.SUP_STALL_STATUS_KIND 5).setF F.SUP_STALL_STATUS_SELFTEST_FAIL 1).event ⟨46, 3, 6, 0, 0, 0⟩
    else s)
/-- An illegal dual-rail code (R113; 06 R189). -/
def execIllegalCodeDetect (u : UnitId) (s : State) : Result := .next (if s.coreRuns then s.illegalCode u else s)
/-- The rails and sensors are sampled (R452, R462). -/
def execRailSample (mv : List Nat) (tj : List Int) (s : State) : Result := .next (if s.power.vauxGood then s.sampleRails mv tj else s)
/-- A rail is out of range (R454). -/
def execRailOutOfRange (rail : Fin 6) (mv : Nat) (s : State) : Result := .next (s.railOut rail.val mv)
/-- VCORE falls below DROOP_WARN (R455). -/
def execDroopWarnFall (mv : Nat) (s : State) : Result := .next (s.droopFall mv)
/-- VCORE enters the band (R455). -/
def execVcoreBandEntry (mv : Nat) (s : State) : Result := .next (s.bandEntry mv)
/-- VCORE rises again (R455). -/
def execVcoreRecovery (mv : Nat) (s : State) : Result := .next (s.vcoreRise mv)
/-- The dim state begins (R455, R456, R462): `cause` as CAUSE codes it. -/
def execDimEnter (cause : Fin 16) (mv : Nat) (s : State) : Result :=
  .next (if !s.coreRuns || s.dimmed then s
    else if cause.val < 4 ∧ State.railIn cause.val mv = false ∧ (cause.val = 0 → mv < 570) then s.dimRail cause.val mv
    else if cause.val = 8 ∧ s.isF F.SUP_THERM_TRIPPED then s.enterDim 8
    else s)
/-- Steps 2 to 4 of the dim state go on (R456). -/
def execDimSelfRefresh (s : State) : Result := .next s.dimDeeper
/-- SUP_DIM.LIMIT passes (R459). -/
def execDimLimit (s : State) : Result := .next s.dimTimeout
/-- PLW_N is asserted (R460). -/
def execPlwNAssert (s : State) : Result := .next (if s.power.vauxGood && !s.isF F.SUP_PLW_LEVEL then s.plwBegin else s)
/-- The quiesce goes on, and ends (R460). -/
def execPlwQuiesced (s : State) : Result := .next s.plwStep
/-- PLW_N is released: the quiesce stands (R461). -/
def execPlwNDeassert (s : State) : Result := .next (s.setF F.SUP_PLW_LEVEL 0)
/-- Tj reaches WARN (R462). -/
def execThermWarn (tj : Int) (_sensor : Fin 18) (s : State) : Result :=
  .next (if s.power.vauxGood && decide (8 * s.calEff 4 ≤ s.tjShown tj) then s.setF F.SUP_THERM_WARN 1 else s)
/-- Tj is above the grade (R462). -/
def execThermOver (tj : Int) (sensor : Fin 18) (s : State) : Result :=
  .next (if s.power.vauxGood && decide (8 * s.gradeUpper < s.tjShown tj) && !s.isF F.SUP_THERM_OVER then
      (s.setF F.SUP_THERM_OVER 1).event (State.thermalEv 2 sensor.val (s.tjShown tj))
    else s)
/-- Tj is below the grade (R462). -/
def execThermCold (tj : Int) (_sensor : Fin 18) (s : State) : Result :=
  .next (if s.power.vauxGood && decide (s.tjShown tj < 8 * s.gradeLower) then s.setF F.SUP_THERM_COLD 1 else s)
/-- Tj reaches TRIP, with the factory trims alone (R462, R463). -/
def execThermalTrip (tj : Int) (sensor : Fin 18) (s : State) : Result := .next (s.tripNow tj sensor.val)
/-- Tj has fallen, or risen, past a re-arm point (R462). -/
def execThermalRearm (tj : Int) (s : State) : Result := .next (if s.power.vauxGood then s.rearm tj else s)
/-- The hold of dispatch in a period of 10 µs while WARN is set (R462): THROTTLE × 1.25 µs, to the next 40 ns. -/
def execThrottleHold (s : State) : Result :=
  .next (if s.isF F.SUP_THERM_WARN && s.isF F.SUP_THERM_THROTTLE then
      { s with power := { s.power with throttleUntil := s.supTime + (s.getF F.SUP_THERM_THROTTLE * 125 + 3) / 4 } }
    else s)
/-- A write of CAL_ITEMn.USER by S (R464, R467). -/
def execCalUserWrite (p : Port) (n : Fin 7) (val : Int) (s : State) : Result :=
  .next (s.hostWrite p (F.SUP_CAL_ITEM_USER n.val).off none (intBits 8 val) true (fun s => s.calUserS n.val val))
/-- The 1 µs of a USER write is over (R467). -/
def execCalUserHoldEnd (s : State) : Result :=
  .next (match s.power.calJob with
    | some (_, 0) => s.calFree
    | _ => s)
/-- CAL_CMD.SAVE (R466, R467). -/
def execCalCmdSave (s : State) : Result :=
  .next (s.hostWrite .s F.SUP_CAL_CMD_SAVE.off none 1 true (fun s => s.calSaveS))
/-- CAL_CMD.RELOAD (R466, R467). -/
def execCalCmdReload (s : State) : Result :=
  .next (s.hostWrite .s F.SUP_CAL_CMD_RELOAD.off none 2 true (fun s => s.calReloadS))
/-- CAL_CMD.ZERO (R466, R467). -/
def execCalCmdZero (s : State) : Result :=
  .next (s.hostWrite .s F.SUP_CAL_CMD_ZERO.off none 4 true (fun s => s.calZeroS))

end Sys2Proof.Machine
end

