-- ==== Sys2Proof/Machine/Checks.lean ====
section
/-! DEFINITION. Where a check of the fabric or of an on-die array meets a bad word (spec 03 R113, R114; 06 R189; 11 R305,
R307; 12 R322, R347; 13 R366; 16 R434). -/

namespace Sys2Proof.Machine
namespace State

/-! ### Words of the fabric (03 R113) -/

/-- The data that a transaction or a write buffer at a home holds, poisoned. -/
def poisonHome (s : State) (h : Fin 17) (x : Nat) : Option WardId × State :=
  let bad := fun (v : LineVal) => { v with poison := true }
  let hm := s.homeN h.val
  let w := match hm.txns.find? (fun t => t.xid == x) with
    | some t => t.req.ward
    | none => (hm.wbufs.find? (fun b => b.xid == x)).bind (fun b => b.req.ward)
  (w, s.updHome h.val (fun y => { y with
    txns := y.txns.map (fun t => if t.xid = x then
      { t with wdata := t.wdata.map bad
               got := t.got.map (fun g => { g with v := bad g.v })
               rd := t.rd.map (fun r => match r with
                 | .zeros => .stored ⟨0, true⟩
                 | .stored v => .stored (bad v)) }
      else t)
    wbufs := y.wbufs.map (fun b => if b.xid = x then { b with data := b.data.map bad } else b) }))

/-- A line that an engine has read, poisoned. -/
def poisonEngineIn (s : State) (e : EngId) (l : LineAddr) : State :=
  let en := s.engine e
  let put := fun (t : Tbl (Option LineVal)) (k : Nat) => match t.get none k with
    | none => t
    | some v => t.put none k (some { v with poison := true })
  s.setEngine e { en with fetched := put (put en.fetched (lineKey l false)) (lineKey l true) }

/-- A line that an engine has computed, poisoned while it has not left for its home. -/
def poisonEngineOut (s : State) (e : EngId) (i : Nat) : State :=
  match (s.engine e).run.bind (fun r => r.outs[i]?) with
  | none => s
  | some o =>
    let bad := fun (x : LEntry) => if ofEngine e x && x.role == 0 && decide (x.req.line = o.line) then
      { x with wdata := x.wdata.map (fun v => { v with poison := true }) } else x
    let en := s.engine e
    let s := s.setEngine e { en with run := en.run.map (fun r => { r with outs := r.outs.modify i (fun o => { o with poison := true }) }) }
    let s := s.ledger.entries.cells.foldl (fun s c => s.updEntry c.1 bad) s
    { s with ledger := { s.ledger with waiting := s.ledger.waiting.map bad } }

/-- The word that the check found bad is poisoned where it stands (R113), and the ward that it belongs to. -/
def poisonWord (s : State) : PoisonSite → Option WardId × State
  | .lsWord t w => (s.tileWard t, s.updTile t (fun tl => { tl with lsPoison := tl.lsPoison.put false w.val true }))
  | .packet i =>
    match s.net[i]? with
    | none => (none, s)
    | some p => (some p.ward, { s with net := s.net.modify i (fun p => { p with poison := true }) })
  | .qline q l =>
    match s.qFind q l with
    | none => (none, s)
    | some w =>
      let c := (s.quarter q).way (setOf l) w
      (some c.ward, s.putWay q (setOf l) w { c with poison := true })
  | .l1Copy t l => (s.tileWard t, s.updTile t (fun tl => { tl with l1d := tl.l1d.map (fun x =>
      if x.line = l then { x with v := { x.v with poison := true } } else x) }))
  | .storeBuf t i => (s.tileWard t, s.updTile t (fun tl => { tl with sb := tl.sb.modify i (fun e => { e with poison := true }) }))
  | .homeWord h x => s.poisonHome h x
  | .engineIn e l => (s.engineWard e, s.poisonEngineIn e l)
  | .engineOut e i => (s.engineWard e, s.poisonEngineOut e i)
  | _ => (none, s)

/-- A parity or residue error: U-class, and the word travels on poisoned (R113; 06 R189; DEDUCED, log 78). On the
Gatehouse's sequencer state it is F-class, and no fabric event (R114; 16 R434, R438). -/
def parityHit (s : State) (u : UnitId) (residue : Bool) (site : PoisonSite) : State :=
  if u = .gatehouse then s.event ⟨47, 3, 5, 0, 0, BitVec.ofNat 64 (s.getF F.SUP_STALL_STATUS_UNIT)⟩
  else
    let (w, s) := s.poisonWord site
    let s := s.recordFabric u (if residue then 4 else 3)
    let s := match u, site with
      | .crossing t, .packet _ => s.bumpF (F.TIL_AVE_CNT_PARITY t.val) 1
      | _, _ => s
    let g := unitGroup u
    s.event ⟨g.1, 2, 5, g.2, wardBit (match s.unitOwner u with
      | some o => some o
      | none => w), BitVec.ofNat 64 (s.getF F.SUP_STALL_STATUS_UNIT)⟩

/-! ### Bytes of on-die arrays (03 R114; 11 R305) -/

/-- A stored byte of local store: its error shows when the byte is next read (04 R121, R129). -/
def flipLs (s : State) (t : TileId) (o : Nat) (flips : BitVec 13) : State :=
  s.updTile t (fun tl =>
    match decode13 (encode13 (tl.ls.get 0 o).toNat ^^^ flips.toNat) with
    | .clean d => { tl with ls := tl.ls.put 0 o (BitVec.ofNat 8 d) }
    | .corrected d => { tl with ls := tl.ls.put 0 o (BitVec.ofNat 8 d), lsFix := tl.lsFix.put false o true }
    | .uncorrectable _ => { tl with lsBad := tl.lsBad.put false o true })

/-- A stored byte of a line's byte-valid mask: its error shows when the mask is next read (11 R307). -/
def flipMask (s : State) (q : QuarterId) (l : LineAddr) (k : Nat) (flips : BitVec 13) : State :=
  match s.qFind q l with
  | none => s
  | some w =>
    let c := (s.quarter q).way (setOf l) w
    let c := { c with maskErrs := (k, flips) :: c.maskErrs.filter (fun e => e.1 != k) }
    s.updQuarter q (fun y => { y with ways := y.ways.put CWay.free (setOf l * 16 + w) c })

/-- The scope of a Ledger entry's events (16 R435). -/
def entryWard (e : LEntry) : Option WardId :=
  match e.charge with
  | .ward w => some w
  | .reserve => none

/-- A byte of a Ledger entry is read. Corrected, it is counted; uncorrectable, the entry closes with status POISON when the
final response reaches its source, which takes it poisoned (13 R365, R366; DEDUCED, log 83). -/
def checkEntryByte (s : State) (x : Nat) (flips : BitVec 13) : State :=
  match s.entry x with
  | none => s
  | some e =>
    match decode13 flips.toNat with
    | .clean _ => s
    | .corrected _ => s.event ⟨41, 1, 1, 0, wardBit (entryWard e), BitVec.ofNat 64 x⟩
    | .uncorrectable _ => (s.setEntry x (some { e with bad := true })).event ⟨41, 2, 2, 0, wardBit (entryWard e), BitVec.ofNat 64 x⟩

/-- A byte of a directory or filter entry is read (12 R322, R347). Corrected, it is counted; uncorrectable, the line is
poisoned (03 R113; DEDUCED, log 83). -/
def checkDirByte (s : State) (h : Fin 17) (l : LineAddr) (flips : BitVec 13) : State :=
  let tell := fun (s : State) (cls : Nat) =>
    if h.val < 16 then s.eccEvent h.val cls cls 1 none else s.event ⟨42, cls, cls, 1, 0, 0⟩
  match s.dirGet h.val l.n with
  | none => s
  | some d =>
    match decode13 flips.toNat with
    | .clean _ => s
    | .corrected _ => tell s 1
    | .uncorrectable _ => tell (s.dirPut h.val l.n (some { d with poison := true })) 2

/-- A check meets a bad word: of the fabric, or of an array under the byte code. -/
def checkHit (s : State) (u : UnitId) (residue : Bool) (site : PoisonSite) : State :=
  match site with
  | .lsByte t o flips => s.flipLs t o.val flips
  | .maskByte q l k flips => s.flipMask q l k.val flips
  | .ledgerEntry x flips => s.checkEntryByte x flips
  | .dirEntry h l flips => s.checkDirByte h l flips
  | _ => s.parityHit u residue site

end State

/-- A parity or residue error (03 R113, R114). -/
def execParityError (u : UnitId) (residue : Bool) (site : PoisonSite) (s : State) : Result :=
  .next (if (if u = .gatehouse then s.power.vauxGood else s.coreRuns) then s.checkHit u residue site else s)

end Sys2Proof.Machine
end

