-- ==== Sys2Proof/Machine/Regs.lean ====
section
/-! DEFINITION. Register space: what a register reads as, which port reaches it, and what a write does (spec 00
R8–R13, R15, R16; 01 R19–R21, R50, R52, R53; the register tables of 01–18). -/

namespace Sys2Proof.Machine

/-! ### Indices of the instances -/

/-- The tile of a TIL_ block. -/
def tilIx (b : Nat) : TileId := Fin.ofNat 256 ((b - 0x100000) / 0x10000 * 16 + (b % 0x10000 - 0x8000) / 0x400)
def qcIx (b : Nat) : QuarterId := Fin.ofNat 16 ((b - 0x100000) / 0x10000)
def homIx (b : Nat) : Nat := (b - 0x200000) / 0x10000
def engIx (b : Nat) : EngId := Fin.ofNat 86 ((b - 0x300000) / 0x1000)
def wrdIx (b : Nat) : WardId := Fin.ofNat 8 ((b - 0x20000) / 0x1000)
def fltwIx (b : Nat) : WardId := Fin.ofNat 8 ((b - 0x34000) / 0x1000)
def lmpwIx (b : Nat) : WardId := Fin.ofNat 8 ((b - 0x51000) / 0x1000)
def ldgwIx (b : Nat) : WardId := Fin.ofNat 8 ((b - 0x60100) / 0x40)
/-- The function of a BLK_ block (15 R423). -/
def blkIx (b : Nat) : Func := if b < 0x801000 then .pf0 else .vf (Fin.ofNat 8 ((b - 0x801000) / 0x1000))

namespace State

def consentRegs (s : State) (w : WardId) : Bool := s.isF (F.WRD_DBG_CONSENT_REGS w.val)
def consentMem (s : State) (w : WardId) : Bool := s.isF (F.WRD_DBG_CONSENT_MEM w.val)
def consentRun (s : State) (w : WardId) : Bool := s.isF (F.WRD_DBG_CONSENT_RUN w.val)

/-! ### Computed fields -/

/-- TIL_STATE.STATE (spec 04, TIL_STATE; 09 R248: it reads 0 while an engine feeds from the tile; DEDUCED, log 71). -/
def tileCode (s : State) (t : TileId) : Nat :=
  let tl := s.tile t
  if (s.tileWard t).isNone then 10
  else if s.feedHeld t then 0
  else match tl.mode with
    | .stranded => 8
    | .faultHeld => 9
    | .held => 0
    | m => if tl.halted && !tl.stepping then 7 else match m with
      | .inGetwork _ _ => 2
      | .inRecv _ _ => 3
      | .inSend _ _ _ => 4
      | .inPuttok _ => 5
      | .inMemory _ _ => if s.atBound t then 6 else 1
      | _ => 1

/-- The owner code of a way: a ward, or 8 (11, QC_WAY_OWNER). -/
def wayOwner (s : State) (q : QuarterId) (k : Nat) : Nat :=
  (((List.finRange 8).find? (fun w => (((s.own w).ways.getD q.val 0) ||| ((s.own w).scratch.getD q.val 0)).getLsbD k)).map (·.val)).getD 8

/-- SCB_OLDEST: the highest age, and the lowest region that has it (14 R394). -/
def oldestRegion (s : State) : Nat × Nat :=
  let a := s.ages.cells.foldl (fun m c => max m c.2) 0
  (a, if a = 0 then 0 else ((s.ages.cells.find? (fun c => c.2 == a)).map (·.1)).getD 0)

/-- The bytes of a Clamp Report record (02 R77). -/
def clampWord (s : State) (i : Nat) : Nat :=
  match s.clampRpt[i / 4]? with
  | none => 0
  | some c =>
    if i % 4 = 0 then c.seq % 2 ^ 32 + (c.section_ % 65536) * 2 ^ 32 + (c.ward % 256) * 2 ^ 48 + (c.rule % 256) * 2 ^ 56
    else if i % 4 = 1 then c.offset % 2 ^ 32 + (c.record % 2 ^ 32) * 2 ^ 32
    else if i % 4 = 2 then c.written.toNat else c.effective.toNat

/-- A field that is computed from the machine when it is read: block, base of the block, register offset in the
block, lowest bit. -/
def liveField (s : State) (b : Blk) (base l lo : Nat) : Nat :=
  match b with
  | .gbl => if l = 0 then bN s.fuses.gradeX else if l = 8 then s.fuses.serial.toNat else s.power.capGib
  | .pln => if l < 0x8000 then ofLe ((List.range 8).map (fun i => s.swapRpt.get 0 (l - 0x4000 + i))) else s.clampWord ((l - 0x8000) / 8)
  | .wrd =>
    let w := wrdIx base
    if l = 8 then
      if lo = 1 then bN (s.sec w).loaded else if lo = 4 then bN (s.key w).isSome
      else if lo = 8 then (s.wardTiles w).length else (s.wardEngines w).length
    else match (s.sec w).windows[(l - 0x100) / 0x20]? with
      | none => 0
      | some x => if l % 0x20 = 0 then x.base else if l % 0x20 = 8 then x.size else if l % 0x20 = 0x10 then x.target else x.flags.toNat
  | .flt => if l = 8 then s.logQueue.length else if lo = 0 then s.logNextSeq else s.logNextSlot
  | .sup =>
    if l = 0x100 then s.supTime else if l = 0x108 then s.fuses.ref
    else
      let n := (l - 0x800) / 8
      if lo = 16 then intBits 16 (s.calFactory n) else if lo = 32 then intBits 16 (s.calEff n) else bN (s.calPending n)
  | .lmp =>
    if l = 8 then s.tickCount
    else match s.bindOf (Fin.ofNat 8 ((l - 0x100) / 8)) with
      | none => 0
      | some x => if lo = 48 then x.1.val else 1
  | .lmpw =>
    let w := lmpwIx base
    if l = 0xF8 then s.tickCount
    else if lo = 0 then (s.lampw w).slots else if lo = 20 then (s.lampw w).delays.length else bN (s.swapping w || s.resettingWard w)
  | .ldg =>
    if lo = 0 then s.held (fun _ => true) else if lo = 16 then s.poolSize - s.poolUsed
    else if lo = 32 then s.heldRsv else s.heldHost
  | .ldgw => if lo = 0 then s.heldBy (ldgwIx base) else s.heldBulk (.vf (ldgwIx base))
  | .qc =>
    let q := qcIx base
    if l = 0x10 then (List.range 16).foldl (fun a k => a + s.wayOwner q k * 2 ^ (4 * k)) 0 else (s.scratchWays q).toNat
  | .til =>
    let t := tilIx base
    let tl := s.tile t
    if l = 0x10 then
      if lo = 0 then s.tileCode t else if s.feedHeld t then 0 else if lo = 4 then bN tl.item.isSome else if lo = 8 then tl.strandWhy.toNat else tl.secondCode.toNat
    else if l = 0x80 then tl.retired.toNat else if l = 0x88 then tl.wpFetch.toNat
    else (tl.shf.toList.getD ((l - 0x40) / 8) 0).toNat
  | .hom =>
    if l = 8 then
      if lo = 0 then (List.finRange 16).foldl (fun a q => a + bN (s.quarter q).fenced * 2 ^ q.val) 0
      else if lo = 16 then (s.homeN (homIx base)).txns.length
      else ((s.homeN (homIx base)).refused.filter (fun e => decide (8 ≤ e.2.nacks))).length
    else if l = 0x3028 then (if lo = 0 then s.oldestRegion.1 else s.oldestRegion.2)
    else if lo = 0 then (List.finRange 8).foldl (fun a w => a + bN (s.key w).isSome * 2 ^ w.val) 0
    else bN s.keyInstall.isSome
  | .eng =>
    let e := engIx base
    if l = 8 then (if lo = 0 then s.engHeld e else if lo = 4 then bN (s.engine e).run.isSome else bN (s.engResetting e))
    else if l = 0x40 then (s.engine e).lastRec.toNat % 2 ^ 64 else (s.engine e).capture.toNat / 2 ^ 64
  | .lnk =>
    if lo = 0 then (if s.link.up then s.link.rate else 0) else if lo = 4 then (if s.link.up then s.link.width else 0)
    else if lo = 9 then bN s.flit256 else if lo = 10 then bN s.link.cxl else if lo = 12 then s.link.l0p
    else if lo = 17 then bN s.link.l1 else if s.link.d3hot then 3 else 0
  | .blk =>
    let f := blkIx base
    if l = 0x18 then (s.bulkOf f).ptr
    else bN (s.ledger.waiting.any (fun e => e.bulk == some f && decide (e.req.kind = .wrInv)))
  | .fltw => 0
  | .lnt => 0

/-- What one field reads as. -/
def fieldVal (s : State) (b : Blk) (base : Nat) (r : Nat) (f : FieldDesc) : Nat :=
  match f.acc with
  | .const v => v
  | .live => s.liveField b base (r - base) f.lo % 2 ^ f.w
  | .w1s => 0
  | .wo => 0
  | .woKeep => 0
  | .hid => 0
  | _ => s.getF ⟨r, f.lo, f.w⟩

/-! ### Registers beside the blocks -/

def obsBase : Nat := 0x1000000
def agesBase : Nat := 0x1100000
def hdmBase : Nat := 0x411200
def msixBase : Nat := 0x4000000

/-- A word of a ward's observability window; none where it holds nothing (07 R222). -/
def obsWord (s : State) (w : WardId) (o : Nat) : Option Nat :=
  let lw := s.lampw w
  if o < 0xB8 then
    some ((lw.ready.filter (fun it => it.cls.toNat == o / 8)).length % 2 ^ 32 + lw.obsDepthMax.get 0 (o / 8) * 2 ^ 32)
  else if 0x200 ≤ o ∧ o < 0x200 + 0x40 * 23 then some (lw.obsBuckets.get 0 ((o - 0x200) / 8))
  else if 0x800 ≤ o ∧ o < 0x1000 then some (lw.obsTile.get 0 ((o - 0x800) / 8))
  else if 0x1000 ≤ o ∧ o < 0x1000 + 8 * 86 then some (lw.obsEng.get 0 ((o - 0x1000) / 8))
  else if 0x1300 ≤ o ∧ o < 0x1308 then some lw.obsWindow
  else none

/-- The HDM decoder registers of the component block, 32 bits each (15 R404; PRESUMED, log 11). -/
def hdmWord (s : State) (i : Nat) : Option Nat :=
  if i = 0 then some 2
  else if i = 1 then some (2 * bN s.link.hdmEnable)
  else if i < 4 ∨ 36 ≤ i then none
  else
    let d := s.hdm ((i - 4) / 8)
    let k := (i - 4) % 8
    some (if k = 0 then d.base % 2 ^ 32 else if k = 1 then d.base / 2 ^ 32 else if k = 2 then d.size % 2 ^ 32 else if k = 3 then d.size / 2 ^ 32
      else if k = 4 then d.ig + 16 * d.iw + 256 * bN d.lock + 1024 * bN d.committed + 2048 * bN d.errNot + 8192 * bN d.bi
      else if k = 5 then d.skip % 2 ^ 32 else if k = 6 then d.skip / 2 ^ 32 else 0)

/-- The CXL.cachemem capability array of the component block: its header, then RAS, Link, HDM Decoder, BI Decoder and CXL
IDE in this order (15 R405; the layout, the IDs and the places: PRESUMED, log 11). -/
def capArray : List Nat := [0x05110001, 0x10010002, 0x18010004, 0x20010005, 0x4001000C, 0x42010007]
def capBase : Nat := 0x411000

/-- The CXL RAS registers of the component block: uncorrectable status, mask and severity, correctable status and mask
(16 R451; PRESUMED, log 11). -/
def rasBase : Nat := 0x411100

/-- Vectors of a function (15 R403). -/
def fnVectors (fn : Func) : Nat := match fn with
  | .pf0 => 512
  | .vf _ => 128

/-- The MSI-X table and PBA of a function, 32 bits a word (15 R403, R406, R415; PRESUMED, log 11). -/
def msixWord (s : State) (fn : Func) (o : Nat) : Option Nat :=
  if o < 16 * fnVectors fn then
    let e := s.msixAt fn.ix (o / 16)
    let k := o / 4 % 4
    some (if k = 0 then e.addr % 2 ^ 32 else if k = 1 then e.addr / 2 ^ 32 else if k = 2 then e.data.toNat else bN e.masked)
  else if o < 16 * fnVectors fn + fnVectors fn / 8 then
    some ((List.range 32).foldl (fun a i => a + bN (s.msixAt fn.ix ((o - 16 * fnVectors fn) / 4 * 32 + i)).pending * 2 ^ i) 0)
  else none

/-- The register that holds a byte of PF0's BAR space: where it begins, its bytes. -/
def regSpan (off0 : Nat) : Option (Nat × Nat) :=
  let off := canonOff off0
  if off < 0x809000 then
    if 0x410000 ≤ off ∧ off < 0x420000 then
      if (capBase ≤ off ∧ off < capBase + 24) ∨ (rasBase ≤ off ∧ off < rasBase + 20) ∨ (hdmBase ≤ off ∧ off < hdmBase + 144 ∧ (off < hdmBase + 8 ∨ hdmBase + 16 ≤ off)) then
        some (off - off % 4, 4) else none
    else match blockAt off with
      | none => none
      | some (b, base) =>
        if b = .eng ∧ 0x808 ≤ off - base ∧ off - base < 0x810 ∧ 32 ≤ (engIx base).val then none
        else match regAt off with
          | none => none
          | some (r, at_) => some (at_, r.bytes)
  else if obsBase ≤ off ∧ off < obsBase + 0x80000 then
    let o := off % 0x10000
    if o < 0xB8 ∨ (0x200 ≤ o ∧ o < 0x7C0) ∨ (0x800 ≤ o ∧ o < 0x12B0) ∨ (0x1300 ≤ o ∧ o < 0x1308) then some (off - off % 8, 8) else none
  else if agesBase ≤ off ∧ off < agesBase + 0x100000 then some (off - off % 8, 8)
  else if msixBase ≤ off ∧ off < msixBase + 0x2040 then some (off - off % 4, 4)
  else none

/-- What the register that begins at `r` reads as. -/
def regWord (s : State) (r : Nat) : Nat :=
  if msixBase ≤ r then (s.msixWord .pf0 (r - msixBase)).getD 0
  else if agesBase ≤ r then ofLe ((List.range 8).map (fun i => BitVec.ofNat 8 (s.ages.get 0 (r - agesBase + i))))
  else if obsBase ≤ r then (s.obsWord (Fin.ofNat 8 ((r - obsBase) / 0x10000)) (r % 0x10000)).getD 0
  else if rasBase ≤ r ∧ r < hdmBase then s.rasWord ((r - rasBase) / 4)
  else if 0x410000 ≤ r ∧ r < hdmBase then capArray.getD ((r - capBase) / 4) 0
  else if hdmBase ≤ r ∧ r < 0x420000 then (s.hdmWord ((r - hdmBase) / 4)).getD 0
  else match blockAt r, regAt r with
    | some (b, base), some (d, _) => d.fields.foldl (fun a f => a + s.fieldVal b base r f * 2 ^ f.lo) 0
    | _, _ => 0

/-! ### Who reaches a register (01 R19, R20) -/

/-- Lantern's authority over a block: 0 none, 1 read, 2 read and write, 3 as the ward's REGS consent lets it. -/
def lntRight (b : Blk) (l : Nat) : Nat :=
  match b with
  | .gbl => 2
  | .wrd => if l = 8 ∨ l = 0x10 then 1 else 3
  | .lmpw => 3
  | .til => if 0x110 ≤ l ∧ l < 0x128 then 0 else 3
  | .eng => 3
  | .blk => 0
  | .lnt => 0
  | _ => 1

/-- Management's: 0 none, 1 read, 2 read and write. -/
def mgtRight (b : Blk) (l : Nat) : Nat :=
  match b with
  | .gbl => 1
  | .pln => 1
  | .wrd => 1
  | .flt => 1
  | .fltw => 1
  | .sup => 2
  | .ldg => 1
  | .hom => if 0x4000 ≤ l then 0 else 1
  | .lnk => 1
  | _ => 0

/-- An offset in a ward's observability window, and in the component registers, which lie in the LNK_ region (00 R15; 15
R405). -/
def inObs (r : Nat) : Bool := decide (obsBase ≤ r) && decide (r < obsBase + 0x80000)
def inComponent (r : Nat) : Bool := decide (0x410000 ≤ r) && decide (r < 0x420000)
def inAges (r : Nat) : Bool := decide (agesBase ≤ r) && decide (r < agesBase + 0x100000)

/-- What Lantern reads, and writes, given the wards' REGS consent. -/
def lntReads (s : State) (consent : WardId → Bool) (r : Nat) : Bool :=
  if inObs r then consent (Fin.ofNat 8 ((r - obsBase) / 0x10000))
  else if inAges r || inComponent r then true
  else match blockAt r with
    | some (b, base) =>
      let k := lntRight b (r - base)
      k == 1 || k == 2 || (k == 3 && (s.blockWard r).any consent)
    | none => false
def lntWrites (s : State) (consent : WardId → Bool) (r : Nat) : Bool :=
  if inObs r then consent (Fin.ofNat 8 ((r - obsBase) / 0x10000))
  else match blockAt r with
    | some (b, base) =>
      let k := lntRight b (r - base)
      k == 2 || (k == 3 && (s.blockWard r).any consent)
    | none => false

/-- May the port read the register that begins at `r`? (DEDUCED, log 62). -/
def mayRead (s : State) (p : Port) (r : Nat) : Bool :=
  match p with
  | .s => true
  | .w _ => true
  | .m => match blockAt r with
    | some (b, base) => decide (1 ≤ mgtRight b (r - base))
    | none => inComponent r
  | .l => s.lntReads s.consentRegs r

/-- May it write there? A ward reaches its own observability window, whose words no write changes. -/
def mayWrite (s : State) (p : Port) (r : Nat) : Bool :=
  match p with
  | .s => true
  | .w _ => inObs r || (match blockAt r with
    | some (.wrd, _) => true
    | some (.lmpw, _) => true
    | some (.til, _) => true
    | some (.eng, _) => true
    | some (.blk, _) => true
    | _ => decide (msixBase ≤ r))
  | .m => match blockAt r with
    | some (b, base) => mgtRight b (r - base) == 2
    | none => false
  | .l => s.lntWrites s.consentRegs r

/-- The PF0 offset that a VF's BAR0 shows at `v` (01 R52, R53); none where it is unmapped. The registers that only
S reaches (06, TIL_AVE_MIRROR and the probe's) are not shown. -/
def vfOff (s : State) (w : WardId) (v : Nat) : Option Nat :=
  if v < 0x1000 then (if v < 8 ∨ (0x10 ≤ v ∧ v < 0x18) then some v else none)
  else if v < 0x2000 then some (0x20000 + w.val * 0x1000 + (v - 0x1000))
  else if v < 0x3000 then some (0x34000 + w.val * 0x1000 + (v - 0x2000))
  else if v < 0x4000 then some (0x51000 + w.val * 0x1000 + (v - 0x3000))
  else if v < 0x5000 then (if 0x4100 ≤ v ∧ v < 0x4120 then some (0x60100 + w.val * 0x40 + (v - 0x4100)) else none)
  else if 0x40000 ≤ v ∧ v < 0x80000 then
    let t : TileId := Fin.ofNat 256 ((v - 0x40000) / 0x400)
    if s.tileWard t = some w ∧ !(0x110 ≤ v % 0x400 ∧ v % 0x400 < 0x128) then
      some (0x100000 + t.val / 16 * 0x10000 + 0x8000 + t.val % 16 * 0x400 + v % 0x400) else none
  else if 0x80000 ≤ v ∧ v < 0xD6000 then
    let e : EngId := Fin.ofNat 86 ((v - 0x80000) / 0x1000)
    if s.engineWard e = some w then some (0x300000 + (v - 0x80000)) else none
  else if 0xE0000 ≤ v ∧ v < 0xE1000 then some (0x801000 + w.val * 0x1000 + (v - 0xE0000))
  else if 0xF0000 ≤ v ∧ v < 0x100000 then some (obsBase + w.val * 0x10000 + (v - 0xF0000))
  else none

/-- The register behind a byte of the port's view: begin, bytes, place of the byte in it. -/
def viewSpan (s : State) (p : Port) (a : Nat) : Option (Nat × Nat × Nat) :=
  let at_ := fun (o : Nat) => (regSpan o).map (fun x => (x.1, x.2, canonOff o - x.1))
  match p with
  | .w w => (s.vfOff w a).bind at_
  | _ => at_ a

/-! ### Reading (00 R9, R13) -/

/-- The registers that a read touches: begin, and the bytes of it that the read returns. -/
def touched (s : State) (p : Port) (off len : Nat) : List (Nat × Nat × Nat) :=
  (List.range len).foldl (fun l i => match s.viewSpan p (off + i) with
    | none => l
    | some (r, _, k) => match l with
      | (r2, lo, hi) :: rest => if r2 = r ∧ hi = k then (r2, lo, k + 1) :: rest else (r, k, k + 1) :: l
      | [] => [(r, k, k + 1)]) []

/-- RC fields whose every byte is among bytes [lo, hi) of the register are cleared; a read of PEAK reloads it with
HELD (13, LDG_W_HOLD), and a read of LAST0 captures the record (09). -/
def clearRead (s : State) (x : Nat × Nat × Nat) : State :=
  let (r, lo, hi) := x
  match blockAt r, regAt r with
  | some (b, base), some (d, _) =>
    let s := d.fields.foldl (fun s f => if f.acc = .rc ∧ lo ≤ f.lo / 8 ∧ (f.lo + f.w - 1) / 8 < hi then
        s.setF ⟨r, f.lo, f.w⟩ (if b = .ldgw ∧ r - base = 8 then s.heldBy (ldgwIx base) else f.reset) else s) s
    if b = .eng ∧ r - base = 0x40 then s.captureLast (engIx base) else s
  | _, _ => s

/-- A read by the port clears RC fields; Lantern changes no state that the matrix does not grant it (19 R501). -/
def mayClear (s : State) (p : Port) (r : Nat) : Bool :=
  s.mayRead p r && (match p with
    | .l => s.mayWrite .l r
    | _ => true)

/-- The bytes that a read returns, where `may` grants them. -/
def bytesBy (s : State) (p : Port) (may : Nat → Bool) (off len : Nat) : List Byte :=
  (List.range len).map (fun i => match s.viewSpan p (off + i) with
    | none => 0
    | some (r, _, k) => if may r then BitVec.ofNat 8 (s.regWord r >>> (8 * k)) else 0)
def readBytes (s : State) (p : Port) (off len : Nat) : List Byte := s.bytesBy p (s.mayRead p) off len

/-- A read of register space: the value, and the state after it, where `may` grants reading and `clear` the clearing. -/
def readBy (s : State) (p : Port) (may clear : Nat → Bool) (off len : Nat) : Nat × State :=
  let v := ofLe (s.bytesBy p may off len)
  let s2 := (s.touched p off len).foldl (fun s x => if clear x.1 then s.clearRead x else s) s
  (v, if (List.range len).any (fun i => (s.viewSpan p (off + i)).isNone) then s2.countAccess p off else s2)
def readReg (s : State) (p : Port) (off len : Nat) : Nat × State := s.readBy p (s.mayRead p) (s.mayClear p) off len

/-- A ward's read while it resets: 0 except WRD_STATUS (01 R50). -/
def wardDark (s : State) (p : Port) : Bool := match p with
  | .w w => s.resettingWard w
  | _ => false

def portRead (s : State) (p : Port) (off len : Nat) : Nat × State :=
  if s.wardDark p then
    (ofLe ((List.range len).map (fun i => if 0x1008 ≤ off + i ∧ off + i < 0x100C then (s.readBytes p (off + i) 1).headD 0 else 0)), s)
  else s.readReg p off len

/-! ### Writing a field (00 R10–R12) -/

def clampTo : Clamp → Nat → Option Nat
  | .near lo hi, x => some (max lo (min hi x))
  | .max m, x => some (min m x)
  | .zero hi, x => some (if hi < x then 0 else x)
  | .align n, x => some (x / 2 ^ n * 2 ^ n)
  | .special, _ => none

/-- The report bit of a register's CL fields; SUP_PACE_ALARM.CLAMPED is THRESH's alone (03 R106; DESIGN CHOICE, log 85). -/
def clampFlag (b : Blk) (base l : Nat) : Option Fld :=
  match b with
  | .pln => some F.PLN_STATUS_CLAMPED
  | .wrd => some (F.WRD_STATUS_CLAMPED (wrdIx base).val)
  | .flt => some F.FLT_STATUS_CLAMPED
  | .sup => if l = 0x110 then some F.SUP_PACE_ALARM_CLAMPED else if l = 0x120 then some F.SUP_STALL_STATUS_CLAMPED
    else if l = 0x300 then some F.SUP_DIM_CLAMPED else if l = 0x400 then some F.SUP_THERM_CLAMPED else none
  | .lmp => some F.LMP_TICK_CLAMPED
  | .lmpw => some (F.LMPW_STATUS_CLAMPED (lmpwIx base).val)
  | .qc => some (F.QC_STATUS_CLAMPED (qcIx base).val)
  | .hom => if l < 8 then some F.HOM_CFG_CLAMPED else if l < 0x3000 then some (F.HOM_ECC_INJ_CLAMPED (homIx base)) else some F.HOM_SCB_STATUS_CLAMPED
  | .eng => some (F.ENG_CTRL_CLAMPED (engIx base).val)
  | .lnk => some F.LNK_PM_CLAMPED
  | .blk => some (F.BLK_STATUS_CLAMPED (blkIx base).ix)
  | _ => none

def mark (s : State) (f : Option Fld) (b : Bool) : State :=
  match f with
  | some f => if b then s.setF f 1 else s
  | none => s

/-- A CL field with a rule of its own takes value `e` where `x` was written. -/
def putClamped (s : State) (flag : Option Fld) (f : Fld) (x e : Nat) : State := (s.setF f e).mark flag (e != x)

/-- W1C fields of a written word. -/
def clearFields (s : State) (r : Nat) (d : RegDesc) (v : Nat) : State :=
  d.fields.foldl (fun s f => if f.acc = .w1c then
    let old := s.getF ⟨r, f.lo, f.w⟩
    s.setF ⟨r, f.lo, f.w⟩ (old - (old &&& bitsN v f.lo f.w)) else s) s

/-- The other fields of a written word, by their access codes. -/
def putFields (s : State) (flag : Option Fld) (r : Nat) (d : RegDesc) (v : Nat) : State :=
  d.fields.foldl (fun s f =>
    let x := bitsN v f.lo f.w
    let g : Fld := ⟨r, f.lo, f.w⟩
    match f.acc with
    | .rw => s.setF g x
    | .woKeep => s.setF g x
    | .w1sKeep => s.setF g (s.getF g ||| x)
    | .cl c => match clampTo c x with
      | some e => s.putClamped flag g x e
      | none => s
    | _ => s) s

/-- A whole register is written: first what clears, then what sets (R13). -/
def putReg (s : State) (flag : Option Fld) (r : Nat) (d : RegDesc) (v : Nat) : State := (s.clearFields r d v).putFields flag r d v

/-! ### Writes that are commands -/

/-- PLN_CMD (02 R78, R79, R83–R85). -/
def planCmd (s : State) (v : Nat) : State :=
  let op := v % 16
  if op = 1 then s.startLoad else if op = 2 then s.startSwap (Fin.ofNat 8 (v / 16)) else if op = 3 then s.sealPlan
  else if op = 0 ∧ !s.planBusy then s else s.refusePlan

/-- CAL_CMD (17 R466, R467): each bit set is a command of its own. -/
def calCmd (s : State) (byM : Bool) (v : Nat) : State :=
  let s := if bitN v 0 then (if s.calBusy || !s.power.bootDone then s.calRefuse else s.calHold byM 1) else s
  let s := if bitN v 1 then (if s.calBusy then s.calRefuse else s.calHold byM 2) else s
  if bitN v 2 then (if s.calBusy then s.calRefuse else s.calZeroAll byM) else s

/-- A DPA field of SCB_: aligned, at most the capacity. -/
def scbRange (s : State) (x : Nat) : Nat := min (x / 2097152 * 2097152) s.capacity
def belowCap (s : State) (x a : Nat) : Nat := if s.capacity ≤ x / a * a then 0 else x / a * a

/-- What a write of the whole register at `r` does; the port has been checked. -/
def writeEffect (s : State) (p : Port) (r v : Nat) : State :=
  match blockAt r, regAt r with
  | some (b, base), some (d, _) =>
    let l := r - base
    let flag := clampFlag b base l
    let put := fun (s : State) => s.putReg flag r d v
    match b with
    | .pln =>
      if l = 0 then s.planCmd v
      else if l = 8 then s.putClamped flag F.PLN_IMG_DPA_DPA (v % 2 ^ 41) (s.belowCap (v % 2 ^ 41) 4096)
      else put s
    | .wrd =>
      let w := wrdIx base
      if l = 0 then (if bitN v 0 then (put s).startWardReset w else put s)
      else if l = 0x10 then (match p with
        | .w _ => s.writeConsent w true v
        | .s => s.writeConsent w false v
        | _ => s)
      else put s
    | .flt =>
      if l = 0 then s.clearBeacon none v
      else if l = 0x30 then s.injectEvent v
      else if l = 0x2000 then
        let s := s.setF F.FLT_LOG_CTRL_SLOT (bitsN v 16 11)
        let s := if bitN v 0 then s.startLogRead (bitsN v 16 11) else s
        if bitN v 1 then s.startLogErase else s
      else if (l = 0x18 ∨ l = 0x20 ∨ (0x1000 ≤ l ∧ l < 0x2000)) ∧ s.isF F.FLT_CTRL_LOCK then s.fltRefuse
      else put s
    | .fltw => if l = 0 then s.clearBeacon (some (fltwIx base)) v else s
    | .sup =>
      if l = 0x110 then
        let x := v % 65536
        (put s).putClamped flag F.SUP_PACE_ALARM_THRESH x (if x = 0 then 0 else max 800 (min 4000 x))
      else if 0x800 ≤ l ∧ l < 0x838 then
        if s.calBusy then (put s).calRefuse else (put s).calUserWrite (decide (p = .m)) ((l - 0x800) / 8) (s8 (v % 256))
      else if l = 0x880 then s.calCmd (decide (p = .m)) v
      else put s
    | .lmpw =>
      let w := lmpwIx base
      if l = 0 then
        let s := put s
        let s := if bitN v 2 then s.clearObs w else s
        (s.flushDelays w (bitsN v 8 8)).tracePump w
      else if l = 0x48 then s.writeTraceTail w v
      else if l = 0x30 ∨ l = 0x38 then (put s).newRing w
      else put s
    | .qc =>
      let q := qcIx base
      if l = 0 then
        let s := s.putReg flag r d (v - v % 2 + s.getF (F.QC_CTRL_ENABLE q.val))
        let s := if bitN v 0 then s.enableCache q else s.startDrain q
        if bitN v 2 then s.resetQuarter q else s
      else if l = 0x30 then s.armCache q v
      else put s
    | .til =>
      let t := tilIx base
      if l = 0 then
        let s := s.setRun t (bitN v 1)
        let s := if bitN v 0 then s.ctrlReset t else s
        if bitN v 2 then s.doorbell t else s
      else if l = 0x118 then s.sendProbe t (BitVec.ofNat 64 v)
      else put s
    | .hom =>
      if l = 0x2010 then s.armInjection (homIx base) v
      else if l = 0x3000 then s.putClamped flag F.HOM_SCB_START_VALUE (v % 2 ^ 41) (s.scbRange (v % 2 ^ 41))
      else if l = 0x3008 then s.putClamped flag F.HOM_SCB_END_VALUE (v % 2 ^ 41) (s.scbRange (v % 2 ^ 41))
      else if l = 0x3010 then s.putClamped flag F.HOM_SCB_SUM_DPA_VALUE (v % 2 ^ 41) (s.belowCap (v % 2 ^ 41) 64)
      else if l = 0x3018 then
        let s := put s
        let s := if bitN v 0 then s.startScrub false else s
        let s := if bitN v 1 then s.startScrub true else s
        if bitN v 2 then s.abortScrub else s
      else if l = 0x4040 then (if bitN v 0 then s.loadKey (Fin.ofNat 8 (v / 2)) else s)
      else put s
    | .eng =>
      let e := engIx base
      if l = 0 then
        let s := (put s).setFeed e (bitN v 2) (Fin.ofNat 256 (bitsN v 8 8))
        if bitN v 0 then s.resetEngine e false else s
      else if l = 0x20 then s.writeTail e v
      else put s
    | .lnk => if 0x100 ≤ l ∧ l < 0x140 then (put s).updIntx else put s
    | .blk =>
      let f := blkIx base
      if l = 0 then s.bulkAddr f v else if l = 8 then s.bulkShape f false v else if l = 0x10 then s.bulkShape f true v else put s
    | _ => put s
  | _, _ => s

/-! ### Writes beside the blocks -/

/-- A write of a CXL RAS word: status bits are W1C, mask and severity bits stand where the family defines them. -/
def writeRas (s : State) (i v : Nat) : State :=
  if i = 0 ∨ i = 3 then s.setRas i (s.rasWord i - (s.rasWord i &&& v)) else s.setRas i (v &&& rasReset i)

/-- A write of an HDM decoder register (15 R404, R407): a committed decoder's ranges stand. -/
def writeHdm (s : State) (i v : Nat) : State :=
  if i = 1 then { s with link := { s.link with hdmEnable := bitN v 1 } }
  else if i < 4 ∨ 36 ≤ i then s
  else
    let n := (i - 4) / 8
    let d := s.hdm n
    let k := (i - 4) % 8
    let hi := fun (old : Nat) => old % 2 ^ 32 + v % 2 ^ 32 * 2 ^ 32
    let lo := fun (old : Nat) => old / 2 ^ 32 * 2 ^ 32 + v % 2 ^ 32
    if k = 4 then
      if d.committed then (if bitN v 9 || d.lock then s else s.setHdm n { d with committed := false, errNot := false })
      else
        let s := s.setHdm n { d with ig := v % 16, iw := v / 16 % 16, lock := bitN v 8, bi := bitN v 13 }
        if bitN v 9 then s.commitHdm n else s
    else if d.committed then s
    else if k = 0 then s.setHdm n { d with base := lo d.base }
    else if k = 1 then s.setHdm n { d with base := hi d.base }
    else if k = 2 then s.setHdm n { d with size := lo d.size }
    else if k = 3 then s.setHdm n { d with size := hi d.size }
    else if k = 5 then s.setHdm n { d with skip := lo d.skip }
    else if k = 6 then s.setHdm n { d with skip := hi d.skip }
    else s

/-- A write of one word of a function's MSI-X table (15 R415). -/
def writeMsix (s : State) (fn : Func) (o v : Nat) : State :=
  if 16 * fnVectors fn ≤ o then s
  else
    let n := o / 16
    let e := s.msixAt fn.ix n
    let k := o / 4 % 4
    if k = 0 then s.setMsix fn.ix n { e with addr := e.addr / 2 ^ 32 * 2 ^ 32 + v % 2 ^ 32 }
    else if k = 1 then s.setMsix fn.ix n { e with addr := e.addr % 2 ^ 32 + v % 2 ^ 32 * 2 ^ 32 }
    else if k = 2 then s.setMsix fn.ix n { e with data := BitVec.ofNat 32 v }
    else if bitN v 0 then s.setMsix fn.ix n { e with masked := true }
    else s.msixUnmask fn (.vector n)

/-! ### A write from a port (00 R9; 01 R20, R50) -/

/-- A register of a Bulk Port waits for the Bulk writes of its own function (15 R424). -/
def bulkRegOf (r : Nat) : Option Func :=
  match blockAt r with
  | some (.blk, base) => some (blkIx base)
  | _ => none

/-- A write of register space, where `may` grants it. -/
def writeBy (s : State) (p : Port) (may : Nat → Bool) (off len v : Nat) : State :=
  match s.viewSpan p off with
  | none => s.countAccess p off
  | some (r, n, k) =>
    if k ≠ 0 ∨ len ≠ n ∨ !may r then s.countAccess p off
    else if msixBase ≤ r then s.writeMsix .pf0 (r - msixBase) v
    else if rasBase ≤ r ∧ r < hdmBase then s.writeRas ((r - rasBase) / 4) v
    else if 0x410000 ≤ r ∧ r < hdmBase then s
    else if hdmBase ≤ r ∧ r < 0x420000 then s.writeHdm ((r - hdmBase) / 4) v
    else s.writeEffect p r v

def writeReg (s : State) (p : Port) (off len v : Nat) : State := s.writeBy p (s.mayWrite p) off len v

/-- MSI-X of a VF stands beyond its BAR0 (PRESUMED, log 11). -/
def vfMsix : Nat := 0x100000

def portWrite (s : State) (p : Port) (off len v : Nat) : State :=
  if s.wardDark p then s
  else match p with
    | .w w =>
      if vfMsix ≤ off then
        if len = 4 ∧ off % 4 = 0 ∧ off < vfMsix + 16 * fnVectors (.vf w) then s.writeMsix (.vf w) (off - vfMsix) v else s.countAccess p off
      else s.writeReg p off len v
    | _ => s.writeReg p off len v

/-- What a port reads, and the answer that it is given. -/
def answerRead (s : State) (p : Port) (off len : Nat) : State :=
  match p with
  | .w w =>
    if vfMsix ≤ off then s.emit (.readData p off ((s.msixWord (.vf w) (off - vfMsix)).getD 0))
    else let x := s.portRead p off len; x.2.emit (.readData p off x.1)
  | _ => let x := s.portRead p off len; x.2.emit (.readData p off x.1)

/-! ### The shared receive queue (10 R292; 15 R414, R424) -/

/-- A register write of the host that waits for Bulk Port writes. -/
def writeWaits (s : State) (p : Port) (off : Nat) : Bool :=
  s.hostHolds p || (match s.viewSpan p off with
    | some (r, _, _) => (bulkRegOf r).any s.bulkOut
    | none => false)

def rxOpen (s : State) (c : Posted) : Bool :=
  s.rxReady c && (match c with
    | .regWrite p off _ _ => match s.viewSpan p off with
      | some (r, _, _) => !(bulkRegOf r).any s.bulkOut
      | none => true
    | _ => true)

/-- The effect of the TLP at the head. -/
def rxEffect (s : State) (c : Posted) : State :=
  match c with
  | .regWrite p off len val => s.portWrite p off len val
  | .regRead p off len => s.answerRead p off len
  | c => s.bulkEffect c

/-- Heads take effect in order until one must wait. -/
def pumpRxN (s : State) : Nat → State
  | 0 => s
  | n + 1 => match s.link.rxq with
    | [] => s
    | c :: rest =>
      if s.rxOpen c then pumpRxN (({ s with link := { s.link with rxq := rest } }).rxEffect c) n else s
def pumpRx (s : State) : State := s.pumpRxN (s.link.rxq.length + 1)

/-! ### The end of a dim state (17 R458) -/

/-- Held requests are released, due entries fire, and READY returns. -/
def leaveDim (s : State) : State :=
  if !s.dimmed || decide (8 ≤ s.getF F.SUP_DIM_CAUSE) || s.power.plwRunning then s
  else
    let s := { s with power := { s.power with dimDrain := false, dimOut := false } }.setF F.SUP_DIM_STATE 0
    let s := s.endDrains.releaseHeld
    s.fireDue.pumpRx.updReady

end State

/-- A register write (R9–R13; 01 R19, R20). -/
def execRegisterWrite (p : Port) (off len val : Nat) (s : State) : Result :=
  .next (match p with
    | .s => if s.mmioOpen then (if s.writeWaits p off then s.holdPosted (.regWrite p off len val) else s.portWrite p off len val) else s.turnedAway p
    | .w v => if s.fnOpen (.vf v) then (if s.writeWaits p off then s.holdPosted (.regWrite p off len val) else s.portWrite p off len val) else s.turnedAway p
    | .m => if s.power.bootDone && s.mayWrite .m off then s.portWrite .m off len val else s
    | .l => if s.coreRuns && s.lantern.lock == 2 && s.mayWrite .l off then s.portWrite .l off len val else s)
/-- A read of register space, which clears RC fields (R9, R11, R13). -/
def execRcFieldRead (p : Port) (off len : Nat) (s : State) : Result :=
  .next (match p with
    | .s => if s.mmioOpen then (if s.hostHolds p then s.holdPosted (.regRead p off len) else s.answerRead p off len) else s.unanswered p off
    | .w v => if s.fnOpen (.vf v) then (if s.hostHolds p then s.holdPosted (.regRead p off len) else s.answerRead p off len) else s.unanswered p off
    | .m => if s.power.bootDone && s.mayRead .m off then s.answerRead .m off len else s
    | .l => if s.coreRuns && s.lantern.lock == 2 && s.mayRead .l off then s.answerRead .l off len else s)
/-- The rails have held for 1 ms: the dim state ends (17 R458). -/
def execDimExit (s : State) : Result := .next s.leaveDim

end Sys2Proof.Machine
end

