-- ==== Sys2Proof/Machine/Responses.lean ====
section
/-! DEFINITION. Responses at a requester (spec 12 R324, R332–R334, R337, R339; 13 R356, R365, R367), and the
completions of reads of host windows (15 R413). -/

namespace Sys2Proof.Machine
namespace State

/-- The response at place `i` of a given kind, when it stands at its destination. -/
def rspAt (s : State) (i : Nat) (k : RspKind) : Option Packet :=
  (s.arrived i).filter (fun p => decide (p.chan = .rsp) && decide (p.kind = k.code))

/-- The quarter's buffer that travels under an XID for a line. -/
def bufFor (s : State) (q : QuarterId) (x : Nat) (l : LineAddr) : Option QBuf :=
  (s.quarter q).bufs.find? (fun b => b.xid == x && decide (b.line = l))
def dropBuf (s : State) (q : QuarterId) (x : Nat) (l : LineAddr) : State :=
  s.updQuarter q (fun y => { y with bufs := y.bufs.filter (fun b => !(b.xid == x && decide (b.line = l))) })
def putBufReq (s : State) (q : QuarterId) (x : Nat) (l : LineAddr) (r : Req) : State :=
  s.updQuarter q (fun y => { y with bufs := y.bufs.map (fun b => if b.xid = x ∧ b.line = l then { b with req := r } else b) })

/-- The buffer of the quarter where a packet stands, for the packet's line and XID. -/
def pktBuf (s : State) (p : Packet) : Option (QuarterId × QBuf) :=
  (stopQuarter p.dst).bind (fun q => (s.bufFor q p.xid p.about).map (fun b => (q, b)))

/-! ### Lines -/

/-- Eight bytes of a line at the access window's address (19 R502). -/
def lanternLine (s : State) (v : LineVal) : State :=
  let a := s.getF F.LNT_ACC_ADDR_VALUE
  let n := if s.isF F.LNT_ACC_CTRL_WIDE then 8 else 4
  { s with lantern := { s.lantern with accData := BitVec.ofNat 64 (lineBytes v.data (a % 64) n), accPoison := v.poison, accPhase := 3 } }

/-- The line of a read reaches its source, poisoned when the entry was bad (13 R366), and its entry closes. -/
def deliverLine (s : State) (x : Nat) (e : LEntry) (v : LineVal) : State :=
  let s := s.closeEntry x
  let v : LineVal := { v with poison := v.poison || e.bad }
  if e.aborted || e.forgotten then (if e.req.src = .loader then s.loaderRetry else s)
  else match e.req.src with
    | .loader => s.loaderLine e.req.line v
    | .engine en => s.engineData en e v
    | .bulk f => s.bulkArrive f e v
    | .tile t => s.uncachedDone t e.req.line v
    | .host => if e.req.mask = 0 then s.emit (.cmp e.hostTag (some e.req.mv)) else s.emit (.memData e.hostTag v (some e.req.mv))
    | .lantern => s.lanternLine v
    | _ => s

/-- DATA at a requester: a line that waits for its grant, a masked fill, or the end of a read. -/
def takeLine (s : State) (i : Nat) (p : Packet) : State :=
  let s := s.takePkt i
  match p.payload, s.entry p.xid with
  | .line v _, some e =>
    let v : LineVal := { v with poison := v.poison || p.poison }
    if e.req.line ≠ p.about then s
    else match e.req.kind with
      | .rdS => s.setEntry p.xid (some { e with rdata := some v })
      | .rdX => s.setEntry p.xid (some { e with rdata := some v })
      | .atP => s.setEntry p.xid (some { e with rdata := some v })
      | .fill => match e.req.src.quarter? with
        | some q => s.fillLine q p.xid e v
        | none => s.closeEntry p.xid
      | _ => s.deliverLine p.xid e v
  | _, _ => s

/-- DATA: at a home it is a snoop's answer (write data is another command's), at stop 119 so when a quarter sends
it, elsewhere the line of a read. -/
def takeData (s : State) (i : Nat) : State :=
  match s.rspAt i .data with
  | none => s
  | some p => match stopHome p.dst with
    | none => s.takeLine i p
    | some h => if h < 16 || (stopQuarter p.src).isSome then s.takeAnswer i .data else s.takeLine i p

/-! ### Writes (12 R339; 13 R365) -/

/-- WGO: the write data leaves for the home, once. -/
def takeWgo (s : State) (i : Nat) : State :=
  match s.rspAt i .wgo with
  | none => s
  | some p =>
    let s := s.takePkt i
    let send := fun (v : LineVal) (w : Option WardId) =>
      s.sendPkt (mkPkt .rsp RspKind.data.code p.dst p.src p.ward 0 p.xid v.poison (.line v w) p.about)
    match s.pktBuf p with
    | some (_, b) => send b.v b.sealWard
    | none => match s.entry p.xid with
      | none => s
      | some e =>
        if e.req.line ≠ p.about then s
        else if e.aborted then s.giveUp p.xid p.about
        else match e.wdata with
          | some v => send v e.req.sealWard
          | none => s

/-- What the end of a write means to its source. With a poisoned DONE nothing was committed (12 R346). -/
def writeDone (s : State) (e : LEntry) (poison : Bool) : State :=
  if e.aborted then (match e.bulk with
    | some _ => s.pumpRx
    | none => if e.req.src = .scrub then s.recordRetry else s)
  else match e.req.src with
    | .scrub => s.scrubOver
    | .bulk f => (s.pumpBulk f).pumpRx
    | .tile t => s.wakeTile t
    | .host => s.emit (.cmp e.hostTag none)
    | .trace w => if poison then s.traceAgain w else s.traceDone w
    | .engine en => if poison then s.engineUnwritten en e else s
    | .lantern => { s with lantern := { s.lantern with accPhase := 3, accPoison := poison } }
    | _ => s

/-- DONE closes the entry once its last transaction has ended, and tells the source. -/
def takeDone (s : State) (i : Nat) : State :=
  match s.rspAt i .done with
  | none => s
  | some p =>
    let s := s.takePkt i
    match s.pktBuf p with
    | some (q, b) =>
      let s := (s.dropBuf q p.xid p.about).closeEntry p.xid
      (if b.kind = .wrInv then s.orderedLine q p.about else s).settle q
    | none => match s.entry p.xid with
      | none => s
      | some e => if e.req.line ≠ p.about then s else (s.closeEntry p.xid).writeDone e (p.poison || e.bad)

/-! ### Refusals (12 R332–R334) -/

/-- The request stands refused at its requester, as the response says. -/
def takeRefusal (s : State) (i : Nat) (k : RspKind) : State :=
  match s.rspAt i k with
  | none => s
  | some p =>
    let s := s.takePkt i
    match p.payload with
    | .request r => match s.pktBuf p with
      | some (q, _) => s.putBufReq q p.xid p.about r
      | none => match s.entry p.xid with
        | none => s
        | some e =>
          if e.req.line ≠ p.about then s
          else if e.aborted && droppable r.kind then s.giveUp p.xid p.about
          else s.setEntry p.xid (some { e with req := r })
    | _ => s

/-- GO: the request goes to its home again and is served in its turn. -/
def takeGo (s : State) (i : Nat) : State :=
  match s.rspAt i .go with
  | none => s
  | some p =>
    let s := s.takePkt i
    match p.payload with
    | .request r => match s.pktBuf p with
      | some (q, _) => (s.putBufReq q p.xid p.about r).sendReq p.xid r
      | none => match s.entry p.xid with
        | none => s
        | some e =>
          if e.req.line ≠ p.about then s
          else if e.aborted && droppable r.kind then s.giveUp p.xid p.about
          else (s.setEntry p.xid (some { e with req := r })).sendReq p.xid r
    | _ => s

/-- The time after a refusal without a reservation is over: the requests of the entry that may be sent again are. -/
def resend (s : State) (x : Nat) : State :=
  let s := match s.entry x with
    | none => s
    | some e =>
      if e.req.arrived then
        let r := { e.req with arrived := false }
        (s.setEntry x (some { e with req := r })).sendReq x r
      else s
  (List.finRange 16).foldl (fun s q => (s.quarter q).bufs.foldl (fun s b =>
    if b.xid = x ∧ b.req.arrived then
      let r := { b.req with arrived := false }
      (s.putBufReq q x b.line r).sendReq x r
    else s) s) s

/-! ### Atomics (12 R337) -/

def takeAtRes (s : State) (i : Nat) : State :=
  match s.rspAt i .atRes with
  | none => s
  | some p =>
    let s := s.takePkt i
    match p.payload, s.entry p.xid with
    | .oldValue v po, some e =>
      if e.req.line ≠ p.about then s
      else
        let s := s.closeEntry p.xid
        if e.aborted || e.forgotten then s
        else match e.req.src with
        | .quarter q t => (s.farResult t v (po || p.poison || e.bad)).settle q
        | .tile t => s.farResult t v (po || p.poison || e.bad)
        | _ => s
    | _, _ => s

/-! ### Host windows (15 R413) -/

def ioCompletion (s : State) (tag : Nat) (d : List Byte) (poison : Bool) : State :=
  match s.entry tag with
  | none => s
  | some e =>
    if !e.hostMem || e.wdata.isSome || !s.link.up || d.length ≠ 64 then s
    else s.wakeLink.deliverLine tag e ⟨lineOfBytes d, poison⟩

/-! ### Handing out freed capacity (13 R360, R363) -/

/-- The source that is served next takes its entry, or issues what waited where it was; a host-window write is posted at
once. -/
def grantNext (s : State) : State :=
  match s.nextWaiting with
  | none => s
  | some e =>
    let s := s.unwait e
    if e.atSource then s.callSource e
    else
      let s := s.takeEntry e
      if e.hostMem && e.wdata.isSome then s.writeDone e false else s

end State

/-! ### The commands -/

/-- DATA (spec 12 R324). -/
def execData (i : Nat) (s : State) : Result := .next (s.takeData i)
/-- WGO (spec 12 R339). -/
def execWgo (i : Nat) (s : State) : Result := .next (s.takeWgo i)
/-- DONE (spec 13 R365). -/
def execDone (i : Nat) (s : State) : Result := .next (s.takeDone i)
/-- RETRY (spec 12 R332). -/
def execRetry (i : Nat) (s : State) : Result := .next (s.takeRefusal i .retry)
/-- NACK (spec 12 R333). -/
def execNack (i : Nat) (s : State) : Result := .next (s.takeRefusal i .nack)
/-- GO (spec 12 R334). -/
def execGo (i : Nat) (s : State) : Result := .next (s.takeGo i)
/-- AT_RES (spec 12 R337). -/
def execAtRes (i : Nat) (s : State) : Result := .next (s.takeAtRes i)
/-- REQUEST_RESEND (spec 12 R333). -/
def execRequestResend (x : Nat) (s : State) : Result := .next (s.resend x)
/-- LEDGER_GRANT (spec 13 R360, R361, R363). -/
def execLedgerGrant (s : State) : Result := .next s.grantNext
/-- CXL_IO_COMPLETION (spec 15 R413). -/
def execCxlIoCompletion (tag : Nat) (d : List (BitVec 8)) (poison : Bool) (s : State) : Result := .next (s.ioCompletion tag d poison)

end Sys2Proof.Machine
end

