-- ==== Sys2Proof/Machine/ConfigSpace.lean ====
section
/-! DEFINITION. Configuration requests (spec 15 R402–R406, R412, R416–R422). The layout of the capabilities is that
of PCI Express and CXL (PRESUMED, log 11). -/

namespace Sys2Proof.Machine

/-- The bits of a byte that software writes: PF0 (PRESUMED, log 11). -/
def cfgMaskPf : List (Nat × Nat) :=
  [(0x04, 0x46), (0x05, 0x05), (0x0C, 0xFF), (0x13, 0xFC), (0x14, 0xFF), (0x15, 0xFF), (0x16, 0xFF), (0x17, 0xFF), (0x1B, 0xF0), (0x1C, 0xFF),
   (0x1D, 0xFF), (0x1E, 0xFF), (0x1F, 0xFF), (0x21, 0xC0), (0x22, 0xFF), (0x23, 0xFF), (0x24, 0xFF), (0x25, 0xFF), (0x26, 0xFF), (0x27, 0xFF),
   (0x3C, 0xFF)]
  ++ [(0x48, 0xFF), (0x49, 0x7F), (0x50, 0xCB), (0x85, 0x01), (0x93, 0x40)]
  ++ [(0x108, 0x30), (0x109, 0xF0), (0x10A, 0x5F), (0x10B, 0x10), (0x10C, 0x30), (0x10D, 0xF0), (0x10E, 0x5F), (0x10F, 0x10), (0x114, 0xC1),
   (0x115, 0xF1), (0x150, 0x19), (0x158, 0xFF), (0x159, 0xFF), (0x16E, 0xF0),
   (0x16F, 0xFF), (0x170, 0xFF), (0x171, 0xFF), (0x172, 0xFF), (0x173, 0xFF), (0x177, 0xFF), (0x178, 0xFF), (0x179, 0xFF), (0x17A, 0xFF),
   (0x17B, 0xFF), (0x17D, 0xF0), (0x17E, 0xFF), (0x17F, 0xFF), (0x180, 0xFF), (0x181, 0xFF), (0x182, 0xFF), (0x183, 0xFF)]
  ++ [(0x38C, 0x05), (0x38D, 0x40), (0x390, 0x08), (0x3A0, 0xFF), (0x3A1, 0xFF), (0x3A2, 0xFF), (0x3A3, 0xFF), (0x3A7, 0xF0)]

/-- The same of a VF. -/
def cfgMaskVf : List (Nat × Nat) := 
  [(0x04, 0x04), (0x48, 0xFF), (0x49, 0x7F), (0x93, 0xC0)]
  ++ [(0x118, 0x30), (0x119, 0xF0), (0x11A, 0x5F), (0x11B, 0x10), (0x11C, 0x30), (0x11D, 0xF0), (0x11E, 0x5F), (0x11F, 0x10), (0x124, 0xC1),
   (0x125, 0xF1)]

def cfgMask (fn off : Nat) : Nat := lookupCell 0 (if fn = 0 then cfgMaskPf else cfgMaskVf) off

namespace State

/-- Bits of a byte that the machine gives when it is read: Interrupt Status, the link's speed and width, the power
state, and the size and state of range 1 (R373, R404, R416, R417). -/
def cfgLive (s : State) (fn off : Nat) : Nat :=
  if fn ≠ 0 then 0
  else if off = 0x06 then 8 * bN s.link.intaSent
  else if off = 0x52 then (if s.link.up then s.link.rate + s.link.width % 16 * 16 else 0)
  else if off = 0x53 then (if s.link.up then s.link.width / 16 else 0)
  else if off = 0x84 then 3 * bN s.link.d3hot
  else if 0x398 ≤ off ∧ off < 0x39C then s.capacity >>> (32 + 8 * (off - 0x398)) % 256
  else if off = 0x39C then bN s.power.trained + 2 * bN (s.isF F.LNK_STATUS_MEM_ACTIVE)
  else if off = 0x39F then s.capacity >>> 24 % 256 / 16 * 16
  else 0

/-- A byte as a configuration read returns it. -/
def cfgRead (s : State) (fn off : Nat) : Nat := (s.cfgByte fn off).toNat ||| s.cfgLive fn off % 256

/-- A byte of an AER status register: its bits are W1C (16 R451; PRESUMED, log 11). -/
def aerStatus (fn : Func) (off : Nat) : Bool :=
  decide (aerBase fn + 4 ≤ off ∧ off < aerBase fn + 8) || decide (aerBase fn + 16 ≤ off ∧ off < aerBase fn + 20)

/-- What a written byte sets off beside the bits it stores. -/
def cfgEffect (s : State) (fn : Func) (off v : Nat) : State :=
  match fn with
  | .pf0 =>
    if off = 0x05 then s.updIntx
    else if off = 0x49 then (if bitN v 7 then s.warmReset 6 true else s)
    else if off = 0x84 then (if v % 4 = 3 then s.enterD3hot else if v % 4 = 0 then s.leaveD3hot else s)
    else if off = 0x85 then (if bitN v 7 then s.setCfgBit 0 0x85 7 false else s)
    else if off = 0x93 then (s.setMsixEnable (bitN v 7)).msixFlush .pf0
    else if off = 0x390 then
      let s := if s.link.disableCaching == bitN v 0 then s else s.setDisable (bitN v 0)
      let s := if bitN v 1 then s.startFlush else s
      if bitN v 2 then s.startCxlReset (bitN v 3) else s
    else s
  | .vf w =>
    if off = 0x49 then (if bitN v 7 then s.vfFlr w else s)
    else if off = 0x93 then s.msixFlush (.vf w)
    else s

/-- A byte is written: the writable bits, then what they set off. -/
def cfgWrite (s : State) (fn : Func) (off v : Nat) : State :=
  let m := cfgMask fn.ix off
  let old := (s.cfgByte fn.ix off).toNat
  if aerStatus fn off then s.setCfgByte fn.ix off (BitVec.ofNat 8 (old - (old &&& v)))
  else ((if m = 0 then s else s.setCfgByte fn.ix off (BitVec.ofNat 8 (old - (old &&& m) + (v &&& m))))).cfgEffect fn off v

/-- The function is in reset: its configuration space is not ready, or its FLR is not done. -/
def cfgResets (s : State) (fn : Func) : Bool :=
  !s.power.cfgReady || (match fn with
    | .pf0 => false
    | .vf w => s.link.flr.contains w.val)

/-- A VF that is not enabled: it answers no configuration request (PRESUMED, log 11). -/
def cfgAbsent (s : State) (fn : Func) : Bool := match fn with
  | .pf0 => false
  | .vf w => !s.vfPresent w

/-- A configuration request (R421): a read is answered, a write is answered and then takes effect. -/
def cfgRequest (s : State) (q : CfgReq) : State :=
  if !s.link.up || 4 < q.off % 4 + q.size || q.size = 0 || 4096 ≤ q.off then s
  else
    let s := s.wakeLink
    if s.power.cfgReady && s.cfgAbsent q.fn then s.emit (.unsupported q.tag)
    else if s.cfgResets q.fn then s.emit (.cfgRetry q.tag)
    else match q.write with
      | none => s.emit (.cfgData q.tag (((List.range q.size).map (fun i => s.cfgRead q.fn.ix (q.off + i) * 256 ^ i)).sum))
      | some v =>
        let s := s.emit (.cfgData q.tag 0)
        (List.range q.size).foldl (fun s i => s.cfgWrite q.fn (q.off + i) (v >>> (8 * i) % 256)) s

end State

/-- CONFIG_REQUEST (R402–R406, R421). -/
def execConfigRequest (q : CfgReq) (s : State) : Result := .next (s.cfgRequest q)

end Sys2Proof.Machine
end

