-- ==== Sys2Proof/Machine/LanternAcc.lean ====
section
/-! DEFINITION. The Lantern port (spec 19): packets, lock and unlock (R495–R499), the register space (R500), the
access window (R501–R503) and the comparators' registers (R510). -/

namespace Sys2Proof.Machine

/-! ### Acknowledge codes (R496) -/

def ackOk : Nat := 1
def ackWait : Nat := 2
def ackDenied : Nat := 3
def ackLocked : Nat := 4
def ackFault : Nat := 5
def ackParErr : Nat := 6

/-- The exclusive or of the low `n` bits. -/
def parityN (v n : Nat) : Bool := (List.range n).foldl (fun a i => a != v.testBit i) false

/-- START, STOP and the parity over OP and LREG (R495). -/
def lntHdrGood (h : LntHdr) (op : Nat) : Bool := !h.start && h.stop && (h.parity == parityN (op + 8 * h.lreg.toNat) 11)
/-- Even parity over the 64 data bits (R497). -/
def lntDataGood (d : LntData) : Bool := d.parity == parityN d.d.toNat 64

namespace State

def lntAck (s : State) (a : Nat) : State := s.emit (.lantern a none)
def lntData (s : State) (v : Nat) : State := s.emit (.lantern ackOk (some (BitVec.ofNat 64 v)))

/-- The port answers from VAUX good + 2 ms (R498). -/
def lntAwake (s : State) : Bool := s.power.vauxGood && decide (50000 ≤ s.supTime)

/-- A packet: no answer before the port is awake, PARERR for a bad one (DEDUCED, log 66). -/
def lntPacket (s : State) (good : Bool) (f : State → State) : State :=
  if !s.lntAwake then s else if good then f s else s.lntAck ackParErr

/-- Locked, and after a fuse failure, the port answers LOCKED (R498). -/
def lntOpen (s : State) (f : State → State) : State := if s.lantern.lock = 2 ∧ s.power.fuseGood then f s else s.lntAck ackLocked

/-! ### LNT_STATUS and LNT_RUN_STATUS -/

/-- LNT_STATUS.CORE. -/
def coreCode (s : State) : Nat :=
  if s.power.vauxGood && !s.power.fuseGood then 5
  else if !s.power.coreUp then 0
  else if s.isF F.SUP_PLW_QUIESCED then 4
  else if s.dimmed then 3
  else if s.power.bootDone then 2 else 1

def lntStatus (s : State) : Nat :=
  let l := s.lantern
  0x8640 + 2 * 2 ^ 16 + l.lock % 4 * 2 ^ 24 + s.coreCode * 2 ^ 26 + bN s.ready * 2 ^ 29 + bN (!l.halts.isEmpty) * 2 ^ 30
    + bN l.eventNew * 2 ^ 31 + l.fails % 4 * 2 ^ 32

def lntRunStatus (s : State) : Nat :=
  let h := s.lantern.halts
  ((List.range 8).map (fun w => bN (h.any (fun x => x.scope == 2 && x.target == w)) * 2 ^ w)).sum
    + bN (h.any (fun x => x.scope == 3)) * 2 ^ 8
    + ((List.finRange 256).filter (fun t => s.tileCode t == 7)).length * 2 ^ 9
    + bN ((List.finRange 256).any (fun t => (s.tile t).stepping)) * 2 ^ 18

/-! ### Registers (R500) -/

/-- The fields of LNT_ACC_CTRL. -/
def accCtrl (s : State) : Nat :=
  s.getF F.LNT_ACC_CTRL_KIND + 8 * s.getF F.LNT_ACC_CTRL_WRITE + 16 * s.getF F.LNT_ACC_CTRL_WIDE + 32 * s.getF F.LNT_ACC_CTRL_WARD
    + 2 ^ 8 * s.getF F.LNT_ACC_CTRL_TILE + 2 ^ 16 * s.getF F.LNT_ACC_CTRL_BYTES + 2 ^ 25 * bN (s.lantern.accPhase != 0)
    + 2 ^ 26 * bN s.lantern.accPoison + 2 ^ 27 * s.getF F.LNT_ACC_CTRL_INC

/-- Comparator `n`: its address and control registers. -/
def compAddrF (bp : Bool) (n : Nat) : Fld := if bp then F.LNT_BP_ADDR_VALUE n else F.LNT_WP_ADDR_VALUE n
/-- A field of a comparator's control register. -/
def compF (bp : Bool) (n lo w : Nat) : Fld := ⟨(if bp then F.LNT_BP_CTRL_EN n else F.LNT_WP_CTRL_EN n).off, lo, w⟩
def compCtrl (s : State) (bp : Bool) (n : Nat) : Nat :=
  [(0, 1), (1, 2), (3, 8), (11, 2), (13, 1), (14, 1), (15, 1), (16, 6)].foldl (fun a x => a + s.getF (compF bp n x.1 x.2) * 2 ^ x.1) 0

/-- The comparator register that an LREG is: breakpoint or not, its number, whether it is the control register. -/
def compReg (r : Nat) : Option (Bool × Nat × Bool) :=
  if 0x20 ≤ r ∧ r < 0x30 then some (true, (r - 0x20) / 2, r % 2 == 1)
  else if 0x30 ≤ r ∧ r < 0x38 then some (false, (r - 0x30) / 2, r % 2 == 1)
  else none

/-- LNT_EVENT: a read clears EVENT and the count (R513). -/
def readEvent (s : State) : State :=
  let v := s.getF F.LNT_EVENT_KIND + 8 * s.getF F.LNT_EVENT_INDEX + 128 * s.getF F.LNT_EVENT_TILE + 2 ^ 32 * s.getF F.LNT_EVENT_COUNT
  ({ s with lantern := { s.lantern with eventNew := false } }.setF F.LNT_EVENT_COUNT 0).lntData v

/-- The outcome of the latest access (R502). -/
def readOutcome (s : State) (v : Nat) : State :=
  if s.lantern.accPhase ≠ 0 then s.lntAck ackWait else if s.lantern.accFault then s.lntAck ackFault else s.lntData v

/-- READ of an LREG. -/
def lntRead (s : State) (r : Nat) : State :=
  if r = 0x00 then s.lntData s.lntStatus
  else if r = 0x02 then s.lntData (s.getF F.LNT_ACC_ADDR_VALUE)
  else if r = 0x03 then s.readOutcome s.accCtrl
  else if r = 0x04 then s.readOutcome s.lantern.accData.toNat
  else if r = 0x07 then s.lntData s.lntRunStatus
  else if r = 0x08 then s.lntData (s.getF F.LNT_FREEZE_BITS)
  else if r = 0x09 then s.readEvent
  else if r = 0x0A then s.lntData (s.getF F.LNT_EVENT_PC_VALUE)
  else if r = 0x0B then s.lntData (s.getF F.LNT_EVENT_ADDR_VALUE)
  else match compReg r with
    | some (bp, n, ctrl) => s.lntData (if ctrl then s.compCtrl bp n else s.getF (compAddrF bp n))
    | none => s.lntData 0

/-! ### Scopes and consent (R504, R510) -/

/-- SCOPE and TARGET of a command or comparator name something (DEDUCED, log 68). -/
def scopeGood (scope target : Nat) : Bool :=
  (scope == 0 && decide (target < 256)) || (scope == 1 && decide (target < 16)) || (scope == 2 && decide (target < 8)) || (scope == 3 && target == 0)

/-- Every ward that owns a tile in the scope has RUN consent. -/
def runConsent (s : State) (scope target : Nat) : Bool :=
  (List.finRange 8).all (fun w => !(s.wardTiles w).any (s.scopeCovers scope target) || s.consentRun w)

/-- A write of LNT_BPn_CTRL or LNT_WPn_CTRL (R510). -/
def writeComp (s : State) (bp : Bool) (n v : Nat) : State :=
  let scope := bitsN v 1 2
  let target := bitsN v 3 8
  if (if bp then 8 else 4) ≤ n then s.lntAck ackFault
  else if scope = 3 ∨ !scopeGood scope target then s.lntAck ackFault
  else if bitN v 0 && !s.runConsent scope target then s.lntAck ackDenied
  else
    let act := bitsN v 11 2
    let set := fun (s : State) (lo w x : Nat) => s.setF (compF bp n lo w) x
    let s := set (set (set (set s 0 1 (bitsN v 0 1)) 1 2 scope) 3 8 target) 11 2 (if act = 3 then 0 else act)
    let s := set (set (set s 13 1 (bitsN v 13 1)) 14 1 (bitsN v 14 1)) 15 1 (bitsN v 15 1)
    (set s 16 6 (max 3 (min 40 (bitsN v 16 6)))).lntAck ackOk

/-- A write of LNT_FREEZE: HOMETO is forced to 1 while QCACHE is 1. -/
def writeFreeze (s : State) (v : Nat) : State :=
  (s.setF F.LNT_FREEZE_BITS (if bitN v 1 then putBitN (v % 64) 0 true else v % 64)).lntAck ackOk

/-! ### The access window (R501) -/

def accWidth (s : State) : Nat := if s.isF F.LNT_ACC_CTRL_WIDE then 8 else 4

/-- The target of an access exists (R498; 17 R469): the fabric from step 5 on, memory from step 9 on. -/
def accExists (s : State) (kind : Nat) : Bool := s.coreRuns && (kind != 1 || s.isF F.LNK_STATUS_MEM_ACTIVE)

/-- Consent and authority for an access with control word `v` at address `a`. -/
def accAllowed (s : State) (v a : Nat) : Bool :=
  let kind := v % 8
  let tileHas := fun (f : WardId → Bool) => (s.tileWard (Fin.ofNat 256 (bitsN v 8 8))).any f
  if kind = 0 then
    (List.range (if bitN v 4 then 8 else 4)).all (fun i =>
      let r := match s.viewSpan .l (a + i) with
        | some (r, _, _) => r
        | none => a + i
      if bitN v 3 then s.mayWrite .l r else s.mayRead .l r)
  else if kind = 1 then s.consentMem (Fin.ofNat 8 (bitsN v 5 3))
  else if kind = 2 then tileHas s.consentMem
  else tileHas s.consentRegs

def putCtrl (s : State) (v : Nat) : State :=
  ((((((s.setF F.LNT_ACC_CTRL_KIND (bitsN v 0 3)).setF F.LNT_ACC_CTRL_WRITE (bitsN v 3 1)).setF F.LNT_ACC_CTRL_WIDE (bitsN v 4 1)).setF
    F.LNT_ACC_CTRL_WARD (bitsN v 5 3)).setF F.LNT_ACC_CTRL_TILE (bitsN v 8 8)).setF F.LNT_ACC_CTRL_BYTES (bitsN v 16 8)).setF
    F.LNT_ACC_CTRL_INC (bitsN v 27 1)

/-- A write of LNT_ACC_CTRL; GO starts an access that the window checks now. -/
def writeCtrl (s : State) (v : Nat) : State :=
  if 4 ≤ v % 8 then s.lntAck ackFault
  else if !bitN v 24 then (s.putCtrl v).lntAck ackOk
  else if !s.accExists (v % 8) then s.lntAck ackWait
  else if !s.accAllowed v (s.getF F.LNT_ACC_ADDR_VALUE) then s.lntAck ackDenied
  else
    let s := s.putCtrl v
    ({ s with lantern := { s.lantern with accPhase := 1, accFault := false, accPoison := false } }).lntAck ackOk

/-! ### The accesses -/

/-- An access of the kind has been asked for and has not begun. -/
def accAsked (s : State) (kind : Nat) : Bool := s.lantern.accPhase == 1 && s.getF F.LNT_ACC_CTRL_KIND == kind

/-- The access has its outcome. -/
def accEnd (s : State) (fault poison : Bool) (data : Option Nat) : State :=
  let l := s.lantern
  { s with lantern := { l with accPhase := 3, accFault := fault, accPoison := poison,
                               accData := match data with
                                 | some d => BitVec.ofNat 64 d
                                 | none => l.accData } }

def accFaults (s : State) : State := s.accEnd true false none
def accAddr (s : State) : Nat := s.getF F.LNT_ACC_ADDR_VALUE
def accWrites (s : State) : Bool := s.isF F.LNT_ACC_CTRL_WRITE
def accTile (s : State) : TileId := Fin.ofNat 256 (s.getF F.LNT_ACC_CTRL_TILE)
/-- Enabled bytes of a write. -/
def accBytes (s : State) : Nat := s.getF F.LNT_ACC_CTRL_BYTES % 2 ^ s.accWidth

/-- KIND 0: a register of PF0 BAR0, with authority L (DEDUCED, log 67). Consent was checked at GO; what it granted then
completes (01 R42). -/
def accessReg (s : State) : State :=
  let n := s.accWidth
  let a := s.accAddr
  if !s.accAsked 0 then s
  else if a % n ≠ 0 then s.accFaults
  else
    let reads := s.lntReads (fun _ => true)
    let writes := s.lntWrites (fun _ => true)
    if s.accWrites then (s.writeBy .l writes a n (s.lantern.accData.toNat % 2 ^ (8 * n))).accEnd false false none
    else let x := s.readBy .l reads (fun r => reads r && writes r) a n; x.2.accEnd false false (some x.1)

/-- KIND 1: one cacheless access of the line through the ward's windows (R43). -/
def accessMem (s : State) : State :=
  let n := s.accWidth
  let a := s.accAddr
  let w : WardId := Fin.ofNat 8 (s.getF F.LNT_ACC_CTRL_WARD)
  if !s.accAsked 1 then s
  else if a % n ≠ 0 then s.accFaults
  else match s.translate w a n (if s.accWrites then .write else .read) with
    | .inl c => (s.winFault w c a).accFaults
    | .inr x =>
      let l : LineAddr := ⟨x.host, x.addr / 64⟩
      let o := x.addr % 64
      let k : ReqKind := if s.accWrites then .wrInv else .rdC
      let r := { Req.make k l .lantern (some w) x.sealed with mask := if s.accWrites then BitVec.ofNat 64 (s.accBytes * 2 ^ o) else fullMask }
      let e := { LEntry.make r .reserve with
        lantern := true, hostMem := x.host, relaxed := x.relaxed, ido := x.ido,
        wdata := if s.accWrites then some ⟨placeBytes o n s.lantern.accData.toNat, false⟩ else none }
      ({ s with lantern := { s.lantern with accPhase := 2 } }).issue e

/-- KIND 2: local store. -/
def accessLs (s : State) : State :=
  let n := s.accWidth
  let a := s.accAddr
  let t := s.accTile
  if !s.accAsked 2 then s
  else if a % n ≠ 0 ∨ lsSize < a + n then s.accFaults
  else if s.accWrites then
    let d := s.lantern.accData.toNat
    let s := s.updTile t (fun tl =>
      let tl := (List.range n).foldl (fun tl i => if bitN s.accBytes i then tl.lsWriteBytes (a + i) [BitVec.ofNat 8 (d >>> (8 * i))] else tl) tl
      if s.accBytes = 255 then tl.markWords a false 1 else tl)
    s.accEnd false false none
  else
    let s := s.lsCorrect t a n
    let s := if (s.tile t).lsError a n then s.lsErrorEvent t (BitVec.ofNat 64 (lsBase + a)) else s
    s.accEnd false ((s.tile t).marked a n || (s.tile t).lsError a n) (some ((s.tile t).lsRead a n))

/-- A core register by its number; none where there is none (DESIGN CHOICE, log 9). -/
def coreReg (s : State) (t : TileId) (k : Nat) : Option Nat :=
  let tl := s.tile t
  if k < 32 then some (tl.rg (BitVec.ofNat 5 k)).toNat
  else if k < 64 then some (tl.rf (BitVec.ofNat 5 (k - 32))).toNat
  else if k = 64 then some tl.pc.toNat
  else if 0x100 ≤ k ∧ k < 0x118 ∧ k ≠ 0x10C ∧ k ≠ 0x10D ∧ k ≠ 0x10E ∧ k ≠ 0x10F ∧ k ≠ 0x113 then some (s.readCr t (k - 0x100)).toNat
  else if 0x200 ≤ k ∧ k < 0x210 then some (tl.trace.getD (k - 0x200) 0).toNat
  else none

/-- The tile with a core register written; what is read only is left. -/
def putCoreReg (tl : Tile) (k v : Nat) : Tile :=
  if k < 32 then tl.wg (BitVec.ofNat 5 k) (BitVec.ofNat 64 v)
  else if k < 64 then tl.wf (BitVec.ofNat 5 (k - 32)) (BitVec.ofNat 32 v)
  else if k = 64 then { tl with pc := BitVec.ofNat 64 v }
  else writeCr tl (k - 0x100) (BitVec.ofNat 64 v)

/-- KIND 3: a register of a halted or stranded tile (R503); WIDE = 0 moves bits [31:0]. -/
def accessCore (s : State) : State :=
  let t := s.accTile
  let k := s.accAddr
  if !s.accAsked 3 then s
  else if s.tileCode t ≠ 7 ∧ s.tileCode t ≠ 8 then s.accFaults
  else match s.coreReg t k with
    | none => s.accFaults
    | some old =>
      if s.accWrites then
        if 0x200 ≤ k then s.accFaults
        else
          let d := s.lantern.accData.toNat
          let v := if s.accWidth = 8 then d else old / 2 ^ 32 * 2 ^ 32 + d % 2 ^ 32
          (s.updTile t (fun tl => putCoreReg tl k v)).accEnd false false none
      else s.accEnd false false (some (old % 2 ^ (8 * s.accWidth)))

/-- A Lantern line is still on its way or waits at the Ledger bound. -/
def accOut (s : State) : Bool :=
  s.ledger.waiting.any (·.lantern) || s.ledger.entries.cells.any (fun c => match c.2 with
    | some e => e.lantern
    | none => false)

/-- The access is over: BUSY falls and INC moves the address. -/
def accDone (s : State) : State :=
  if s.lantern.accPhase = 3 ∨ (s.lantern.accPhase = 2 ∧ !s.accOut) then
    let k := if s.getF F.LNT_ACC_CTRL_KIND = 3 then 1 else s.accWidth
    let s := { s with lantern := { s.lantern with accPhase := 0 } }
    if s.isF F.LNT_ACC_CTRL_INC then s.setF F.LNT_ACC_ADDR_VALUE (s.accAddr + k) else s
  else s

/-! ### Unlock and relock (R499; 18 R493) -/

/-- Does the data word carry the NONCE and its complement? -/
def nonceMatches (s : State) (d : W64) : Bool :=
  match s.mgmt.nonce with
  | none => false
  | some n => decide (d = BitVec.ofNat 64 (n.toNat + (~~~ n).toNat * 2 ^ 32))

def tryUnlock (s : State) (d : W64) : State :=
  let l := s.lantern
  if l.lock = 0 then s.lntAck ackLocked
  else if s.nonceMatches d then ({ s with lantern := { l with lock := 2 } }).lntAck ackOk
  else if l.lock = 2 then s.lntAck ackDenied
  else if 2 ≤ l.fails then
    ({ s with lantern := { l with lock := 0, fails := 3 }, mgmt := { s.mgmt with nonce := none } }).lntAck ackDenied
  else ({ s with lantern := { l with fails := l.fails + 1 } }).lntAck ackDenied

/-- The port is locked again: every Lantern halt is lifted. -/
def relock (s : State) : State :=
  ({ s with lantern := { s.lantern with lock := 0 }, mgmt := { s.mgmt with nonce := none } }).liftHalts (fun _ => true)

end State

/-! ### The commands -/

/-- 64 idle cycles abandon a partial packet (R494). -/
def execLineReset (s : State) : Result := .next { s with lantern := { s.lantern with partialBits := 0 } }
/-- STATUS (R497, R498). -/
def execStatus (h : LntHdr) (s : State) : Result := .next (s.lntPacket (lntHdrGood h 0) (fun s => s.lntData s.lntStatus))
/-- READ (R497, R498, R500, R502). -/
def execRead (h : LntHdr) (s : State) : Result := .next (s.lntPacket (lntHdrGood h 1) (fun s => s.lntOpen (fun s => s.lntRead h.lreg.toNat)))
/-- UNLOCK (R499). -/
def execUnlock (h : LntHdr) (d : LntData) (s : State) : Result :=
  .next (s.lntPacket (lntHdrGood h 3 && lntDataGood d) (fun s => s.tryUnlock d.d))
/-- A read of LNT_EVENT (R513). -/
def execLntEventRead (s : State) : Result := .next (s.lntPacket true (fun s => s.lntOpen State.readEvent))
/-- KIND 0 (R501). -/
def execLntAccessReg (s : State) : Result := .next s.accessReg
/-- KIND 1 (R501, R502). -/
def execLntAccessMem (s : State) : Result := .next s.accessMem
/-- KIND 2 (R501, R502). -/
def execLntAccessLs (s : State) : Result := .next s.accessLs
/-- KIND 3 (R501, R503). -/
def execLntAccessCore (s : State) : Result := .next s.accessCore
/-- The access ends (R502). -/
def execLntAccessDone (s : State) : Result := .next s.accDone
/-- A write of a comparator's control register (R510). -/
def execLntComparatorWrite (bp : Bool) (n : Nat) (val : BitVec 64) (s : State) : Result :=
  .next (s.lntPacket true (fun s => s.lntOpen (fun s => s.writeComp bp n val.toNat)))
/-- The arming time ends (18 R493). -/
def execLanternArmExpire (s : State) : Result := .next (if s.lantern.lock = 0 then s else s.relock)

end Sys2Proof.Machine
end

