-- ==== Sys2Proof/Machine/LanternRun.lean ====
section
/-! DEFINITION. Run control from Lantern (spec 19 R504–R509): halting, resuming and stepping, and the packet that
writes a Lantern register. -/

namespace Sys2Proof.Machine
namespace State

/-! ### Halt (R505–R507) -/

/-- A stepping tile that a halt names again gives its instruction up, if it can be given up (R508). -/
def stopStep (s : State) (t : TileId) : State :=
  if !(s.tile t).stepping then s
  else match s.abandon t with
    | (false, s) => s
    | (true, s) => (s.updTile t (fun tl => { tl with stepping := false, stepDone := false })).debugEvent 4 0 t (s.tile t).pc 0

/-- A halt of the scope is added (R505, R506 step 1); the freeze classes come into force with it. -/
def haltScope (s : State) (scope target : Nat) : State :=
  let s := s.addHalt scope target
  (List.finRange 256).foldl (fun s t => if s.scopeCovers scope target t then s.stopStep t else s) s

/-- The core has a boundary to halt at. -/
def runsCore (s : State) (t : TileId) : Bool :=
  match (s.tile t).mode with
  | .held => false
  | .stranded => false
  | .faultHeld => false
  | _ => true

/-- A tile in the scope of a halt reaches an instruction boundary: an interrupt there is taken first, a WAIT
completes, a blocked instruction is given up (R507). -/
def haltTile (s : State) (t : TileId) : State :=
  if !s.haltCovers t || (s.tile t).halted || !s.runsCore t then s
  else
    let s := s.takeInterrupt t
    let s := if (s.tile t).mode = TileMode.inWait then s.retireAlone t else s
    if !s.runsCore t then s
    else match s.abandon t with
      | (false, s) => s
      | (true, s) => (s.updTile t (fun tl => { tl with halted := true })).debugEvent 4 0 t (s.tile t).pc 0

/-! ### Resume (R505) -/

/-- A quarter's owned tiles are all the ward's, and there are some. -/
def quarterInside (s : State) (q w : Nat) : Bool :=
  let own := (List.range 16).map (fun m => (s.tileWard (Fin.ofNat 256 (16 * q + m))).map (·.val))
  own.any (fun o => o == some w) && own.all (fun o => o == none || o == some w)

/-- Does the scope of a halt lie within the scope that is resumed? -/
def haltWithin (s : State) (scope target : Nat) (h : LHalt) : Bool :=
  if scope = 3 then true
  else if h.scope = scope then h.target == target
  else if scope = 1 then h.scope == 0 && h.target / 16 == target
  else if scope = 2 then (h.scope == 0 && s.scopeCovers 2 target (Fin.ofNat 256 h.target)) || (h.scope == 1 && s.quarterInside h.target target)
  else false

def resumeScope (s : State) (scope target : Nat) : State := s.liftHalts (s.haltWithin scope target)

/-! ### Step (R508) -/

/-- STEP is legal at tile scope, on a halted tile that is not stranded (R504). -/
def stepLegal (s : State) (scope target : Nat) : Bool := scope == 0 && s.tileCode (Fin.ofNat 256 target) == 7

def stepTile (s : State) (t : TileId) : State :=
  s.updTile t (fun tl => { tl with stepping := true, stepDone := false, stepPc := tl.pc })

/-- The instruction has retired or ended in an exception: the tile halts again. -/
def endStep (s : State) (t : TileId) : State :=
  if (s.tile t).stepping && (s.tile t).stepDone then
    (s.updTile t (fun tl => { tl with stepping := false, stepDone := false })).debugEvent 3 0 t (s.tile t).stepPc 0
  else s

/-! ### LNT_RUN_CMD (R504) -/

/-- The checks of a command: 1 HALT, 2 RESUME, 3 STEP. -/
def runCmd (s : State) (cmd scope target : Nat) : State :=
  if cmd = 0 ∨ 3 < cmd ∨ !scopeGood scope target then s.lntAck ackFault
  else if !s.coreRuns then s.lntAck ackWait
  else if scope < 2 ∧ !s.runConsent scope target then s.lntAck ackDenied
  else if cmd = 1 then (s.haltScope scope target).lntAck ackOk
  else if cmd = 2 then (s.resumeScope scope target).lntAck ackOk
  else if s.stepLegal scope target then (s.stepTile (Fin.ofNat 256 target)).lntAck ackOk
  else s.lntAck ackFault

/-- WRITE of an LREG (R500): while an access is in progress its registers answer WAIT. -/
def lntWrite (s : State) (r v : Nat) : State :=
  if (r = 0x02 ∨ r = 0x03 ∨ r = 0x04) ∧ s.lantern.accPhase ≠ 0 then s.lntAck ackWait
  else if r = 0x02 then (s.setF F.LNT_ACC_ADDR_VALUE v).lntAck ackOk
  else if r = 0x03 then s.writeCtrl v
  else if r = 0x04 then ({ s with lantern := { s.lantern with accData := BitVec.ofNat 64 v } }).lntAck ackOk
  else if r = 0x06 then s.runCmd (bitsN v 10 3) (bitsN v 0 2) (bitsN v 2 8)
  else if r = 0x08 then s.writeFreeze v
  else if r = 0x00 ∨ r = 0x07 ∨ r = 0x09 ∨ r = 0x0A ∨ r = 0x0B then s.lntAck ackOk
  else match compReg r with
    | some (bp, n, ctrl) => if ctrl then s.writeComp bp n v else (s.setF (compAddrF bp n) v).lntAck ackOk
    | none => s.lntAck ackFault

end State

/-- WRITE (R497, R498, R500). -/
def execWrite (h : LntHdr) (d : LntData) (s : State) : Result :=
  .next (s.lntPacket (lntHdrGood h 2 && lntDataGood d) (fun s => s.lntOpen (fun s => s.lntWrite h.lreg.toNat d.d.toNat)))
/-- HALT (R504–R506): a write of LNT_RUN_CMD. -/
def execHalt (scope target : Nat) (s : State) : Result := .next (s.lntPacket true (fun s => s.lntOpen (fun s => s.runCmd 1 scope target)))
/-- A tile halts (R507). -/
def execTileHalt (t : TileId) (s : State) : Result := .next (s.haltTile t)
/-- RESUME (R504, R505): a write of LNT_RUN_CMD. -/
def execResume (scope target : Nat) (s : State) : Result := .next (s.lntPacket true (fun s => s.lntOpen (fun s => s.runCmd 2 scope target)))
/-- STEP (R504, R508): a write of LNT_RUN_CMD. -/
def execStep (scope target : Nat) (s : State) : Result := .next (s.lntPacket true (fun s => s.lntOpen (fun s => s.runCmd 3 scope target)))
/-- A step ends (R508, R513). -/
def execStepEnd (t : TileId) (s : State) : Result := .next (s.endStep t)

end Sys2Proof.Machine
end

