-- ==== Sys2Proof/Machine/Mgmt.lean ====
section
/-! DEFINITION. The management port (spec 18): MCTP, the Jorwyn message, the requests in their order, and what each
command does. A message in the queue is three bytes of the model's own (whether a flash read works; the requester;
its MCTP tag) and then the message as it arrived. -/

namespace Sys2Proof.Machine

/-! ### Messages (R480) -/

/-- A request as its command gives it. -/
def mgmtMsg (q : MgmtHdr) (cmd : Nat) (payload : List Byte) (flashOk : Bool) : List Byte :=
  [BitVec.ofNat 8 (bN flashOk), q.requester, q.tag.setWidth 8, 0x7E, 0xC9, 0xA5, q.ver, BitVec.ofNat 8 cmd, q.flags, q.seq, q.status]
    ++ leBytes 2 q.len.toNat ++ leBytes 2 q.retry.toNat ++ payload

/-- Byte `i` of a message in the queue. -/
def msgB (m : List Byte) (i : Nat) : Nat := (m.getD i 0).toNat
def msgCmd (m : List Byte) : Nat := msgB m 7
def msgLen (m : List Byte) : Nat := msgB m 11 + 256 * msgB m 12
def msgPayload (m : List Byte) : List Byte := m.drop 15

/-- Whom a message's answer goes to, and the parts of it that the answer repeats. -/
def msgHdr (m : List Byte) : MgmtHdr :=
  ⟨m.getD 1 0, BitVec.ofNat 3 (msgB m 2), m.getD 6 0, 0, m.getD 9 0, 0, 0, 0⟩

/-- A response: the requester, its tag, and the message. -/
def mgmtRsp (q : MgmtHdr) (cmd status retry : Nat) (payload : List Byte) : List Byte :=
  let p := if status = 0 ∨ status = 6 then payload else []
  [q.requester, q.tag.setWidth 8, 0x7E, 0xC9, 0xA5, 1, BitVec.ofNat 8 cmd, 1, q.seq, BitVec.ofNat 8 status]
    ++ leBytes 2 p.length ++ leBytes 2 retry ++ p

/-- Payload lengths of the commands (R485); none for a code not listed. -/
def mgmtLen (cmd : Nat) : Option Nat :=
  if cmd = 0x05 then some 5 else if cmd = 0x06 then some 13 else if cmd = 0x08 then some 2 else if cmd = 0x0A then some 2
  else if cmd = 0x0E then some 1 else if cmd = 0x0F then some 2 else if cmd = 0x10 then some 1 else if cmd = 0x11 then some 2
  else if 1 ≤ cmd ∧ cmd ≤ 0x0D then some 0 else none

/-- What executing a request gives: status, RETRY, payload. -/
structure MgmtAns where
  status : Nat
  retry : Nat
  payload : List Byte
  deriving DecidableEq, Repr

def ansOk (p : List Byte) : MgmtAns := ⟨0, 0, p⟩
def ansNotReady (r : Nat) : MgmtAns := ⟨1, r, []⟩
def ansBusy (r : Nat) : MgmtAns := ⟨2, r, []⟩
def ansDenied : MgmtAns := ⟨3, 0, []⟩
def ansInvalid : MgmtAns := ⟨4, 0, []⟩
def ansVersion : MgmtAns := ⟨5, 0, []⟩
def ansClamped (p : List Byte) : MgmtAns := ⟨6, 0, p⟩
def ansFailed : MgmtAns := ⟨7, 0, []⟩

namespace State

/-- The port answers from VAUX good + 5 ms (R475). -/
def mgmtAwake (s : State) : Bool := s.power.vauxGood && decide (125000 ≤ s.supTime)

/-- Time left to a bound, in `unit` steps rounded up, at least one of them. -/
def timeLeft (s : State) (bound unit : Nat) : Nat := max 1 ((bound - s.supTime + (unit - 1)) / unit)

/-! ### RETRY (R482) -/

def notReadyHint (s : State) : Nat :=
  if !s.power.fuseGood then 0
  else match s.power.pAt with
    | none => 100
    | some p => 10 * s.timeLeft (p + 11250000) 250000

/-- BUSY on the calibration store: the holder's remaining bound (17 R467). -/
def calHint (s : State) : Nat :=
  match s.power.calJob with
  | none => 1
  | some (_, what) => if what = 0 then 1 else s.timeLeft (s.power.calSince + 1500000) 25000

/-- The boot plan read holds the flash: its remaining bound once P is known, else open (DESIGN CHOICE, log 3). -/
def bootHint (s : State) : Nat × State :=
  match s.power.pAt with
  | none => let (v, s) := s.free; (v % 65536, s)
  | some p => (s.timeLeft (p + 11250000) 25000, s)

/-! ### Registers in answers -/

/-- `n` bytes of the register at an offset, as it stands: nothing is cleared (R487). -/
def regLe (s : State) (off n : Nat) : List Byte := leBytes n (s.regWord off)
/-- The same for a register of the core domain, which reads 0 in reset (R486). -/
def coreLe (s : State) (off n : Nat) : List Byte := if s.power.coreUp then s.regLe off n else leBytes n 0
def calItems (s : State) : List Byte := (List.range 7).flatMap (fun n => s.regLe (0x40800 + 8 * n) 8)
def calStatus (s : State) : List Byte := s.regLe 0x40888 8

/-- The health byte (R486). -/
def healthByte (s : State) : Nat :=
  let core := bN s.ready + 2 * s.getF F.LNK_STATUS_MEM_ACTIVE + 4 * s.getF F.PLN_STATUS_LOADED + 8 * s.getF F.PLN_STATUS_NO_BOOT
  (if s.power.coreUp then core else 0) + 16 * s.getF F.SUP_PLW_QUIESCED + 32 * s.getF F.SUP_THERM_TRIPPED + 64 * s.getF F.FLT_STATUS_FAULTN
    + 128 * bN s.power.fuseGood

/-- Clamp reports of the SUP_ and CAL_ registers. -/
def supClampFlags : List Fld :=
  [F.SUP_PACE_ALARM_CLAMPED, F.SUP_STALL_STATUS_CLAMPED, F.SUP_DIM_CLAMPED, F.SUP_THERM_CLAMPED] ++ (List.range 7).map F.SUP_CAL_ITEM_CLAMPED
/-- A write meets a clamp. -/
def clamps (s : State) (f : State → State) : Bool :=
  let t := f (supClampFlags.foldl (fun s x => s.setF x 0) s)
  supClampFlags.any (fun x => t.isF x)

/-! ### Requests -/

def isCalReg (off : Nat) : Bool := decide (0x40800 ≤ off) && decide (off < 0x40838)

/-- What M may do at an offset: none where the offset lies in no block (R488; 01 R19). -/
def mgtAt (off : Nat) : Option Nat :=
  let o := canonOff off
  if obsBase ≤ o ∧ o < msixBase then some 0
  else if inComponent o then some 1
  else match blockAt o with
    | some (b, base) => some (mgtRight b (o - base))
    | none => none

/-- READ_REG (R488). -/
def readRegM (s : State) (off width : Nat) : MgmtAns × State :=
  if (width ≠ 4 ∧ width ≠ 8) ∨ off % width ≠ 0 then (ansInvalid, s)
  else if mgtAt off = some 0 then (ansDenied, s)
  else let x := s.portRead .m off width; (ansOk (leBytes 8 x.1), x.2)

/-- WRITE_REG (R488, R484). -/
def writeRegM (s : State) (off width val : Nat) : MgmtAns × State :=
  if (width ≠ 4 ∧ width ≠ 8) ∨ off % width ≠ 0 then (ansInvalid, s)
  else if mgtAt off ≠ some 2 then (ansDenied, s)
  else if (isCalReg off || off == 0x40880) && s.calBusy then (ansBusy s.calHint, s)
  else
    let f := fun (s : State) => s.portWrite .m off width (val % 2 ^ (8 * width))
    let t := f s
    let back := leBytes 8 (ofLe (t.readBytes .m off width))
    (if s.clamps f then ansClamped back else ansOk back, t)

/-- LOG_READ (R489): BUSY has no hint of its own in R482, so it is open (DESIGN CHOICE, log 3). -/
def readLogM (s : State) (slot : Nat) (flashOk : Bool) : MgmtAns × State :=
  if 2047 < slot then (ansInvalid, s)
  else if s.isF F.FLT_LOG_CTRL_BUSY || s.calSaving then let (v, s) := s.free; (ansBusy (v % 65536), s)
  else if !flashOk then (ansFailed, s)
  else let b := s.logSlot slot; (ansOk (b ++ [BitVec.ofNat 8 (bN (!slotGood b))]), s)

/-- CAL_SET (R489). -/
def calSetM (s : State) (item : Nat) (v : Int) : MgmtAns × State :=
  if 6 < item then (ansInvalid, s)
  else if s.calBusy then (ansBusy s.calHint, s)
  else
    let t := s.calUserWrite true item v
    let p := t.regLe (0x40800 + 8 * item) 8
    (if s.clamps (fun s => s.setUser item v) then ansClamped p else ansOk p, t)

/-- THROTTLE (R490). -/
def throttleM (s : State) (v : Nat) : MgmtAns × State :=
  if v = 255 then (ansOk (s.regLe 0x40400 8), s)
  else if 7 < v then (ansInvalid, s)
  else let s := s.setF F.SUP_THERM_THROTTLE v; (ansOk (s.regLe 0x40400 8), s)

def askReset (s : State) (kind ward : Nat) : MgmtAns × State :=
  (ansOk [], { s with mgmt := { s.mgmt with pendingReset := some (kind, ward) } })

/-- RESET_REQ (R491). -/
def resetReqM (s : State) (kind ward : Nat) : MgmtAns × State :=
  if kind = 1 ∨ kind = 2 then (if ward = 0 then s.askReset kind 0 else (ansInvalid, s))
  else if kind ≠ 3 ∨ 7 < ward then (ansInvalid, s)
  else if !s.power.bootDone then (ansNotReady s.notReadyHint, s)
  else if s.power.plwRunning || (s.dimmed && decide (8 ≤ s.getF F.SUP_DIM_CAUSE)) then (ansNotReady 0, s)
  else if s.dimmed then (ansBusy 10, s)
  else s.askReset 3 ward

/-- ALERT_GET (R492). -/
def alertGetM (s : State) (ack : Nat) : MgmtAns × State :=
  let m := leBytes 8 s.mgmt.alertMask.toNat
  if ack = 0 then (ansOk m, s)
  else if ack = 1 then (ansOk m, { s with smbAlert := false, mgmt := { s.mgmt with alertMask := 0 } })
  else (ansInvalid, s)

/-- LANTERN_CTRL (R493): the NONCE is a free value (DESIGN CHOICE, log 3). -/
def lanternCtrlM (s : State) (op minutes : Nat) : MgmtAns × State :=
  if op = 0 then (ansOk (leBytes 5 0), s.relock)
  else if op ≠ 1 then (ansInvalid, s)
  else
    let m := max 1 minutes
    let (v, s) := s.free
    let n : W32 := BitVec.ofNat 32 v
    let l := s.lantern
    let s := { s with
      mgmt := { s.mgmt with nonce := some n, armedUntil := s.supTime + m * 1500000000 },
      lantern := { l with lock := if l.lock = 2 then 2 else 1, fails := 0 } }
    let p := leBytes 4 n.toNat ++ [BitVec.ofNat 8 m]
    (if minutes = 0 then ansClamped p else ansOk p, s)

/-- A calibration command that takes the store till its flash work ends answers then (R489). -/
def calJobM (s : State) (q : MgmtHdr) (cmd what : Nat) : Option MgmtAns × State :=
  if s.calBusy then (some (ansBusy s.calHint), s)
  else if what = 1 ∧ !s.power.bootDone then let (h, s) := s.bootHint; (some (ansBusy h), s)
  else
    let s := s.calHold true what
    (none, { s with mgmt := { s.mgmt with calWait := some (q, cmd) } })

/-- Execute a request whose form is good: its answer, or none while flash work goes on. -/
def mgmtBody (s : State) (q : MgmtHdr) (cmd : Nat) (p : List Byte) (flashOk : Bool) : Option MgmtAns × State :=
  let n := fun (o k : Nat) => ofLe ((p.drop o).take k)
  let now := fun (x : MgmtAns × State) => (some x.1, x.2)
  let coreOnly := fun (x : MgmtAns × State) => if s.power.bootDone then now x else (some (ansNotReady s.notReadyHint), s)
  if cmd = 0x01 then
    now (ansOk (leBytes 2 0xC9A5 ++ leBytes 2 0x8640 ++ [2, BitVec.ofNat 8 (bN s.fuses.gradeX)] ++ leBytes 2 s.fuses.ref
      ++ [BitVec.ofNat 8 (bN s.power.fuseGood)] ++ leBytes 8 s.fuses.serial.toNat), s)
  else if cmd = 0x02 then
    now (ansOk ([BitVec.ofNat 8 s.healthByte] ++ s.regLe 0x30000 8 ++ s.regLe 0x30008 8 ++ s.coreLe 0x10018 4 ++ s.regLe 0x40300 8
      ++ (List.range 5).flatMap (fun i => s.regLe (0x40580 + 8 * i) 8)), s)
  else if cmd = 0x03 then
    now (ansOk ((List.range 6).flatMap (fun i => s.regLe (0x40000 + 8 * i) 8) ++ s.regLe 0x40200 8 ++ s.regLe 0x40310 4 ++ s.coreLe 0x40108 8), s)
  else if cmd = 0x04 then now (ansOk (s.regLe 0x40400 8 ++ (List.range 18).flatMap (fun i => s.regLe (0x40480 + 8 * i) 8)), s)
  else if cmd = 0x05 then coreOnly (s.readRegM (n 0 4) (n 4 1))
  else if cmd = 0x06 then coreOnly (s.writeRegM (n 0 4) (n 4 1) (n 5 8))
  else if cmd = 0x07 then now (ansOk (s.regLe 0x32008 8 ++ s.regLe 0x30008 8), s)
  else if cmd = 0x08 then now (s.readLogM (n 0 2) flashOk)
  else if cmd = 0x09 then now (ansOk (s.calItems ++ s.calStatus), s)
  else if cmd = 0x0A then now (s.calSetM (n 0 1) (s8 (n 1 1)))
  else if cmd = 0x0B then s.calJobM q cmd 1
  else if cmd = 0x0C then s.calJobM q cmd 2
  else if cmd = 0x0D then
    if s.calBusy then now (ansBusy s.calHint, s) else let s := s.calZeroAll true; now (ansOk s.calItems, s)
  else if cmd = 0x0E then now (s.throttleM (n 0 1))
  else if cmd = 0x0F then now (s.resetReqM (n 0 1) (n 1 1))
  else if cmd = 0x10 then now (s.alertGetM (n 0 1))
  else now (s.lanternCtrlM (n 0 1) (n 1 1))

/-- The form of a request (R481): VER, a known CMD, its LEN, reserved fields. -/
def formFault (m : List Byte) : Option MgmtAns :=
  if msgB m 6 ≠ 1 then some ansVersion
  else if msgB m 8 ≠ 0 ∨ msgB m 10 ≠ 0 ∨ msgB m 13 ≠ 0 ∨ msgB m 14 ≠ 0 ∨ msgLen m ≠ (msgPayload m).length ∨ mgmtLen (msgCmd m) ≠ some (msgLen m) then
    some ansInvalid
  else none

def setRsp (s : State) (q : MgmtHdr) (cmd : Nat) (a : MgmtAns) : State :=
  { s with mgmt := { s.mgmt with response := some (mgmtRsp q cmd a.status a.retry a.payload), retries := 0 } }

/-- A request executes: its answer is not sent yet, or its flash work goes on. -/
def mgmtBusy (s : State) : Bool := s.mgmt.response.isSome || s.mgmt.calWait.isSome

/-- The oldest request executes when none does (R483). -/
def mgmtPump (s : State) : State :=
  if s.mgmtBusy then s
  else match s.mgmt.queue with
    | [] => s
    | m :: rest =>
      let s := { s with mgmt := { s.mgmt with queue := rest } }
      let q := msgHdr m
      match formFault m with
      | some a => s.setRsp q (msgCmd m) a
      | none => match s.mgmtBody q (msgCmd m) (msgPayload m) (msgB m 0 == 1) with
        | (some a, s) => s.setRsp q (msgCmd m) a
        | (none, s) => s

/-- A request arrives: one executes and one more is held; a third is answered BUSY (R482, R483; DEDUCED, log 75). -/
def mgmtArrive (s : State) (m : List Byte) : State :=
  if !s.mgmtAwake then s
  else if 2 ≤ bN s.mgmtBusy + s.mgmt.queue.length then
    { s with mgmt := { s.mgmt with others := s.mgmt.others ++ [mgmtRsp (msgHdr m) (msgCmd m) 2 5 []] } }
  else ({ s with mgmt := { s.mgmt with queue := s.mgmt.queue ++ [m] } }).mgmtPump

/-! ### MCTP (R478, R479; layouts: PRESUMED, log 51) -/

/-- An MCTP control answer: requester and tag, then type, instance, command, completion code and data. -/
def ctlRsp (s : State) (requester tag inst cmd code : Nat) (data : List Byte) : State :=
  { s with mgmt := { s.mgmt with others := s.mgmt.others ++
    [[BitVec.ofNat 8 requester, BitVec.ofNat 8 tag, 0, BitVec.ofNat 8 inst, BitVec.ofNat 8 cmd, BitVec.ofNat 8 code] ++ data] } }

/-- Set Endpoint ID: 0 and 255 are no EIDs. -/
def setEid (s : State) (rq tag inst : Nat) (eid : Byte) : State :=
  if eid = 0 ∨ eid = 255 then s.ctlRsp rq tag inst 1 2 []
  else ({ s with mgmt := { s.mgmt with eid := eid } }).ctlRsp rq tag inst 1 0 [0, eid, 0]
def getEid (s : State) (rq tag inst : Nat) : State := s.ctlRsp rq tag inst 2 0 [s.mgmt.eid, 0, 0]
def getVersions (s : State) (rq tag inst : Nat) : State := s.ctlRsp rq tag inst 4 0 [1, 0xF1, 0xF3, 0xF1, 0]
def getTypes (s : State) (rq tag inst : Nat) : State := s.ctlRsp rq tag inst 5 0 [1, 0x7E]
def getVendors (s : State) (rq tag inst : Nat) : State := s.ctlRsp rq tag inst 6 0 [0xFF, 0, 0xC9, 0xA5, 0, 0]

/-- A control request that came as a message. -/
def ctlMessage (s : State) (src tag : Nat) (m : List Byte) : State :=
  let b := fun i => (m.getD i 0).toNat
  let inst := b 1 % 32
  if b 1 < 128 then s
  else if b 2 = 1 then s.setEid src tag inst (m.getD 4 0)
  else if b 2 = 2 then s.getEid src tag inst
  else if b 2 = 4 then s.getVersions src tag inst
  else if b 2 = 5 then s.getTypes src tag inst
  else if b 2 = 6 then s.getVendors src tag inst
  else s.ctlRsp src tag inst (b 2) 5 []

/-- A whole message: MCTP control, or a Jorwyn message to the device's EID; anything else is discarded. -/
def takeMessage (s : State) (dst src tag : Nat) (m : List Byte) : State :=
  let b := fun i => (m.getD i 0).toNat
  let mine := dst = s.mgmt.eid.toNat
  if b 0 = 0 ∧ (mine ∨ dst = 0) then s.ctlMessage src tag m
  else if b 0 = 0x7E ∧ b 1 = 0xC9 ∧ b 2 = 0xA5 ∧ 12 ≤ m.length ∧ mine then
    s.mgmtArrive ([1, BitVec.ofNat 8 src, BitVec.ofNat 8 tag] ++ m)
  else s

def setPartial (s : State) (l : List Byte) : State := { s with mgmt := { s.mgmt with partialMsg := l } }

/-- A packet: version, destination, source, then SOM, EOM, sequence, tag owner and tag, and up to 64 bytes. A message
is gathered as source, tag, next sequence, bytes. -/
def takePacket (s : State) (b : List Byte) (pecOk : Bool) : State :=
  if !s.mgmtAwake || !pecOk || decide (b.length < 5) || decide (68 < b.length) then s
  else
    let f := (b.getD 3 0).toNat
    let src := b.getD 2 0
    let tag := f % 8
    let sq := f / 16 % 4
    let some_ := bitN f 7
    let eom := bitN f 6
    let body := b.drop 4
    let old := s.mgmt.partialMsg
    let fits := old.length ≠ 0 ∧ old.getD 0 0 = src ∧ (old.getD 1 0).toNat = tag ∧ (old.getD 2 0).toNat = sq
    let got := if some_ then body else old.drop 3 ++ body
    if (!some_ ∧ ¬fits) ∨ 1024 < got.length then s.setPartial []
    else if eom then (s.setPartial []).takeMessage (b.getD 1 0).toNat src.toNat tag got
    else s.setPartial ([src, BitVec.ofNat 8 tag, BitVec.ofNat 8 ((sq + 1) % 4)] ++ got)

/-! ### Answers and what follows them -/

/-- The reset that a request asked for begins once its answer has been sent or dropped (R491). -/
def beginReset (s : State) (kind ward : Nat) : State :=
  if kind = 1 then (if s.coreRuns then s.warmReset 5 false else s)
  else if kind = 2 then (if s.power.coreGood then s.coldCore else s)
  else if s.coreRuns then s.startWardReset (Fin.ofNat 8 ward) else s

/-- The answer at the front has left, or is dropped. -/
def rspGone (s : State) : State :=
  match s.mgmt.others with
  | _ :: rest => { s with mgmt := { s.mgmt with others := rest, retries := 0 } }
  | [] =>
    let r := s.mgmt.pendingReset
    let s := { s with mgmt := { s.mgmt with response := none, retries := 0, pendingReset := none } }
    (match r with
      | none => s
      | some (k, w) => s.beginReset k w).mgmtPump

/-- The answer that is sent next. -/
def nextRsp (s : State) : Option (List Byte) := s.mgmt.others.head?.or s.mgmt.response

/-- A response is sent, or loses arbitration: after 3 retries it is dropped (R479). -/
def sendRsp (s : State) (sent : Bool) : State :=
  match s.nextRsp with
  | none => s
  | some r =>
    if sent then (s.emit (.smbus r)).rspGone
    else if 3 ≤ s.mgmt.retries then s.rspGone
    else { s with mgmt := { s.mgmt with retries := s.mgmt.retries + 1 } }

/-- The flash work of SAVE or RELOAD ends; management is answered (17 R467; R489). -/
def calFlashEnd (s : State) (ok : Bool) : State :=
  match s.power.calJob with
  | none => s
  | some (_, 0) => s
  | some (_, what) =>
    let s := (if what = 1 then s.calSave ok else if ok then s.calLoad else s).calFree
    match s.mgmt.calWait with
    | none => s
    | some (q, cmd) =>
      let s := { s with mgmt := { s.mgmt with calWait := none } }
      s.setRsp q cmd (if !ok then ansFailed else ansOk (if what = 1 then s.calStatus else s.calItems ++ s.calStatus))

/-- A row's request arrives. -/
def request (s : State) (q : MgmtHdr) (cmd : Nat) (p : List Byte) : State := s.mgmtArrive (mgmtMsg q cmd p true)
/-- An MCTP control request of a row. -/
def ctlRow (s : State) (f : State → State) : State := if s.mgmtAwake then f s else s

end State

/-! ### The commands -/

/-- CAL_FLASH_DONE (17 R467). -/
def execCalFlashDone (ok : Bool) (s : State) : Result := .next (s.calFlashEnd ok)
/-- MCTP_PACKET (R478). -/
def execMctpPacket (b : List (BitVec 8)) (pecOk : Bool) (s : State) : Result := .next (s.takePacket b pecOk)
/-- MGMT_RESPONSE_SEND (R479). -/
def execMgmtResponseSend (sent : Bool) (s : State) : Result := .next (s.sendRsp sent)
/-- Set Endpoint ID (R479). -/
def execSetEndpointId (eid : BitVec 8) (s : State) : Result := .next (s.ctlRow (fun s => s.setEid 0 0 0 eid))
/-- Get Endpoint ID (R479). -/
def execGetEndpointId (s : State) : Result := .next (s.ctlRow (fun s => s.getEid 0 0 0))
/-- Get MCTP Version Support (R479). -/
def execGetMctpVersionSupport (s : State) : Result := .next (s.ctlRow (fun s => s.getVersions 0 0 0))
/-- Get Message Type Support (R479). -/
def execGetMessageTypeSupport (s : State) : Result := .next (s.ctlRow (fun s => s.getTypes 0 0 0))
/-- Get Vendor Defined Message Support (R479). -/
def execGetVendorDefinedMessageSupport (s : State) : Result := .next (s.ctlRow (fun s => s.getVendors 0 0 0))
/-- GET_IDENTITY (R485). -/
def execGetIdentity (q : MgmtHdr) (s : State) : Result := .next (s.request q 0x01 [])
/-- GET_HEALTH (R485, R486). -/
def execGetHealth (q : MgmtHdr) (s : State) : Result := .next (s.request q 0x02 [])
/-- GET_SUPPLY (R485, R487). -/
def execGetSupply (q : MgmtHdr) (s : State) : Result := .next (s.request q 0x03 [])
/-- GET_THERMAL (R485, R487). -/
def execGetThermal (q : MgmtHdr) (s : State) : Result := .next (s.request q 0x04 [])
/-- READ_REG (R487, R488). -/
def execReadReg (q : MgmtHdr) (off width : Nat) (s : State) : Result := .next (s.request q 0x05 (leBytes 4 off ++ leBytes 1 width))
/-- WRITE_REG (R488). -/
def execWriteReg (q : MgmtHdr) (off width val : Nat) (s : State) : Result :=
  .next (s.request q 0x06 (leBytes 4 off ++ leBytes 1 width ++ leBytes 8 val))
/-- LOG_HEAD (R485). -/
def execLogHead (q : MgmtHdr) (s : State) : Result := .next (s.request q 0x07 [])
/-- LOG_READ (R485, R489). -/
def execLogRead (q : MgmtHdr) (slot : Nat) (flashOk : Bool) (s : State) : Result :=
  .next (s.mgmtArrive (mgmtMsg q 0x08 (leBytes 2 slot) flashOk))
/-- CAL_GET (R485). -/
def execCalGet (q : MgmtHdr) (s : State) : Result := .next (s.request q 0x09 [])
/-- CAL_SET (R489). -/
def execCalSet (q : MgmtHdr) (item : Nat) (offset : BitVec 8) (s : State) : Result := .next (s.request q 0x0A (leBytes 1 item ++ [offset]))
/-- CAL_SAVE (R489). -/
def execCalSave (q : MgmtHdr) (s : State) : Result := .next (s.request q 0x0B [])
/-- CAL_RELOAD (R489). -/
def execCalReload (q : MgmtHdr) (s : State) : Result := .next (s.request q 0x0C [])
/-- CAL_ZERO (R489). -/
def execCalZero (q : MgmtHdr) (s : State) : Result := .next (s.request q 0x0D [])
/-- THROTTLE (R490). -/
def execThrottle (q : MgmtHdr) (v : Nat) (s : State) : Result := .next (s.request q 0x0E (leBytes 1 v))
/-- RESET_REQ (R491). -/
def execResetReq (q : MgmtHdr) (kind ward : Nat) (s : State) : Result := .next (s.request q 0x0F (leBytes 1 kind ++ leBytes 1 ward))
/-- ALERT_GET (R492). -/
def execAlertGet (q : MgmtHdr) (ack : Nat) (s : State) : Result := .next (s.request q 0x10 (leBytes 1 ack))
/-- A read of the SMBus Alert Response Address (R492). -/
def execAlertResponseAddress (s : State) : Result := .next (if s.mgmtAwake then s.emit (.smbus [0x4C]) else s)
/-- LANTERN_CTRL (R493). -/
def execLanternCtrl (q : MgmtHdr) (op minutes : Nat) (s : State) : Result := .next (s.request q 0x11 (leBytes 1 op ++ leBytes 1 minutes))

end Sys2Proof.Machine
end

