-- ==== Sys2Proof/Machine/TileFp.lean ====
section
/-! DEFINITION. The floating-point instructions (spec 05 R158–R161). -/

namespace Sys2Proof.Machine

/-- An f register as a binary32 value, and as a BF16 value in its bits [31:16] (spec 05 R158). -/
def Tile.num (t : Tile) (r : BitVec 5) : Num := unpack fp32 (t.rf r).toNat
def Tile.numB (t : Tile) (r : BitVec 5) : Num := unpack bf16 ((t.rf r).toNat / 65536)

/-- Write a result and its flags: FP32, BF16, or an integer register. -/
def Tile.putS (t : Tile) (rd : BitVec 5) (r : FpRes) : Tile := (t.wf rd (BitVec.ofNat 32 r.1)).addFlags r.2
def Tile.putB (t : Tile) (rd : BitVec 5) (r : FpRes) : Tile := (t.wf rd (BitVec.ofNat 32 (r.1 * 65536))).addFlags r.2
def Tile.putG (t : Tile) (rd : BitVec 5) (v : W64) (fl : Nat) : Tile := (t.wg rd v).addFlags fl

/-- An FP32 operation of two operands in the selected mode. -/
def State.fpS (s : State) (c : Instr) (t : TileId) (f : FpForm) (op : Nat → Num → Num → FpRes) : State :=
  s.regOp c t (f.bad true true) (fun tl => tl.putS f.rd (op (tl.mode? f.rm) (tl.num f.ra) (tl.num f.rb)))
/-- A BF16 operation of two operands. -/
def State.fpB (s : State) (c : Instr) (t : TileId) (f : FpForm) (op : Nat → Num → Num → FpRes) : State :=
  s.regOp c t (f.bad true true) (fun tl => tl.putB f.rd (op (tl.mode? f.rm) (tl.numB f.ra) (tl.numB f.rb)))
/-- A comparison into a g register: none when an operand is a NaN, with the flags of that case. -/
def State.fpCmp (s : State) (c : Instr) (t : TileId) (f : FpForm) (quiet : Bool) (op : Int → Bool) : State :=
  s.regOp c t (f.bad false true) (fun tl =>
    let a := tl.num f.ra
    let b := tl.num f.rb
    if a.isNan || b.isNan then tl.putG f.rd 0 (if quiet then sigFlag [a, b] else 1)
    else tl.putG f.rd (boolWord (op (cmpNum a b))) 0)

/-- FADD.S (spec 05 R160). -/
def execFaddS (t : TileId) (f : FpForm) (s : State) : Result := .next (s.fpS (.faddS t f) t f (fun m a b => addNum fp32 m a b))
/-- FSUB.S (spec 05 R160). -/
def execFsubS (t : TileId) (f : FpForm) (s : State) : Result := .next (s.fpS (.fsubS t f) t f (fun m a b => addNum fp32 m a b.neg))
/-- FMUL.S (spec 05 R160). -/
def execFmulS (t : TileId) (f : FpForm) (s : State) : Result := .next (s.fpS (.fmulS t f) t f (fun m a b => mulNum fp32 m a b))
/-- FDIV.S (spec 05 R160). -/
def execFdivS (t : TileId) (f : FpForm) (s : State) : Result := .next (s.fpS (.fdivS t f) t f (fun m a b => divNum fp32 m a b))
/-- FSQRT.S (spec 05 R160). -/
def execFsqrtS (t : TileId) (f : FpForm) (s : State) : Result :=
  .next (s.regOp (.fsqrtS t f) t (f.bad true false) (fun tl => tl.putS f.rd (sqrtNum fp32 (tl.mode? f.rm) (tl.num f.ra))))
/-- FMIN.S (spec 05 R160). -/
def execFminS (t : TileId) (f : FpForm) (s : State) : Result :=
  .next (s.regOp (.fminS t f) t (f.bad false true) (fun tl => tl.putS f.rd (minMaxBits fp32 false (tl.rf f.ra).toNat (tl.rf f.rb).toNat)))
/-- FMAX.S (spec 05 R160). -/
def execFmaxS (t : TileId) (f : FpForm) (s : State) : Result :=
  .next (s.regOp (.fmaxS t f) t (f.bad false true) (fun tl => tl.putS f.rd (minMaxBits fp32 true (tl.rf f.ra).toNat (tl.rf f.rb).toNat)))
/-- FNEG.S (spec 05 R158, R160). -/
def execFnegS (t : TileId) (f : FpForm) (s : State) : Result :=
  .next (s.regOp (.fnegS t f) t (f.bad false false) (fun tl => tl.wf f.rd (tl.rf f.ra ^^^ 0x80000000)))
/-- FABS.S (spec 05 R158, R160). -/
def execFabsS (t : TileId) (f : FpForm) (s : State) : Result :=
  .next (s.regOp (.fabsS t f) t (f.bad false false) (fun tl => tl.wf f.rd (tl.rf f.ra &&& 0x7FFFFFFF)))
/-- FEQ.S (spec 05 R160). -/
def execFeqS (t : TileId) (f : FpForm) (s : State) : Result := .next (s.fpCmp (.feqS t f) t f true (fun c => c == 0))
/-- FLT.S (spec 05 R160). -/
def execFltS (t : TileId) (f : FpForm) (s : State) : Result := .next (s.fpCmp (.fltS t f) t f false (fun c => decide (c < 0)))
/-- FLE.S (spec 05 R160). -/
def execFleS (t : TileId) (f : FpForm) (s : State) : Result := .next (s.fpCmp (.fleS t f) t f false (fun c => decide (c ≤ 0)))

/-- A conversion to a 64-bit integer. -/
def State.fpToInt (s : State) (c : Instr) (t : TileId) (f : FpForm) (signed : Bool) : State :=
  s.regOp c t (f.bad true false) (fun tl =>
    let r := toInt64 (tl.mode? f.rm) signed (tl.num f.ra)
    tl.putG f.rd r.1 r.2)
/-- FCVT.L.S (spec 05 R160). -/
def execFcvtLS (t : TileId) (f : FpForm) (s : State) : Result := .next (s.fpToInt (.fcvtLS t f) t f true)
/-- FCVT.LU.S (spec 05 R160). -/
def execFcvtLuS (t : TileId) (f : FpForm) (s : State) : Result := .next (s.fpToInt (.fcvtLuS t f) t f false)
/-- FCVT.S.L (spec 05 R160). -/
def execFcvtSL (t : TileId) (f : FpForm) (s : State) : Result :=
  .next (s.regOp (.fcvtSL t f) t (f.bad true false) (fun tl => tl.putS f.rd (ofInt fp32 (tl.mode? f.rm) (tl.rg f.ra).toInt)))
/-- FCVT.S.LU (spec 05 R160). -/
def execFcvtSLu (t : TileId) (f : FpForm) (s : State) : Result :=
  .next (s.regOp (.fcvtSLu t f) t (f.bad true false) (fun tl => tl.putS f.rd (ofInt fp32 (tl.mode? f.rm) (tl.rg f.ra).toNat)))
/-- FCVT.BF.S (spec 05 R160). -/
def execFcvtBfS (t : TileId) (f : FpForm) (s : State) : Result :=
  .next (s.regOp (.fcvtBfS t f) t (f.bad true false) (fun tl => tl.putB f.rd (convNum bf16 (tl.mode? f.rm) (tl.num f.ra))))
/-- FMV.G.F (spec 05 R160). -/
def execFmvGF (t : TileId) (f : FpForm) (s : State) : Result :=
  .next (s.regOp (.fmvGF t f) t (f.bad false false) (fun tl => tl.wg f.rd ((tl.rf f.ra).setWidth 64)))
/-- FMV.F.G (spec 05 R160). -/
def execFmvFG (t : TileId) (f : FpForm) (s : State) : Result :=
  .next (s.regOp (.fmvFG t f) t (f.bad false false) (fun tl => tl.wf f.rd ((tl.rg f.ra).setWidth 32)))
/-- FADD.B (spec 05 R160). -/
def execFaddB (t : TileId) (f : FpForm) (s : State) : Result := .next (s.fpB (.faddB t f) t f (fun m a b => addNum bf16 m a b))
/-- FMUL.B (spec 05 R160). -/
def execFmulB (t : TileId) (f : FpForm) (s : State) : Result := .next (s.fpB (.fmulB t f) t f (fun m a b => mulNum bf16 m a b))
/-- FSUB.B (spec 05 R160). -/
def execFsubB (t : TileId) (f : FpForm) (s : State) : Result := .next (s.fpB (.fsubB t f) t f (fun m a b => addNum bf16 m a b.neg))

/-- ±(fa × fb) ± fc rounded once; the negations apply to the addends (spec 05 R161). -/
def State.fpMadd (s : State) (c : Instr) (t : TileId) (f : R4Form) (negProd negC : Bool) : State :=
  s.regOp c t f.bad (fun tl =>
    let a := if negProd then (tl.num f.ra).neg else tl.num f.ra
    let c := if negC then (tl.num f.rc).neg else tl.num f.rc
    tl.putS f.rd (fmaNum fp32 (tl.mode? f.rm) a (tl.num f.rb) c))
/-- FMADD.S (spec 05 R161). -/
def execFmaddS (t : TileId) (f : R4Form) (s : State) : Result := .next (s.fpMadd (.fmaddS t f) t f false false)
/-- FMSUB.S (spec 05 R161). -/
def execFmsubS (t : TileId) (f : R4Form) (s : State) : Result := .next (s.fpMadd (.fmsubS t f) t f false true)
/-- FNMADD.S (spec 05 R161). -/
def execFnmaddS (t : TileId) (f : R4Form) (s : State) : Result := .next (s.fpMadd (.fnmaddS t f) t f true true)
/-- FMADD.B (spec 05 R161). -/
def execFmaddB (t : TileId) (f : R4Form) (s : State) : Result :=
  .next (s.regOp (.fmaddB t f) t f.bad (fun tl => tl.putB f.rd (fmaNum bf16 (tl.mode? f.rm) (tl.numB f.ra) (tl.numB f.rb) (tl.numB f.rc))))

end Sys2Proof.Machine
end

