-- ==== Sys2Proof/Machine/TileInt.lean ====
section
/-! DEFINITION. The integer instructions, the immediate forms, the branches and the jumps (spec 05 R152–R154,
R157). -/

namespace Sys2Proof.Machine

/-! ### Register operations (spec 05 R152, R153) -/

/-- rd = op ra rb. -/
def State.aluOp (s : State) (c : Instr) (t : TileId) (f : RForm) (op : W64 → W64 → W64) : State :=
  s.regOp c t f.bad (fun tl => tl.wg f.rd (op (tl.rg f.ra) (tl.rg f.rb)))

/-- ADD (spec 05 R152). -/
def execAdd (t : TileId) (f : RForm) (s : State) : Result := .next (s.aluOp (.add t f) t f (fun a b => a + b))
/-- SUB (spec 05 R152). -/
def execSub (t : TileId) (f : RForm) (s : State) : Result := .next (s.aluOp (.sub t f) t f (fun a b => a - b))
/-- AND (spec 05 R152). -/
def execAnd (t : TileId) (f : RForm) (s : State) : Result := .next (s.aluOp (.and t f) t f (fun a b => a &&& b))
/-- OR (spec 05 R152). -/
def execOr (t : TileId) (f : RForm) (s : State) : Result := .next (s.aluOp (.or t f) t f (fun a b => a ||| b))
/-- XOR (spec 05 R152). -/
def execXor (t : TileId) (f : RForm) (s : State) : Result := .next (s.aluOp (.xor t f) t f (fun a b => a ^^^ b))
/-- SLL (spec 05 R152). -/
def execSll (t : TileId) (f : RForm) (s : State) : Result := .next (s.aluOp (.sll t f) t f (fun a b => opSll a b))
/-- SRL (spec 05 R152). -/
def execSrl (t : TileId) (f : RForm) (s : State) : Result := .next (s.aluOp (.srl t f) t f (fun a b => opSrl a b))
/-- SRA (spec 05 R152). -/
def execSra (t : TileId) (f : RForm) (s : State) : Result := .next (s.aluOp (.sra t f) t f (fun a b => opSra a b))
/-- SLT (spec 05 R152). -/
def execSlt (t : TileId) (f : RForm) (s : State) : Result := .next (s.aluOp (.slt t f) t f (fun a b => boolWord (a.slt b)))
/-- SLTU (spec 05 R152). -/
def execSltu (t : TileId) (f : RForm) (s : State) : Result := .next (s.aluOp (.sltu t f) t f (fun a b => boolWord (a.ult b)))
/-- MUL (spec 05 R152). -/
def execMul (t : TileId) (f : RForm) (s : State) : Result := .next (s.aluOp (.mul t f) t f (fun a b => a * b))
/-- MULH (spec 05 R152). -/
def execMulh (t : TileId) (f : RForm) (s : State) : Result := .next (s.aluOp (.mulh t f) t f (fun a b => opMulh a b))
/-- MULHU (spec 05 R152). -/
def execMulhu (t : TileId) (f : RForm) (s : State) : Result := .next (s.aluOp (.mulhu t f) t f (fun a b => opMulhu a b))
/-- DIV (spec 05 R152, R153). -/
def execDiv (t : TileId) (f : RForm) (s : State) : Result := .next (s.aluOp (.div t f) t f (fun a b => opDiv a b))
/-- DIVU (spec 05 R152, R153). -/
def execDivu (t : TileId) (f : RForm) (s : State) : Result := .next (s.aluOp (.divu t f) t f (fun a b => opDivu a b))
/-- REM (spec 05 R152, R153). -/
def execRem (t : TileId) (f : RForm) (s : State) : Result := .next (s.aluOp (.rem t f) t f (fun a b => opRem a b))
/-- REMU (spec 05 R152, R153). -/
def execRemu (t : TileId) (f : RForm) (s : State) : Result := .next (s.aluOp (.remu t f) t f (fun a b => opRemu a b))
/-- MIN (spec 05 R152). -/
def execMin (t : TileId) (f : RForm) (s : State) : Result := .next (s.aluOp (.min t f) t f (fun a b => opMin a b))
/-- MAX (spec 05 R152). -/
def execMax (t : TileId) (f : RForm) (s : State) : Result := .next (s.aluOp (.max t f) t f (fun a b => opMax a b))
/-- MINU (spec 05 R152). -/
def execMinu (t : TileId) (f : RForm) (s : State) : Result := .next (s.aluOp (.minu t f) t f (fun a b => opMinu a b))
/-- MAXU (spec 05 R152). -/
def execMaxu (t : TileId) (f : RForm) (s : State) : Result := .next (s.aluOp (.maxu t f) t f (fun a b => opMaxu a b))

/-! ### Immediate forms (spec 05 R154) -/

/-- rd = op ra imm. -/
def State.immOp (s : State) (c : Instr) (t : TileId) (f : IForm) (bad : Bool) (op : W64 → BitVec 16 → W64) : State :=
  s.regOp c t bad (fun tl => tl.wg f.rd (op (tl.rg f.ra) f.imm))

/-- ADDI (spec 05 R154). -/
def execAddi (t : TileId) (f : IForm) (s : State) : Result := .next (s.immOp (.addi t f) t f false (fun a i => a + sext16 i))
/-- ANDI (spec 05 R154). -/
def execAndi (t : TileId) (f : IForm) (s : State) : Result := .next (s.immOp (.andi t f) t f false (fun a i => a &&& zext16 i))
/-- ORI (spec 05 R154). -/
def execOri (t : TileId) (f : IForm) (s : State) : Result := .next (s.immOp (.ori t f) t f false (fun a i => a ||| zext16 i))
/-- XORI (spec 05 R154). -/
def execXori (t : TileId) (f : IForm) (s : State) : Result := .next (s.immOp (.xori t f) t f false (fun a i => a ^^^ zext16 i))
/-- SLTI (spec 05 R154). -/
def execSlti (t : TileId) (f : IForm) (s : State) : Result := .next (s.immOp (.slti t f) t f false (fun a i => boolWord (a.slt (sext16 i))))
/-- SLTIU (spec 05 R154). -/
def execSltiu (t : TileId) (f : IForm) (s : State) : Result := .next (s.immOp (.sltiu t f) t f false (fun a i => boolWord (a.ult (sext16 i))))
/-- SHI (spec 05 R154). -/
def execShi (t : TileId) (f : IForm) (s : State) : Result := .next (s.immOp (.shi t f) t f (shiBad f.imm) opShi)
/-- INSH (spec 05 R154): the ra field holds sh in its low two bits and its upper three are reserved. -/
def execInsh (t : TileId) (f : IForm) (s : State) : Result :=
  .next (s.regOp (.insh t f) t (decide (4 ≤ f.ra.toNat)) (fun tl => tl.wg f.rd (opInsh (tl.rg f.rd) f.ra.toNat f.imm)))

/-! ### Branches and jumps (spec 05 R157; 04 R136) -/

/-- A conditional branch: the other path is the one that a misprediction fetches. -/
def State.branchOp (s : State) (c : Instr) (t : TileId) (f : BForm) (cond : W64 → W64 → Bool) : State :=
  s.tileOp c t false false (fun s =>
    let tl := s.tile t
    let tgt := branchTarget tl.pc f.off
    if cond (tl.rg f.ra) (tl.rg f.rb) then (s.mispredict t (tl.pc + 4)).retire t tgt
    else (s.mispredict t tgt).retire t (tl.pc + 4))

/-- BEQ (spec 05 R157). -/
def execBeq (t : TileId) (f : BForm) (s : State) : Result := .next (s.branchOp (.beq t f) t f (fun a b => a == b))
/-- BNE (spec 05 R157). -/
def execBne (t : TileId) (f : BForm) (s : State) : Result := .next (s.branchOp (.bne t f) t f (fun a b => a != b))
/-- BLT (spec 05 R157). -/
def execBlt (t : TileId) (f : BForm) (s : State) : Result := .next (s.branchOp (.blt t f) t f (fun a b => a.slt b))
/-- BGE (spec 05 R157). -/
def execBge (t : TileId) (f : BForm) (s : State) : Result := .next (s.branchOp (.bge t f) t f (fun a b => !a.slt b))
/-- BLTU (spec 05 R157). -/
def execBltu (t : TileId) (f : BForm) (s : State) : Result := .next (s.branchOp (.bltu t f) t f (fun a b => a.ult b))
/-- BGEU (spec 05 R157). -/
def execBgeu (t : TileId) (f : BForm) (s : State) : Result := .next (s.branchOp (.bgeu t f) t f (fun a b => !a.ult b))

/-- A jump to `tgt`, of the tile as it stands before the link is written; `link` writes g1. -/
def State.jumpOp (s : State) (c : Instr) (t : TileId) (bad link : Bool) (tgt : Tile → W64) : State :=
  s.tileOp c t bad false (fun s =>
    let tl := s.tile t
    let a := tgt tl
    let s := s.mispredict t (tl.pc + 4)
    let s := if link then s.updTile t (fun x => x.wg 1 (x.pc + 4)) else s
    s.retire t a)

/-- J (spec 05 R157). -/
def execJ (t : TileId) (off : BitVec 26) (s : State) : Result := .next (s.jumpOp (.j t off) t false false (fun tl => jumpTarget tl.pc off))
/-- JAL (spec 05 R157). -/
def execJal (t : TileId) (off : BitVec 26) (s : State) : Result := .next (s.jumpOp (.jal t off) t false true (fun tl => jumpTarget tl.pc off))
/-- JR (spec 05 R157). -/
def execJr (t : TileId) (f : RForm) (s : State) : Result := .next (s.jumpOp (.jr t f) t f.badJr false (fun tl => target (tl.rg f.ra)))
/-- JALR (spec 05 R157). -/
def execJalr (t : TileId) (f : RForm) (s : State) : Result := .next (s.jumpOp (.jalr t f) t f.badJr true (fun tl => target (tl.rg f.ra)))

end Sys2Proof.Machine
end

