-- ==== Sys2Proof/Machine/Dispatch.lean ====
section
/-! DEFINITION. The dispatch of a command to its meaning, one arm per row of the opcode table. -/

namespace Sys2Proof.Machine

/-- The command's effect on everything but the queue. -/
def exec (i : Instr) (s : State) : Host.Outcome State Fault Refusal :=
  match i with
  | .registerWrite p off len val => Sys2Proof.Machine.execRegisterWrite p off len val s
  | .rcFieldRead p off len => Sys2Proof.Machine.execRcFieldRead p off len s
  | .vauxLoss => Sys2Proof.Machine.execVauxLoss s
  | .vauxGood fuseOk fz => Sys2Proof.Machine.execVauxGood fuseOk fz s
  | .coreGood => Sys2Proof.Machine.execCoreGood s
  | .coreRailLoss => Sys2Proof.Machine.execCoreRailLoss s
  | .perstNAssert => Sys2Proof.Machine.execPerstNAssert s
  | .perstNDeassert => Sys2Proof.Machine.execPerstNDeassert s
  | .hotReset => Sys2Proof.Machine.execHotReset s
  | .linkDown => Sys2Proof.Machine.execLinkDown s
  | .pf0Flr => Sys2Proof.Machine.execPf0Flr s
  | .vfFlr w => Sys2Proof.Machine.execVfFlr w s
  | .wardReset p w => Sys2Proof.Machine.execWardReset p w s
  | .wardResetWipe w => Sys2Proof.Machine.execWardResetWipe w s
  | .wardResetDone w => Sys2Proof.Machine.execWardResetDone w s
  | .cxlReset memClr => Sys2Proof.Machine.execCxlReset memClr s
  | .cxlResetComplete => Sys2Proof.Machine.execCxlResetComplete s
  | .tileReset p t => Sys2Proof.Machine.execTileReset p t s
  | .tilRunWrite p t run => Sys2Proof.Machine.execTilRunWrite p t run s
  | .doorbell p t => Sys2Proof.Machine.execDoorbell p t s
  | .dbgConsentWrite p w val => Sys2Proof.Machine.execDbgConsentWrite p w val s
  | .plnLoad => Sys2Proof.Machine.execPlnLoad s
  | .loadInstall => Sys2Proof.Machine.execLoadInstall s
  | .plnSwap w => Sys2Proof.Machine.execPlnSwap w s
  | .swapInstall => Sys2Proof.Machine.execSwapInstall s
  | .swapAbandon => Sys2Proof.Machine.execSwapAbandon s
  | .plnSeal => Sys2Proof.Machine.execPlnSeal s
  | .bootPlanLoad => Sys2Proof.Machine.execBootPlanLoad s
  | .bootPlanInstall => Sys2Proof.Machine.execBootPlanInstall s
  | .paceSample pace => Sys2Proof.Machine.execPaceSample pace s
  | .stallEvent u => Sys2Proof.Machine.execStallEvent u s
  | .stallSelftest fired => Sys2Proof.Machine.execStallSelftest fired s
  | .illegalCodeDetect u => Sys2Proof.Machine.execIllegalCodeDetect u s
  | .parityError u residue site => Sys2Proof.Machine.execParityError u residue site s
  | .add t f => Sys2Proof.Machine.execAdd t f s
  | .sub t f => Sys2Proof.Machine.execSub t f s
  | .and t f => Sys2Proof.Machine.execAnd t f s
  | .or t f => Sys2Proof.Machine.execOr t f s
  | .xor t f => Sys2Proof.Machine.execXor t f s
  | .sll t f => Sys2Proof.Machine.execSll t f s
  | .srl t f => Sys2Proof.Machine.execSrl t f s
  | .sra t f => Sys2Proof.Machine.execSra t f s
  | .slt t f => Sys2Proof.Machine.execSlt t f s
  | .sltu t f => Sys2Proof.Machine.execSltu t f s
  | .mul t f => Sys2Proof.Machine.execMul t f s
  | .mulh t f => Sys2Proof.Machine.execMulh t f s
  | .mulhu t f => Sys2Proof.Machine.execMulhu t f s
  | .div t f => Sys2Proof.Machine.execDiv t f s
  | .divu t f => Sys2Proof.Machine.execDivu t f s
  | .rem t f => Sys2Proof.Machine.execRem t f s
  | .remu t f => Sys2Proof.Machine.execRemu t f s
  | .min t f => Sys2Proof.Machine.execMin t f s
  | .max t f => Sys2Proof.Machine.execMax t f s
  | .minu t f => Sys2Proof.Machine.execMinu t f s
  | .maxu t f => Sys2Proof.Machine.execMaxu t f s
  | .addi t f => Sys2Proof.Machine.execAddi t f s
  | .andi t f => Sys2Proof.Machine.execAndi t f s
  | .ori t f => Sys2Proof.Machine.execOri t f s
  | .xori t f => Sys2Proof.Machine.execXori t f s
  | .slti t f => Sys2Proof.Machine.execSlti t f s
  | .sltiu t f => Sys2Proof.Machine.execSltiu t f s
  | .shi t f => Sys2Proof.Machine.execShi t f s
  | .insh t f => Sys2Proof.Machine.execInsh t f s
  | .lb t f => Sys2Proof.Machine.execLb t f s
  | .lbu t f => Sys2Proof.Machine.execLbu t f s
  | .lh t f => Sys2Proof.Machine.execLh t f s
  | .lhu t f => Sys2Proof.Machine.execLhu t f s
  | .lw t f => Sys2Proof.Machine.execLw t f s
  | .lwu t f => Sys2Proof.Machine.execLwu t f s
  | .ld t f => Sys2Proof.Machine.execLd t f s
  | .flw t f => Sys2Proof.Machine.execFlw t f s
  | .flh t f => Sys2Proof.Machine.execFlh t f s
  | .ptest t f => Sys2Proof.Machine.execPtest t f s
  | .sb t f => Sys2Proof.Machine.execSb t f s
  | .sh t f => Sys2Proof.Machine.execSh t f s
  | .sw t f => Sys2Proof.Machine.execSw t f s
  | .sd t f => Sys2Proof.Machine.execSd t f s
  | .fsw t f => Sys2Proof.Machine.execFsw t f s
  | .fsh t f => Sys2Proof.Machine.execFsh t f s
  | .beq t f => Sys2Proof.Machine.execBeq t f s
  | .bne t f => Sys2Proof.Machine.execBne t f s
  | .blt t f => Sys2Proof.Machine.execBlt t f s
  | .bge t f => Sys2Proof.Machine.execBge t f s
  | .bltu t f => Sys2Proof.Machine.execBltu t f s
  | .bgeu t f => Sys2Proof.Machine.execBgeu t f s
  | .j t off => Sys2Proof.Machine.execJ t off s
  | .jal t off => Sys2Proof.Machine.execJal t off s
  | .jr t f => Sys2Proof.Machine.execJr t f s
  | .jalr t f => Sys2Proof.Machine.execJalr t f s
  | .faddS t f => Sys2Proof.Machine.execFaddS t f s
  | .fsubS t f => Sys2Proof.Machine.execFsubS t f s
  | .fmulS t f => Sys2Proof.Machine.execFmulS t f s
  | .fdivS t f => Sys2Proof.Machine.execFdivS t f s
  | .fsqrtS t f => Sys2Proof.Machine.execFsqrtS t f s
  | .fminS t f => Sys2Proof.Machine.execFminS t f s
  | .fmaxS t f => Sys2Proof.Machine.execFmaxS t f s
  | .fnegS t f => Sys2Proof.Machine.execFnegS t f s
  | .fabsS t f => Sys2Proof.Machine.execFabsS t f s
  | .feqS t f => Sys2Proof.Machine.execFeqS t f s
  | .fltS t f => Sys2Proof.Machine.execFltS t f s
  | .fleS t f => Sys2Proof.Machine.execFleS t f s
  | .fcvtLS t f => Sys2Proof.Machine.execFcvtLS t f s
  | .fcvtLuS t f => Sys2Proof.Machine.execFcvtLuS t f s
  | .fcvtSL t f => Sys2Proof.Machine.execFcvtSL t f s
  | .fcvtSLu t f => Sys2Proof.Machine.execFcvtSLu t f s
  | .fcvtBfS t f => Sys2Proof.Machine.execFcvtBfS t f s
  | .fmvGF t f => Sys2Proof.Machine.execFmvGF t f s
  | .fmvFG t f => Sys2Proof.Machine.execFmvFG t f s
  | .faddB t f => Sys2Proof.Machine.execFaddB t f s
  | .fmulB t f => Sys2Proof.Machine.execFmulB t f s
  | .fsubB t f => Sys2Proof.Machine.execFsubB t f s
  | .fmaddS t f => Sys2Proof.Machine.execFmaddS t f s
  | .fmsubS t f => Sys2Proof.Machine.execFmsubS t f s
  | .fnmaddS t f => Sys2Proof.Machine.execFnmaddS t f s
  | .fmaddB t f => Sys2Proof.Machine.execFmaddB t f s
  | .atomicSwap t f => Sys2Proof.Machine.execAtomicSwap t f s
  | .atomicCas t f => Sys2Proof.Machine.execAtomicCas t f s
  | .atomicAdd t f => Sys2Proof.Machine.execAtomicAdd t f s
  | .atomicAnd t f => Sys2Proof.Machine.execAtomicAnd t f s
  | .atomicOr t f => Sys2Proof.Machine.execAtomicOr t f s
  | .atomicXor t f => Sys2Proof.Machine.execAtomicXor t f s
  | .atomicMin t f => Sys2Proof.Machine.execAtomicMin t f s
  | .atomicMax t f => Sys2Proof.Machine.execAtomicMax t f s
  | .atomicMinu t f => Sys2Proof.Machine.execAtomicMinu t f s
  | .atomicMaxu t f => Sys2Proof.Machine.execAtomicMaxu t f s
  | .send t f => Sys2Proof.Machine.execSend t f s
  | .recv t f => Sys2Proof.Machine.execRecv t f s
  | .getwork t f => Sys2Proof.Machine.execGetwork t f s
  | .puttok t f => Sys2Proof.Machine.execPuttok t f s
  | .pset t f => Sys2Proof.Machine.execPset t f s
  | .fenceCAcquire t f => Sys2Proof.Machine.execFenceCAcquire t f s
  | .fenceCRelease t f => Sys2Proof.Machine.execFenceCRelease t f s
  | .fenceCReleaseAcquire t f => Sys2Proof.Machine.execFenceCReleaseAcquire t f s
  | .fenceQAcquire t f => Sys2Proof.Machine.execFenceQAcquire t f s
  | .fenceQRelease t f => Sys2Proof.Machine.execFenceQRelease t f s
  | .fenceQReleaseAcquire t f => Sys2Proof.Machine.execFenceQReleaseAcquire t f s
  | .fenceSAcquire t f => Sys2Proof.Machine.execFenceSAcquire t f s
  | .fenceSRelease t f => Sys2Proof.Machine.execFenceSRelease t f s
  | .fenceSReleaseAcquire t f => Sys2Proof.Machine.execFenceSReleaseAcquire t f s
  | .fenceComplete t => Sys2Proof.Machine.execFenceComplete t s
  | .mfcr t f => Sys2Proof.Machine.execMfcr t f s
  | .mtcr t f => Sys2Proof.Machine.execMtcr t f s
  | .eret t f => Sys2Proof.Machine.execEret t f s
  | .trap t f => Sys2Proof.Machine.execTrap t f s
  | .brk t f => Sys2Proof.Machine.execBrk t f s
  | .wait t f => Sys2Proof.Machine.execWait t f s
  | .syncI t f => Sys2Proof.Machine.execSyncI t f s
  | .timecmpReached t => Sys2Proof.Machine.execTimecmpReached t s
  | .interruptTake t => Sys2Proof.Machine.execInterruptTake t s
  | .storeBufferDrain t k => Sys2Proof.Machine.execStoreBufferDrain t k s
  | .packetAdvance k => Sys2Proof.Machine.execPacketAdvance k s
  | .msgDeliver k => Sys2Proof.Machine.execMsgDeliver k s
  | .gateEnter g k => Sys2Proof.Machine.execGateEnter g k s
  | .gateDeliver g => Sys2Proof.Machine.execGateDeliver g s
  | .probeGo p t val => Sys2Proof.Machine.execProbeGo p t val s
  | .probeArrive k => Sys2Proof.Machine.execProbeArrive k s
  | .probeReturn k => Sys2Proof.Machine.execProbeReturn k s
  | .tokenArrive k => Sys2Proof.Machine.execTokenArrive k s
  | .matchStoreAdmit w => Sys2Proof.Machine.execMatchStoreAdmit w s
  | .workDispatchTile w pool => Sys2Proof.Machine.execWorkDispatchTile w pool s
  | .workDispatchEngine w ty => Sys2Proof.Machine.execWorkDispatchEngine w ty s
  | .tick => Sys2Proof.Machine.execTick s
  | .dlyFlush p w mask => Sys2Proof.Machine.execDlyFlush p w mask s
  | .obsClear p w => Sys2Proof.Machine.execObsClear p w s
  | .traceTailWrite p w val => Sys2Proof.Machine.execTraceTailWrite p w val s
  | .evtEdge pin level => Sys2Proof.Machine.execEvtEdge pin level s
  | .evtFilterPass pin => Sys2Proof.Machine.execEvtFilterPass pin s
  | .evtDeliver pin => Sys2Proof.Machine.execEvtDeliver pin s
  | .engineAccept e => Sys2Proof.Machine.execEngineAccept e s
  | .feedMessage t => Sys2Proof.Machine.execFeedMessage t s
  | .ringFetch e => Sys2Proof.Machine.execRingFetch e s
  | .ringTailWrite p e val => Sys2Proof.Machine.execRingTailWrite p e val s
  | .ringFaultClear p e => Sys2Proof.Machine.execRingFaultClear p e s
  | .feedEnWrite p e en tile => Sys2Proof.Machine.execFeedEnWrite p e en tile s
  | .engineReset p e => Sys2Proof.Machine.execEngineReset p e s
  | .engLast0Read p e => Sys2Proof.Machine.execEngLast0Read p e s
  | .gemm e => Sys2Proof.Machine.execGemm e s
  | .eweAdd e => Sys2Proof.Machine.execEweAdd e s
  | .eweMul e => Sys2Proof.Machine.execEweMul e s
  | .axpby e => Sys2Proof.Machine.execAxpby e s
  | .unary e => Sys2Proof.Machine.execUnary e s
  | .convert e => Sys2Proof.Machine.execConvert e s
  | .rownorm e => Sys2Proof.Machine.execRownorm e s
  | .softmax e => Sys2Proof.Machine.execSoftmax e s
  | .adamw e => Sys2Proof.Machine.execAdamw e s
  | .sgdm e => Sys2Proof.Machine.execSgdm e s
  | .factored e => Sys2Proof.Machine.execFactored e s
  | .gather e => Sys2Proof.Machine.execGather e s
  | .scatter e => Sys2Proof.Machine.execScatter e s
  | .scatterAdd e => Sys2Proof.Machine.execScatterAdd e s
  | .pack e => Sys2Proof.Machine.execPack e s
  | .sum e => Sys2Proof.Machine.execSum e s
  | .allreduce e => Sys2Proof.Machine.execAllreduce e s
  | .copy e => Sys2Proof.Machine.execCopy e s
  | .bmeFill e => Sys2Proof.Machine.execBmeFill e s
  | .strided e => Sys2Proof.Machine.execStrided e s
  | .sha256 e => Sys2Proof.Machine.execSha256 e s
  | .crc64 e => Sys2Proof.Machine.execCrc64 e s
  | .engineComplete e => Sys2Proof.Machine.execEngineComplete e s
  | .holdExpire q line => Sys2Proof.Machine.execHoldExpire q line s
  | .qcDisable p q => Sys2Proof.Machine.execQcDisable p q s
  | .qcDrainDone q => Sys2Proof.Machine.execQcDrainDone q s
  | .qcEnable p q => Sys2Proof.Machine.execQcEnable p q s
  | .qreset p q => Sys2Proof.Machine.execQreset p q s
  | .qcInjArm p q val => Sys2Proof.Machine.execQcInjArm p q val s
  | .rdS k => Sys2Proof.Machine.execRdS k s
  | .rdX k => Sys2Proof.Machine.execRdX k s
  | .upg k => Sys2Proof.Machine.execUpg k s
  | .own k => Sys2Proof.Machine.execOwn k s
  | .fill k => Sys2Proof.Machine.execFill k s
  | .wb k => Sys2Proof.Machine.execWb k s
  | .wbP k => Sys2Proof.Machine.execWbP k s
  | .evict k => Sys2Proof.Machine.execEvict k s
  | .rdC k => Sys2Proof.Machine.execRdC k s
  | .wrInv k => Sys2Proof.Machine.execWrInv k s
  | .atP k => Sys2Proof.Machine.execAtP k s
  | .atFar k => Sys2Proof.Machine.execAtFar k s
  | .hRd k => Sys2Proof.Machine.execHRd k s
  | .hWr k => Sys2Proof.Machine.execHWr k s
  | .data k => Sys2Proof.Machine.execData k s
  | .gntS k => Sys2Proof.Machine.execGntS k s
  | .gntE k => Sys2Proof.Machine.execGntE k s
  | .gntX k => Sys2Proof.Machine.execGntX k s
  | .wgo k => Sys2Proof.Machine.execWgo k s
  | .done k => Sys2Proof.Machine.execDone k s
  | .retry k => Sys2Proof.Machine.execRetry k s
  | .nack k => Sys2Proof.Machine.execNack k s
  | .go k => Sys2Proof.Machine.execGo k s
  | .atRes k => Sys2Proof.Machine.execAtRes k s
  | .requestResend x => Sys2Proof.Machine.execRequestResend x s
  | .inv k => Sys2Proof.Machine.execInv k s
  | .snpS k => Sys2Proof.Machine.execSnpS k s
  | .snpInv k => Sys2Proof.Machine.execSnpInv k s
  | .snpCur k => Sys2Proof.Machine.execSnpCur k s
  | .ack k => Sys2Proof.Machine.execAck k s
  | .ackS k => Sys2Proof.Machine.execAckS k s
  | .snpMask k => Sys2Proof.Machine.execSnpMask k s
  | .lost k => Sys2Proof.Machine.execLost k s
  | .dramReadComplete h x err => Sys2Proof.Machine.execDramReadComplete h x err s
  | .writeDataArrive k => Sys2Proof.Machine.execWriteDataArrive k s
  | .snoopTimeout h x q => Sys2Proof.Machine.execSnoopTimeout h x q s
  | .biSnoopTimeout h x => Sys2Proof.Machine.execBiSnoopTimeout h x s
  | .writeDataTimeout h x => Sys2Proof.Machine.execWriteDataTimeout h x s
  | .lazyInitDone h region => Sys2Proof.Machine.execLazyInitDone h region s
  | .hostCacheResponse line r => Sys2Proof.Machine.execHostCacheResponse line r s
  | .hostSnpData line => Sys2Proof.Machine.execHostSnpData line s
  | .hostSnpInv line => Sys2Proof.Machine.execHostSnpInv line s
  | .hostSnpCur line => Sys2Proof.Machine.execHostSnpCur line s
  | .biRsp line kept => Sys2Proof.Machine.execBiRsp line kept s
  | .ledgerGrant => Sys2Proof.Machine.execLedgerGrant s
  | .ddrTrainingDone mods => Sys2Proof.Machine.execDdrTrainingDone mods s
  | .sealLoad p w => Sys2Proof.Machine.execSealLoad p w s
  | .sealKeyInstalled => Sys2Proof.Machine.execSealKeyInstalled s
  | .scrub => Sys2Proof.Machine.execScrub s
  | .wipe => Sys2Proof.Machine.execWipe s
  | .scrubAbort => Sys2Proof.Machine.execScrubAbort s
  | .scrubLine h err => Sys2Proof.Machine.execScrubLine h err s
  | .scrubPassEnd => Sys2Proof.Machine.execScrubPassEnd s
  | .coverageAgeTick => Sys2Proof.Machine.execCoverageAgeTick s
  | .eccInjArm p h val => Sys2Proof.Machine.execEccInjArm p h val s
  | .linkTrained rate width cxl => Sys2Proof.Machine.execLinkTrained rate width cxl s
  | .configSpaceReady => Sys2Proof.Machine.execConfigSpaceReady s
  | .configRequest q => Sys2Proof.Machine.execConfigRequest q s
  | .memoryActive => Sys2Proof.Machine.execMemoryActive s
  | .memoryActiveTimeout => Sys2Proof.Machine.execMemoryActiveTimeout s
  | .hdmCommit n => Sys2Proof.Machine.execHdmCommit n s
  | .memRd addr mv tag => Sys2Proof.Machine.execMemRd addr mv tag s
  | .memRdData addr tag => Sys2Proof.Machine.execMemRdData addr tag s
  | .memInv addr mv tag => Sys2Proof.Machine.execMemInv addr mv tag s
  | .memInvNt addr mv tag => Sys2Proof.Machine.execMemInvNt addr mv tag s
  | .memClnEvct addr tag => Sys2Proof.Machine.execMemClnEvct addr tag s
  | .memSpecRd addr tag => Sys2Proof.Machine.execMemSpecRd addr tag s
  | .memWr addr mv d tag => Sys2Proof.Machine.execMemWr addr mv d tag s
  | .memWrPtl addr mv mask d tag => Sys2Proof.Machine.execMemWrPtl addr mv mask d tag s
  | .biConflict addr tag => Sys2Proof.Machine.execBiConflict addr tag s
  | .memBadOpcode isRead tag => Sys2Proof.Machine.execMemBadOpcode isRead tag s
  | .disableCaching => Sys2Proof.Machine.execDisableCaching s
  | .cacheWriteBackAndInvalidation => Sys2Proof.Machine.execCacheWriteBackAndInvalidation s
  | .cacheInvalidSet => Sys2Proof.Machine.execCacheInvalidSet s
  | .filterAtomic line => Sys2Proof.Machine.execFilterAtomic line s
  | .bulkWrite fn tlp ep => Sys2Proof.Machine.execBulkWrite fn tlp ep s
  | .bulkRead fn n tag => Sys2Proof.Machine.execBulkRead fn n tag s
  | .blkAddrWrite fn val => Sys2Proof.Machine.execBlkAddrWrite fn val s
  | .blkShapeWrite fn count val => Sys2Proof.Machine.execBlkShapeWrite fn count val s
  | .msixUnmask fn target => Sys2Proof.Machine.execMsixUnmask fn target s
  | .msixEnableChange en => Sys2Proof.Machine.execMsixEnableChange en s
  | .intxUpdate => Sys2Proof.Machine.execIntxUpdate s
  | .d3hotEntry => Sys2Proof.Machine.execD3hotEntry s
  | .d0Return => Sys2Proof.Machine.execD0Return s
  | .l1Request => Sys2Proof.Machine.execL1Request s
  | .l0pNarrow => Sys2Proof.Machine.execL0pNarrow s
  | .l0pWiden => Sys2Proof.Machine.execL0pWiden s
  | .flitCrcFail fec failsInRow => Sys2Proof.Machine.execFlitCrcFail fec failsInRow s
  | .ideIntegrityFail stream => Sys2Proof.Machine.execIdeIntegrityFail stream s
  | .ideKmKeyProgram stream => Sys2Proof.Machine.execIdeKmKeyProgram stream s
  | .doeRequest r => Sys2Proof.Machine.execDoeRequest r s
  | .fltBeaconClear p view mask => Sys2Proof.Machine.execFltBeaconClear p view mask s
  | .faultnClear => Sys2Proof.Machine.execFaultnClear s
  | .fltLock => Sys2Proof.Machine.execFltLock s
  | .fltInject p val => Sys2Proof.Machine.execFltInject p val s
  | .logWrite ok eraseOk => Sys2Proof.Machine.execLogWrite ok eraseOk s
  | .logCtrlRead slot => Sys2Proof.Machine.execLogCtrlRead slot s
  | .logCtrlErase => Sys2Proof.Machine.execLogCtrlErase s
  | .logEraseDone => Sys2Proof.Machine.execLogEraseDone s
  | .railSample mv tj => Sys2Proof.Machine.execRailSample mv tj s
  | .railOutOfRange rail mv => Sys2Proof.Machine.execRailOutOfRange rail mv s
  | .droopWarnFall mv => Sys2Proof.Machine.execDroopWarnFall mv s
  | .vcoreBandEntry mv => Sys2Proof.Machine.execVcoreBandEntry mv s
  | .dimEnter cause mv => Sys2Proof.Machine.execDimEnter cause mv s
  | .dimSelfRefresh => Sys2Proof.Machine.execDimSelfRefresh s
  | .dimExit => Sys2Proof.Machine.execDimExit s
  | .dimLimit => Sys2Proof.Machine.execDimLimit s
  | .plwNAssert => Sys2Proof.Machine.execPlwNAssert s
  | .plwQuiesced => Sys2Proof.Machine.execPlwQuiesced s
  | .thermWarn tj sensor => Sys2Proof.Machine.execThermWarn tj sensor s
  | .thermOver tj sensor => Sys2Proof.Machine.execThermOver tj sensor s
  | .thermCold tj sensor => Sys2Proof.Machine.execThermCold tj sensor s
  | .thermalTrip tj sensor => Sys2Proof.Machine.execThermalTrip tj sensor s
  | .throttleHold => Sys2Proof.Machine.execThrottleHold s
  | .calUserWrite p n val => Sys2Proof.Machine.execCalUserWrite p n val s
  | .calCmdSave => Sys2Proof.Machine.execCalCmdSave s
  | .calCmdReload => Sys2Proof.Machine.execCalCmdReload s
  | .calCmdZero => Sys2Proof.Machine.execCalCmdZero s
  | .calFlashDone ok => Sys2Proof.Machine.execCalFlashDone ok s
  | .mctpPacket b pecOk => Sys2Proof.Machine.execMctpPacket b pecOk s
  | .mgmtResponseSend sent => Sys2Proof.Machine.execMgmtResponseSend sent s
  | .setEndpointId eid => Sys2Proof.Machine.execSetEndpointId eid s
  | .getEndpointId => Sys2Proof.Machine.execGetEndpointId s
  | .getMctpVersionSupport => Sys2Proof.Machine.execGetMctpVersionSupport s
  | .getMessageTypeSupport => Sys2Proof.Machine.execGetMessageTypeSupport s
  | .getVendorDefinedMessageSupport => Sys2Proof.Machine.execGetVendorDefinedMessageSupport s
  | .getIdentity q => Sys2Proof.Machine.execGetIdentity q s
  | .getHealth q => Sys2Proof.Machine.execGetHealth q s
  | .getSupply q => Sys2Proof.Machine.execGetSupply q s
  | .getThermal q => Sys2Proof.Machine.execGetThermal q s
  | .readReg q off width => Sys2Proof.Machine.execReadReg q off width s
  | .writeReg q off width val => Sys2Proof.Machine.execWriteReg q off width val s
  | .logHead q => Sys2Proof.Machine.execLogHead q s
  | .logRead q slot flashOk => Sys2Proof.Machine.execLogRead q slot flashOk s
  | .calGet q => Sys2Proof.Machine.execCalGet q s
  | .calSet q item offset => Sys2Proof.Machine.execCalSet q item offset s
  | .calSave q => Sys2Proof.Machine.execCalSave q s
  | .calReload q => Sys2Proof.Machine.execCalReload q s
  | .calZero q => Sys2Proof.Machine.execCalZero q s
  | .throttle q v => Sys2Proof.Machine.execThrottle q v s
  | .resetReq q kind ward => Sys2Proof.Machine.execResetReq q kind ward s
  | .alertGet q ack => Sys2Proof.Machine.execAlertGet q ack s
  | .alertResponseAddress => Sys2Proof.Machine.execAlertResponseAddress s
  | .lanternCtrl q op minutes => Sys2Proof.Machine.execLanternCtrl q op minutes s
  | .lanternArmExpire => Sys2Proof.Machine.execLanternArmExpire s
  | .lineReset => Sys2Proof.Machine.execLineReset s
  | .status h => Sys2Proof.Machine.execStatus h s
  | .read h => Sys2Proof.Machine.execRead h s
  | .write h d => Sys2Proof.Machine.execWrite h d s
  | .unlock h d => Sys2Proof.Machine.execUnlock h d s
  | .lntEventRead => Sys2Proof.Machine.execLntEventRead s
  | .lntAccessReg => Sys2Proof.Machine.execLntAccessReg s
  | .lntAccessMem => Sys2Proof.Machine.execLntAccessMem s
  | .lntAccessLs => Sys2Proof.Machine.execLntAccessLs s
  | .lntAccessCore => Sys2Proof.Machine.execLntAccessCore s
  | .lntAccessDone => Sys2Proof.Machine.execLntAccessDone s
  | .halt scope target => Sys2Proof.Machine.execHalt scope target s
  | .tileHalt t => Sys2Proof.Machine.execTileHalt t s
  | .resume scope target => Sys2Proof.Machine.execResume scope target s
  | .step scope target => Sys2Proof.Machine.execStep scope target s
  | .stepEnd t => Sys2Proof.Machine.execStepEnd t s
  | .lntComparatorWrite bp n val => Sys2Proof.Machine.execLntComparatorWrite bp n val s
  | .thermalRearm tj => Sys2Proof.Machine.execThermalRearm tj s
  | .vcoreRecovery mv => Sys2Proof.Machine.execVcoreRecovery mv s
  | .plwNDeassert => Sys2Proof.Machine.execPlwNDeassert s
  | .l0pPartnerRequest width => Sys2Proof.Machine.execL0pPartnerRequest width s
  | .cxlIoCompletion tag d poison => Sys2Proof.Machine.execCxlIoCompletion tag d poison s
  | .logCtrlReadDone => Sys2Proof.Machine.execLogCtrlReadDone s
  | .calUserHoldEnd => Sys2Proof.Machine.execCalUserHoldEnd s

end Sys2Proof.Machine
end

