-- ==== Sys2Proof/Safety.lean ====
section
/-! DEFINITION. What a safe run of the block is, and the words in which the statements speak: when a tile begins
an instruction, what an instruction leaves unchanged, when a command of a register port is carried out. -/

namespace Sys2Proof.Machine

/-- A step goes on: it answers a next state. What the spec calls a fault of the hardware is a Beacon event or a
tile exception, and both are next states. -/
def State.goesOn (s : State) : Prop := ∃ t, step s = .next t

/-- A run is safe when every state it reaches goes on. -/
def State.safe (s : State) : Prop := ∀ n, ∃ t, core.run n s = .next t

/-! ### A tile that begins an instruction -/

/-- The tile is ready, no breakpoint stops it and its fetch brings the word `w`; `u` is the state after the fetch
(spec 04 R116, R128; 19 R511). -/
def State.fetches (s : State) (t : TileId) (u : State) (w : W32) : Prop :=
  s.tileReady t = true ∧ s.breakHit t = none ∧ s.fetch t = .ok u w

/-- The tile fetches the instruction `c` and may begin it; `u` is the state after the fetch (spec 05 R148–R150). -/
def State.begins (s : State) (c : Instr) (t : TileId) (u : State) : Prop :=
  ∃ w, s.fetches t u w ∧ decodeTile t w = some c

/-- Nothing but tile `t` and the model's count of free values differs (DESIGN CHOICE, log 3). -/
def onlyTile (u v : State) (t : TileId) : Prop :=
  v = { u with tiles := v.tiles, freeCtr := v.freeCtr } ∧ ∀ r, r ≠ t → v.tile r = u.tile r

/-- Tile `x` is tile `y` after the instruction at its PC has retired and fetch goes on at `pc`: the retired
instruction is counted and traced, and the performance counters may move (spec 04 R116, R147; 19 R503). -/
def retiredAs (y x : Tile) (pc : W64) : Prop :=
  x = { y with pc := pc, retired := y.retired + 1, trace := (y.pc :: y.trace).take 16, stepDone := y.stepping,
               mode := .running, older := x.older, pmc := x.pmc, ovf := x.ovf }

/-- Command `c` retires at tile `t` of `u`, which then is `y` and goes on at `pc`; nothing else changes. -/
def retires (c : Instr) (s u : State) (t : TileId) (y : Tile) (pc : W64) : Prop :=
  ∃ v, exec c s = .next v ∧ onlyTile u v t ∧ retiredAs y (v.tile t) pc

/-- Command `c` puts `val` in g register `rd` of tile `t` and goes on at the next instruction. -/
def computes (c : Instr) (s u : State) (t : TileId) (rd : BitVec 5) (val : W64) : Prop :=
  retires c s u t ((u.tile t).wg rd val) ((u.tile t).pc + 4)

/-- The same into f register `rd`, with sticky flags added. -/
def computesF (c : Instr) (s u : State) (t : TileId) (rd : BitVec 5) (val : W32) (flags : Nat) : Prop :=
  retires c s u t (((u.tile t).wf rd val).addFlags flags) ((u.tile t).pc + 4)

/-- Command `c` retires at tile `t` and goes on at `pc`; `y` is the tile but for what a mispredicted path may leave: L1I
fills and their count, and what reading the quarter cache for them finds, its errors and their events with it (spec 04
R136; 11 R306–R308). -/
def jumps (c : Instr) (s u : State) (t : TileId) (y : Tile) (pc : W64) : Prop :=
  ∃ v, exec c s = .next v
    ∧ v = { u with tiles := v.tiles, freeCtr := v.freeCtr, quarters := v.quarters, fld := v.fld, out := v.out, smbAlert := v.smbAlert,
                   mgmt := v.mgmt, link := v.link, logQueue := v.logQueue }
    ∧ (∀ r, r ≠ t → v.tile r = { u.tile r with l1d := (v.tile r).l1d, l1i := (v.tile r).l1i, fetchBuf := (v.tile r).fetchBuf })
    ∧ retiredAs { y with l1d := (v.tile t).l1d, l1i := (v.tile t).l1i, fetchBuf := (v.tile t).fetchBuf, wpFetch := (v.tile t).wpFetch } (v.tile t) pc

/-! ### Exceptions of a tile -/

/-- The word of a frame or of local store, eight bytes from offset `o`. -/
def Tile.word (y : Tile) (o : Nat) : W64 := BitVec.ofNat 64 (y.lsRead o 8)

/-- Tile `x` is tile `y` after it has entered the handler of `code` with a valid stack: the frame stands below the
old g2, EPC, CAUSE and BADADDR are loaded, the level is K with interrupts disabled, fetch goes to VBASE + 16 × CODE
(spec 04 R130). -/
def entered (y x : Tile) (status cause bad epc : W64) (code : Nat) : Prop :=
  let o := (y.rg 2).toNat - 64 - lsBase
  x = { y with g := x.g, ls := x.ls, lsPoison := x.lsPoison, lsBad := x.lsBad, lsFix := x.lsFix, epc := epc, cause := cause, badaddr := bad,
               k := true, ie := false, pc := y.vbase + BitVec.ofNat 64 (16 * code), mode := .running, stepDone := y.stepping,
               vectoring := some #v[epc, status, cause, bad, y.rg 1, y.rg 3, y.rg 4, y.rg 5], pmc := x.pmc, ovf := x.ovf }
  ∧ (∀ r, x.rg r = if r = 2 then y.rg 2 - 64 else y.rg r)
  ∧ x.word o = epc ∧ x.word (o + 8) = status ∧ x.word (o + 16) = cause ∧ x.word (o + 24) = bad
  ∧ x.word (o + 32) = y.rg 1 ∧ x.word (o + 40) = y.rg 3 ∧ x.word (o + 48) = y.rg 4 ∧ x.word (o + 56) = y.rg 5
  ∧ (∀ j, j < o ∨ o + 64 ≤ j → x.ls.get 0 j = y.ls.get 0 j)

/-- g2 is valid for a frame (spec 04 R132), no error stands in the frame's place, and no fault of the vector of `code` is
found before its fetch (R133). -/
def State.canEnter (u : State) (t : TileId) (code : Nat) : Prop :=
  validStack ((u.tile t).rg 2) = true ∧ (u.tile t).lsError (((u.tile t).rg 2).toNat - 64 - lsBase) 64 = false
    ∧ u.fetchFault t ((u.tile t).vbase + BitVec.ofNat 64 (16 * code)) = none

/-- Command `c` takes exception `code` at tile `t` of `u`, and nothing else changes. -/
def traps (c : Instr) (s u : State) (t : TileId) (code : Nat) (cause bad epc : W64) : Prop :=
  ∃ v, exec c s = .next v ∧ onlyTile u v t ∧ entered (u.tile t) (v.tile t) (u.tileStatus t) cause bad epc code

/-- The tile of a tile instruction, and whether R150 makes its word ILLEGAL: a reserved field or a register field
that it does not use is non-zero, a reserved code. -/
def tileWord : Instr → Option (TileId × Bool)
  | .add t f => some (t, f.rsv != 0)
  | .sub t f => some (t, f.rsv != 0)
  | .and t f => some (t, f.rsv != 0)
  | .or t f => some (t, f.rsv != 0)
  | .xor t f => some (t, f.rsv != 0)
  | .sll t f => some (t, f.rsv != 0)
  | .srl t f => some (t, f.rsv != 0)
  | .sra t f => some (t, f.rsv != 0)
  | .slt t f => some (t, f.rsv != 0)
  | .sltu t f => some (t, f.rsv != 0)
  | .mul t f => some (t, f.rsv != 0)
  | .mulh t f => some (t, f.rsv != 0)
  | .mulhu t f => some (t, f.rsv != 0)
  | .div t f => some (t, f.rsv != 0)
  | .divu t f => some (t, f.rsv != 0)
  | .rem t f => some (t, f.rsv != 0)
  | .remu t f => some (t, f.rsv != 0)
  | .min t f => some (t, f.rsv != 0)
  | .max t f => some (t, f.rsv != 0)
  | .minu t f => some (t, f.rsv != 0)
  | .maxu t f => some (t, f.rsv != 0)
  | .addi t _ => some (t, false)
  | .andi t _ => some (t, false)
  | .ori t _ => some (t, false)
  | .xori t _ => some (t, false)
  | .slti t _ => some (t, false)
  | .sltiu t _ => some (t, false)
  | .shi t f => some (t, decide (f.imm.toNat / 256 ≠ 0) || decide (f.imm.toNat / 64 % 4 = 3))
  | .insh t f => some (t, decide (f.ra.toNat / 4 ≠ 0))
  | .lb t _ => some (t, false)
  | .lbu t _ => some (t, false)
  | .lh t _ => some (t, false)
  | .lhu t _ => some (t, false)
  | .lw t _ => some (t, false)
  | .lwu t _ => some (t, false)
  | .ld t _ => some (t, false)
  | .flw t _ => some (t, false)
  | .flh t _ => some (t, false)
  | .ptest t _ => some (t, false)
  | .sb t _ => some (t, false)
  | .sh t _ => some (t, false)
  | .sw t _ => some (t, false)
  | .sd t _ => some (t, false)
  | .fsw t _ => some (t, false)
  | .fsh t _ => some (t, false)
  | .beq t _ => some (t, false)
  | .bne t _ => some (t, false)
  | .blt t _ => some (t, false)
  | .bge t _ => some (t, false)
  | .bltu t _ => some (t, false)
  | .bgeu t _ => some (t, false)
  | .j t _ => some (t, false)
  | .jal t _ => some (t, false)
  | .jr t f => some (t, f.rsv != 0 || f.rd != 0 || f.rb != 0)
  | .jalr t f => some (t, f.rsv != 0 || f.rd != 0 || f.rb != 0)
  | .faddS t f => some (t, f.rsv != 0 || f.rm == 4 || f.rm == 5 || f.rm == 6)
  | .fsubS t f => some (t, f.rsv != 0 || f.rm == 4 || f.rm == 5 || f.rm == 6)
  | .fmulS t f => some (t, f.rsv != 0 || f.rm == 4 || f.rm == 5 || f.rm == 6)
  | .fdivS t f => some (t, f.rsv != 0 || f.rm == 4 || f.rm == 5 || f.rm == 6)
  | .fsqrtS t f => some (t, f.rsv != 0 || f.rm == 4 || f.rm == 5 || f.rm == 6 || f.rb != 0)
  | .fminS t f => some (t, f.rsv != 0 || f.rm != 0)
  | .fmaxS t f => some (t, f.rsv != 0 || f.rm != 0)
  | .fnegS t f => some (t, f.rsv != 0 || f.rm != 0 || f.rb != 0)
  | .fabsS t f => some (t, f.rsv != 0 || f.rm != 0 || f.rb != 0)
  | .feqS t f => some (t, f.rsv != 0 || f.rm != 0)
  | .fltS t f => some (t, f.rsv != 0 || f.rm != 0)
  | .fleS t f => some (t, f.rsv != 0 || f.rm != 0)
  | .fcvtLS t f => some (t, f.rsv != 0 || f.rm == 4 || f.rm == 5 || f.rm == 6 || f.rb != 0)
  | .fcvtLuS t f => some (t, f.rsv != 0 || f.rm == 4 || f.rm == 5 || f.rm == 6 || f.rb != 0)
  | .fcvtSL t f => some (t, f.rsv != 0 || f.rm == 4 || f.rm == 5 || f.rm == 6 || f.rb != 0)
  | .fcvtSLu t f => some (t, f.rsv != 0 || f.rm == 4 || f.rm == 5 || f.rm == 6 || f.rb != 0)
  | .fcvtBfS t f => some (t, f.rsv != 0 || f.rm == 4 || f.rm == 5 || f.rm == 6 || f.rb != 0)
  | .fmvGF t f => some (t, f.rsv != 0 || f.rm != 0 || f.rb != 0)
  | .fmvFG t f => some (t, f.rsv != 0 || f.rm != 0 || f.rb != 0)
  | .faddB t f => some (t, f.rsv != 0 || f.rm == 4 || f.rm == 5 || f.rm == 6)
  | .fmulB t f => some (t, f.rsv != 0 || f.rm == 4 || f.rm == 5 || f.rm == 6)
  | .fsubB t f => some (t, f.rsv != 0 || f.rm == 4 || f.rm == 5 || f.rm == 6)
  | .fmaddS t f => some (t, f.rsv != 0 || f.rm == 4 || f.rm == 5 || f.rm == 6)
  | .fmsubS t f => some (t, f.rsv != 0 || f.rm == 4 || f.rm == 5 || f.rm == 6)
  | .fnmaddS t f => some (t, f.rsv != 0 || f.rm == 4 || f.rm == 5 || f.rm == 6)
  | .fmaddB t f => some (t, f.rsv != 0 || f.rm == 4 || f.rm == 5 || f.rm == 6)
  | .atomicSwap t f => some (t, f.rsv != 0 || f.hint == 3)
  | .atomicCas t f => some (t, f.rsv != 0 || f.hint == 3)
  | .atomicAdd t f => some (t, f.rsv != 0 || f.hint == 3)
  | .atomicAnd t f => some (t, f.rsv != 0 || f.hint == 3)
  | .atomicOr t f => some (t, f.rsv != 0 || f.hint == 3)
  | .atomicXor t f => some (t, f.rsv != 0 || f.hint == 3)
  | .atomicMin t f => some (t, f.rsv != 0 || f.hint == 3)
  | .atomicMax t f => some (t, f.rsv != 0 || f.hint == 3)
  | .atomicMinu t f => some (t, f.rsv != 0 || f.hint == 3)
  | .atomicMaxu t f => some (t, f.rsv != 0 || f.hint == 3)
  | .send t f => some (t, f.rd != 0 || decide (64 < f.len.toNat))
  | .recv t f => some (t, f.rb != 0 || f.len != 0)
  | .getwork t f => some (t, f.rb != 0 || f.len != 0)
  | .puttok t f => some (t, f.rd != 0 || f.rb != 0 || f.len != 0)
  | .pset t f => some (t, f.rd != 0 || f.rb != 0 || f.len != 0)
  | .fenceCAcquire t f => some (t, f.rd != 0 || f.ra != 0 || f.rb != 0 || f.rsv != 0)
  | .fenceCRelease t f => some (t, f.rd != 0 || f.ra != 0 || f.rb != 0 || f.rsv != 0)
  | .fenceCReleaseAcquire t f => some (t, f.rd != 0 || f.ra != 0 || f.rb != 0 || f.rsv != 0)
  | .fenceQAcquire t f => some (t, f.rd != 0 || f.ra != 0 || f.rb != 0 || f.rsv != 0)
  | .fenceQRelease t f => some (t, f.rd != 0 || f.ra != 0 || f.rb != 0 || f.rsv != 0)
  | .fenceQReleaseAcquire t f => some (t, f.rd != 0 || f.ra != 0 || f.rb != 0 || f.rsv != 0)
  | .fenceSAcquire t f => some (t, f.rd != 0 || f.ra != 0 || f.rb != 0 || f.rsv != 0)
  | .fenceSRelease t f => some (t, f.rd != 0 || f.ra != 0 || f.rb != 0 || f.rsv != 0)
  | .fenceSReleaseAcquire t f => some (t, f.rd != 0 || f.ra != 0 || f.rb != 0 || f.rsv != 0)
  | .mfcr t f => some (t, f.ra != 0 || !crListed f.imm.toNat)
  | .mtcr t f => some (t, f.rd != 0 || !crListed f.imm.toNat)
  | .eret t f => some (t, f.rd != 0 || f.ra != 0 || f.imm != 0)
  | .trap t f => some (t, f.rd != 0 || f.ra != 0)
  | .brk t f => some (t, f.rd != 0 || f.ra != 0 || f.imm != 0)
  | .wait t f => some (t, f.rd != 0 || f.ra != 0 || f.imm != 0)
  | .syncI t f => some (t, f.rd != 0 || f.ra != 0 || f.imm != 0)
  | _ => none

/-- Command `c` puts `val` in g register `rd` and adds sticky flags. -/
def computesG (c : Instr) (s u : State) (t : TileId) (rd : BitVec 5) (val : W64) (flags : Nat) : Prop :=
  retires c s u t (((u.tile t).wg rd val).addFlags flags) ((u.tile t).pc + 4)

/-- Command `c` retires at tile `t`, which then is `y` but for `n` bytes of its local store from offset `o`, which hold
`val`; a store of 8 bytes clears the mark of its word, a narrower one leaves it (spec 04 R122). -/
def storesLocal (c : Instr) (s u : State) (t : TileId) (y : Tile) (o n val : Nat) : Prop :=
  ∃ ls lp lb lf, retires c s u t { y with ls := ls, lsPoison := lp, lsBad := lb, lsFix := lf } (y.pc + 4)
    ∧ (∀ j, ls.get 0 j = if o ≤ j ∧ j < o + n then BitVec.ofNat 8 (val >>> (8 * (j - o))) else y.ls.get 0 j)
    ∧ (∀ j, lp.get false j = (y.lsPoison.get false j && !(n == 8 && j == o / 8)))

/-- `n` bytes at `a` are an aligned, unmarked and sound place of tile `t`'s local store (spec 04 R121, R122). -/
def State.localData (u : State) (t : TileId) (a : W64) (n : Nat) : Prop :=
  a.toNat % n = 0 ∧ lsBase ≤ a.toNat ∧ a.toNat < lsBase + lsSize ∧ (u.tile t).marked (a.toNat - lsBase) n = false
    ∧ (u.tile t).lsSound (a.toNat - lsBase) n = true

/-- The tile, base register, immediate and size of a load, a poison test, a store or an atomic (spec 05 R155, R156,
R162). -/
def dataAccess : Instr → Option (TileId × BitVec 5 × W64 × Nat)
  | .lb t f => some (t, f.ra, f.imm.signExtend 64, 1)
  | .lbu t f => some (t, f.ra, f.imm.signExtend 64, 1)
  | .lh t f => some (t, f.ra, f.imm.signExtend 64, 2)
  | .lhu t f => some (t, f.ra, f.imm.signExtend 64, 2)
  | .lw t f => some (t, f.ra, f.imm.signExtend 64, 4)
  | .lwu t f => some (t, f.ra, f.imm.signExtend 64, 4)
  | .ld t f => some (t, f.ra, f.imm.signExtend 64, 8)
  | .flw t f => some (t, f.ra, f.imm.signExtend 64, 4)
  | .flh t f => some (t, f.ra, f.imm.signExtend 64, 2)
  | .ptest t f => some (t, f.ra, f.imm.signExtend 64, 8)
  | .sb t f => some (t, f.ra, f.imm.signExtend 64, 1)
  | .sh t f => some (t, f.ra, f.imm.signExtend 64, 2)
  | .sw t f => some (t, f.ra, f.imm.signExtend 64, 4)
  | .sd t f => some (t, f.ra, f.imm.signExtend 64, 8)
  | .fsw t f => some (t, f.ra, f.imm.signExtend 64, 4)
  | .fsh t f => some (t, f.ra, f.imm.signExtend 64, 2)
  | .atomicSwap t f => some (t, f.ra, 0, if f.size = 1 then 8 else 4)
  | .atomicCas t f => some (t, f.ra, 0, if f.size = 1 then 8 else 4)
  | .atomicAdd t f => some (t, f.ra, 0, if f.size = 1 then 8 else 4)
  | .atomicAnd t f => some (t, f.ra, 0, if f.size = 1 then 8 else 4)
  | .atomicOr t f => some (t, f.ra, 0, if f.size = 1 then 8 else 4)
  | .atomicXor t f => some (t, f.ra, 0, if f.size = 1 then 8 else 4)
  | .atomicMin t f => some (t, f.ra, 0, if f.size = 1 then 8 else 4)
  | .atomicMax t f => some (t, f.ra, 0, if f.size = 1 then 8 else 4)
  | .atomicMinu t f => some (t, f.ra, 0, if f.size = 1 then 8 else 4)
  | .atomicMaxu t f => some (t, f.ra, 0, if f.size = 1 then 8 else 4)
  | _ => none

/-- What a load makes of the tile `y` and the little-endian value `v` that it reads (spec 05 R155). -/
def loadsInto (c : Instr) (y : Tile) : Option (Nat → Tile) :=
  match c with
  | .lb _ f => some (fun v => y.wg f.rd ((BitVec.ofNat 8 v).signExtend 64))
  | .lbu _ f => some (fun v => y.wg f.rd ((BitVec.ofNat 8 v).setWidth 64))
  | .lh _ f => some (fun v => y.wg f.rd ((BitVec.ofNat 16 v).signExtend 64))
  | .lhu _ f => some (fun v => y.wg f.rd ((BitVec.ofNat 16 v).setWidth 64))
  | .lw _ f => some (fun v => y.wg f.rd ((BitVec.ofNat 32 v).signExtend 64))
  | .lwu _ f => some (fun v => y.wg f.rd ((BitVec.ofNat 32 v).setWidth 64))
  | .ld _ f => some (fun v => y.wg f.rd (BitVec.ofNat 64 v))
  | .flw _ f => some (fun v => y.wf f.rd (BitVec.ofNat 32 v))
  | .flh _ f => some (fun v => y.wf f.rd (BitVec.ofNat 16 v ++ (0 : BitVec 16)))
  | _ => none

/-- The value that a store stores, in its low bytes (spec 05 R155). -/
def storesFrom (c : Instr) (y : Tile) : Option Nat :=
  match c with
  | .sb _ f => some (y.rg f.rs).toNat
  | .sh _ f => some (y.rg f.rs).toNat
  | .sw _ f => some (y.rg f.rs).toNat
  | .sd _ f => some (y.rg f.rs).toNat
  | .fsw _ f => some (y.rf f.rs).toNat
  | .fsh _ f => some ((y.rf f.rs).toNat / 65536)
  | _ => none

/-- Ward memory at `a`: `n` aligned bytes below the tile-local region that a window of ward `w` translates to `x`
(spec 01 R27). -/
def State.wardData (u : State) (t : TileId) (a : W64) (n : Nat) (k : AccKind) (w : WardId) (x : Xlat) : Prop :=
  a.toNat % n = 0 ∧ a.toNat < lsBase ∧ u.tileWard t = some w ∧ u.translate w a.toNat n k = .inr x

/-- The line of a translated access. -/
def Xlat.line (x : Xlat) : LineAddr := ⟨x.host, x.addr / 64⟩

/-! ### Rows that write one register by a host port -/

/-- Port `p` carries the write out: register space answers it, nothing that arrived before is waited for and, of a ward's
function, the register stands in its view at `vf`, for a unit of its `own`, and the ward does not reset (spec 01 R19,
R20, R50; 10 R292). -/
def State.carries (s : State) (p : Port) (vf : Option Nat) (own : Bool) : Prop :=
  (p = .s ∧ s.mmioOpen = true ∧ s.hostHolds .s = false)
  ∨ ∃ w, p = .w w ∧ s.fnOpen (.vf w) = true ∧ vf ≠ none ∧ s.hostHolds (.w w) = false ∧ s.resettingWard w = false ∧ own = true

/-- What command `c`, a write of `v` to the register at `off`, does where it is not carried out: it meets a function that
does not answer, waits behind what arrived before, is discarded while its ward resets, or is counted (spec 01 R20, R50;
10 R292; 15 R417); the management port and Lantern have rows of their own. -/
def heldBack (c : Instr) (s : State) (p : Port) (off : Nat) (vf : Option Nat) (v : Nat) (own : Bool) : Prop :=
  let waits := fun (a : Nat) => exec c s = .next (s.holdPosted (.regWrite p a (State.regBytes off) v))
  (p = .s → (s.mmioOpen = false → exec c s = .next (s.turnedAway .s)) ∧ (s.mmioOpen = true → s.hostHolds .s = true → waits off))
  ∧ (∀ w, p = .w w → (s.fnOpen (.vf w) = false → exec c s = .next (s.turnedAway p))
      ∧ (s.fnOpen (.vf w) = true →
        (vf = none → (s.resettingWard w = true → exec c s = .next s)
          ∧ (s.resettingWard w = false → ∃ a < 2 ^ 20, exec c s = .next ({ s with freeCtr := s.freeCtr + 1 }.countAccess p a)))
        ∧ (∀ a, vf = some a → (s.hostHolds p = true → waits a)
          ∧ (s.hostHolds p = false → (s.resettingWard w = true → exec c s = .next s)
            ∧ (s.resettingWard w = false → own = false → exec c s = .next (s.countAccess p a))))))
  ∧ (p = .m ∨ p = .l → exec c s = .next s)

/-! ### Homes -/

/-- The request packet at place `i` stands at its home (or the filter) `h`, which can take it: it comes from no fenced
quarter, carries no poison, has not been called, and has room (spec 12 R330, R334, R341, R344). -/
def State.asks (s : State) (i h : Nat) (p : Packet) (r : Req) : Prop :=
  s.arrived i = some p ∧ p.payload = .request r ∧ stopHome p.dst = some h ∧ s.fromFenced r = false ∧ p.poison = false
    ∧ r.called = false ∧ s.heldReset r = false ∧ (s.homeN h).txns.length < 1024 ∧ s.dirVictim h r.line.n = none
    ∧ (h = 16 → s.atomicBufs < 16)

/-- No transaction works on the line and no refused request waits for it (spec 12 R331, R334). -/
def State.lineQuiet (s : State) (h : Nat) (l : LineAddr) : Prop :=
  s.lineActive h l = false ∧ ∀ e ∈ (s.homeN h).refused, e.2.line ≠ l

/-- Transaction `t` is the only one on its line, and a refused request waits for another line, at which something is at
work. -/
def State.onlyTxn (s : State) (h : Nat) (t : Txn) : Prop :=
  t ∈ (s.homeN h).txns ∧ t.evictFor = none ∧ t.hostSnoop = none ∧ t.keyLost = false ∧ t.sigDue = false ∧ t.doomed = false ∧ (s.homeN h).initing = []
    ∧ (∀ u ∈ (s.homeN h).txns, u ≠ t → u.xid ≠ t.xid ∧ u.line ≠ t.line ∧ u.evictFor = none)
    ∧ (∀ e ∈ (s.homeN h).refused, e.2.line ≠ t.line ∧ s.lineActive h e.2.line = true) ∧ s.fromFenced t.req = false

/-- The response of home `h` to request `r` of XID `x`. -/
def homeRsp (h x : Nat) (r : Req) (k : RspKind) (pl : Payload) (poison : Bool) : Packet :=
  mkPkt .rsp k.code (homeStop h) (r.src.node (homeStop h)) (r.ward.getD 0) 0 x poison pl r.line

/-- The packet of request `r` of XID `x` on its way to its home; from the host link and the Gatehouse it carries WARD 0
(spec 06 R178). -/
def reqPkt (x : Nat) (r : Req) : Packet :=
  let dst := homeStop (reqHome r.line)
  mkPkt .req r.kind.code (r.src.node dst) dst (r.src.stamp r.ward) 0 x false (.request r) r.line

/-- No cache holds the line: its home has no entry for it, or one that a transaction has only taken (spec 12 R341). -/
def State.uncachedLine (s : State) (h : Nat) (l : LineAddr) : Prop := ∀ d, s.dirGet h l.n = some d → d.pres = 0 ∧ d.excl = false

/-- State `v` differs from `s` in the homes' bookkeeping, memory and counters alone; `net` are its packets. -/
def homesOnly (s v : State) (net : List Packet) : Prop :=
  v = { s with net := net, homes := v.homes, fld := v.fld, dram := v.dram, sigs := v.sigs, symErrs := v.symErrs }

/-- Line `n` of memory holds `d` as it is stored, with the poison signature when `sig`; every other line is as in `s`
(spec 14 R378, R380). -/
def lineWritten (s v : State) (n : Nat) (d : Line512) (sig : Bool) : Prop :=
  (∀ j, v.dram.get 0 j = if j / 64 = n then byteAt d (j % 64) else s.dram.get 0 j)
    ∧ (∀ m, v.sigs.get false m = if m = n then sig else s.sigs.get false m)

/-! ### The management port -/

/-- A request row: its header, its command code, its payload, and whether a flash read that it needs works (spec 18 R485). -/
def mgmtRow (c : Instr) : Option (MgmtHdr × Nat × List Byte × Bool) :=
  match c with
  | .getIdentity q => some (q, 0x01, [], true)
  | .getHealth q => some (q, 0x02, [], true)
  | .getSupply q => some (q, 0x03, [], true)
  | .getThermal q => some (q, 0x04, [], true)
  | .readReg q off width => some (q, 0x05, leBytes 4 off ++ leBytes 1 width, true)
  | .writeReg q off width val => some (q, 0x06, leBytes 4 off ++ leBytes 1 width ++ leBytes 8 val, true)
  | .logHead q => some (q, 0x07, [], true)
  | .logRead q slot flashOk => some (q, 0x08, leBytes 2 slot, flashOk)
  | .calGet q => some (q, 0x09, [], true)
  | .calSet q item offset => some (q, 0x0A, leBytes 1 item ++ [offset], true)
  | .calSave q => some (q, 0x0B, [], true)
  | .calReload q => some (q, 0x0C, [], true)
  | .calZero q => some (q, 0x0D, [], true)
  | .throttle q v => some (q, 0x0E, leBytes 1 v, true)
  | .resetReq q kind ward => some (q, 0x0F, leBytes 1 kind ++ leBytes 1 ward, true)
  | .alertGet q ack => some (q, 0x10, leBytes 1 ack, true)
  | .lanternCtrl q op minutes => some (q, 0x11, leBytes 1 op ++ leBytes 1 minutes, true)
  | _ => none

/-- The port answers, executes nothing and holds no request (spec 18 R475, R483). -/
def State.mgmtIdle (s : State) : Prop := s.mgmtAwake = true ∧ s.mgmtBusy = false ∧ s.mgmt.queue = []

/-- A header whose version, flags, status and RETRY are a request's (spec 18 R480). -/
def hdrFair (q : MgmtHdr) (len : Nat) : Prop := q.ver = 1 ∧ q.flags = 0 ∧ q.status = 0 ∧ q.retry = 0 ∧ q.len.toNat = len

/-! ### Canonical storage -/

/-- Keys strictly rising, and no entry equal to what an unlisted key `k` reads as. -/
def fldKept (t : Tbl Nat) : Bool := ordered t.cells && t.cells.all (fun c => decide (c.2 ≠ fldReset c.1))

/-- The canonical form of the register fields, of memory and of the boot flash (DESIGN CHOICE, log 6). -/
def storageKept (s : State) : Prop := fldKept s.fld = true ∧ s.dram.wf 0 = true ∧ s.flash.wf 0xFF = true

end Sys2Proof.Machine
end

