-- ==== Sys2Proof/Certificates/Slice0/Obligations.lean ====
section
/-! DEFINITION. The statements about the model. A statement's docstring names the rule of spec/ that it
formalises; the numbers of log entries mark what is the model's own choice. -/

open Sys2Proof Sys2Proof.Machine

/-- A step of a state with a waiting command is that command's effect on the state with the rest of the queue, and answers
a next state. -/
def Obligations.StepRunsFrontCommand : Prop :=
  ∀ (c : Instr) (rest : List Instr) (s : State), s.pending = c :: rest →
    step s = exec c { s with pending := rest } ∧ ∃ t, exec c { s with pending := rest } = .next t

/-! ### Tile instructions -/

/-- R151, R117: g0 reads as 0 and a write to it is discarded; any other register reads back what was written and
keeps its value when another is written. R152, R153: the register operations on integers. R154: the immediate forms; SHI by its kind in imm[7:6] and its amount in imm[5:0]; INSH on the 16 bits that the
ra field's low two bits select. -/
def Obligations.IntegerOperationsCompute : Prop :=
  (∀ (y : Tile) (r q : BitVec 5) (v : W64), y.rg 0 = 0 ∧ y.wg 0 v = y ∧ (y.wg r v).rg q = if q = r ∧ r ≠ 0 then v else y.rg q)
  ∧ (∀ (s u : State) (t : TileId) (f : RForm), f.rsv = 0 →
    let a := (u.tile t).rg f.ra
    let b := (u.tile t).rg f.rb
    let r := fun (c : Instr) (v : W64) => s.begins c t u → computes c s u t f.rd v
    r (.add t f) (a + b) ∧ r (.sub t f) (a - b) ∧ r (.and t f) (a &&& b) ∧ r (.or t f) (a ||| b) ∧ r (.xor t f) (a ^^^ b)
    ∧ r (.sll t f) (a <<< (b &&& 63)) ∧ r (.srl t f) (a >>> (b &&& 63)) ∧ r (.sra t f) (a.sshiftRight' (b &&& 63))
    ∧ r (.slt t f) (if a.toInt < b.toInt then 1 else 0) ∧ r (.sltu t f) (if a.toNat < b.toNat then 1 else 0)
    ∧ r (.mul t f) (a * b) ∧ r (.mulh t f) (BitVec.extractLsb' 64 64 (a.signExtend 128 * b.signExtend 128))
    ∧ r (.mulhu t f) (BitVec.extractLsb' 64 64 (a.setWidth 128 * b.setWidth 128))
    ∧ r (.div t f) (if b = 0 then BitVec.allOnes 64 else a.sdiv b) ∧ r (.divu t f) (if b = 0 then BitVec.allOnes 64 else a / b)
    ∧ r (.rem t f) (if b = 0 then a else a.srem b) ∧ r (.remu t f) (if b = 0 then a else a % b)
    ∧ r (.min t f) (if a.toInt < b.toInt then a else b) ∧ r (.max t f) (if a.toInt < b.toInt then b else a)
    ∧ r (.minu t f) (if a.toNat < b.toNat then a else b) ∧ r (.maxu t f) (if a.toNat < b.toNat then b else a))
  ∧ (∀ (s u : State) (t : TileId) (f : IForm),
    let a := (u.tile t).rg f.ra
    let i := f.imm
    let r := fun (c : Instr) (v : W64) => s.begins c t u → computes c s u t f.rd v
    r (.addi t f) (a + i.signExtend 64) ∧ r (.andi t f) (a &&& i.setWidth 64) ∧ r (.ori t f) (a ||| i.setWidth 64)
    ∧ r (.xori t f) (a ^^^ i.setWidth 64) ∧ r (.slti t f) (if a.toInt < i.toInt then 1 else 0)
    ∧ r (.sltiu t f) (if a.toNat < (i.signExtend 64).toNat then 1 else 0)
    ∧ (i.extractLsb' 8 8 = 0 →
        (i.extractLsb' 6 2 = 0 → r (.shi t f) (a <<< i.extractLsb' 0 6)) ∧ (i.extractLsb' 6 2 = 1 → r (.shi t f) (a >>> i.extractLsb' 0 6))
        ∧ (i.extractLsb' 6 2 = 2 → r (.shi t f) (a.sshiftRight' (i.extractLsb' 0 6))))
    ∧ (f.ra.extractLsb' 2 3 = 0 →
        ∃ v : W64, r (.insh t f) v ∧ (∀ j < 64, v.getLsbD j =
          if j / 16 = f.ra.toNat then i.getLsbD (j % 16) else ((u.tile t).rg f.rd).getLsbD j)))

/-- R157, R148: branches and jumps; bits [1:0] of a target are cleared, and a link is written to g1 after the target
has been read. -/
def Obligations.BranchesAndJumpsGoOn : Prop :=
  ∀ (s u : State) (t : TileId),
    let y := u.tile t
    let aim := fun (a : W64) => a &&& ~~~ 3#64
    let go := fun (c : Instr) (y : Tile) (pc : W64) => s.begins c t u → jumps c s u t y pc
    (∀ f : BForm,
      let a := y.rg f.ra
      let b := y.rg f.rb
      let br := fun (c : Instr) (p : Prop) [Decidable p] => go c y (if p then aim (y.pc + 4 * f.off.signExtend 64) else y.pc + 4)
      br (.beq t f) (a = b) ∧ br (.bne t f) (a ≠ b) ∧ br (.blt t f) (a.toInt < b.toInt) ∧ br (.bge t f) (b.toInt ≤ a.toInt)
      ∧ br (.bltu t f) (a.toNat < b.toNat) ∧ br (.bgeu t f) (b.toNat ≤ a.toNat))
    ∧ (∀ off : BitVec 26, go (.j t off) y (aim (y.pc + 4 * off.signExtend 64)) ∧ go (.jal t off) (y.wg 1 (y.pc + 4)) (aim (y.pc + 4 * off.signExtend 64)))
    ∧ (∀ f : RForm, f.rsv = 0 → f.rd = 0 → f.rb = 0 → go (.jr t f) y (aim (y.rg f.ra)) ∧ go (.jalr t f) (y.wg 1 (y.pc + 4)) (aim (y.rg f.ra)))

/-- R159, R160, R161: the operations that round, once, in the mode of the rm field or, for code 7, of FPSR. The
arithmetic is that of Machine/Fp.lean on the exact values of the operands. -/
def Obligations.FloatingOperationsRoundOnce : Prop :=
  ∀ (s u : State) (t : TileId),
    let y := u.tile t
    let putF := fun (c : Instr) (rd : BitVec 5) (v : W32) (flags : Nat) => s.begins c t u → computesF c s u t rd v flags
    let putG := fun (c : Instr) (rd : BitVec 5) (v : W64) (flags : Nat) => s.begins c t u → computesG c s u t rd v flags
    let mode := fun (rm : BitVec 3) => if rm = 7 then y.rm.toNat else rm.toNat
    let single := fun (r : BitVec 5) => unpack fp32 (y.rf r).toNat
    let brain := fun (r : BitVec 5) => unpack bf16 ((y.rf r).toNat / 65536)
    (∀ f : FpForm, f.rsv = 0 → f.rm ≠ 4 → f.rm ≠ 5 → f.rm ≠ 6 →
      let m := mode f.rm
      let r := fun (c : Instr) (v : FpRes) => putF c f.rd (BitVec.ofNat 32 v.1) v.2
      let rb := fun (c : Instr) (v : FpRes) => putF c f.rd (BitVec.ofNat 32 (v.1 * 65536)) v.2
      r (.faddS t f) (addNum fp32 m (single f.ra) (single f.rb)) ∧ r (.fsubS t f) (addNum fp32 m (single f.ra) (single f.rb).neg)
      ∧ r (.fmulS t f) (mulNum fp32 m (single f.ra) (single f.rb)) ∧ r (.fdivS t f) (divNum fp32 m (single f.ra) (single f.rb))
      ∧ rb (.faddB t f) (addNum bf16 m (brain f.ra) (brain f.rb)) ∧ rb (.fsubB t f) (addNum bf16 m (brain f.ra) (brain f.rb).neg)
      ∧ rb (.fmulB t f) (mulNum bf16 m (brain f.ra) (brain f.rb))
      ∧ (f.rb = 0 → r (.fsqrtS t f) (sqrtNum fp32 m (single f.ra)) ∧ rb (.fcvtBfS t f) (convNum bf16 m (single f.ra))
        ∧ r (.fcvtSL t f) (ofInt fp32 m (y.rg f.ra).toInt) ∧ r (.fcvtSLu t f) (ofInt fp32 m (y.rg f.ra).toNat)
        ∧ putG (.fcvtLS t f) f.rd (toInt64 m true (single f.ra)).1 (toInt64 m true (single f.ra)).2
        ∧ putG (.fcvtLuS t f) f.rd (toInt64 m false (single f.ra)).1 (toInt64 m false (single f.ra)).2))
    ∧ (∀ f : R4Form, f.rsv = 0 → f.rm ≠ 4 → f.rm ≠ 5 → f.rm ≠ 6 →
      let m := mode f.rm
      let r := fun (c : Instr) (v : FpRes) => putF c f.rd (BitVec.ofNat 32 v.1) v.2
      r (.fmaddS t f) (fmaNum fp32 m (single f.ra) (single f.rb) (single f.rc))
      ∧ r (.fmsubS t f) (fmaNum fp32 m (single f.ra) (single f.rb) (single f.rc).neg)
      ∧ r (.fnmaddS t f) (fmaNum fp32 m (single f.ra).neg (single f.rb) (single f.rc).neg)
      ∧ putF (.fmaddB t f) f.rd (BitVec.ofNat 32 ((fmaNum bf16 m (brain f.ra) (brain f.rb) (brain f.rc)).1 * 65536))
        (fmaNum bf16 m (brain f.ra) (brain f.rb) (brain f.rc)).2)

/-- R158: the sum, product, quotient or fused sum of values one of which is a NaN is the canonical NaN of the format,
and invalid is set exactly when a signaling NaN is among them or, for the fused form, infinity meets zero. R158, R159, R160: the operations that do not round. FNEG.S, FABS.S and the moves move bits and keep a payload and
every flag; a comparison with a NaN gives 0, and invalid unless FEQ.S meets quiet NaNs only. -/
def Obligations.FloatingMovesAndNans : Prop :=
  (∀ (m : Nat) (a b c : Sys2Proof.Machine.Num),
    (a.isNan = true ∨ b.isNan = true →
      let want := fun (bits : Nat) => (bits, if a.isSig = true ∨ b.isSig = true then 1 else 0)
      addNum fp32 m a b = want 0x7FC00000 ∧ mulNum fp32 m a b = want 0x7FC00000 ∧ divNum fp32 m a b = want 0x7FC00000
      ∧ addNum bf16 m a b = want 0x7FC0 ∧ mulNum bf16 m a b = want 0x7FC0)
    ∧ (a.isNan = true ∨ b.isNan = true ∨ c.isNan = true → (fmaNum fp32 m a b c).1 = 0x7FC00000 ∧ (fmaNum bf16 m a b c).1 = 0x7FC0)
    ∧ (a.isNan = true → sqrtNum fp32 m a = (0x7FC00000, if a.isSig = true then 1 else 0) ∧ (convNum bf16 m a).1 = 0x7FC0))
  ∧ (∀ (s u : State) (t : TileId) (f : FpForm), f.rsv = 0 → f.rm = 0 →
    let y := u.tile t
    let putF := fun (c : Instr) (v : W32) (flags : Nat) => s.begins c t u → computesF c s u t f.rd v flags
    let putG := fun (c : Instr) (v : W64) (flags : Nat) => s.begins c t u → computesG c s u t f.rd v flags
    let a := unpack fp32 (y.rf f.ra).toNat
    let b := unpack fp32 (y.rf f.rb).toNat
    let nan : Bool := a.isNan || b.isNan
    let cmp := fun (c : Instr) (p : Bool) (flag : Nat) => putG c (if nan then 0 else if p then 1 else 0) (if nan then flag else 0)
    cmp (.feqS t f) (cmpNum a b == 0) (if a.isSig || b.isSig then 1 else 0) ∧ cmp (.fltS t f) (decide (cmpNum a b < 0)) 1
    ∧ cmp (.fleS t f) (decide (cmpNum a b ≤ 0)) 1
    ∧ putF (.fminS t f) (BitVec.ofNat 32 (minMaxBits fp32 false (y.rf f.ra).toNat (y.rf f.rb).toNat).1)
        (minMaxBits fp32 false (y.rf f.ra).toNat (y.rf f.rb).toNat).2
    ∧ putF (.fmaxS t f) (BitVec.ofNat 32 (minMaxBits fp32 true (y.rf f.ra).toNat (y.rf f.rb).toNat).1)
        (minMaxBits fp32 true (y.rf f.ra).toNat (y.rf f.rb).toNat).2
    ∧ (f.rb = 0 → putF (.fnegS t f) (y.rf f.ra ^^^ 0x80000000#32) 0 ∧ putF (.fabsS t f) (y.rf f.ra &&& 0x7FFFFFFF#32) 0
      ∧ putG (.fmvGF t f) ((y.rf f.ra).setWidth 64) 0 ∧ putF (.fmvFG t f) ((y.rg f.ra).setWidth 32) 0))

/-- R150: a word that the tile fetches and whose opcode or sub-opcode is not listed, and a tile instruction whose word is
ILLEGAL by its fields, take exception 1 at their address and have no other effect. R118,
R168: at level T, ERET, MTCR of any register but FPSR and MFCR of a register marked K-only raise PRIV. R168, R127, R130: TRAP and BRK enter their handlers; the frame holds EPC, STATUS before entry, CAUSE with TRAPNO,
BADADDR, g1 and g3 to g5. R128: an enabled interrupt of a running tile is taken before the next instruction, inbox first,
then timer, then doorbell, with EPC at that instruction. -/
def Obligations.TrapsAndInterruptsEnterTheirHandlers : Prop :=
  ((∀ (c : Instr) (s u : State) (t : TileId), tileWord c = some (t, true) → s.begins c t u → u.canEnter t 1 →
    traps c s u t 1 1 0 (u.tile t).pc)
  ∧ (∀ (c : Instr) (s u : State) (t : TileId) (bad : Bool) (w : W32), tileWord c = some (t, bad) → s.fetches t u w → decodeTile t w = none →
    u.canEnter t 1 → traps c s u t 1 1 0 (u.tile t).pc)
  ∧ ∀ (s u : State) (t : TileId) (f : SysForm), (u.tile t).k = false → u.canEnter t 2 →
    let priv := fun (c : Instr) => s.begins c t u → traps c s u t 2 2 0 (u.tile t).pc
    (f.rd = 0 → f.ra = 0 → f.imm = 0 → State.eretStack ((u.tile t).rg 2) = true → priv (.eret t f)) ∧ (f.rd = 0 → crListed f.imm.toNat = true → f.imm ≠ 0x0B → priv (.mtcr t f))
    ∧ (f.ra = 0 → f.imm.toNat ≤ 5 → priv (.mfcr t f)))
  ∧ ((∀ (s u : State) (t : TileId) (f : SysForm), f.rd = 0 → f.ra = 0 →
    (s.begins (.trap t f) t u → u.canEnter t 0x0A → traps (.trap t f) s u t 0x0A (BitVec.ofNat 64 (0x0A + 65536 * f.imm.toNat)) 0 (u.tile t).pc)
    ∧ (f.imm = 0 → s.begins (.brk t f) t u → u.canEnter t 0x0B → traps (.brk t f) s u t 0x0B 0x0B 0 (u.tile t).pc))
  ∧ ∀ (s : State) (t : TileId), s.canRun t = true → (s.tile t).mode = .running → (s.tile t).ie = true → (s.tile t).stepping = false →
    let y := s.tile t
    let inbox : Bool := y.im.getLsbD 0 && !y.inbox.isEmpty
    let timer : Bool := y.im.getLsbD 1 && decide (y.timecmp.toNat ≤ s.supTime)
    let bell : Bool := y.im.getLsbD 2 && y.ipDoorbell
    let takes := fun (code : Nat) => s.canEnter t code → traps (.interruptTake t) s s t code (BitVec.ofNat 64 code) 0 y.pc
    (inbox = true → takes 0x20) ∧ (inbox = false → timer = true → takes 0x21)
    ∧ (inbox = false → timer = false → bell = true → takes 0x22)
    ∧ (inbox = false → timer = false → bell = false → exec (.interruptTake t) s = .next s))

/-- R132, R134: an exception that finds g2 invalid writes no local store; the frame goes to TIL_SHF0 to TIL_SHF7, the
tile strands with STRAND_WHY 1, and the Beacon latches a U-class event in the group of the tile's quarter. R131: ERET with a whole frame in local store restores g1, g3 to g5 and STATUS but for its pending bits, raises g2
by 64 and goes on at the frame's EPC; with any other g2 it raises ILLEGAL. -/
def Obligations.FramesAreSavedAndRestored : Prop :=
  (∀ (s u : State) (t : TileId) (f : SysForm), s.begins (.brk t f) t u → f.rd = 0 → f.ra = 0 → f.imm = 0 → State.validStack ((u.tile t).rg 2) = false →
    ∃ v, exec (.brk t f) s = .next v ∧ (v.tile t).mode = .stranded ∧ (v.tile t).strandWhy = 1
      ∧ (v.tile t).shf = #v[(u.tile t).pc, u.tileStatus t, 0x0B, 0, (u.tile t).rg 1, (u.tile t).rg 3, (u.tile t).rg 4, (u.tile t).rg 5]
      ∧ (v.tile t).ls = (u.tile t).ls ∧ (v.tile t).g = (u.tile t).g ∧ (v.tile t).item = none
      ∧ (v.getF ⟨0x30000, 0, 49⟩).testBit (t.val / 16) = true)
  ∧ (∀ (s u : State) (t : TileId) (f : SysForm), s.begins (.eret t f) t u → f.rd = 0 → f.ra = 0 → f.imm = 0 →
    let y := u.tile t
    let whole := y.rg 2 % 16 = 0 ∧ lsBase ≤ (y.rg 2).toNat ∧ (y.rg 2).toNat ≤ 0xFFFFF0000003FFC0
    let w := fun (i : Nat) => y.word ((y.rg 2).toNat - lsBase + 8 * i)
    (whole → y.k = true → y.lsSound ((y.rg 2).toNat - lsBase) 64 = true → ∃ v, exec (.eret t f) s = .next v ∧ onlyTile u v t
        ∧ retiredAs { y with g := (v.tile t).g, k := (w 1).getLsbD 0, ie := (w 1).getLsbD 1, im := (w 1).extractLsb' 8 3 } (v.tile t) (w 0)
        ∧ (∀ r, (v.tile t).rg r = if r = 1 then w 4 else if r = 2 then y.rg 2 + 64 else if r = 3 then w 5 else if r = 4 then w 6
            else if r = 5 then w 7 else y.rg r))
    ∧ (¬ whole → u.canEnter t 1 → traps (.eret t f) s u t 1 1 0 y.pc)
    ∧ (¬ whole → State.validStack (y.rg 2) = false → ∃ v, exec (.eret t f) s = .next v ∧ (v.tile t).mode = .stranded ∧ (v.tile t).strandWhy = 1
        ∧ (v.tile t).shf = #v[y.pc, u.tileStatus t, 1, 0, y.rg 1, y.rg 3, y.rg 4, y.rg 5] ∧ (v.tile t).ls = y.ls ∧ (v.tile t).g = y.g))

/-- R124, R125, R168: MFCR reads the control register; MTCR writes it after the instruction's own counts, leaves a
read-only one, aligns VBASE down and clears IP_DOORBELL where 1 is written. -/
def Obligations.ControlRegistersReadAndWrite : Prop :=
  ∀ (s u : State) (t : TileId) (f : SysForm), (u.tile t).k = true →
    let y := u.tile t
    (f.ra = 0 → s.begins (.mfcr t f) t u →
      let r := fun (n : Nat) (v : W64) => f.imm.toNat = n → computes (.mfcr t f) s u t f.rd v
      r 0 (u.tileStatus t) ∧ r 1 y.epc ∧ r 2 y.cause ∧ r 3 y.badaddr ∧ r 4 y.vbase ∧ r 5 y.timecmp ∧ r 6 (BitVec.ofNat 64 u.supTime)
      ∧ r 8 (y.wkmask.setWidth 64) ∧ r 9 (BitVec.ofNat 64 y.inbox.length) ∧ r 0x11 (y.retired.setWidth 64) ∧ r 0x12 (y.wpFetch.setWidth 64)
      ∧ r 0x0B (BitVec.ofNat 64 (y.rm.toNat + 16 * y.fflags.toNat)) ∧ r 0x14 ((y.pmc.get 0).setWidth 64))
    ∧ (f.rd = 0 → s.begins (.mtcr t f) t u →
      let v := y.rg f.ra
      let w := fun (n : Nat) (z : Tile) => f.imm.toNat = n → retires (.mtcr t f) s u t z (y.pc + 4)
      w 0 { y with ie := v.getLsbD 1, im := v.extractLsb' 8 3, ipDoorbell := y.ipDoorbell && !v.getLsbD 18 }
      ∧ w 1 { y with epc := v } ∧ w 2 y ∧ w 3 { y with badaddr := v } ∧ w 4 { y with vbase := v &&& ~~~ 0x3FF#64 } ∧ w 5 { y with timecmp := v }
      ∧ w 6 y ∧ w 8 { y with wkmask := v.setWidth 16 } ∧ w 9 y ∧ w 0x0B { y with rm := v.extractLsb' 0 2, fflags := v.extractLsb' 4 5 })

/-- R122, R119, R123: a data access that is not aligned raises MISALIGN, one in an unimplemented part of the tile-local
region, or narrower than 64 bits on the control page, raises LOCAL_ADDR, and a load or an atomic that reads a marked word
of local store raises POISON_DATA; BADADDR is the address, and nothing else is touched. R118: at level T a load or a store
of the control page raises PRIV, whatever its size and alignment. R28, R29: a load or store that its ward's windows do not let pass raises DATA_WINDOW with the cause, and the ward's
window fault record takes the count, the cause and the address. -/
def Obligations.DataAccessFaultsAreTaken : Prop :=
  (∀ (c : Instr) (s u : State) (t : TileId) (ra : BitVec 5) (imm : W64) (n : Nat), dataAccess c = some (t, ra, imm, n) →
    tileWord c = some (t, false) → s.begins c t u → (u.tile t).k = true →
    let a := (u.tile t).rg ra + imm
    let fault := fun (code : Nat) => u.canEnter t code → traps c s u t code (BitVec.ofNat 64 code) a (u.tile t).pc
    (a.toNat % n ≠ 0 → fault 3)
    ∧ (a.toNat % n = 0 →
      (lsBase + lsSize ≤ a.toNat → ¬ (cpBase ≤ a.toNat ∧ a.toNat < cpBase + 2048) → ¬ (qsBase ≤ a.toNat ∧ a.toNat < qsBase + 3145728) → fault 6)
      ∧ (cpBase ≤ a.toNat → a.toNat < cpBase + 2048 → n ≠ 8 → fault 6)
      ∧ (lsBase ≤ a.toNat → a.toNat < lsBase + lsSize → (u.tile t).lsSound (a.toNat - lsBase) n = true → (u.tile t).marked (a.toNat - lsBase) n = true →
          storesFrom c (u.tile t) = none → (∀ f, c ≠ .ptest t f) → fault 7)))
  ∧ (∀ (c : Instr) (s u : State) (t : TileId) (ra : BitVec 5) (imm : W64) (n : Nat), dataAccess c = some (t, ra, imm, n) →
    (loadsInto c (u.tile t)).isSome = true ∨ (storesFrom c (u.tile t)).isSome = true → s.begins c t u → (u.tile t).k = false → u.canEnter t 2 →
    let a := (u.tile t).rg ra + imm
    cpBase ≤ a.toNat → a.toNat < cpBase + 2048 → traps c s u t 2 2 0 (u.tile t).pc)
  ∧ (∀ (c : Instr) (s u : State) (t : TileId) (ra : BitVec 5) (imm : W64) (n : Nat) (w : WardId) (k : AccKind) (wc : Nat),
    dataAccess c = some (t, ra, imm, n) → (k = .read ∧ (loadsInto c (u.tile t)).isSome = true ∨ k = .write ∧ (storesFrom c (u.tile t)).isSome = true) →
    s.begins c t u → u.canEnter t 5 → u.tileWard t = some w →
    let a := (u.tile t).rg ra + imm
    a.toNat % n = 0 → a.toNat < lsBase → u.translate w a.toNat n k = .inl wc →
    ∃ v, exec c s = .next v ∧ v = { u with tiles := v.tiles, fld := v.fld } ∧ (∀ r, r ≠ t → v.tile r = u.tile r)
      ∧ entered (u.tile t) (v.tile t) (u.tileStatus t) (BitVec.ofNat 64 (5 + 256 * wc)) a (u.tile t).pc 5
      ∧ v.getF (F.WRD_WINFAULT_COUNT w.val) = min (2 ^ 12 - 1) (u.getF (F.WRD_WINFAULT_COUNT w.val) + 1)
      ∧ v.getF (F.WRD_WINFAULT_CAUSE w.val) = wc ∧ v.getF (F.WRD_WINFAULT_ADDR w.val) = a.toNat % 2 ^ 47)

/-- R156: PTEST of an aligned, sound word of local store gives its mark and does not raise POISON_DATA.
R155, R121, R120: a load that no watchpoint meets reads its little-endian bytes, sign- or zero-extended, from local
store, from the control page (LD at level K), from quarter scratch, or from a fresh L1D copy of the line that its window
leads to; it writes its destination register and nothing else. -/
def Obligations.LoadsReadTheirBytes : Prop :=
  (∀ (s u : State) (t : TileId) (f : IForm), s.begins (.ptest t f) t u →
    let y := u.tile t
    let a := y.rg f.ra + f.imm.signExtend 64
    a.toNat % 8 = 0 → lsBase ≤ a.toNat → a.toNat < lsBase + lsSize → u.wpHits t true false a.toNat 8 = [] →
    y.lsSound (a.toNat - lsBase) 8 = true → computes (.ptest t f) s u t f.rd (if y.marked (a.toNat - lsBase) 8 then 1 else 0))
  ∧ ∀ (c : Instr) (s u : State) (t : TileId) (ra : BitVec 5) (imm : W64) (n : Nat) (into : Nat → Tile),
    dataAccess c = some (t, ra, imm, n) → loadsInto c (u.tile t) = some into → s.begins c t u →
    let y := u.tile t
    let a := y.rg ra + imm
    u.wpHits t true false a.toNat n = [] →
    let reads := fun (v : Nat) => retires c s u t (into v) (y.pc + 4)
    (u.localData t a n → reads (y.lsRead (a.toNat - lsBase) n))
    ∧ (∀ cr, crListed cr = true → a.toNat = cpBase + 8 * cr → y.k = true → n = 8 → (∀ f, c ≠ .flw t f) → reads (u.readCr t cr).toNat)
    ∧ (∀ (w : WardId) (o p : Nat), u.tileWard t = some w → a.toNat = qsBase + o → o % n = 0 → o + n ≤ u.scratchSize w (tileQuarter t) →
        o < 3145728 → u.scratchPlace w (tileQuarter t) o = p → u.sbFor t true ⟨false, p / 64⟩ = none →
        (u.quarter (tileQuarter t)).scratchTagBad.get false (p / 64) = false →
        (∀ i < n, (u.quarter (tileQuarter t)).scratchErrs.get 0 (p + i) = 0) → (u.quarter (tileQuarter t)).scratchPoison.get false (p / 8) = false →
        reads (ofLe ((List.range n).map (fun i => (u.quarter (tileQuarter t)).scratch.get 0 (p + i)))))
    ∧ (∀ (w : WardId) (x : Xlat) (z : L1Line), u.wardData t a n .read w x → u.sbFor t false x.line = none →
        (u.tile t).l1d.find? (fun z => decide (z.line = x.line) && (rangeMask (x.addr % 64) n &&& z.valid == rangeMask (x.addr % 64) n)) = some z →
        z.stale = false → z.v.poison = false → x.addr % 64 + n ≤ 64 → reads (lineBytes z.v.data (x.addr % 64) n))

/-- R155, R122, R272: a store that no watchpoint meets puts its low bytes in local store, where a whole word loses its
mark, or in the tile's store buffer: a new entry for the line, or joined to the one that is open and that it does not
fill. -/
def Obligations.StoresPutTheirBytes : Prop :=
  ∀ (c : Instr) (s u : State) (t : TileId) (ra : BitVec 5) (imm : W64) (n val : Nat),
    dataAccess c = some (t, ra, imm, n) → storesFrom c (u.tile t) = some val → s.begins c t u →
    let y := u.tile t
    let a := y.rg ra + imm
    u.wpHits t false true a.toNat n = [] →
    (a.toNat % n = 0 → lsBase ≤ a.toNat → a.toNat < lsBase + lsSize → storesLocal c s u t y (a.toNat - lsBase) n val)
    ∧ (∀ (w : WardId) (x : Xlat), u.wardData t a n .write w x →
        let o := x.addr % 64
        (u.sbFor t false x.line = none → y.sb.length < 16 →
          retires c s u t { y with sb := y.sb ++ [⟨false, x.line, rangeMask o n, placeBytes o n val, w, x.sealed, x.relaxed, x.ido, false⟩] } (y.pc + 4))
        ∧ (∀ e, u.sbFor t false x.line = some e → e.mask ||| rangeMask o n ≠ fullMask →
          retires c s u t { y with sb := y.sb.map (fun z => if z = e then
            { e with mask := e.mask ||| rangeMask o n, data := mergeLine e.data (placeBytes o n val) (rangeMask o n) } else z) } (y.pc + 4)))

/-- R162, R163: the atomics on local store: the old value goes to rd, sign-extended from 4 bytes, and the new one to the
word; CAS compares with rd. R144, R145, R162: an atomic to ward memory whose line the quarter cache holds in E or M, and that is not sent to the
home, is performed there: the old value goes to rd, the way holds the new bytes in state M. -/
def Obligations.AtomicsExchangeTheirWords : Prop :=
  (∀ (s u : State) (t : TileId) (f : AtForm), f.rsv = 0 → f.hint ≠ 3 →
    let y := u.tile t
    let a := y.rg f.ra
    let o := a.toNat - lsBase
    let does := fun (c : Instr) (op : (w : Nat) → BitVec w → BitVec w → BitVec w → BitVec w) => s.begins c t u →
      (f.size = 1 → u.localData t a 8 → u.wpHits t true true a.toNat 8 = [] →
        let old := BitVec.ofNat 64 (y.lsRead o 8)
        storesLocal c s u t (y.wg f.rd old) o 8 (op 64 old (y.rg f.rb) (y.rg f.rd)).toNat)
      ∧ (f.size = 0 → u.localData t a 4 → u.wpHits t true true a.toNat 4 = [] →
        let old := BitVec.ofNat 32 (y.lsRead o 4)
        storesLocal c s u t (y.wg f.rd (old.signExtend 64)) o 4 (op 32 old ((y.rg f.rb).setWidth 32) ((y.rg f.rd).setWidth 32)).toNat)
    does (.atomicSwap t f) (fun _ _ b _ => b) ∧ does (.atomicCas t f) (fun _ x b e => if x = e then b else x)
    ∧ does (.atomicAdd t f) (fun _ x b _ => x + b) ∧ does (.atomicAnd t f) (fun _ x b _ => x &&& b)
    ∧ does (.atomicOr t f) (fun _ x b _ => x ||| b) ∧ does (.atomicXor t f) (fun _ x b _ => x ^^^ b)
    ∧ does (.atomicMin t f) (fun _ x b _ => if x.toInt < b.toInt then x else b) ∧ does (.atomicMax t f) (fun _ x b _ => if x.toInt < b.toInt then b else x)
    ∧ does (.atomicMinu t f) (fun _ x b _ => if x.toNat < b.toNat then x else b) ∧ does (.atomicMaxu t f) (fun _ x b _ => if x.toNat < b.toNat then b else x))
  ∧ (∀ (s u : State) (t : TileId) (f : AtForm) (w : WardId) (x : Xlat) (i : Nat), f.rsv = 0 → f.hint ≠ 3 →
    let y := u.tile t
    let q := tileQuarter t
    let a := y.rg f.ra
    let n := if f.size = 1 then 8 else 4
    let o := x.addr % 64
    let m := rangeMask o n
    let wy := (u.quarter q).way (setOf x.line) i
    u.wardData t a n .atomic w x → u.wpHits t true true a.toNat n = [] → y.sb = [] → u.cached q w x.host = true →
    (∀ k, ((u.quarter q).ways.get CWay.free k).tagBad = false) → u.qFind q x.line = some i → (wy.st = .e ∨ wy.st = .m) →
    m &&& wy.valid = m → wy.errs = [] → wy.maskErrs = [] → wy.poison = false → u.uncachedWrite t x.line = false → u.isF (F.QC_INJ_ARM q.val) = false → u.quarterAsks q x.line = false →
    u.bufOf q x.line = none → (x.host = true ∨ u.atomicMode w f.hint.toNat ≠ 2) →
    ∀ (c : Instr) (op : AtOp), (c, op) ∈ [(Instr.atomicSwap t f, AtOp.swap), (.atomicCas t f, .cas), (.atomicAdd t f, .add), (.atomicAnd t f, .and),
        (.atomicOr t f, .or), (.atomicXor t f, .xor), (.atomicMin t f, .min), (.atomicMax t f, .max), (.atomicMinu t f, .minu), (.atomicMaxu t f, .maxu)] → s.begins c t u →
      let r : AtReq := { op := op, wide := decide (f.size = 1), off := o, operand := y.rg f.rb, compare := y.rg f.rd }
      let old := lineBytes wy.data o n
      ∃ v, exec c s = .next v ∧ (v.tile t).pc = y.pc + 4 ∧ (∀ g, (v.tile t).rg g = (y.wg f.rd (r.result old)).rg g)
        ∧ ((v.quarter q).way (setOf x.line) i).st = .m
        ∧ ((v.quarter q).way (setOf x.line) i).data = mergeLine wy.data (placeBytes o n (r.apply old)) m
        ∧ v.dram = u.dram ∧ v.net = u.net)

/-- R164, R165, R138, R143: SEND copies its payload into one message, with the poison flag of its marks, to a destination
that the ward's routes reach; it waits without a credit, and raises ROUTE without a route. R138, R166: RECV takes the oldest message, writes its payload rounded up to 8 bytes with zeros, marks each written
word exactly when the message is poisoned, and returns the header word; with an empty inbox it waits. -/
def Obligations.MessagesLeaveAndAreTaken : Prop :=
  (∀ (s u : State) (t d : TileId) (f : MsgForm) (w : WardId), s.begins (.send t f) t u → f.rd = 0 → f.len.toNat ≤ 64 →
    let y := u.tile t
    let a := y.rg f.rb
    let n := f.len.toNat
    a.toNat % 8 = 0 → (n = 0 ∨ inLs a.toNat n = true) → y.lsSound (a.toNat - lsBase) n = true → (y.rg f.ra).toNat = d.val →
    u.tileWard t = some w →
    (∀ r, u.route w d = some r → u.hasCredit (.tile t) w.val = true →
      let po := decide (n ≠ 0) && y.marked (a.toNat - lsBase) n
      let m : Msg := ⟨t, w, r.gate != 0xFF, if r.gate = 0xFF then 0 else r.gate, po, y.lsBytes a n⟩
      ∃ v, exec (.send t f) s = .next v ∧ v = { u with tiles := v.tiles, freeCtr := v.freeCtr, net := u.net ++ [mkPkt .msg 0 (.tile t) (.tile d) w w.val 0 po (.message m) noLine] }
        ∧ (∀ r, r ≠ t → v.tile r = u.tile r) ∧ retiredAs y (v.tile t) (y.pc + 4))
    ∧ (∀ r, u.route w d = some r → u.hasCredit (.tile t) w.val = false →
      ∃ v, exec (.send t f) s = .next v ∧ onlyTile u v t ∧ v.tile t = { y with mode := .inSend a n d })
    ∧ (u.route w d = none → u.canEnter t 0x0C → traps (.send t f) s u t 0x0C 0x0C 0 y.pc))
  ∧ (∀ (s u : State) (t : TileId) (f : MsgForm), s.begins (.recv t f) t u → f.rb = 0 → f.len = 0 →
    let y := u.tile t
    let a := y.rg f.ra
    let o := a.toNat - lsBase
    a.toNat % 8 = 0 → inLs a.toNat 64 = true →
    (∀ m rest, y.inbox = m :: rest →
      let n := 8 * ((m.bytes.length + 7) / 8)
      let head := BitVec.ofNat 64 (m.bytes.length + 128 * bN m.poison + 256 * (m.srcTile.val % 16) + 4096 * (m.srcTile.val / 16)
        + 65536 * m.ward.val + 524288 * bN m.gated)
      ∃ ls lp lb lf, retires (.recv t f) s u t { y.wg f.rd head with ls := ls, lsPoison := lp, lsBad := lb, lsFix := lf, inbox := rest } (y.pc + 4)
        ∧ (∀ j, ls.get 0 j = if o ≤ j ∧ j < o + n then m.bytes.getD (j - o) 0 else y.ls.get 0 j)
        ∧ (∀ k, lp.get false k = if o / 8 ≤ k ∧ k < o / 8 + n / 8 then m.poison else y.lsPoison.get false k))
    ∧ (y.inbox = [] → ∃ v, exec (.recv t f) s = .next v ∧ onlyTile u v t ∧ v.tile t = { y with mode := .inRecv a f.rd }))

/-- R139, R143, R164, R166: GETWORK without a subscribed pool returns 0, and with one waits in the order of its issue; PUTTOK
sends its token, with the poison flag of its marks, and waits until it is accepted; PSET sets one mark. -/
def Obligations.WorkInstructionsIssue : Prop :=
  ∀ (s u : State) (t : TileId) (f : MsgForm), f.rb = 0 → f.len = 0 →
    let y := u.tile t
    let a := y.rg f.ra
    (s.begins (.getwork t f) t u → a.toNat % 32 = 0 → inLs a.toNat 96 = true → y.item = none →
      (u.subscribed t = [] → computes (.getwork t f) s u t f.rd 0)
      ∧ (u.subscribed t ≠ [] → ∃ v, exec (.getwork t f) s = .next v
          ∧ v = { u with tiles := v.tiles, gwQueue := u.gwQueue.erase t ++ [t] } ∧ (∀ r, r ≠ t → v.tile r = u.tile r)
          ∧ v.tile t = { y with mode := .inGetwork a f.rd }))
    ∧ (∀ w, s.begins (.puttok t f) t u → f.rd = 0 → a.toNat % 32 = 0 → inLs a.toNat 32 = true → y.lsSound (a.toNat - lsBase) 32 = true → u.tileWard t = some w →
      u.puttokOut t = false → u.hasCredit (.tile t) w.val = true → u.nodeFault w (tokenOf (y.lsBytes a 32)) = false →
      ∃ v tk, exec (.puttok t f) s = .next v ∧ v.tile t = { y with mode := .inPuttok a } ∧ (∀ r, r ≠ t → v.tile r = u.tile r)
        ∧ v = { u with tiles := v.tiles, net := u.net ++ [mkPkt .msg 1 (.tile t) lampStop w w.val 0 (y.marked (a.toNat - lsBase) 32) (.token tk (.puttok t)) noLine] }
        ∧ tk.payload = (tokenOf (y.lsBytes a 32)).payload ∧ tk.node = (tokenOf (y.lsBytes a 32)).node ∧ tk.tag = (tokenOf (y.lsBytes a 32)).tag
        ∧ tk.sward.toNat = w.val ∧ tk.tflags.getLsbD 0 = y.marked (a.toNat - lsBase) 32)
    ∧ (s.begins (.pset t f) t u → f.rd = 0 → a.toNat % 8 = 0 → inLs a.toNat 8 = true →
      ∃ lp, retires (.pset t f) s u t { y with lsPoison := lp } (y.pc + 4)
        ∧ ∀ k, lp.get false k = (k == (a.toNat - lsBase) / 8 || y.lsPoison.get false k))

/-- R167, R280, R281: FENCE.C is performed at once. With an empty store buffer, FENCE.Q and FENCE.S issue and wait; the
fence completes when the lines it waits for are ordered, and an acquire discards the tile's L1D. R168, R169, R170,
R126: WAIT completes at once when an enabled interrupt is pending and waits otherwise; the timer ends the wait when
TIME reaches TIMECMP; SYNC.I discards the fetch buffer, what was fetched ahead and L1I; a doorbell of a port that owns
the tile sets IP_DOORBELL, and a stranded tile ignores it. The word that a row writes, and what a port does that may
not write it, are the model's reading (log 93). -/
def Obligations.FencesWaitsAndDoorbells : Prop :=
  (∀ (s u : State) (t : TileId) (f : FenceForm), (f.rd = 0 → f.ra = 0 → f.rb = 0 → f.rsv = 0 →
      let y := u.tile t
      let now := fun (c : Instr) => s.begins c t u → retires c s u t y (y.pc + 4)
      let waits := fun (c : Instr) (sc : FScope) (fm : FForm) (ls : List LineAddr) => s.begins c t u →
        ∃ v, exec c s = .next v ∧ onlyTile u v t ∧ v.tile t = { y with mode := .inFence sc fm ls }
      let early := u.earlyLines (tileQuarter t)
      now (.fenceCAcquire t f) ∧ now (.fenceCRelease t f) ∧ now (.fenceCReleaseAcquire t f)
      ∧ (y.sb = [] → waits (.fenceQAcquire t f) .q .acquire [] ∧ waits (.fenceQRelease t f) .q .release []
        ∧ waits (.fenceQReleaseAcquire t f) .q .releaseAcquire [] ∧ waits (.fenceSAcquire t f) .s .acquire early
        ∧ waits (.fenceSRelease t f) .s .release early ∧ waits (.fenceSReleaseAcquire t f) .s .releaseAcquire early))
    ∧ (∀ sc fm ls, (s.tile t).mode = .inFence sc fm ls → (∀ l ∈ ls, s.quarterEarly (tileQuarter t) l = false) →
      (fm = .acquire → retires (.fenceComplete t) s s t { s.tile t with l1d := [] } ((s.tile t).pc + 4))
      ∧ (fm = .release → (s.tile t).sb = [] → s.tileStoresOut t = false → retires (.fenceComplete t) s s t (s.tile t) ((s.tile t).pc + 4))
      ∧ (fm = .releaseAcquire → (s.tile t).sb = [] → s.tileStoresOut t = false → sc = .q →
          retires (.fenceComplete t) s s t { s.tile t with l1d := [] } ((s.tile t).pc + 4))))
  ∧ (∀ (s u : State) (t : TileId) (f : SysForm), (f.rd = 0 → f.ra = 0 → f.imm = 0 →
      (∀ code, s.begins (.wait t f) t u → u.pendingInt t = some code → retires (.wait t f) s u t (u.tile t) ((u.tile t).pc + 4))
      ∧ (s.begins (.wait t f) t u → u.pendingInt t = none → ∃ v, exec (.wait t f) s = .next v ∧ onlyTile u v t ∧ v.tile t = { u.tile t with mode := .inWait })
      ∧ (s.begins (.syncI t f) t u → retires (.syncI t f) s u t { u.tile t with fetchBuf := none, lsBuf := none, l1i := [] } ((u.tile t).pc + 4)))
    ∧ ((s.tile t).mode = .inWait → (s.tile t).im.getLsbD 1 = true → (s.tile t).timecmp.toNat ≤ s.supTime → s.coreActive = true →
      retires (.timecmpReached t) s s t (s.tile t) ((s.tile t).pc + 4))
    ∧ (∀ p, heldBack (.doorbell p t) s p (F.TIL_CTRL_RUN t.val).off (State.tilVf t 0) (4 + 2 * s.getF (F.TIL_CTRL_RUN t.val)) (s.ownsTile p t)
      ∧ (s.carries p (State.tilVf t 0) (s.ownsTile p t) →
        ((s.tile t).mode ≠ .inWait → (s.tile t).mode ≠ .stranded → ∃ v, exec (.doorbell p t) s = .next v ∧ onlyTile s v t ∧ v.tile t = { s.tile t with ipDoorbell := true })
        ∧ ((s.tile t).mode = .stranded → exec (.doorbell p t) s = .next s))))

/-- R117, R146: tile reset of a tile that holds no item empties its inbox into the discard count, clears its registers,
store buffer and L1 caches, puts g2 at the top of local store and the PC at TIL_ENTRY, starts at level K with
interrupts disabled and keeps local store and RUN, and has no effect of its own while its ward resets; RUN alone
starts a held tile of a ward that does not reset. The word that a row writes, and what a port does that may not write
it, are the model's reading (log 93). -/
def Obligations.TileResetAndRun : Prop :=
  ∀ (s : State) (p : Port) (t : TileId), (heldBack (.tileReset p t) s p (F.TIL_CTRL_RUN t.val).off (State.tilVf t 0) (1 + 2 * s.getF (F.TIL_CTRL_RUN t.val)) (s.ownsTile p t)
    ∧ ∀ run, heldBack (.tilRunWrite p t run) s p (F.TIL_CTRL_RUN t.val).off (State.tilVf t 0) (2 * bN run) (s.ownsTile p t))
  ∧ (s.carries p (State.tilVf t 0) (s.ownsTile p t) →
    ((s.tileWard t).any s.resettingWard = true → exec (.tileReset p t) s = .next s)
    ∧ ((s.tileWard t).any s.resettingWard = false → (s.tile t).item = none → (s.tile t).workIn = none →
      ∃ v, exec (.tileReset p t) s = .next v
        ∧ (∀ r, (v.tile t).rg r = if r = 2 then 0xFFFFF00000040000 else 0) ∧ (∀ r, (v.tile t).rf r = 0)
        ∧ (v.tile t).pc = BitVec.ofNat 64 (s.getF (F.TIL_ENTRY_VALUE t.val)) ∧ (v.tile t).k = true ∧ (v.tile t).ie = false
        ∧ (v.tile t).inbox = [] ∧ (v.tile t).sb = [] ∧ (v.tile t).l1d = [] ∧ (v.tile t).l1i = []
        ∧ (v.tile t).ls = (s.tile t).ls ∧ (v.tile t).lsPoison = (s.tile t).lsPoison
        ∧ (v.tile t).mode = (if s.isF (F.TIL_CTRL_RUN t.val) then .running else .held)
        ∧ v.getF (F.TIL_CTRL_RUN t.val) = s.getF (F.TIL_CTRL_RUN t.val) ∧ (∀ r, r ≠ t → v.tile r = s.tile r)
        ∧ v.getF (F.TIL_AVE_CNT_DISCARD t.val) = min (2 ^ 16 - 1) (s.getF (F.TIL_AVE_CNT_DISCARD t.val) + (s.tile t).inbox.length))
    ∧ (∀ w, (s.tile t).mode = .held → s.haltCovers t = false → s.tileWard t = some w → s.resettingWard w = false →
        ∃ v, exec (.tilRunWrite p t true) s = .next v
          ∧ v.getF (F.TIL_CTRL_RUN t.val) = 1 ∧ v.tile t = { s.tile t with mode := .running, halted := false } ∧ (∀ r, r ≠ t → v.tile r = s.tile r))
    ∧ (∃ v, exec (.tilRunWrite p t false) s = .next v ∧ v.getF (F.TIL_CTRL_RUN t.val) = 0 ∧ v = { s with fld := v.fld }))

/-! ### The store buffer, the Avenues and Lamplighter -/

/-- R272, R273, R298, R312: an entry of the store buffer of a tile that no access holds up drains whole: into the tile's
scratch, into the way of the quarter cache that holds its line in E or M, or, where the quarter does not cache it, as a
WR_INV request with its data. -/
def Obligations.StoreBufferDrainsWhole : Prop :=
  ∀ (s : State) (t : TileId) (k : Nat) (e : SbEntry), (s.tile t).sb[k]? = some e → (∀ l m, (s.tile t).mode ≠ .inMemory l m) →
    let q := tileQuarter t
    let out := fun (v : State) => exec (.storeBufferDrain t k) s = .next v ∧ (v.tile t).sb = (s.tile t).sb.erase e ∧ v.dram = s.dram
    (e.scratch = true → (s.quarter q).scratchTagBad.get false e.line.n = false → s.isF (F.QC_INJ_ARM q.val) = false →
      ∃ v, out v ∧ v = { s with tiles := v.tiles, quarters := v.quarters } ∧ (∀ r, r ≠ t → v.tile r = s.tile r)
        ∧ ∀ j, (v.quarter q).scratch.get 0 j = if j / 64 = e.line.n ∧ e.mask.getLsbD (j % 64) = true then byteAt e.data (j % 64) else (s.quarter q).scratch.get 0 j)
    ∧ (∀ i, e.scratch = false → s.cached q e.ward e.line.host = true → (∀ n, ((s.quarter q).ways.get CWay.free n).tagBad = false) →
      s.qFind q e.line = some i → s.isF (F.QC_INJ_ARM q.val) = false → s.uncachedWrite t e.line = false → s.bufOf q e.line = none →
      let c := (s.quarter q).way (setOf e.line) i
      (c.st = .e ∨ c.st = .m) → c.maskErrs = [] →
      ∃ v, out v ∧ ((v.quarter q).way (setOf e.line) i).st = .m ∧ ((v.quarter q).way (setOf e.line) i).valid = c.valid ||| e.mask
        ∧ ((v.quarter q).way (setOf e.line) i).data = mergeLine c.data e.data e.mask ∧ v.net = s.net)
    ∧ (∀ w, e.scratch = false → s.cached q e.ward e.line.host = false → s.uncachedWrite t e.line = false → s.earlyHere q e.line = false →
      e.ward = w → e.line.host = false →
      let r := { Req.make .wrInv e.line (.tile t) (some w) e.sealed with mask := e.mask }
      let en := { LEntry.make r (.ward w) with wdata := some ⟨e.data, e.poison⟩, relaxed := e.relaxed, ido := e.ido }
      s.grantsNow en = true →
      let x := State.lowestFree s.ledger.entries.cells 0
      ∃ v, out v ∧ v.entry x = some { en with tag := x } ∧ (v.net = (s.sendReq x r).net))

/-- R173, R180: a packet that is the oldest of its buffer and finds room goes one hop on its fixed path; in the mesh the
hop is first along the quarter, then across, and always nearer to the destination. R190, R138, R205, R192, R193: a message at its tile enters the inbox, or is discarded and counted while its ward
resets; the second part of a work record completes the GETWORK; a probe is reflected or absorbed, and its return is
recorded with its trip. -/
def Obligations.PacketsTravelAndArrive : Prop :=
  ((∀ (s : State) (i : Nat) (p : Packet), s.net[i]? = some p → p.cur ≠ p.dst → p.stuck = false → isHead s.net i p = true →
    (∀ t, p.cur = .tile t → (s.tile t).mode = .running) →
    let nx := nextHop p.src p.dst p.cur
    (bufCount s.net p.cur nx p.chan p.lane < bufLimit p.chan p.lane →
      exec (.packetAdvance i) s = .next { s with net := s.net.eraseIdx i ++ [{ p with prev := p.cur, cur := nx }] })
    ∧ (bufLimit p.chan p.lane ≤ bufCount s.net p.cur nx p.chan p.lane → exec (.packetAdvance i) s = .next s))
  ∧ ∀ (a b c : TileId), c ≠ b →
    let dist := fun (x y : TileId) => (x.val % 16 - y.val % 16) + (y.val % 16 - x.val % 16) + (x.val / 16 - y.val / 16) + (y.val / 16 - x.val / 16)
    ∃ n : TileId, nextHop (.tile a) (.tile b) (.tile c) = .tile n ∧ dist n b + 1 = dist c b ∧ (c.val % 16 ≠ b.val % 16 → n.val / 16 = c.val / 16))
  ∧ (∀ (s : State) (i : Nat) (p : Packet) (t : TileId), s.arrived i = some p → p.dst = .tile t → p.prev ≠ p.cur →
    (∀ (m : Msg) (w : WardId), p.payload = .message m → m.gated = false → p.dead = false → s.tileWard t = some w →
      (s.resettingWard p.ward = false → s.resettingWard w = false → (s.tile t).inbox.length < 16 → (s.tile t).mode = .running →
        ∃ v, exec (.msgDeliver i) s = .next v ∧ v = { s with tiles := v.tiles, net := s.net.eraseIdx i } ∧ (∀ r, r ≠ t → v.tile r = s.tile r)
          ∧ v.tile t = { s.tile t with inbox := (s.tile t).inbox ++ [{ m with poison := m.poison || p.poison }] })
      ∧ (s.resettingWard p.ward = true → exec (.msgDeliver i) s = .next (({ s with net := s.net.eraseIdx i }).bumpF (F.TIL_AVE_CNT_DISCARD t.val) 1))
      ∧ (s.resettingWard p.ward = false → s.resettingWard w = false → (s.tile t).inbox.length = 16 → exec (.msgDeliver i) s = .next s))
    ∧ (∀ (it : Item) (a : W64) (rd : BitVec 5) (nd : PlanNode), p.payload = .work false → p.poison = false → p.dead = false → (s.tile t).workIn = some it →
      (s.tile t).workParts = 1 → (s.tile t).workBad = 0 → (s.tile t).mode = .inGetwork a rd → it.ppoison = 0 → s.nodeByKey it.ward it.key = some nd →
      let o := a.toNat - lsBase
      ∃ v, exec (.msgDeliver i) s = .next v ∧ (v.tile t).item = some it ∧ (v.tile t).workIn = none ∧ (v.tile t).mode = .running
        ∧ (v.tile t).pc = (s.tile t).pc + 4 ∧ (∀ r, (v.tile t).rg r = ((s.tile t).wg rd nd.entry).rg r)
        ∧ (∀ j, (v.tile t).ls.get 0 j = if o ≤ j ∧ j < o + 96 then (State.workRecord it nd.arity).getD (j - o) 0 else (s.tile t).ls.get 0 j)
        ∧ v.net = s.net.eraseIdx i ∧ v.gwQueue = s.gwQueue.erase t ∧ (∀ r, r ≠ t → v.tile r = s.tile r))
    ∧ (∀ pr : Probe, p.payload = .probe pr → p.kind = 3 →
      let v := { s with net := s.net.eraseIdx i }
      (s.isF (F.TIL_AVE_MIRROR_MIRROR t.val) = false → exec (.probeArrive i) s = .next (v.bumpF (F.TIL_AVE_MIRROR_ABSORBED t.val) 1))
      ∧ (s.isF (F.TIL_AVE_MIRROR_MIRROR t.val) = true → p.chan = .msg →
        (s.hasCredit (.tile t) 8 = true →
          exec (.probeArrive i) s = .next { v with net := v.net ++ [{ p with kind := 4, src := p.dst, dst := p.src, prev := p.dst, cur := p.dst, ward := (s.tileWard t).getD 0 }] })
        ∧ (s.hasCredit (.tile t) 8 = false → exec (.probeArrive i) s = .next s)))
    ∧ (∀ pr : Probe, p.payload = .probe pr → p.kind = 4 → (s.tile t).probeOut = true → pr.serial = (s.tile t).probeSerial →
      ∃ v, exec (.probeReturn i) s = .next v ∧ v = { s with net := s.net.eraseIdx i, tiles := v.tiles, fld := v.fld }
        ∧ v.tile t = { s.tile t with probeOut := false } ∧ v.getF (F.TIL_AVE_PROBE_RES_RETURNED t.val) = pr.pattern.toNat
        ∧ v.getF (F.TIL_AVE_PROBE_RES_TRIP t.val) = min 0xFFFF (s.supTime - pr.sentAt) ∧ v.getF (F.TIL_AVE_PROBE_RES_DONE t.val) = 1))

/-- R192: GO of TIL_AVE_PROBE clears the result and sends one probe with the pattern to its destination. R38, R39, R187,
R190: a message enters its gate while the buffer has room, or is discarded and counted at its tile while either ward
resets; the oldest message of a gate is delivered to its tile's inbox and counted at the gate and at the tile. The
word that a row writes, and what a port does that may not write it, are the model's reading (log 93). -/
def Obligations.GatesAndProbesSend : Prop :=
  (∀ (s : State) (p : Port) (t : TileId) (val : BitVec 64), heldBack (.probeGo p t val) s p (F.TIL_AVE_PROBE_GO t.val).off none val.toNat true)
  ∧ (∀ (s : State) (t : TileId) (val : BitVec 64), s.carries .s none true → val.getLsbD 48 = true →
    let d : TileId := Fin.ofNat 256 (val.toNat % 256)
    ∃ v pr, exec (.probeGo .s t val) s = .next v ∧ v = { s with net := v.net, tiles := v.tiles, fld := v.fld }
      ∧ v.net = s.net ++ [mkPkt .msg 3 (.tile t) (.tile d) ((s.tileWard t).getD 0) 8 0 false (.probe pr) noLine] ∧ pr.pattern = val.extractLsb' 16 32 ∧ pr.sentAt = s.supTime
      ∧ v.getF (F.TIL_AVE_PROBE_RES_DONE t.val) = 0 ∧ v.tile t = { s.tile t with probeSerial := (s.tile t).probeSerial + 1, probeOut := true })
  ∧ ∀ (s : State) (g : GateId) (gt : Gate), s.gate g.val = some gt →
    (∀ (i : Nat) (p : Packet) (m : Msg), s.arrived i = some p → p.payload = .message m → m.gated = true → m.gate = g.val → p.dead = false → p.prev ≠ p.cur → i < s.net.length →
      let gone := { s with net := s.net.eraseIdx i }
      (∀ t, p.dst = .tile t → s.resettingWard (Fin.ofNat 8 gt.src) = true ∨ s.resettingWard (Fin.ofNat 8 gt.dst) = true →
          exec (.gateEnter g i) s = .next (gone.bumpF (F.TIL_AVE_CNT_DISCARD t.val) 1))
      ∧ (s.resettingWard (Fin.ofNat 8 gt.src) = false → s.resettingWard (Fin.ofNat 8 gt.dst) = false → (s.gateBuf g.val).length < 8 →
          exec (.gateEnter g i) s = .next (gone.setGateBuf g.val (s.gateBuf g.val ++ [{ p with gated := true, gate := g.val }])))
      ∧ (s.resettingWard (Fin.ofNat 8 gt.src) = false → s.resettingWard (Fin.ofNat 8 gt.dst) = false → 8 ≤ (s.gateBuf g.val).length →
          exec (.gateEnter g i) s = .next s))
    ∧ (∀ (p : Packet) (rest : List Packet) (m : Msg) (t : TileId), s.gateBuf g.val = p :: rest → p.payload = .message m → p.dst = .tile t →
      (s.tile t).mode = .running → (s.tile t).inbox.length < 16 →
      ∃ v, exec (.gateDeliver g) s = .next v ∧ v.gateBuf g.val = rest ∧ v = { s with gateBufs := v.gateBufs, fld := v.fld, tiles := v.tiles }
        ∧ v.tile t = { s.tile t with inbox := (s.tile t).inbox ++ [{ m with poison := m.poison || p.poison }] } ∧ (∀ r, r ≠ t → v.tile r = s.tile r)
        ∧ v.getF (F.TIL_AVE_CNT_GATED_IN t.val) = min (2 ^ (F.TIL_AVE_CNT_GATED_IN t.val).w - 1) (s.getF (F.TIL_AVE_CNT_GATED_IN t.val) + 1)
        ∧ v.getF (F.GBL_GATE_CNT_DELIVERED g.val) = min (2 ^ (F.GBL_GATE_CNT_DELIVERED g.val).w - 1) (s.getF (F.GBL_GATE_CNT_DELIVERED g.val) + 1))

/-- R198, R199, R200, R141, R212: a token for a port that its node has, at its ward's turn, is stored, or fires an ANY
node at once into the ready queue of its class; one without a node is discarded and counted. A PUTTOK whose token is
accepted completes. R204, R220, R206, R205, R213, R215: a token whose source waits is admitted when the store takes
it; an item goes to the tile that waits for its pool, which is sent the two packets of the work record; the tick
raises the count and brings the written period into force. Whose turn it is, is the model's reading (log 88). -/
def Obligations.TokensFireAndItemsAreDispatched : Prop :=
  (∀ (s : State) (w : WardId) (k : Nat) (tk : Token) (src : TokSrc), s.arrivals[k]? = some (w, tk, src) → tk.gated = false → tk.delayed = false →
    (∀ x ∈ (s.lampw w).waiting, x.2 ≠ src) → (∀ t, src ≠ .puttok t) →
    let c := Instr.tokenArrive (s.net.length + k)
    let gone := { s with arrivals := s.arrivals.eraseIdx k }
    let nd? := if tk.byKey then s.nodeByKey w tk.node else s.nodeByIndex w tk.node.toNat
    (nd? = none → exec c s = .next (gone.bumpF (F.LMPW_DISCARD_NO_NODE w.val) 1))
    ∧ (∀ nd, nd? = some nd → nd.arity ≤ tk.port.toNat → exec c s = .next (gone.bumpF (F.LMPW_DISCARD_BAD_PORT w.val) 1))
    ∧ (∀ nd, nd? = some nd → tk.port.toNat < nd.arity → s.storeTakes w = true → s.storeTurn w = true → tk.global = false →
      let h : HeldTok := ⟨nd.index, tk.port.toNat, tk.tag, tk.payload, tk.poisoned, tk.last, false⟩
      (nd.rule = 0 → 2 ≤ nd.arity → (∀ x ∈ (s.lampw w).tokens, x.node ≠ nd.index) →
        exec c s = .next ({ gone with storeServed := some w }.setLampw w { s.lampw w with tokens := (s.lampw w).tokens ++ [h] }))
      ∧ (nd.rule = 1 → engineClass nd.cls = false → tk.port.toNat < 4 → (∀ x ∈ (s.lampw w).tokens, x.node ≠ nd.index) →
        ∃ v it, exec c s = .next v ∧ v = { gone with lamp := v.lamp, storeServed := some w } ∧ (v.lampw w).ready = (s.lampw w).ready ++ [it]
          ∧ (v.lampw w).tokens = (s.lampw w).tokens ∧ it.node = nd.index ∧ it.tag = tk.tag ∧ it.cls = nd.cls ∧ it.ward = w
          ∧ it.operands.getD tk.port.toNat 0 = tk.payload ∧ it.last = tk.last ∧ it.slots = 1 ∧ it.readyAt = s.supTime)))
  ∧ (∀ (s : State) (i : Nat) (p : Packet) (tk : Token) (t : TileId) (a : W64), i < s.net.length → s.arrived i = some p → p.payload = .token tk (.puttok t) →
    p.dead = false → p.prev ≠ p.cur → tk.gated = false → tk.delayed = false → (∀ x ∈ (s.lampw p.ward).waiting, x.2 ≠ .puttok t) →
    (s.tile t).mode = .inPuttok a → s.storeTakes p.ward = true → s.storeTurn p.ward = true →
    ∃ v, exec (.tokenArrive i) s = .next v ∧ retiredAs (s.tile t) (v.tile t) ((s.tile t).pc + 4) ∧ v.net = s.net.eraseIdx i ∧ ∀ r, r ≠ t → v.tile r = s.tile r)
  ∧ ((∀ (s : State) (w : WardId) (tk : Token) (src : TokSrc) (rest : List (Token × TokSrc)) (nd : PlanNode), (s.lampw w).waiting = (tk, src) :: rest →
    (∀ t, src ≠ .puttok t) → tk.delayed = false → tk.global = false → s.storeTakes w = true → s.storeTurn w = true →
    (if tk.byKey then s.nodeByKey w tk.node else s.nodeByIndex w tk.node.toNat) = some nd → tk.port.toNat < nd.arity → nd.rule = 0 → 2 ≤ nd.arity →
    (∀ x ∈ (s.lampw w).tokens, x.node ≠ nd.index) →
    let h : HeldTok := ⟨nd.index, tk.port.toNat, tk.tag, tk.payload, tk.poisoned, tk.last, false⟩
    let served : State := { s with storeServed := some w }
    exec (.matchStoreAdmit w) s = .next ((served.setLampw w { s.lampw w with tokens := (s.lampw w).tokens ++ [h] }).setLampw w
      { s.lampw w with tokens := (s.lampw w).tokens ++ [h], waiting := rest }))
  ∧ (∀ (s : State) (w : WardId) (pool : Fin 16) (t : TileId) (it : Item), (∀ x, (s.lampw x).traceQ = []) → s.isF (F.LMPW_CTRL_TRACE_EN w.val) = false →
    s.dispatchStopped w = false → s.dispatchTurn w = true → s.poolTile w pool.val = some t → s.nextItem w pool.val = some it → it.ward = w →
    ∃ v it2, exec (.workDispatchTile w pool) s = .next v ∧ v.tile t = { s.tile t with workIn := some it2, workParts := 0, workBad := 0, lastPool := some pool }
      ∧ it2 = { it with seq := (s.lampw w).seq, waited := min 0xFFFFFFFF (s.supTime - it.readyAt) } ∧ (∀ r, r ≠ t → v.tile r = s.tile r)
      ∧ (v.lampw w).ready = (s.lampw w).ready.erase it ∧ (v.lampw w).running = (s.lampw w).running ++ [⟨it2, true, t.val⟩]
      ∧ (v.lampw w).seq = (s.lampw w).seq + 1 ∧ v.dispatchServed = some w
      ∧ v.net = s.net ++ [mkPkt .msg 2 lampStop (.tile t) w w.val 0 false (.work true) noLine, mkPkt .msg 2 lampStop (.tile t) w w.val 0 false (.work false) noLine])
  ∧ (∀ s : State, s.power.vauxGood = true → (∀ w, (s.lampw w).delays = []) → (∀ w, (s.lampw w).traceQ = []) →
    exec .tick s = .next { s with tickCount := s.tickCount + 1, tickPeriod := s.getF F.LMP_TICK_PERIOD }))

/-- R216, R222, R224, R217, R218: DLY_FLUSH drops the entries of the masked lists that have not begun and counts them;
OBS_CLEAR clears the observations; TAIL is cut to a record within the ring; an edge that its pin's binding takes is
held once it has passed the filter, and its token or vector is delivered. The word that a row writes, and what a port
does that may not write it, are the model's reading (log 93). -/
def Obligations.ListsRingsAndPins : Prop :=
  (∀ (s : State) (p : Port) (w : WardId) (mask : BitVec 8), heldBack (.dlyFlush p w mask) s p (F.LMPW_CTRL_DLY_FLUSH w.val).off (State.ownVf p w 0x3000)
      (State.inWord (F.LMPW_CTRL_DLY_FLUSH w.val) mask.toNat (s.keptWord (F.LMPW_CTRL_DLY_FLUSH w.val).off)) true
    ∧ heldBack (.obsClear p w) s p (F.LMPW_CTRL_OBS_CLEAR w.val).off (State.ownVf p w 0x3000)
      (State.inWord (F.LMPW_CTRL_OBS_CLEAR w.val) 1 (s.keptWord (F.LMPW_CTRL_OBS_CLEAR w.val).off)) true
    ∧ ∀ val, heldBack (.traceTailWrite p w val) s p (F.LMPW_TR_TAIL_TAIL w.val).off (State.ownVf p w 0x3048) val true)
  ∧ (∀ (s : State) (p : Port) (w : WardId) (mask : BitVec 8), s.carries p (State.ownVf p w 0x3000) true →
    let goes := fun (e : DelayEntry) => mask.toNat.testBit e.list && !e.begun
    ∃ v, exec (.dlyFlush p w mask) s = .next v ∧ v = { s with lamp := v.lamp, fld := v.fld }
      ∧ (v.lampw w).delays = (s.lampw w).delays.filter (fun e => !goes e)
      ∧ v.getF (F.LMPW_DISCARD_FLUSHED w.val) = min (2 ^ (F.LMPW_DISCARD_FLUSHED w.val).w - 1)
          (s.getF (F.LMPW_DISCARD_FLUSHED w.val) + ((s.lampw w).delays.filter goes).length))
  ∧ (∀ (s : State) (p : Port) (w : WardId), s.carries p (State.ownVf p w 0x3000) true →
    exec (.obsClear p w) s = .next (s.setLampw w { s.lampw w with obsDepthMax := (s.lampw w).depths, obsBuckets := .empty, obsTile := .empty, obsEng := .empty, obsWindow := 0 }))
  ∧ (∀ (s : State) (p : Port) (w : WardId) (val : Nat), s.carries p (State.ownVf p w 0x3048) true → (s.lampw w).traceQ = [] → val < 2 ^ 30 →
    ∃ v, exec (.traceTailWrite p w val) s = .next v ∧ v.getF (F.LMPW_TR_TAIL_TAIL w.val) = (val / 32 * 32) % s.traceSize w % 2 ^ (F.LMPW_TR_TAIL_TAIL w.val).w
      ∧ v = { s with lamp := v.lamp, fld := v.fld })
  ∧ (∀ (s : State) (pin : Fin 8) (w : WardId) (b : EvtBind), s.bindOf pin = some (w, b) →
    (∀ level, (s.pin pin).level ≠ level → b.filter ≠ 0 →
      exec (.evtEdge pin level) s = .next (s.setPin pin { s.pin pin with level := level, cand := if level = (s.pin pin).passed then none else some (level, s.supTime) }))
    ∧ (∀ level at_, (s.pin pin).cand = some (level, at_) → (s.pin pin).edge = none → (b.edge = 3 ∨ (b.edge = 1 ∧ level = true) ∨ (b.edge = 2 ∧ level = false)) →
      ∃ v, exec (.evtFilterPass pin) s = .next v ∧ v = { s with pins := v.pins, fld := v.fld }
        ∧ v.pin pin = { s.pin pin with passed := level, cand := none, edge := some (s.supTime, 1, level, level), latchTick := s.tickCount })
    ∧ (∀ e nd, (s.pin pin).edge = some e → b.action ≠ 1 → s.resettingWard w = false → s.swapping w = false → s.frozenWard 3 w = false →
      s.nodeByKey w b.nodeKey = some nd → b.port.toNat < nd.arity → nd.rule = 0 → 2 ≤ nd.arity → s.storeTakes w = true → s.storeTurn w = true →
      (∀ x ∈ (s.lampw w).tokens, x.node ≠ nd.index) →
      ∃ v, exec (.evtDeliver pin) s = .next v ∧ v = { s with pins := v.pins, lamp := v.lamp, storeServed := some w } ∧ (v.pin pin).edge = none
        ∧ (v.lampw w).tokens = (s.lampw w).tokens ++ [⟨nd.index, b.port.toNat, b.tag, State.evtPayload e, false, false, false⟩]))

/-! ### The engines of the Row -/

/-- R246, R248, R250, R252, R207: an engine that is not a matrix engine accepts a message of its feed tile, the slot of its
ring, or an item of Lamplighter as a descriptor at the end of its queue; a message that no engine takes is discarded and
counted; a slot that its window does not let it read stops the ring with RING_FAULT. -/
def Obligations.EnginesTakeDescriptors : Prop :=
  ∀ (s : State) (e : EngId), engType e.val ≠ .mxe →
    let x := s.engine e
    let takes := fun (c : Instr) (d : Desc) => ∃ v, exec c s = .next v ∧ (v.engine e).queue = x.queue ++ [{ d with serial := x.serial }]
      ∧ (v.engine e).lastPath = some d.path ∧ (v.engine e).run = x.run ∧ v.dram = s.dram
    (∀ t m, s.feedCand e = some (t, m) → s.nextPath e = some .feed →
      let d := { State.Desc.blank (BitVec.ofNat 512 (ofLe m.bytes)) .feed with descPoison := m.poison, from? := some m.srcTile, feed? := some t }
      takes (.engineAccept e) d
      ∧ (∀ rest, (s.tile t).inbox = m :: rest → s.feedTarget t m = some e → s.coreActive = true → e ∈ s.feedEngines t → takes (.feedMessage t) d))
    ∧ (∀ t m rest, (s.tile t).inbox = m :: rest → s.feedTarget t m = none → s.coreActive = true → e ∈ s.feedEngines t →
      ∃ v, exec (.feedMessage t) s = .next v ∧ v.tile t = { s.tile t with inbox := rest } ∧ v = { s with tiles := v.tiles, fld := v.fld }
        ∧ v.getF (F.TIL_AVE_CNT_DISCARD t.val) = min (2 ^ 16 - 1) (s.getF (F.TIL_AVE_CNT_DISCARD t.val) + 1))
    ∧ (s.nextPath e = some .ring →
      let a := s.ringSlot e (s.getF (F.ENG_RING_HEAD_HEAD e.val))
      (∀ w c, s.engineWard e = some w → s.engXlat e a 64 .read = .inl c → ∃ v, exec (.ringFetch e) s = .next v ∧ v = { s with fld := v.fld }
        ∧ v.getF (F.ENG_STATUS_RING_FAULT e.val) = 1 ∧ v.getF (F.WRD_WINFAULT_CAUSE w.val) = c)
      ∧ (∀ w y, s.engineWard e = some w → s.engXlat e a 64 .read = .inr y → y.host = false → s.engHas e (fun _ => true) = false →
        let en := { LEntry.make (Req.make .rdC y.lineAddr (.engine e) (some w) y.sealed) (.ward w) with relaxed := y.relaxed, ido := y.ido, role := 1 }
        s.grantsNow en = true → ∃ v, exec (.ringFetch e) s = .next v ∧ v.entry (State.lowestFree s.ledger.entries.cells 0) = some { en with tag := State.lowestFree s.ledger.entries.cells 0 }
          ∧ v.tiles = s.tiles ∧ v.dram = s.dram))
    ∧ (∀ w it nd, s.engineWard e = some w → s.leastLoaded w (engType e.val) = some e → s.nextPath e = some .lamp → s.lampCand e = some it → it.ward = w →
      s.dispatchTurn w = true → s.nodeByKey w it.key = some nd → s.isF (F.LMPW_CTRL_TRACE_EN w.val) = false → (s.lampw w).traceQ = [] →
      let it2 := { it with seq := (s.lampw w).seq, waited := min 0xFFFFFFFF (s.supTime - it.readyAt) }
      takes (.workDispatchEngine w (engType e.val)) { State.Desc.blank (State.buildDesc nd it2) .lamp with key := it.key, item := some it2 })

/-- R250, R252, R248, R269, R253: TAIL is held to DONE plus the ring's size; RING_FAULT clears; FEED_EN is taken for a tile of
the engine's own ward and clamped otherwise; a reset of an engine with nothing in flight ends its descriptors ABORTED with
no line committed; reading ENG_LAST0 gives the record's low word and captures it whole. The word that a row writes, and
what a port does that may not write it, are the model's reading (log 93). -/
def Obligations.EngineRegistersControl : Prop :=
  ∀ (s : State) (p : Port) (e : EngId),
    let own := s.ownsEngine p e
    let row := fun (c : Instr) (f : Fld) (vf v : Nat) => heldBack c s p f.off (State.engVf e vf) v own
    let ctrl := fun (f : Fld) (v : Nat) => State.inWord f v (s.keptWord f.off)
    let runs := fun (vf : Nat) => s.carries p (State.engVf e vf) own
    (∀ val, row (.ringTailWrite p e val) (F.ENG_RING_TAIL_TAIL e.val) 0x20 val
      ∧ (runs 0x20 → val < 65536 →
        let dn := s.getF (F.ENG_RING_DONE_DONE e.val)
        ((val + 65536 - dn) % 65536 ≤ s.ringSize e → exec (.ringTailWrite p e val) s = .next (s.setF (F.ENG_RING_TAIL_TAIL e.val) val))
        ∧ (s.ringSize e < (val + 65536 - dn) % 65536 → ∃ v, exec (.ringTailWrite p e val) s = .next v ∧ v = { s with fld := v.fld }
            ∧ v.getF (F.ENG_RING_TAIL_TAIL e.val) = (dn + s.ringSize e) % 65536 ∧ v.getF (F.ENG_CTRL_CLAMPED e.val) = 1)))
    ∧ row (.ringFaultClear p e) (F.ENG_STATUS_RING_FAULT e.val) 8 64
    ∧ (runs 8 → exec (.ringFaultClear p e) s = .next (s.setF (F.ENG_STATUS_RING_FAULT e.val) 0))
    ∧ (∀ t w, row (.feedEnWrite p e true t) (F.ENG_CTRL_FEED_EN e.val) 0 (State.inWord (F.ENG_CTRL_FEED_TILE e.val) t.val (ctrl (F.ENG_CTRL_FEED_EN e.val) 1))
      ∧ (runs 0 → s.engineWard e = some w → (s.tile (Fin.ofNat 256 (s.getF (F.ENG_CTRL_FEED_TILE e.val)))).mode = .running →
        ∃ v, exec (.feedEnWrite p e true t) s = .next v ∧ v = { s with fld := v.fld } ∧ v.getF (F.ENG_CTRL_FEED_TILE e.val) = t.val
          ∧ (s.tileWard t = some w → v.getF (F.ENG_CTRL_FEED_EN e.val) = 1)
          ∧ (s.tileWard t ≠ some w → v.getF (F.ENG_CTRL_FEED_EN e.val) = 0 ∧ v.getF (F.ENG_CTRL_CLAMPED e.val) = 1)))
    ∧ row (.engineReset p e) (F.ENG_CTRL_RESET e.val) 0 (ctrl (F.ENG_CTRL_RESET e.val) 1)
    ∧ (runs 0 → (s.engine e).run = none → s.engHas e (fun _ => true) = false →
      ∃ v, exec (.engineReset p e) s = .next v ∧ v = { s with engines := v.engines } ∧ (v.engine e).run = none
        ∧ (v.engine e).queue = (s.engine e).queue.map (fun d => { d with aborted := some (d.aborted.getD (BitVec.allOnes 64)) }))
    ∧ (runs 0x40 → ∃ v, exec (.engLast0Read p e) s = .next v ∧ (v.engine e).capture = (s.engine e).lastRec ∧ (v.engine e).lastRec = (s.engine e).lastRec
        ∧ v.out = s.out ++ [.readData p ((if p = .s then 0x300040 else 0x80040) + 0x1000 * e.val) ((s.engine e).lastRec.toNat % 2 ^ 64)] ∧ v.fld = s.fld)

/-- R247, R254, R255, R256: an op command executes the front descriptor that carries its OP: PARAM for a bad header, nothing
for COUNT 0, and otherwise, once every operand line has been read, its output lines leave as writes and the descriptor
has status OK. -/
def Obligations.EngineOperationsExecute : Prop :=
  ∀ (s : State) (e : EngId) (d : Desc) (rest : List Desc), (s.engine e).queue = d :: rest → s.coreActive = true → d.aborted = none →
    (s.engine e).run = none → d.descPoison = false → opType d.op = some (engType e.val) → s.headerBad e d = false →
    ∀ c, (c, d.op) ∈ [(Instr.gemm e, 0x01), (.eweAdd e, 0x10), (.eweMul e, 0x11), (.axpby e, 0x12), (.unary e, 0x13), (.convert e, 0x14),
        (.rownorm e, 0x15), (.softmax e, 0x16), (.adamw e, 0x20), (.sgdm e, 0x21), (.factored e, 0x22), (.gather e, 0x30), (.scatter e, 0x31),
        (.scatterAdd e, 0x32), (.pack e, 0x33), (.sum e, 0x40), (.allreduce e, 0x41), (.copy e, 0x50), (.bmeFill e, 0x51), (.strided e, 0x52),
        (.sha256 e, 0x60), (.crc64 e, 0x61)] →
      let plan := s.planOf e d
      let x := s.engine e
      (plan.bad = true → exec c s = .next (s.setEngine e { x with run := some ⟨1, 1, 0, [], 0, 0⟩ }))
      ∧ (plan.bad = false → plan.empty = true → exec c s = .next (s.setEngine e { x with run := some ⟨0, 0, 0, [], 0, 0⟩ }))
      ∧ (∀ b parts, plan.bad = false → plan.empty = false → s.bodyOf e d plan.body = .got b → plan.badBody b = false → s.engineWard e ≠ none →
          s.extentFault e (plan.extents b) = none → s.fetchAll e (State.readsOf (plan.extents b)) = none →
          let o := plan.out b (s.engRd e)
          s.usable e o.parts = (parts, none) →
          let reads := State.readsOf (parts.flatMap (·.touch))
          s.fetchAll e reads = none → s.readsPoison e (State.readsOf (plan.extents b) ++ reads) = false → o.index = none →
          let outs := parts.foldl (fun outs p => (p.chunks (s.engRd e) (s.engRdNow e outs)).foldl (s.addChunk e) outs) []
          (∀ y ∈ outs, y.poison = false) →
          ∃ u v, exec c s = .next v ∧ u = { s with fld := u.fld, freeCtr := u.freeCtr } ∧ (engType e.val ≠ .mxe → u = s)
            ∧ v = outs.foldl (fun z y => z.writeOut e y) (u.setEngine e { x with run := some ⟨0, 0, BitVec.ofNat 64 o.detail, outs, o.rflags, 0⟩ }))

/-- R247, R249, R251, R253, R210, R220: an executed descriptor whose lines are committed completes through its path: it leaves
the queue, its record stands in ENG_LAST, it is counted; a ring's DONE rises; an item's output tokens carry the record, and
the item ends when all of them are accepted; a descriptor whose OP the engine does not perform ends with status PARAM. -/
def Obligations.EnginesCompleteTheirDescriptors : Prop :=
  ∀ (s : State) (e : EngId) (d : Desc) (rest : List Desc), (s.engine e).queue = d :: rest → s.power.coreUp = true → s.tokensOut (.engine e) = false →
    let rec_ := fun (status cflags : Nat) (detail : W64) => BitVec.ofNat 128
      (status + 2 ^ 8 * e.val + 2 ^ 16 * (cflags % 256) + 2 ^ 24 * d.op + 2 ^ 32 * d.tagN + 2 ^ 64 * detail.toNat)
    let ends := fun (v : State) (r : BitVec 128) => exec (.engineComplete e) s = .next v ∧ (v.engine e).queue = rest ∧ (v.engine e).run = none
      ∧ (v.engine e).lastRec = r ∧ v.getF (F.ENG_CNT_DESCS e.val) = min (2 ^ (F.ENG_CNT_DESCS e.val).w - 1) (s.getF (F.ENG_CNT_DESCS e.val) + 1)
    (∀ r, (s.engine e).run = some r → s.engCommitted e = true → d.path = .ring → d.irq = false → r.ringBack ≠ 0 → s.engHas e (fun x => x.role == 2) = false →
      ∃ v, ends v (rec_ r.status r.cflags r.detail) ∧ v.getF (F.ENG_RING_DONE_DONE e.val) = (s.getF (F.ENG_RING_DONE_DONE e.val) + 1) % 65536)
    ∧ (∀ r, (s.engine e).run = some r → s.engCommitted e = true → d.path = .feed → d.irq = false → d.replyBit = false →
      ∃ v, ends v (rec_ r.status r.cflags r.detail))
    ∧ (∀ r it nd o, (s.engine e).run = some r → s.engCommitted e = true → d.path = .lamp → d.item = some it → s.nodeByKey it.ward it.key = some nd →
      nd.outs = [o] → OutEntry.valid o = true → OutEntry.vectorFlag o = false → OutEntry.gateFlag o = false →
      (r.ringBack = 0 → ∃ v tk, exec (.engineComplete e) s = .next v ∧ v.arrivals = s.arrivals ++ [(it.ward, tk, .engine e)] ∧ tk.node = o.target
        ∧ tk.port = o.port ∧ tk.tag = it.tag ∧ tk.payload = rec_ r.status r.cflags r.detail ∧ tk.tflags.getLsbD 0 = r.cflags.testBit 0
        ∧ (v.engine e).queue = d :: rest ∧ (v.engine e).run = some { r with ringBack := 1 } ∧ v.lamp = s.lamp)
      ∧ (r.ringBack ≠ 0 → ∃ v, ends v (rec_ r.status r.cflags r.detail) ∧ v.arrivals = s.arrivals
        ∧ (v.lampw it.ward).running = (s.lampw it.ward).running.filter (fun x => x.item.seq != it.seq)))
    ∧ ((s.engine e).run = none → d.aborted = none → d.descPoison = false → opType d.op ≠ some (engType e.val) → d.path = .feed → d.irq = false →
      d.replyBit = false → ∃ v, ends v (rec_ 1 1 0))

/-! ### Quarter caches -/

/-- R328, R329, R335: a snoop waits while the line's hold window is open; otherwise its quarter answers it by the state of
the line there, or from its write-back buffer, gives up or keeps its copy as the table of R328 says, and sends SNP_MASK before
data of which not every byte is valid, which it counts as a masked fill; a line whose tag was lost is answered LOST. R298,
R299, R297: a grant leaves its packet at once and waits for its DATA; once the line has come it is installed in the way that
the ward's allocation takes, shared or exclusive, or joined to the bytes stored while it was asked for; GNT_X makes an asking
line M; the entry closes. -/
def Obligations.SnoopsAndGrantsReachTheQuarter : Prop :=
  (∀ (s : State) (i : Nat) (p : Packet) (q : QuarterId) (h : Nat) (k : SnpKind) (c : Instr),
    (c, k) ∈ [(Instr.inv i, SnpKind.inv), (.snpS i, .snpS), (.snpInv i, .snpInv), (.snpCur i, .snpCur)] →
    s.arrived i = some p → p.chan = .snp → p.kind = k.code → stopQuarter p.dst = some q → stopHome p.src = some h →
    s.freezes q = false → s.grantInFlight q p.about = false →
    let l := p.about
    let way := fun (u : State) (w : Nat) => (u.quarter q).way (setOf l) w
    let answers := fun (rsps : List (RspKind × Payload × Bool)) (fills : Nat) (P : State → Prop) => ∃ u, exec c s = .next (u.wakeQuarter q)
      ∧ u = { s with net := u.net, quarters := u.quarters, tiles := u.tiles, fld := u.fld } ∧ P u
      ∧ (∀ t, u.tile t = { s.tile t with l1d := (u.tile t).l1d, l1i := (u.tile t).l1i, fetchBuf := (u.tile t).fetchBuf })
      ∧ (∀ q2, q2 ≠ q → u.quarter q2 = s.quarter q2) ∧ (fills = 0 → u.fld = s.fld)
      ∧ u.getF (F.QC_CNT_VALUE q.val 3) = min (2 ^ (F.QC_CNT_VALUE q.val 3).w - 1) (s.getF (F.QC_CNT_VALUE q.val 3) + fills)
      ∧ u.net = s.net.eraseIdx i ++ rsps.map (fun r => mkPkt .rsp r.1.code (quarterStop q (homeStop h)) (homeStop h) 0 0 p.xid r.2.2 r.2.1 l)
    let ack := [(RspKind.ack, Payload.empty false, false)]
    (∀ w, s.qFind q l = some w → (way s w).hold = true → exec c s = .next s)
    ∧ ((∀ w < 16, (way s w).tagBad = false) → s.isF (F.QC_INJ_ARM q.val) = false → s.getF (F.QC_CNT_VALUE q.val 3) < 2 ^ (F.QC_CNT_VALUE q.val 3).w →
      (s.qFind q l = none → (s.quarter q).lost = [] → (s.quarter q).bufs = [] → answers ack 0 (fun u => u.quarters = s.quarters))
      ∧ ((s.quarter q).lost = [l] → (∀ w, s.qFind q l = some w → (way s w).hold = false) → answers [(.lost, .empty false, false)] 0 (fun u => (u.quarter q).lost = []))
      ∧ (∀ b, s.qFind q l = none → (s.quarter q).lost = [] → (s.quarter q).bufs = [b] → b.line = l → (b.kind = .wb ∨ b.kind = .wbP) → k ≠ .inv →
          answers (if b.mask = fullMask then [(.data, .line b.v b.sealWard, b.v.poison)]
            else [(.snpMask, .mask b.mask, false), (.data, .line b.v b.sealWard, b.v.poison)]) 0 (fun u => u.quarters = s.quarters))
      ∧ (∀ w, s.qFind q l = some w → (way s w).hold = false → (way s w).errs = [] → (way s w).maskErrs = [] → (s.quarter q).lost = [] →
        let y := way s w
        let now := fun (z : CWay) (u : State) => way u w = z
        let fills := if y.valid = fullMask then 0 else 1
        let data := if y.valid = fullMask then [(RspKind.data, Payload.line ⟨y.data, y.poison⟩ y.sealWard, y.poison)]
          else [(.snpMask, .mask y.valid, false), (.data, .line ⟨y.data, y.poison⟩ y.sealWard, y.poison)]
        (y.st = .s → answers ack 0 (now (if k = .inv then CWay.free else y)))
        ∧ (y.st = .e → k = .snpS → answers [(.ackS, .empty false, false)] 0 (now { y with st := .s }))
        ∧ (y.st = .e → k = .snpInv → answers ack 0 (now CWay.free))
        ∧ (y.st = .e → k = .snpCur → answers [(.ackS, .empty false, false)] 0 (now y))
        ∧ (y.st = .m → k = .snpS → answers data fills (now (if y.valid = fullMask then { y with st := .s } else CWay.free)))
        ∧ (y.st = .m → k = .snpInv → answers data fills (now CWay.free))
        ∧ (y.st = .m → k = .snpCur → answers data fills (now y))
        ∧ (y.st = .sm → k = .inv → answers ack 0 (now { y with st := .im, valid := y.upgMask }))
        ∧ ((y.st = .im ∨ y.st = .sm ∧ k ≠ .inv ∨ (y.st = .e ∨ y.st = .m) ∧ k = .inv) → answers ack 0 (now y)))))
  ∧ (∀ (s : State) (i : Nat) (p : Packet) (q : QuarterId) (e : LEntry), s.arrived i = some p → p.chan = .rsp → s.quarterEntry p = some (q, e) →
    e.pend = 1 → e.aborted = false → (∀ x e2, s.entry x = some e2 → e2.req.src.quarter? = some q → e2.grant = none) → s.isF (F.QC_INJ_ARM q.val) = false →
    (∀ w < 16, ((s.quarter q).way (setOf e.req.line) w).tagBad = false) →
    let l := e.req.line
    let way := fun (u : State) (w : Nat) => (u.quarter q).way (setOf l) w
    let leaves := fun (c : Instr) (P : State → Prop) => ∃ u, exec c s = .next ((u.wakeQuarter q).drainPump q) ∧ u.net = s.net.eraseIdx i
      ∧ (∀ x, x ≠ p.xid → u.entry x = s.entry x) ∧ P u
    let installs := fun (c : Instr) (w : Nat) (z : CWay) => leaves c (fun u => way u w = z ∧ u.entry p.xid = none)
    (∀ c (excl : Bool), (c, excl) ∈ [(Instr.gntS i, false), (.gntE i, true)] → p.kind = (if excl then 2 else 1) →
      (e.rdata = none → leaves c (fun u => u.quarters = s.quarters ∧ u.entry p.xid = some { e with grant := some (if excl then .gntE else .gntS, p.poison) }))
      ∧ (∀ v w, e.rdata = some v → s.qFind q l = none → s.pickWay q (e.req.ward.getD 0) (setOf l) = some w → (way s w).held = false →
          installs c w { CWay.free with line := l, st := if excl then .e else .s, valid := fullMask, poison := v.poison || p.poison || e.bad, data := v.data,
                                        hold := excl && s.holdOn, ward := e.req.ward.getD 0, sealed := e.req.sealed })
      ∧ (∀ v w, e.rdata = some v → excl = true → s.qFind q l = some w → (way s w).st = .im → (way s w).maskErrs = [] →
          leaves c (fun u => (way u w).st = .m ∧ (way u w).valid = fullMask ∧ (way u w).data = mergeLine v.data (way s w).data (way s w).valid
            ∧ u.entry p.xid = none)))
    ∧ (∀ w, p.kind = 3 → s.qFind q l = some w → ((way s w).st = .sm ∨ (way s w).st = .im) → (way s w).maskErrs = [] →
        leaves (.gntX i) (fun u => (way u w).st = .m ∧ (way u w).valid = (way s w).valid ∧ (way u w).data = (way s w).data
          ∧ (way u w).hold = s.holdOn ∧ u.entry p.xid = none)))

/-- R311, R313, R315, R318, R335: the end of a hold window; clearing ENABLE begins the drain and drops the L1 copies, which
ends when nothing is left; ENABLE is refused while it drains; a quarter reset puts every tile at its reset entry; an armed
injection with a clamped BYTE. The word that a row writes, and what a port does that may not write it, are the model's
reading (log 93). -/
def Obligations.QuarterRegistersControlTheCache : Prop :=
  ∀ (s : State) (q : QuarterId),
    let ctrl := fun (f : Fld) (v : Nat) => State.inWord f v (s.keptWord f.off)
    (∀ l w, s.qFind q l = some w → ∃ v, exec (.holdExpire q l) s = .next v ∧ v = { s with quarters := v.quarters }
      ∧ (v.quarter q).way (setOf l) w = { (s.quarter q).way (setOf l) w with hold := false })
    ∧ (s.draining q = true → s.drainEmpty q = true → exec (.qcDrainDone q) s = .next (s.setF (F.QC_STATUS_DRAINING q.val) 0))
    ∧ (∀ p x, heldBack (.qcDisable p q) s p (F.QC_CTRL_ENABLE q.val).off none (ctrl (F.QC_CTRL_ENABLE q.val) 0) true
      ∧ heldBack (.qcEnable p q) s p (F.QC_CTRL_ENABLE q.val).off none (ctrl (F.QC_CTRL_ENABLE q.val) 1) true
      ∧ heldBack (.qreset p q) s p (F.QC_CTRL_QRESET q.val).off none (ctrl (F.QC_CTRL_QRESET q.val) 1) true
      ∧ heldBack (.qcInjArm p q x) s p (F.QC_INJ_ARM q.val).off none x.toNat true)
    ∧ (s.carries .s none true →
      (s.isF (F.QC_CTRL_ENABLE q.val) = true → ∃ u : State, exec (.qcDisable .s q) s = .next (u.drainPump q) ∧ u.getF (F.QC_CTRL_ENABLE q.val) = 0
        ∧ u.getF (F.QC_STATUS_DRAINING q.val) = 1 ∧ u = { s with fld := u.fld, tiles := u.tiles }
        ∧ (∀ t, u.tile t = if tileQuarter t = q then { s.tile t with l1d := [], l1i := [], fetchBuf := none } else s.tile t))
      ∧ (s.isF (F.QC_CTRL_ENABLE q.val) = false → exec (.qcDisable .s q) s = .next s)
      ∧ exec (.qcEnable .s q) s = .next (if s.draining q then s.setF (F.QC_STATUS_REFUSED q.val) 1 else s.setF (F.QC_CTRL_ENABLE q.val) 1)
      ∧ (∃ v, exec (.qreset .s q) s = .next v ∧ ∀ t, tileQuarter t = q → (v.tile t).k = true ∧ (v.tile t).ie = false ∧ (v.tile t).inbox = []
          ∧ (v.tile t).sb = [] ∧ (v.tile t).pc = BitVec.ofNat 64 (s.getF (F.TIL_ENTRY_VALUE t.val)) ∧ (v.tile t).ls = (s.tile t).ls
          ∧ (v.tile t).mode = (if s.isF (F.TIL_CTRL_RUN t.val) then .running else .held))
      ∧ (∀ x : BitVec 64, ∃ v, exec (.qcInjArm .s q x) s = .next v ∧ v = { s with fld := v.fld }
          ∧ v.getF (F.QC_INJ_ARRAY q.val) = (if x.getLsbD 1 then 1 else 0)
          ∧ v.getF (F.QC_INJ_BYTE q.val) = (if x.getLsbD 1 then min (x.extractLsb' 8 6).toNat 40 else (x.extractLsb' 8 6).toNat)
          ∧ v.getF (F.QC_INJ_MASK q.val) = (x.extractLsb' 16 13).toNat ∧ v.getF (F.QC_INJ_WAYS q.val) = (x.extractLsb' 32 16).toNat
          ∧ (x.getLsbD 0 = true → v.getF (F.QC_INJ_ARM q.val) = 1) ∧ (x.getLsbD 0 = false → v.getF (F.QC_INJ_ARM q.val) = s.getF (F.QC_INJ_ARM q.val))
          ∧ (x.getLsbD 1 = true → 40 < (x.extractLsb' 8 6).toNat → v.getF (F.QC_STATUS_CLAMPED q.val) = 1)))

/-! ### Homes and the host-line filter -/

/-- R324, R330, R336–R339: what a home makes of a request to a line that is free and on which nothing is at work: a read
opens a transaction that reads memory, or is answered with zeros where the part was never written; an upgrade is granted; a
write is told to send its data; a write-back that is not the X holder's and a notice are done. Each admission is counted,
and a request that will need an entry of the directory takes it (R341). R324: what a home makes of a request to a line that a cache holds and on which nothing is at work: the X holder is
snooped, with SNP_CUR for a coherent read, SNP_S for RD_S, SNP_INV for RD_X, UPG and OWN; sharers get INV; the X holder's
own write-back is told to send its data, and its notice frees the entry. -/
def Obligations.HomesServeRequests : Prop :=
  (∀ (s : State) (i h : Nat) (p : Packet) (r : Req) (c : Instr), s.asks i h p r → s.lineQuiet h r.line → h < 16 → s.dirGet h r.line.n = none →
    (c, r.kind) ∈ [(Instr.rdS i, ReqKind.rdS), (.rdX i, .rdX), (.upg i, .upg), (.own i, .own), (.fill i, .fill), (.wb i, .wb), (.wbP i, .wbP),
      (.evict i, .evict), (.rdC i, .rdC), (.wrInv i, .wrInv), (.atP i, .atP), (.atFar i, .atFar), (.hRd i, .hRd), (.hWr i, .hWr)] →
    let net := s.net.eraseIdx i
    let rsp := homeRsp h p.xid r
    let admitted := fun (v : State) (net : List Packet) => exec c s = .next v ∧ homesOnly s v net ∧ (∀ j, j ≠ h → v.homeN j = s.homeN j)
      ∧ v.getF (F.HOM_DIR_CNT_VALUE h 0) = min (2 ^ 64 - 1) (s.getF (F.HOM_DIR_CNT_VALUE h 0) + 1) ∧ v.dram = s.dram
    let far := decide (r.kind = .atFar) || (decide (r.kind = .atP) && decide (2 ≤ ((s.homeN h).pred.get 1 (predIx r.line.n)).toNat))
    (r.kind.isRead = true → s.partInit r.line.n = true →
      ∃ v, admitted v net ∧ (v.homeN h).txns = (s.homeN h).txns ++ [{ State.Txn.start p.xid r r.line with far := far }]
        ∧ (∀ n, v.dirGet h n = if n = r.line.n ∧ State.needsEntry r = true then some ⟨0, false, false, (s.homeN h).useCtr + 1⟩ else s.dirGet h n))
    ∧ ((r.kind = .rdC ∨ r.kind = .fill ∨ r.kind = .hRd ∧ r.mv = .i) → s.partInit r.line.n = false →
      ∃ v, admitted v (net ++ [rsp .data (.line ⟨0, false⟩ r.sealWard) false]) ∧ (v.homeN h).txns = (s.homeN h).txns ∧ v.dirGet h r.line.n = none)
    ∧ (∀ q, r.kind = .upg ∨ r.kind = .own → r.holder = some q →
      ∃ v d, admitted v (net ++ [rsp .gntX (.empty false) false]) ∧ (v.homeN h).txns = (s.homeN h).txns ∧ v.dirGet h r.line.n = some d
        ∧ d.pres = presOf [q] ∧ d.excl = true ∧ d.poison = false)
    ∧ (r.kind.dataFirst = true →
      ∃ v, exec c s = .next v ∧ homesOnly s v (net ++ [rsp .wgo (.empty false) false]) ∧ (v.homeN h) = { s.homeN h with wbufs := (s.homeN h).wbufs ++ [⟨p.xid, r, none⟩] }
        ∧ v.fld = s.fld ∧ v.dram = s.dram ∧ (∀ j, j ≠ h → v.homeN j = s.homeN j))
    ∧ ((r.kind = .wb ∨ r.kind = .wbP ∨ r.kind = .evict) → r.src ≠ .host →
      ∃ v, admitted v (net ++ [rsp .done (.empty false) false]) ∧ (v.homeN h).txns = (s.homeN h).txns ∧ v.dirGet h r.line.n = none))
  ∧ (∀ (s : State) (i h : Nat) (p : Packet) (r : Req) (c : Instr) (d : DirEntry), s.asks i h p r → s.lineQuiet h r.line → h < 16 →
    s.dirGet h r.line.n = some d → d.poison = false →
    (c, r.kind) ∈ [(Instr.rdS i, ReqKind.rdS), (.rdX i, .rdX), (.upg i, .upg), (.own i, .own), (.fill i, .fill), (.wb i, .wb), (.wbP i, .wbP),
      (.evict i, .evict), (.rdC i, .rdC)] →
    let net := s.net.eraseIdx i
    let line := r.line
    let snp := fun (k : SnpKind) (q : QuarterId) =>
      mkPkt .snp k.code (homeStop h) (quarterStop q (homeStop h)) 0 0 p.xid false (.lineSnoop line) line
    let waits := fun (holder : Option (Fin 17)) (l : List (Fin 17)) (pkts : List Packet) => ∃ v, exec c s = .next v ∧ homesOnly s v (net ++ pkts)
      ∧ (v.homeN h).txns = (s.homeN h).txns ++ [{ State.Txn.start p.xid r line with phase := .snoop l, holder := holder }]
      ∧ (∀ n, v.dirGet h n = if n = line.n then some { d with lastUse := (s.homeN h).useCtr + 1 } else s.dirGet h n) ∧ v.dram = s.dram
    (∀ q : QuarterId, d.excl = true → d.pres = presOf [quarterHolder q] → r.holder ≠ some (quarterHolder q) → (s.quarter q).fenced = false →
      (r.kind = .rdS → waits (some (quarterHolder q)) [quarterHolder q] [snp .snpS q])
      ∧ (r.kind = .rdX ∨ r.kind = .upg ∨ r.kind = .own → waits (some (quarterHolder q)) [quarterHolder q] [snp .snpInv q])
      ∧ (r.kind = .rdC ∨ r.kind = .fill → waits (some (quarterHolder q)) [quarterHolder q] [snp .snpCur q]))
    ∧ (∀ a b : QuarterId, a ≠ b → d.excl = false → d.pres = presOf [quarterHolder a, quarterHolder b] → r.holder = some (quarterHolder a) → (s.quarter b).fenced = false →
      (r.kind = .rdX ∨ r.kind = .upg ∨ r.kind = .own → waits none [quarterHolder b] [snp .inv b]))
    ∧ (∀ q, d.excl = true → d.pres = presOf [q] → r.holder = some q →
      (r.kind = .wb ∨ r.kind = .wbP → ∃ v t, exec c s = .next v ∧ homesOnly s v (net ++ [homeRsp h p.xid r .wgo (.empty false) false])
        ∧ (v.homeN h).txns = (s.homeN h).txns ++ [t] ∧ t.req = r ∧ t.xid = p.xid ∧ t.line = line ∧ t.phase = .writeData ∧ v.dram = s.dram)
      ∧ (r.kind = .evict → r.src ≠ .host → ∃ v, exec c s = .next v ∧ homesOnly s v (net ++ [homeRsp h p.xid r .done (.empty false) false])
        ∧ (v.homeN h).txns = (s.homeN h).txns ∧ v.dirGet h line.n = none ∧ v.dram = s.dram)))

/-- R331–R333, R353: a request to a line at work is refused: a quarter's with RETRY, with the quarter's slot reserved for the
line unless it holds another; a cacheless one with NACK; the host's waits in the home. The eighth NACK promotes. -/
def Obligations.BusyLinesRefuse : Prop :=
  ∀ (s : State) (i h : Nat) (p : Packet) (r : Req) (c : Instr), s.asks i h p r → (s.lineActive h r.line = true ∨ s.lineWaited h r.line = true) →
    (r.kind = .hWr → s.hostCopyAsked h r.line = false) →
    (c, r.kind) ∈ [(Instr.rdS i, ReqKind.rdS), (.rdX i, .rdX), (.upg i, .upg), (.own i, .own), (.fill i, .fill), (.wb i, .wb), (.wbP i, .wbP),
      (.evict i, .evict), (.rdC i, .rdC), (.wrInv i, .wrInv), (.atP i, .atP), (.atFar i, .atFar), (.hRd i, .hRd), (.hWr i, .hWr)] →
    let net := s.net.eraseIdx i
    let ref := (s.homeN h).refused
    let r0 := { r with refusedAt := some (r.refusedAt.getD (s.homeN h).useCtr) }
    let slot := ref.all (fun e => e.2.src.quarter? != r.src.quarter? || decide (e.2.kind = .atFar) || decide (e.2.line = r.line))
    let refuses := fun (k : RspKind) (r2 : Req) (ref2 : List (Nat × Req)) => ∃ v, exec c s = .next v ∧ homesOnly s v (net ++ [homeRsp h p.xid r k (.request r2) false])
      ∧ (v.homeN h).refused = ref2 ∧ (v.homeN h).txns = (s.homeN h).txns ∧ (v.homeN h).dir = (s.homeN h).dir ∧ v.dram = s.dram
    (r.src.quarter?.isSome = true → r.kind ≠ .atFar → slot = true → refuses .retry r0 (ref ++ [(p.xid, r0)]))
    ∧ (r.src.quarter?.isSome = true → r.kind ≠ .atFar → slot = false → refuses .retry { r0 with arrived := true } ref)
    ∧ (r.src ≠ .host → (r.src.quarter? = none ∨ r.kind = .atFar) → r.nacks + 1 < 8 → refuses .nack { r0 with nacks := r.nacks + 1, arrived := true } ref)
    ∧ (r.src ≠ .host → (r.src.quarter? = none ∨ r.kind = .atFar) → 8 ≤ r.nacks + 1 → (ref.filter (fun e => decide (8 ≤ e.2.nacks))).length < 16 →
        refuses .nack { r0 with nacks := 8 } (ref ++ [(p.xid, { r0 with nacks := 8 })]))
    ∧ (r.src = .host → r.kind = .hRd → ∃ v, exec c s = .next v ∧ homesOnly s v net ∧ (v.homeN h).refused = ref ++ [(p.xid, { r0 with called := true, arrived := true })])
    ∧ (r.src = .host → r.kind = .hWr → ∃ v, exec c s = .next v ∧ homesOnly s v (net ++ [homeRsp h p.xid r .wgo (.empty false) false])
        ∧ (v.homeN h).refused = ref ++ [(p.xid, { r0 with called := true })] ∧ (v.homeN h).wbufs = (s.homeN h).wbufs ++ [⟨p.xid, r0, none⟩])

/-- R324, R326, R328: a snooped quarter's answer is taken out of what its transaction waits for; the last one lets the
transaction go on: to memory, or to its end, where returned dirty data is written back and the requester is granted the
line. LOST from the X holder poisons the line. -/
def Obligations.SnoopAnswersReachTheHome : Prop :=
  ∀ (s : State) (i h : Nat) (p : Packet) (q : QuarterId) (c : Instr) (k : RspKind) (t : Txn) (left : List (Fin 17)), s.arrived i = some p →
    (c, k) ∈ [(Instr.ack i, RspKind.ack), (.ackS i, .ackS), (.snpMask i, .snpMask), (.lost i, .lost), (.data i, .data)] →
    stopHome p.dst = some h → stopQuarter p.src = some q → p.chan = .rsp → p.kind = k.code → t.phase = .snoop left → quarterHolder q ∈ left →
    s.onlyTxn h t → t.xid = p.xid → t.line = p.about →
    let net := s.net.eraseIdx i
    let qh := quarterHolder q
    let n := t.line.n
    let r := t.req
    let excl := ((s.dirGet h n).map (·.excl)).getD false
    let keeps := fun (t2 : Txn) => ∃ v, exec c s = .next v ∧ v = { s with net := net, homes := v.homes }
      ∧ v.homeN h = { s.homeN h with txns := (s.homeN h).txns.map (fun u => if u.xid = t.xid ∧ u.line = t.line then t2 else u) }
    let ended := fun (v : State) => (v.homeN h).txns = (s.homeN h).txns.filter (fun u => !(u.xid == t.xid && decide (u.line = t.line)))
    (∀ m, k = .snpMask → p.payload = .mask m → keeps { t with got := some ⟨m, ⟨0, false⟩, none⟩ })
    ∧ (left.erase qh ≠ [] →
      (∀ b, p.payload = .empty b → (k = .ack ∨ k = .lost ∧ excl = false) → keeps { t with phase := .snoop (left.erase qh) })
      ∧ (∀ b, p.payload = .empty b → k = .ackS → keeps { t with phase := .snoop (left.erase qh), kept := true })
      ∧ (∀ v w, p.payload = .line v w → k = .data →
          keeps { t with phase := .snoop (left.erase qh), got := some ⟨(t.got.map (·.mask)).getD fullMask, { v with poison := v.poison || p.poison }, w⟩, kept := t.got.isNone }))
    ∧ (left = [qh] → h < 16 → r.line = t.line → t.rd = none → t.got = none → t.wdata = none → t.far = false → t.poisoned = false → s.partInit n = true →
        s.isF (F.HOM_ECC_INJ_ARM (homeOf (n * 64))) = false → ∀ d r0, s.dirGet h n = some d → d.excl = true → d.pres = presOf [qh] → t.holder = some qh →
        r.holder = some r0 → r0 ≠ qh →
      let mine := fun (v : State) (poison : Bool) => ∃ d2, v.dirGet h n = some d2 ∧ d2.pres = presOf [r0] ∧ d2.excl = true ∧ d2.poison = poison
      (∀ b, p.payload = .empty b → k = .ack → r.kind = .rdX → keeps { t with phase := .dram })
      ∧ (∀ b, p.payload = .empty b → k = .ack → (r.kind = .upg ∨ r.kind = .own) → ∃ v, exec c s = .next v ∧ ended v ∧ mine v false
          ∧ homesOnly s v (net ++ [homeRsp h t.xid r .gntX (.empty false) false]) ∧ v.dram = s.dram)
      ∧ (∀ x, p.payload = .line x r.sealWard → p.poison = false → k = .data → r.kind = .rdX → ∃ v, exec c s = .next v ∧ ended v ∧ mine v x.poison
          ∧ homesOnly s v (net ++ [homeRsp h t.xid r .data (.line x r.sealWard) x.poison, homeRsp h t.xid r .gntE (.empty false) false])
          ∧ lineWritten s v n (s.sealWith r.sealWard n x.data) x.poison)
      ∧ (∀ b, p.payload = .empty b → k = .lost → r.kind = .rdX → ∃ v x, exec c s = .next v ∧ ended v ∧ mine v true
          ∧ v.net = net ++ [homeRsp h t.xid r .data (.line ⟨x, true⟩ r.sealWard) true, homeRsp h t.xid r .gntE (.empty false) false]
          ∧ lineWritten s v n (s.sealWith r.sealWard n (s.lineView r.sealWard n)) true))

/-- R324, R337, R381, R339, R325, R391: a transaction ends when its read of memory is complete, with the answers and the entry
of its kind; a far atomic leaves the new value in memory and the entry free; an uncorrectable read is delivered poisoned. -/
def Obligations.MemoryReadsEndTransactions : Prop :=
  ∀ (s : State) (h : HomeId) (x : Nat) (err : DramErr) (t : Txn) (dd : Nat), s.onlyTxn h.val t → t.xid = x → t.phase = .dram → t.got = none → t.poisoned = false →
    t.req.line = t.line → s.uncachedLine h.val t.line → err.bitmapBad = false → err.keyBad = none →
    let n := t.line.n
    let r := t.req
    let c := Instr.dramReadComplete h x err
    let v0 := s.unsealWith r.sealWard n (BitVec.ofNat 512 dd)
    let rsp := homeRsp h.val x r
    let entry := fun (v : State) (e : Option (BitVec 17 × Bool)) => (v.dirGet h.val n).map (fun d => (d.pres, d.excl)) = e
    (s.dramOutcome n err.masks = .clean dd →
      let ends := fun (rsps : List Packet) (e : Option (BitVec 17 × Bool)) => ∃ v, exec c s = .next v ∧ homesOnly s v (s.net ++ rsps) ∧ entry v e
        ∧ (v.homeN h.val).txns = (s.homeN h.val).txns.filter (fun u => !(u.xid == x && decide (u.line = t.line))) ∧ v.dram = s.dram ∧ v.fld = s.fld
      let data := rsp .data (.line ⟨v0, false⟩ r.sealWard) false
      (t.far = false →
        ((r.kind = .rdC ∨ r.kind = .fill ∨ r.kind = .hRd ∧ r.mv = .i) → ends [data] none)
        ∧ (∀ q, r.holder = some q → r.kind = .rdX → ends [data, rsp .gntE (.empty false) false] (some (presOf [q], true)))
        ∧ (∀ q, r.holder = some q → r.kind = .rdS → s.commonsLine t.line = false → ends [data, rsp .gntE (.empty false) false] (some (presOf [q], true)))
        ∧ (∀ q, r.holder = some q → r.kind = .rdS → s.commonsLine t.line = true → ends [data, rsp .gntS (.empty false) false] (some (presOf [q], false)))
        ∧ (r.src = .host → r.kind = .hRd → r.mv ≠ .i → ends [data] (some (presOf [hostHolder], decide (r.mv = .a)))))
      ∧ (∀ a, r.at? = some a → (r.kind = .atFar ∨ r.kind = .atP) → t.far = true → s.partInit n = true → s.isF (F.HOM_ECC_INJ_ARM (homeOf (n * 64))) = false →
          let old := lineBytes v0 a.off a.size
          ∃ v, exec c s = .next v ∧ homesOnly s v (s.net ++ [rsp .atRes (.oldValue (BitVec.ofNat 64 old) false) false]) ∧ entry v none
            ∧ lineWritten s v n (s.sealWith r.sealWard n (mergeLine v0 (placeBytes a.off a.size (a.apply old)) (rangeMask a.off a.size))) false))
    ∧ (s.dramOutcome n err.masks = .uncorrectable dd → r.kind = .rdC → t.far = false → homeOf (n * 64) = h.val →
        ∃ v, exec c s = .next v ∧ rsp .data (.line ⟨v0, true⟩ r.sealWard) true ∈ v.net ∧ v.sigs.get false n = true
          ∧ v.getF (F.HOM_ECC_ERR_UNCORR h.val) = min (2 ^ 16 - 1) (s.getF (F.HOM_ECC_ERR_UNCORR h.val) + 1)
          ∧ v.getF (F.HOM_ECC_LAST_LINE h.val) = lineL n ∧ v.getF (F.HOM_ECC_LAST_KIND h.val) = 2)

/-- R339, R324, R325, R391: write data that reaches its home commits the write, when nothing is at work on its line: memory
holds it, no cache keeps a copy but as R325 says, DONE is sent; the write-back of the X holder likewise; the first write of a
part that was never written has the home write the whole part first. -/
def Obligations.WriteDataCommits : Prop :=
  ∀ (s : State) (h : HomeId),
    (∀ (i : Nat) (p : Packet) (v : LineVal) (sw : Option WardId), s.arrived i = some p → p.payload = .line v sw → p.poison = false → p.chan = .rsp →
      stopHome p.dst = some h.val → s.partInit p.about.n = true → s.isF (F.HOM_ECC_INJ_ARM (homeOf (p.about.n * 64))) = false →
      let n := p.about.n
      let done := fun (r : Req) (v2 : State) (e : Option (BitVec 17 × Bool)) => exec (.writeDataArrive i) s = .next v2
        ∧ homesOnly s v2 (s.net.eraseIdx i ++ [homeRsp h.val p.xid r .done (.empty false) false])
        ∧ lineWritten s v2 n (s.sealWith r.sealWard n v.data) v.poison ∧ (v2.dirGet h.val n).map (fun d => (d.pres, d.excl)) = e
      (∀ b, (s.homeN h.val).txns.length < 1024 → s.dirVictim h.val n = none → s.lineQuiet h.val p.about → s.dirGet h.val n = none →
        (∀ e ∈ (s.homeN h.val).refused, s.lineActive h.val e.2.line = true) → (∀ e, s.entry p.xid = some e → e.aborted = false) →
        (s.homeN h.val).wbufs.find? (fun b => b.xid == p.xid && decide (b.req.line = p.about) && b.data.isNone) = some b → b.req.line = p.about →
        b.req.mask = fullMask → s.fromFenced b.req = false →
        (b.req.kind = .wrInv → ∃ v2, done b.req v2 none ∧ b ∉ (v2.homeN h.val).wbufs)
        ∧ (b.req.kind = .hWr → ∃ v2, done b.req v2 (match b.req.mv with
            | .i => none
            | .s => some (presOf [hostHolder], false)
            | .a => some (presOf [hostHolder], true))))
      ∧ (∀ t d, s.onlyTxn h.val t → t.phase = .writeData → t.xid = p.xid → t.line = p.about → t.req.line = p.about → t.req.mask = fullMask →
          (t.req.kind = .wb ∨ t.req.kind = .wbP) → t.wdata = none → t.got = none → t.far = false → s.dirGet h.val n = some d → ∃ v2, done t.req v2 none))
    ∧ (∀ (reg : Nat) (t : Txn) (v : LineVal), (s.homeN h.val).initing = [reg] → (s.homeN h.val).txns = [t] → (s.homeN h.val).refused = [] → t.phase = .initPart →
        regionOf t.line.n = reg → t.line.host = false → t.evictFor = none → t.hostSnoop = none → t.doomed = false → t.far = false → t.got = none → t.req.line = t.line →
        t.req.kind = .wrInv → t.req.mask = fullMask → t.req.sealed = false → t.wdata = some v → s.fromFenced t.req = false → s.dirGet h.val t.line.n = none →
        t.line.n ∈ partLines h.val reg → (∀ m ∈ partLines h.val reg, s.isF (F.HOM_ECC_INJ_ARM (homeOf (m * 64))) = false) →
        ∃ v2, exec (.lazyInitDone h reg) s = .next v2 ∧ homesOnly s v2 (s.net ++ [homeRsp h.val t.xid t.req .done (.empty false) false])
          ∧ (v2.homeN h.val).bitmap.get false reg = true ∧ (v2.homeN h.val).initing = [] ∧ (v2.homeN h.val).txns = []
          ∧ (∀ j, v2.dram.get 0 j = if j / 64 = t.line.n then byteAt v.data (j % 64) else if j / 64 ∈ partLines h.val reg then 0 else s.dram.get 0 j))

/-- R343–R346: when a snooped quarter stays silent, the line is poisoned in memory, the requester is answered with poison, the
quarter is fenced and no directory names it any more; a silent host is cleared from the entry and nothing is fenced; write
data that does not come is given up, and its entry closes with a poisoned DONE; a write-back's line stays poisoned in memory
and in the directory (11 R314). The timeout is recorded. -/
def Obligations.SilenceIsTimedOut : Prop :=
  ∀ (s : State) (h : HomeId) (x : Nat), s.timersFrozen = false → (∀ j, (s.homeN j).refused = []) →
    let hv := h.val
    let h17 : Fin 17 := h.castSucc
    let tout := fun (v : State) (kind who : Nat) => v.getF (F.HOM_TOUT_KIND hv) = kind ∧ v.getF (F.HOM_TOUT_WHO hv) = who
      ∧ v.getF (F.HOM_TOUT_COUNT hv) = min (2 ^ 16 - 1) (s.getF (F.HOM_TOUT_COUNT hv) + 1)
    (∀ t e, t.evictFor = none → t.hostSnoop = none → t.req.kind = .rdC → t.req.src = .engine e → t.req.line = t.line → s.partInit t.line.n = true →
      (∀ q : QuarterId, s.silentTxn hv x (quarterHolder q) = some t →
        ∃ v d, exec (.snoopTimeout h17 x q) s = .next v ∧ (v.quarter q).fenced = true ∧ tout v 1 q.val ∧ v.sigs.get false t.line.n = true
          ∧ homeRsp hv t.xid t.req .data (.line ⟨d, true⟩ none) true ∈ v.net ∧ (v.getF F.FLT_BEACON_GROUPS).testBit q.val = true
          ∧ (∀ j < 17, ∀ m d2, v.dirGet j m = some d2 → d2.pres.getLsbD q.val = false))
      ∧ (s.silentTxn hv x hostHolder = some t → ∀ d0, s.dirGet hv t.line.n = some d0 → d0.pres = presOf [hostHolder] →
        ∃ v d, exec (.biSnoopTimeout h x) s = .next v ∧ tout v 2 16 ∧ v.sigs.get false t.line.n = true ∧ v.quarters = s.quarters
          ∧ homeRsp hv t.xid t.req .data (.line ⟨d, true⟩ none) true ∈ v.net ∧ v.dirGet hv t.line.n = none))
    ∧ (∀ b e, (s.homeN hv).txns.find? (fun t => t.xid == x && decide (t.phase = TxnPhase.writeData)) = none →
        (s.homeN hv).wbufs.find? (fun b => b.xid == x && b.data.isNone) = some b → b.req.kind = .wrInv → b.req.src = .engine e →
        ∃ v, exec (.writeDataTimeout h17 x) s = .next v ∧ tout v 3 17 ∧ homeRsp hv x b.req .done (.empty true) true ∈ v.net
          ∧ v.dram = s.dram ∧ (v.homeN hv).dir = (s.homeN hv).dir ∧ b ∉ (v.homeN hv).wbufs)
    ∧ (∀ t q, (s.homeN hv).txns.find? (fun t => t.xid == x && decide (t.phase = TxnPhase.writeData)) = some t → t.req.kind = .wb → t.req.src = .drain q →
        t.xid = x → t.req.line = t.line → t.evictFor = none → t.hostSnoop = none → t.wdata = none → (s.quarter q).fenced = false → s.partInit t.line.n = true →
        ∀ d, s.dirGet hv t.line.n = some d → d.pres = presOf [quarterHolder q] →
        ∃ v, exec (.writeDataTimeout h17 x) s = .next v ∧ tout v 3 q.val ∧ homeRsp hv x t.req .done (.empty true) true ∈ v.net
          ∧ v.sigs.get false t.line.n = true ∧ v.dirGet hv t.line.n = some { d with poison := true })

/-- R348–R350, R352: the filter asks the host in CXL.cache for what a quarter asks it, and grants what the host has granted;
it performs an atomic in its own buffer and gives the line back; it answers the host's snoops by its entry; an answer of the
host to a back-invalidate snoop goes to the home that sent it, and the host's dirty data, which comes before it as H_WR, is
what that home writes and answers with (log 43). -/
def Obligations.TheFilterSpeaksForTheHost : Prop :=
  ∀ (s : State),
    let txns := fun (v : State) => (v.homeN 16).txns
    (∀ i p r c op, s.asks i 16 p r → s.lineQuiet 16 r.line → s.dirGet 16 r.line.n = none →
      (c, r.kind, op) ∈ [(Instr.rdS i, ReqKind.rdS, D2HOp.rdShared), (.rdX i, .rdX, .rdOwn), (.upg i, .upg, .rdOwnNoData), (.own i, .own, .rdOwnNoData),
        (.fill i, .fill, .rdCurr), (.atFar i, .atFar, .rdOwn)] →
      ∃ v, exec c s = .next v ∧ v.net = s.net.eraseIdx i ∧ v.out = s.out ++ [.d2h r.line op none]
        ∧ txns v = txns s ++ [{ State.Txn.start p.xid r r.line with phase := .host op, far := decide (r.kind = .atFar) }])
    ∧ (∀ t, s.onlyTxn 16 t → (txns s).find? (fun u => decide (u.line = t.line) && (match u.phase with
          | .host _ => true
          | _ => false)) = some t → t.req.line = t.line → t.req.sealed = false → t.got = none → t.rd = none → t.poisoned = false → s.uncachedLine 16 t.line →
        let r := t.req
        let rsp := homeRsp 16 t.xid r
        let ends := fun (g : HostGrant) (pkts : List Packet) (e : Option (BitVec 17 × Bool)) => ∃ v, exec (.hostCacheResponse t.line g) s = .next v
          ∧ homesOnly s v (s.net ++ pkts) ∧ (v.dirGet 16 t.line.n).map (fun d => (d.pres, d.excl)) = e ∧ t ∉ txns v
        (∀ v q, v.poison = false → t.far = false → r.holder = some q →
          (t.phase = .host .rdShared → r.kind = .rdS → r.line.host = true →
              ends (.shared v) [rsp .data (.line v none) false, rsp .gntE (.empty false) false] (some (presOf [q], true)))
          ∧ (t.phase = .host .rdOwn → r.kind = .rdX → ends (.own v) [rsp .data (.line v none) false, rsp .gntE (.empty false) false] (some (presOf [q], true)))
          ∧ (t.phase = .host .rdCurr → r.kind = .fill → ends (.curr v) [rsp .data (.line v none) false] none)
          ∧ (t.phase = .host .rdOwnNoData → (r.kind = .upg ∨ r.kind = .own) → ends .ownNoData [rsp .gntX (.empty false) false] (some (presOf [q], true)))
          ∧ (t.phase = .host .dirtyEvict → r.kind = .wb → t.wdata = some v → ends .evictDone [rsp .done (.empty false) false] none)))
    ∧ (∀ t a v, (txns s).find? (fun u => decide (u.line = t.line) && u.far && decide (u.phase = TxnPhase.dram)) = some t → t.req.at? = some a → t.req.sealed = false →
        t.got = none → t.rd = some (.stored v) → t.poisoned = false → t.keyLost = false → v.poison = false → s.link.viral = false →
        let old := lineBytes v.data a.off a.size
        let new := mergeLine v.data (placeBytes a.off a.size (a.apply old)) (rangeMask a.off a.size)
        ∃ u, exec (.filterAtomic t.line) s = .next u ∧ u.out = s.out ++ [if new = v.data then .d2h t.line .cleanEvict none else .d2h t.line .dirtyEvict (some ⟨new, false⟩)]
          ∧ u.net = s.net ∧ { t with applied := some (BitVec.ofNat 64 old), phase := .host (if new = v.data then .cleanEvict else .dirtyEvict) } ∈ txns u)
    ∧ (∀ l c k, (c, k) ∈ [(Instr.hostSnpData l, SnpKind.snpS), (.hostSnpInv l, .snpInv), (.hostSnpCur l, .snpCur)] → l.host = true → s.link.cxlResetBusy = false → (∀ t ∈ txns s, t.line ≠ l) →
        (s.dirGet 16 l.n = none → ∃ v, exec c s = .next v ∧ v.out = s.out ++ [.hostRsp l "RspIHitI" none] ∧ v.net = s.net ∧ v.homes = s.homes)
        ∧ (∀ d, s.dirGet 16 l.n = some d → d.excl = false → k ≠ .snpInv → ∃ v, exec c s = .next v ∧ v.out = s.out ++ [.hostRsp l "RspSHitSE" none] ∧ v.net = s.net ∧ v.homes = s.homes)
        ∧ (∀ d q, s.dirGet 16 l.n = some d → d.excl = true → d.pres = presOf [quarterHolder q] → (s.quarter q).fenced = false →
            ∃ v, exec c s = .next v ∧ v.out = s.out ∧ v.net = s.net ++ [mkPkt .snp k.code (homeStop 16) (quarterStop q (homeStop 16)) 0 0 (32768 + l.n) false (.lineSnoop l) l]
              ∧ ∃ t, txns v = txns s ++ [t] ∧ t.line = l ∧ t.hostSnoop = some k ∧ t.phase = .snoop [quarterHolder q]))
    ∧ (∀ t, let h := homeOf (t.line.n * 64)
        h < 16 → s.onlyTxn h t → t.phase = .snoop [hostHolder] → t.req.kind = .rdC → t.req.line = t.line → t.req.sealed = false → t.rd = none → t.far = false → t.poisoned = false →
        s.partInit t.line.n = true → s.isF (F.HOM_ECC_INJ_ARM h) = false →
        (t.got = none → ∀ kept, ∃ v, exec (.biRsp t.line kept) s = .next v ∧ { t with phase := .dram, kept := kept || t.kept } ∈ (v.homeN h).txns ∧ v = { s with homes := v.homes })
        ∧ (∀ d, t.got = some ⟨fullMask, ⟨d, false⟩, none⟩ → ∃ v, exec (.biRsp t.line false) s = .next v
            ∧ homesOnly s v (s.net ++ [homeRsp h t.xid t.req .data (.line ⟨d, false⟩ none) false]) ∧ lineWritten s v t.line.n d false ∧ t ∉ (v.homeN h).txns)
        ∧ (∀ i p r, s.arrived i = some p → p.payload = .request r → p.poison = false → stopHome p.dst = some h → r.kind = .hWr → r.src = .host → r.line = t.line →
            ∃ v, exec (.hWr i) s = .next v ∧ homesOnly s v (s.net.eraseIdx i ++ [homeRsp h p.xid r .wgo (.empty false) false])
              ∧ v.homeN h = { s.homeN h with wbufs := (s.homeN h).wbufs ++ [⟨p.xid, r, none⟩] })
        ∧ (∀ i p d b, s.arrived i = some p → p.payload = .line ⟨d, false⟩ none → p.poison = false → p.chan = .rsp → stopHome p.dst = some h → p.about = t.line →
            p.xid ≠ t.xid → (∀ e, s.entry p.xid = some e → e.aborted = false) → (s.homeN h).wbufs = [b] → b.xid = p.xid → b.req.line = t.line → b.data = none → b.req.kind = .hWr →
            b.req.mask = fullMask → b.req.src = .host →
            ∃ v, exec (.writeDataArrive i) s = .next v ∧ { t with got := some ⟨fullMask, ⟨d, false⟩, none⟩ } ∈ (v.homeN h).txns ∧ (v.homeN h).wbufs = []
              ∧ homesOnly s v (s.net.eraseIdx i ++ [homeRsp h p.xid b.req .done (.empty false) false]) ∧ v.dram = s.dram))

/-! ### Responses at their requester and the Ledger -/

/-- R324, R332–R334, R337, R339, R365, R413: a response at its requester: a line waits for its grant or ends a read; WGO
releases the write data; DONE closes the entry; a refused request stands to be sent again, GO sends it at once; AT_RES gives
the tile its old value; a completion from the host ends a read of a host window. R333, R356, R359–R361, R413: a request refused without a reservation is sent again; a completion of a read of a host
window ends it; the Ledger's freed capacity goes to a waiting source that the grant rule of its ward admits, under the
lowest free entry, and its request leaves. -/
def Obligations.LedgerGrantsAndCloses : Prop :=
  (∀ (s : State) (i : Nat) (p : Packet) (e : LEntry), s.arrived i = some p → p.chan = .rsp → p.poison = false → s.entry p.xid = some e → e.req.line = p.about →
    e.aborted = false → e.forgotten = false → e.bad = false → e.pend = 1 → s.pktBuf p = none → (∃ n, p.dst = .stop n) →
    let s1 := { s with net := s.net.eraseIdx i }
    let closed := fun (v : State) => v.entry p.xid = none ∧ ∀ x, x ≠ p.xid → v.entry x = s.entry x
    (∀ v w, p.kind = RspKind.data.code → p.payload = .line v w → stopHome p.dst = none → (e.req.kind = .rdS ∨ e.req.kind = .rdX ∨ e.req.kind = .atP) →
      exec (.data i) s = .next (s1.setEntry p.xid (some { e with rdata := some v })))
    ∧ (∀ v w, p.kind = RspKind.data.code → p.payload = .line v w → stopHome p.dst = some 16 → stopQuarter p.src = none → e.req.src = .host → e.req.mask ≠ 0 →
      e.req.kind = .hRd → ∃ u, exec (.data i) s = .next u ∧ closed u ∧ u.out = s.out ++ [.memData e.hostTag v (some e.req.mv)])
    ∧ (∀ v, p.kind = RspKind.wgo.code → e.wdata = some v → (s.fencedDst .rsp p.src = false) →
      exec (.wgo i) s = .next { s with net := s.net.eraseIdx i ++ [mkPkt .rsp RspKind.data.code p.dst p.src p.ward 0 p.xid v.poison (.line v e.req.sealWard) p.about] })
    ∧ (∀ en, p.kind = RspKind.done.code → e.req.src = .engine en → ∃ u, exec (.done i) s = .next u ∧ closed u ∧ u = { s1 with ledger := u.ledger })
    ∧ (∀ r c k, (c, k) ∈ [(Instr.retry i, RspKind.retry), (.nack i, .nack)] → p.kind = k.code → p.payload = .request r →
      exec c s = .next (s1.setEntry p.xid (some { e with req := r })))
    ∧ (∀ r, p.kind = RspKind.go.code → p.payload = .request r →
      ∃ u, exec (.go i) s = .next u ∧ u.entry p.xid = some { e with req := r } ∧ u.net = s.net.eraseIdx i ++ [reqPkt p.xid r])
    ∧ (∀ t v l a rd addr, p.kind = RspKind.atRes.code → p.payload = .oldValue v false → e.req.src = .tile t → (s.tile t).mode = .inMemory l (.farAtomic a rd addr) →
      ∃ u, exec (.atRes i) s = .next u ∧ closed u ∧ (u.tile t).pc = (s.tile t).pc + 4 ∧ (u.tile t).mode = .running
        ∧ ∀ q, (u.tile t).rg q = if q = rd ∧ rd ≠ 0 then a.result (v.toNat % 2 ^ (8 * a.size)) else (s.tile t).rg q))
  ∧ (∀ (s : State),
    (∀ x e, s.entry x = some e → e.req.arrived = true → (∀ q, ∀ b ∈ (s.quarter q).bufs, b.xid ≠ x) →
      let r := { e.req with arrived := false }
      ∃ v, exec (.requestResend x) s = .next v ∧ v.entry x = some { e with req := r } ∧ v.net = s.net ++ [reqPkt x r])
    ∧ (∀ tag e (d : List Byte) poison, s.entry tag = some e → e.hostMem = true → e.wdata = none → s.link.up = true → d.length = 64 → e.aborted = false →
      e.forgotten = false → e.bad = false → e.pend = 1 → e.req.src = .lantern → ∃ v, exec (.cxlIoCompletion tag d poison) s = .next v ∧ v.entry tag = none ∧ v.lantern.accPhase = 3 ∧ v.lantern.accPoison = poison
        ∧ v.lantern.accData = BitVec.ofNat 64 (lineBytes (lineOfBytes d) (s.getF F.LNT_ACC_ADDR_VALUE % 64) (if s.isF F.LNT_ACC_CTRL_WIDE then 8 else 4)))
    ∧ (∀ w e, s.ledger.waiting = [e] → e.charge = .ward w → e.hostMem = false → e.atSource = false →
      let x := State.lowestFree s.ledger.entries.cells 0
      let held := s.heldBy w
      (held < s.ldgMin w ∨ held < s.ldgCeil w ∧ s.poolUsed < s.poolSize →
        ∃ v, exec .ledgerGrant s = .next v ∧ v.entry x = some { e with tag := x } ∧ v.ledger.waiting = [] ∧ v.ledger.lastWard = some w
          ∧ v.net = s.net ++ [reqPkt x e.req])
      ∧ (s.ldgMin w ≤ held → (s.ldgCeil w ≤ held ∨ s.poolSize ≤ s.poolUsed) → exec .ledgerGrant s = .next s))
    ∧ (s.ledger.waiting = [] → exec .ledgerGrant s = .next s))

/-! ### Device memory -/

/-- R372–R374, R386, R398: training accepts the listed modules and takes the highest rate that all support and the smallest
capacity; a channel without one is reported and memory stays down; a ward's key is staged, loaded once and installed; an
armed ECC injection with its device numbers clamped. The word that a row writes, and what a port does that may not write it,
are the model's reading (log 93). -/
def Obligations.MemoryIsTrainedAndSealed : Prop :=
  ∀ (s : State),
    (∀ mods : List DimmInfo, s.coreRuns = true → s.power.trained = false → mods.length = 16 →
      let c := Machine.minNat (mods.map (·.gib))
      ((∀ m ∈ mods, dimmOk m = true ∧ m.trains = true) →
        ∃ v, exec (.ddrTrainingDone mods) s = .next v ∧ v.power = { s.power with trained := true, capGib := 16 * c } ∧ v = { s with power := v.power, fld := v.fld }
          ∧ ∀ h m, h < 16 → mods[h]? = some m → v.getF (F.HOM_DIMM_TRAINED h) = 1 ∧ v.getF (F.HOM_DIMM_SPEED h) = Machine.minNat (mods.map (fun x => rateCode x.rate))
            ∧ v.getF (F.HOM_DIMM_C_GIB h) = c % 256 ∧ v.getF (F.HOM_DIMM_TRIMMED h) = (if c < m.gib then 1 else 0)
            ∧ v.getF (F.HOM_DIMM_RANKS h) = (if m.twoRanks then 1 else 0) ∧ v.getF (F.HOM_DIMM_REJECTED h) = 0 ∧ v.getF (F.HOM_DIMM_EMPTY h) = 0)
      ∧ (∀ h m, h < 16 → mods[h]? = some m → (dimmOk m && m.trains) = false →
        ∃ v, exec (.ddrTrainingDone mods) s = .next v ∧ v.power.trained = false ∧ v.getF (F.HOM_DIMM_TRAINED h) = 0 ∧ v.getF (F.HOM_DIMM_SPEED h) = 0
          ∧ v.getF (F.HOM_DIMM_C_GIB h) = 0 ∧ v.getF (F.HOM_DIMM_EMPTY h) = (if m.present then 0 else 1)
          ∧ v.getF (F.HOM_DIMM_REJECTED h) = (if m.present && !dimmOk m then 1 else 0) ∧ (v.getF F.FLT_BEACON_GROUPS).testBit (16 + h) = true))
    ∧ (∀ p w, heldBack (.sealLoad p w) s p F.HOM_SEAL_CMD_LOAD.off none (1 + 2 * w.val) true
      ∧ (p = .s → s.carries .s none true → ∃ v, exec (.sealLoad p w) s = .next v ∧ v = { s with fld := v.fld, keyInstall := v.keyInstall }
        ∧ (∀ i < 8, v.getF (F.HOM_SEAL_KEY_VALUE i) = 0)
        ∧ (s.keyInstall = none ∧ s.key w = none ∧ s.resettingWard w = false → v.keyInstall = some (w, s.stagedKey))
        ∧ (s.keyInstall ≠ none ∨ s.key w ≠ none ∨ s.resettingWard w = true → v.keyInstall = s.keyInstall ∧ v.getF F.HOM_SEAL_STATUS_REFUSED = 1)))
    ∧ (∀ w k, s.keyInstall = some (w, k) → ∃ v, exec .sealKeyInstalled s = .next v ∧ v = { s with keys := v.keys, keyInstall := none }
      ∧ ∀ x, v.key x = if x = w then some k else s.key x)
    ∧ (∀ (p : Port) (h : HomeId) (x : BitVec 32), heldBack (.eccInjArm p h x) s p (F.HOM_ECC_INJ_ARM h.val).off none x.toNat true
      ∧ (p = .s → s.carries .s none true → ∃ v, exec (.eccInjArm p h x) s = .next v ∧ v = { s with fld := v.fld }
        ∧ v.getF (F.HOM_ECC_INJ_ADDR_EN h.val) = (if x.getLsbD 1 then 1 else 0) ∧ v.getF (F.HOM_ECC_INJ_DEV_A h.val) = min (x.extractLsb' 2 4).toNat 9
        ∧ v.getF (F.HOM_ECC_INJ_DEV_B h.val) = (if (x.extractLsb' 6 4).toNat < 10 then (x.extractLsb' 6 4).toNat else 15)
        ∧ (9 < (x.extractLsb' 2 4).toNat → v.getF (F.HOM_ECC_INJ_CLAMPED h.val) = 1)
        ∧ v.getF (F.HOM_ECC_INJ_ARM h.val) = (if x.getLsbD 0 then 1 else s.getF (F.HOM_ECC_INJ_ARM h.val))))

/-- R381, R392, R395–R397: the scrubber: a pass or a wipe starts unless one runs or the range is empty; a home reads its
next line, repairs what the code can correct, and passes over a part that was never written; at the end its summary
record leaves as a write of the reserve (13 R357), and once that is done the pass is over, with its RESULT; a wipe
clears the parts; coverage ages count six minutes each. The word that a row writes, and what a port does that may not
write it, are the model's reading (log 93). -/
def Obligations.ScrubberCoversMemory : Prop :=
  ∀ (s : State),
    let a := s.getF F.HOM_SCB_START_VALUE
    let b := s.getF F.HOM_SCB_END_VALUE
    let ctrl := fun (f : Fld) => State.inWord f 1 (s.keptWord f.off)
    (heldBack .scrub s .s F.HOM_SCB_CTRL_SCRUB.off none (ctrl F.HOM_SCB_CTRL_SCRUB) true ∧ heldBack .wipe s .s F.HOM_SCB_CTRL_WIPE.off none (ctrl F.HOM_SCB_CTRL_WIPE) true
      ∧ heldBack .scrubAbort s .s F.HOM_SCB_CTRL_ABORT.off none (ctrl F.HOM_SCB_CTRL_ABORT) true)
    ∧ (s.carries .s none true →
      (∀ c wipe, (c, wipe) ∈ [(Instr.scrub, false), (.wipe, true)] →
        (s.scrub ≠ none ∨ b ≤ a → exec c s = .next (s.setF F.HOM_SCB_STATUS_REFUSED 1))
        ∧ (s.scrub = none → a < b → ∃ v, exec c s = .next v ∧ v.scrub = some ⟨wipe, a, b, s.supTime, 0, 0, 0, 0, 0, none, false, none⟩
            ∧ v = { s with scrub := v.scrub, homes := v.homes, fld := v.fld } ∧ v.getF F.HOM_SCB_STATUS_BUSY = 1
            ∧ v.getF F.HOM_SCB_STATUS_OP = (if wipe then 1 else 0) ∧ v.getF F.HOM_SCB_STATUS_RESULT = 0
            ∧ ∀ h < 16, v.homeN h = { s.homeN h with scrubAt := some (a / 2097152 * 2048), scrubDone := wipe }))
      ∧ (∀ j, s.scrub = some j → j.result = none → ∃ v, exec .scrubAbort s = .next v ∧ v.scrub = some { j with aborted := true }
          ∧ v = { s with scrub := v.scrub, homes := v.homes } ∧ ∀ h < 16, v.homeN h = { s.homeN h with scrubDone := true })
      ∧ ((∀ j, s.scrub = some j → j.result ≠ none) → exec .scrubAbort s = .next s))
    ∧ (∀ h err j p, s.scrub = some j → (s.homeN h.val).scrubAt = some p → j.wipe = false → j.aborted = false → (s.homeN h.val).scrubDone = false →
        s.scrubFrozen = false → s.coreActive = true →
        let n := dpaOf h.val (p * 64) / 64
        let c := Instr.scrubLine h err
        ((s.homeN h.val).bitmap.get false (p / 2048) = false →
          ∃ v, exec c s = .next v ∧ v.scrub = some { j with skipped := j.skipped + 1 } ∧ (v.homeN h.val).scrubAt = some ((p / 2048 + 1) * 2048) ∧ v.dram = s.dram)
        ∧ ((s.homeN h.val).bitmap.get false (p / 2048) = true → s.lineActive h.val ⟨false, n⟩ = true → exec c s = .next s)
        ∧ ((s.homeN h.val).bitmap.get false (p / 2048) = true → s.lineActive h.val ⟨false, n⟩ = false → err.bitmapBad = false →
          (∀ d, s.dramOutcome n err.masks = .clean d → ∃ v, exec c s = .next v ∧ v.scrub = some { j with lines := j.lines + 1 }
            ∧ (v.homeN h.val).scrubAt = some (p + 1) ∧ v.dram = s.dram ∧ v.fld = s.fld)
          ∧ (∀ d dev, s.dramOutcome n err.masks = .corrected d dev → homeOf (n * 64) = h.val → ∃ v, exec c s = .next v
            ∧ v.scrub = some { j with lines := j.lines + 1, corrected := j.corrected + 1 } ∧ lineWritten s v n (BitVec.ofNat 512 d) false
            ∧ v.getF (F.HOM_ECC_ERR_CORRECTED h.val) = min (2 ^ 32 - 1) (s.getF (F.HOM_ECC_ERR_CORRECTED h.val) + 1) ∧ v.getF (F.HOM_ECC_LAST_SCRUB h.val) = 1)
          ∧ (∀ d, s.dramOutcome n err.masks = .uncorrectable d → ∃ v j2, exec c s = .next v ∧ v.scrub = some j2 ∧ j2.uncorr = j.uncorr + 1
            ∧ lineWritten s v n (BitVec.ofNat 512 d) true)))
    ∧ (∀ j, s.scrub = some j → s.coreActive = true → j.result = none → (∀ h < 16, (s.homeN h).scrubDone = true) →
        let n := s.getF F.HOM_SCB_SUM_DPA_VALUE / 64
        let result := if j.aborted then 2 else 1
        let r := Req.make .wrInv ⟨false, n⟩ .scrub none false
        let en := { LEntry.make r .reserve with wdata := some ⟨lineOfBytes (s.scrubRecord j result), false⟩ }
        let x := State.lowestFree s.ledger.entries.cells 0
        (j.wipe = false ∨ j.aborted = true →
          (s.capacity ≤ n * 64 → ∃ v, exec .scrubPassEnd s = .next v ∧ v.scrub = none ∧ v.getF F.HOM_SCB_STATUS_BUSY = 0 ∧ v.getF F.HOM_SCB_STATUS_RESULT = result)
          ∧ (n * 64 < s.capacity → s.grantsNow en = true → ∃ v, exec .scrubPassEnd s = .next v ∧ v = { s with scrub := some { j with result := some result }, ledger := v.ledger, net := v.net }
            ∧ v.entry x = some { en with tag := x } ∧ v.net = s.net ++ [reqPkt x r]))
        ∧ (j.wipe = true → j.aborted = false → s.rangeBusy j.start j.stop = false → (s.wipeCopies j.start j.stop).rangeBusy j.start j.stop = false →
          ∃ v, exec .scrubPassEnd s = .next v ∧ (v.scrub = none ∨ v.scrub = some { j with result := some 1 })
            ∧ ∀ r ∈ State.regionsOf j.start j.stop, v.ages.get 0 r = 0 ∧ ∀ h < 16, (v.homeN h).bitmap.get false r = false))
    ∧ (∀ i p e j r, s.arrived i = some p → p.chan = .rsp → p.kind = RspKind.done.code → s.entry p.xid = some e → e.req.line = p.about → e.req.src = .scrub →
        e.aborted = false → e.pend = 1 → s.pktBuf p = none → (∃ n, p.dst = .stop n) → s.scrub = some j → j.result = some r → r < 3 →
        ∃ v, exec (.done i) s = .next v ∧ v.scrub = none ∧ v.getF F.HOM_SCB_STATUS_BUSY = 0 ∧ v.getF F.HOM_SCB_STATUS_RESULT = r ∧ v.entry p.xid = none)
    ∧ (s.power.vauxGood = true → ∃ v, exec .coverageAgeTick s = .next v ∧ v = { s with ages := v.ages }
        ∧ ∀ r, v.ages.get 0 r = if r ∈ s.liveRegions then min 255 (s.ages.get 0 r + 1) else s.ages.get 0 r)

/-! ### The host link -/

/-- R404, R409–R411, R401, R470: a CXL.mem request of the host becomes an H_RD or H_WR of the reserve at the DPA that the
decoders give, is answered with poison or discarded where none does, and waits before Memory Active; MemSpecRd is dropped, a
clean eviction clears H, BIConflict is acknowledged, other opcodes are counted. -/
def Obligations.HostMemoryRequestsAreServed : Prop :=
  ∀ (s : State) (tag addr : Nat) (mv : MetaValue) (mask : Mask64) (lv : LineVal),
    let read := fun (c : Instr) (m : Mask64) (mv : MetaValue) => (c, m, mv) ∈ [(Instr.memRd addr mv tag, fullMask, mv), (.memRdData addr tag, fullMask, .s),
      (.memInv addr mv tag, 0, mv), (.memInvNt addr mv tag, 0, mv)]
    let write := fun (c : Instr) (m : Mask64) => (c, m) ∈ [(Instr.memWr addr mv lv tag, fullMask), (.memWrPtl addr mv mask lv tag, mask)]
    (s.link.up = false ∨ s.link.cxl = false → ∀ c ∈ [Instr.memRd addr mv tag, .memRdData addr tag, .memInv addr mv tag, .memInvNt addr mv tag, .memClnEvct addr tag,
        .memSpecRd addr tag, .memWr addr mv lv tag, .memWrPtl addr mv mask lv tag, .biConflict addr tag, .memBadOpcode true tag], exec c s = .next s)
    ∧ (s.link.up = true → s.link.cxl = true →
      exec (.memSpecRd addr tag) s = .next { s with link := { s.link with l1 := false } }
      ∧ (∃ v, exec (.biConflict addr tag) s = .next v ∧ v.out = s.out ++ [.biAck tag] ∧ v = { s with out := v.out, link := { s.link with l1 := false } })
      ∧ (∃ v d, exec (.memBadOpcode true tag) s = .next v ∧ v.getF F.LNK_MEM_ERR_BADOP = min (2 ^ 16 - 1) (s.getF F.LNK_MEM_ERR_BADOP + 1)
          ∧ v.out = s.out ++ [.memData tag ⟨d, true⟩ (some .i)] ∧ v.dram = s.dram)
      ∧ (∀ c m mv2, s.link.refuseAll = false → s.power.dimOut = false → s.hostWaits = true → read c m mv2 →
          ∃ v r, exec c s = .next v ∧ v.link.held = s.link.held ++ [r] ∧ r.isRead = true ∧ r.addr = addr ∧ r.tag = tag ∧ r.mv = mv2 ∧ r.noData = decide (m = 0) ∧ v.out = s.out)
      ∧ (s.link.refuseAll = false → s.power.dimOut = false → s.hostWaits = false → s.link.viral = false →
        (∀ c m mv2, read c m mv2 → (s.hostDpa addr = none ∨ ∃ d, s.hostDpa addr = some d ∧ s.capacity ≤ d) →
          ∃ v x, exec c s = .next v ∧ v.out = s.out ++ [if m = 0 then .cmp tag (some mv2) else .memData tag ⟨x, true⟩ (some mv2)]
            ∧ v.getF F.LNK_MEM_ERR_NOMAP = min (2 ^ 16 - 1) (s.getF F.LNK_MEM_ERR_NOMAP + 1) ∧ v.ledger = s.ledger
            ∧ v.getF F.FLT_BEACON_GROUPS = s.getF F.FLT_BEACON_GROUPS)
        ∧ (∀ c m, write c m → (s.hostDpa addr = none ∨ ∃ d, s.hostDpa addr = some d ∧ s.capacity ≤ d) →
          ∃ v, exec c s = .next v ∧ v.out = s.out ++ [.cmp tag none] ∧ v.dram = s.dram ∧ v.getF F.FLT_BEACON_GROUPS = s.getF F.FLT_BEACON_GROUPS
            ∧ v.getF F.LNK_MEM_ERR_NOMAP = min (2 ^ 16 - 1) (s.getF F.LNK_MEM_ERR_NOMAP + 1) ∧ v.ledger = s.ledger)
        ∧ (∀ d, s.hostDpa addr = some d → d < s.capacity →
          let line : LineAddr := ⟨false, d / 64⟩
          let dst := homeStop (homeOf (d / 64 * 64))
          let x := State.lowestFree s.ledger.entries.cells 0
          let leaves := fun (c : Instr) (q : Req) (en : LEntry) => s.grantsNow en = true → ∃ v, exec c s = .next v ∧ v.entry x = some { en with tag := x }
            ∧ v.net = s.net ++ [mkPkt .req q.kind.code hostStop dst 0 0 x false (.request q) line] ∧ v.dram = s.dram
          (∀ c m mv2, read c m mv2 →
            let q := { Req.make .hRd line .host none false with mask := m, mv := mv2 }
            leaves c q { LEntry.make q .reserve with hostTag := tag })
          ∧ (∀ c m, write c m → lv.poison = false →
            let q := { Req.make .hWr line .host none false with mask := m, mv := mv }
            leaves c q { LEntry.make q .reserve with wdata := some lv, hostTag := tag })
          ∧ (∃ v, exec (.memClnEvct addr tag) s = .next v ∧ v.out = s.out ++ [.cmp tag none]
            ∧ ∀ e, s.dirGet (homeOf d) (d / 64) = some e → v.dirGet (homeOf d) (d / 64) =
              if e.excl then some e else if e.pres &&& ~~~ presOf [hostHolder] = 0 then none else some { e with pres := e.pres &&& ~~~ presOf [hostHolder] }))))
    ∧ (∀ rate width cxl, s.coreRuns = true → s.link.up = false → width ∈ [4, 8, 16] → 1 ≤ rate → rate ≤ 6 →
        ∃ v, exec (.linkTrained rate width cxl) s = .next v ∧ v.link.up = true ∧ v.link.rate = rate ∧ v.link.width = width ∧ v.link.cxl = (cxl && decide (3 ≤ rate))
          ∧ (rate < 3 → (v.getF F.FLT_BEACON_GROUPS).testBit 42 = true) ∧ (3 ≤ rate → v = { s with link := v.link }))
    ∧ (s.power.trained = true → s.power.capGib ≠ 0 → s.link.up = true → s.link.cxl = true → s.link.refuseAll = false → s.isF F.LNK_STATUS_MEM_ACTIVE = false →
        s.link.held = [] → ∃ v, exec .memoryActive s = .next v ∧ v.getF F.LNK_STATUS_MEM_ACTIVE = 1 ∧ v.getF (F.SUP_BOOT_VALUE 4) = s.supTime % 2 ^ 64
          ∧ v = { s with fld := v.fld, ready := v.ready, link := v.link })
    ∧ (∀ r, s.power.pAt ≠ none → s.isF F.LNK_STATUS_MEM_ACTIVE = false → s.link.refuseAll = false → s.link.held = [r] → r.isRead = true → r.noData = false →
        ∃ v d, exec .memoryActiveTimeout s = .next v ∧ v.link.refuseAll = true ∧ v.link.held = [] ∧ .memData r.tag ⟨d, true⟩ (some r.mv) ∈ v.out
          ∧ (v.getF F.FLT_BEACON_GROUPS).testBit 42 = true)

/-- R423–R427: a write TLP takes its bytes' places in the stream and leaves as one WR_INV for each line; a read takes lines
by RD_C and is answered in order; a fault is counted; ADDR starts the stream anew; sizes clamp to what the port can walk. -/
def Obligations.BulkPortsStreamBytes : Prop :=
  ∀ (s : State) (f : Func),
    let b := s.bulkOf f
    (s.bulkClosed f = true → (∀ tlp ep, exec (.bulkWrite f tlp ep) s = .next (s.unsupportedReq f)) ∧ (∀ a, exec (.blkAddrWrite f a) s = .next (s.unsupportedReq f))
      ∧ (∀ c a, exec (.blkShapeWrite f c a) s = .next (s.unsupportedReq f)))
    ∧ (s.bulkClosed f = false → s.bulkResets f = true → (∀ tlp ep, exec (.bulkWrite f tlp ep) s = .next s)
      ∧ (∀ n tag, n ≤ 4096 → exec (.bulkRead f n tag) s = .next (s.emit (.bulkData f tag (leBytes n 0) false))))
    ∧ (s.bulkClosed f = false → s.bulkResets f = false → s.link.rxq = [] →
      (∀ tlp, tlp.length ≤ 512 → s.rxReady (.bulkWrite f tlp false) = false → exec (.bulkWrite f tlp false) s = .next (s.holdPosted (.bulkWrite f tlp false)))
      ∧ (∀ tlp x, tlp.length ≤ 512 → s.rxReady (.bulkWrite f tlp false) = true → (s.bulkTlp f tlp).1 = [x] →
        let a := x.1 * 64 + lowBit x.2.1
        let n := highBit x.2.1 - lowBit x.2.1 + 1
        let done := fun (v : State) => exec (.bulkWrite f tlp false) s = .next v ∧ v.getF (F.BLK_DONE_VALUE f.ix) = (s.getF (F.BLK_DONE_VALUE f.ix) + tlp.length) % 2 ^ 64
          ∧ (v.bulkOf f).ptr = (s.bulkTlp f tlp).2.ptr ∧ (v.bulkOf f).ahead = .empty
        (∀ y, s.bulkPeek f a n .write = some y → y.host = false →
          let q := { Req.make .wrInv ⟨false, y.addr / 64⟩ (.bulk f) (State.bulkWard f) y.sealed with mask := x.2.1 }
          let en := { LEntry.make q .reserve with bulk := some f, wdata := some ⟨x.2.2, false⟩, relaxed := y.relaxed, ido := y.ido }
          let k := State.lowestFree s.ledger.entries.cells 0
          s.grantsNow en = true → ∃ v, done v ∧ v.entry k = some { en with tag := k } ∧ v.net = (s.sendReq k q).net)
        ∧ (s.bulkPeek f a n .write = none → ∃ v, done v ∧ v.getF (F.BLK_STATUS_FAULTS f.ix) = min (2 ^ 16 - 1) (s.getF (F.BLK_STATUS_FAULTS f.ix) + 1)
            ∧ v.ledger = s.ledger ∧ v.net = s.net))
      ∧ (∀ n tag a b2 y, n ≤ 4096 → s.bulkOut f = false → b.reads = [] → bulkWalk (s.bulkCount f) (s.bulkStride f) n b n = ([(a, n)], b2) → s.bulkPeek f a n .read = some y →
        let l : LineAddr × Bool := (⟨y.host, y.addr / 64⟩, y.sealed)
        (∀ lv, s.bulkHas f l = some lv → ∃ v, exec (.bulkRead f n tag) s = .next v ∧ .bulkData f tag (leBytes n (lineBytes lv.data (a % 64) n)) lv.poison ∈ v.out
          ∧ v.getF (F.BLK_DONE_VALUE f.ix) = (s.getF (F.BLK_DONE_VALUE f.ix) + n) % 2 ^ 64 ∧ v.dram = s.dram))
      ∧ (∀ a, s.bulkOut f = false → b.reads = [] → ∃ v, exec (.blkAddrWrite f a) s = .next v ∧ v.getF (F.BLK_ADDR_ADDR f.ix) = a % 2 ^ 47 / 4 * 4
          ∧ v.getF (F.BLK_DONE_VALUE f.ix) = 0 ∧ (v.bulkOf f).ptr = a % 2 ^ 47 / 4 * 4 ∧ (v.bulkOf f).rowStart = a % 2 ^ 47 / 4 * 4 ∧ (v.bulkOf f).ahead = .empty
          ∧ (a % 4 ≠ 0 → v.getF (F.BLK_STATUS_CLAMPED f.ix) = 1))
      ∧ (∀ a, s.bulkOut f = false → b.reads = [] → ∃ v, exec (.blkShapeWrite f true a) s = .next v ∧ v.getF (F.BLK_COUNT_COUNT f.ix) = max 4 (a % 2 ^ 32 / 4 * 4)
          ∧ (a % 2 ^ 32 % 4 ≠ 0 ∨ a % 2 ^ 32 < 4 → v.getF (F.BLK_STATUS_CLAMPED f.ix) = 1))
      ∧ (∀ a, s.bulkOut f = false → b.reads = [] → s.bulkCount f ≤ a → a < 2 ^ 47 → a % 4 = 0 → ∃ v, exec (.blkShapeWrite f false a) s = .next v
          ∧ v.getF (F.BLK_STRIDE_STRIDE f.ix) = a ∧ v.getF (F.BLK_COUNT_COUNT f.ix) = s.getF (F.BLK_COUNT_COUNT f.ix)))

/-- R405, R407, R412, R415–R421, R428–R430: the controls of the link: a decoder commits when it is good; configuration
requests are answered or retried; caching is disabled and flushed; a masked vector is sent when it is unmasked, and
INTA follows its bits; power states and widths; replays and integrity failures are counted. The word that a row
writes, and what a port does that may not write it, are the model's reading (log 93). -/
def Obligations.LinkControlsAndInterrupts : Prop :=
  ∀ (s : State),
    (∀ n : Fin 4, let d := s.hdm n.val
        heldBack (.hdmCommit n) s .s (0x411220 + 32 * n.val) none (d.ig + 16 * d.iw + 256 * bN d.lock + 512 + 8192 * bN d.bi) true
        ∧ (s.carries .s none true → ∃ v, exec (.hdmCommit n) s = .next v ∧ v = { s with link := { s.link with hdm := v.link.hdm } } ∧ (∀ k, k ≠ n.val → v.hdm k = s.hdm k)
        ∧ v.hdm n.val = (if (s.hdm n.val).committed && (s.hdm n.val).lock then s.hdm n.val
          else { s.hdm n.val with committed := s.hdmGood n.val, errNot := !s.hdmGood n.val })))
    ∧ (∀ q : CfgReq, s.link.up = true → 1 ≤ q.size → q.off % 4 + q.size ≤ 4 → q.off < 4096 →
        (s.power.cfgReady = false → ∃ v, exec (.configRequest q) s = .next v ∧ v.out = s.out ++ [.cfgRetry q.tag] ∧ v.fld = s.fld)
        ∧ (s.power.cfgReady = true → (∃ w, q.fn = .vf w ∧ s.vfPresent w = false) → ∃ v, exec (.configRequest q) s = .next v ∧ v.out = s.out ++ [.unsupported q.tag])
        ∧ (s.power.cfgReady = true → q.fn = .pf0 → q.write = none → q.size = 1 → ∃ v, exec (.configRequest q) s = .next v
            ∧ v.out = s.out ++ [.cfgData q.tag (s.cfgRead 0 q.off)] ∧ v = { s with out := v.out, link := { s.link with l1 := false } }))
    ∧ (∀ r, s.power.cfgReady = true → ∃ v o, exec (.doeRequest r) s = .next v ∧ v.out = s.out ++ [o] ∧ v.fld = s.fld
        ∧ (∀ i < 4, r = .discovery i → o = .doe "discovery" i) ∧ (r = .spdm 0x13 → o = .doe "spdm" 0x13) ∧ (r = .cdat 0 → o = .doe "DSMAS" s.capacity)
        ∧ (∀ x, x ≠ 0x12 → x ≠ 0x13 → r = .securedSpdm x → o = .doe "version mismatch" x))
    ∧ (s.power.cfgReady = true → ∃ v, exec .disableCaching s = .next v ∧ v.link.disableCaching = true ∧ v.fld = s.fld)
    ∧ (s.link.disableCaching = true → exec .cacheWriteBackAndInvalidation s = .next ({ s with link := { s.link with flushing := true } }).pumpAll)
    ∧ (s.link.disableCaching = false → exec .cacheWriteBackAndInvalidation s = .next s)
    ∧ (s.link.flushing = true → s.pumpAll = s → s.hostLinesOut = false → ∃ v, exec .cacheInvalidSet s = .next v ∧ v.link.flushing = false ∧ v.link.cacheInvalid = true)
    ∧ (∀ fn k, k < 1024 → s.fnOpen fn = true → s.hostHolds (match fn with | .pf0 => .s | .vf w => .w w) = false → (s.msixAt fn.ix k).pending = true → ∃ v, exec (.msixUnmask fn (.vector k)) s = .next v ∧ (v.msixAt fn.ix k).masked = false
        ∧ (s.msixFnMask fn.ix = false → s.msixEnable fn.ix = true → .msix fn (s.msixAt fn.ix k).addr (s.msixAt fn.ix k).data ∈ v.out ∧ (v.msixAt fn.ix k).pending = false)
        ∧ (s.msixFnMask fn.ix = true → v.out = s.out ∧ (v.msixAt fn.ix k).pending = true))
    ∧ (s.power.cfgReady = true → s.msixEnable 0 = false → ∃ v, exec (.msixEnableChange true) s = .next v ∧ v.msixEnable 0 = true ∧ ∀ k < 8, v.getF (F.LNK_INTX_PEND_VALUE k) = 0)
    ∧ (∀ k < 512, s.power.cfgReady = true → s.msixEnable 0 = true → (s.msixAt 0 k).pending = true → ∃ v, exec (.msixEnableChange false) s = .next v ∧ v.msixEnable 0 = false
        ∧ (v.msixAt 0 k).pending = false ∧ (v.getF (F.LNK_INTX_PEND_VALUE (k / 64))).testBit (k % 64) = true)
    ∧ (let want := s.intxPending && !s.intxDisable && !s.msixEnable 0
       ∃ v, exec .intxUpdate s = .next v ∧ v.link.intaSent = want ∧ v.out = if want = s.link.intaSent then s.out else s.out ++ [.intx want])
    ∧ (s.power.cfgReady = true → s.coreRuns = true → exec .d3hotEntry s = .next { s with link := { s.link with d3hot := true } })
    ∧ (∃ v, exec .d0Return s = .next v ∧ v.link.d3hot = false ∧ v.tiles = s.tiles ∧ v.fld = s.fld)
    ∧ exec .l1Request s = .next (if s.link.up = true ∧ s.aspmL1 = true ∧ s.linkIdle = true then { s with link := { s.link with l1 := true } } else s)
    ∧ (s.flit256 = true → (∀ w, exec (.l0pPartnerRequest w) s = .next (if w ∈ [4, 8, 16] ∧ w ≤ s.link.width then { s with link := { s.link with l0p := w } } else s))
        ∧ (s.isF F.LNK_PM_L0P_EN = true → exec .l0pNarrow s = .next (if 8 < s.link.l0p then { s with link := { s.link with l0p := 8 } } else s)
          ∧ exec .l0pWiden s = .next { s with link := { s.link with l0p := s.link.width } }))
    ∧ (∀ fec n, s.link.up = true → ∃ v, exec (.flitCrcFail fec n) s = .next v ∧ v.getF F.LNK_ERR_REPLAY = min (2 ^ 16 - 1) (s.getF F.LNK_ERR_REPLAY + 1)
        ∧ v.getF F.LNK_ERR_RECOVERY = (if 4 ≤ n then min (2 ^ 16 - 1) (s.getF F.LNK_ERR_RECOVERY + 1) else s.getF F.LNK_ERR_RECOVERY)
        ∧ v.getF F.LNK_ERR_FEC_CORR = (if s.flit256 then min (2 ^ 16 - 1) (s.getF F.LNK_ERR_FEC_CORR + fec) else s.getF F.LNK_ERR_FEC_CORR))
    ∧ (∀ k : Fin 5, (∃ v, exec (.ideIntegrityFail (.io k)) s = .next v ∧ k.val ∈ v.link.insecure ∧ v.getF F.LNK_ERR_IDE_FAIL = min (2 ^ 16 - 1) (s.getF F.LNK_ERR_IDE_FAIL + 1))
        ∧ (∃ v, exec (.ideKmKeyProgram (.io k)) s = .next v ∧ k.val ∉ v.link.insecure ∧ v.fld = s.fld))
    ∧ (∃ v, exec (.ideIntegrityFail .cachemem) s = .next v ∧ v.link.ideMemBad = true ∧ (v.getF F.FLT_BEACON_GROUPS).testBit 42 = true)

/-! ### Beacon and log -/

/-- R436, R439, R441, R444–R447, R449: the first event of a group is latched whole with its time and its wards' views,
later ones raise MAX and MORE; every event is counted; the reaction entry decides on FAULTN and the log queue; 1s
clear and re-arm groups. FLT_INJECT with GO raises an event of kind 15 and unit 255. The word that a row writes, and
what a port does that may not write it, are the model's reading (log 93). -/
def Obligations.BeaconLatchesAndReacts : Prop :=
  ∀ (s : State) (p : Port) (x : BitVec 64),
    let g := min (x.extractLsb' 0 6).toNat 48
    let c := max (x.extractLsb' 6 2).toNat 1
    let wards := x.extractLsb' 8 8
    let detail := (x.extractLsb' 32 32).toNat
    let a := if c = 1 then s.getF (F.FLT_REACT_C_ACT g) else if c = 2 then s.getF (F.FLT_REACT_U_ACT g) else s.getF (F.FLT_REACT_F_ACT g)
    (heldBack (.fltInject p x) s p F.FLT_INJECT_GO.off none x.toNat true ∧ ∀ m, heldBack (.fltBeaconClear p none m) s p F.FLT_BEACON_GROUPS.off none m.toNat true
      ∧ ∀ w : WardId, heldBack (.fltBeaconClear p (some w) m) s p (F.FLTW_BEACON_GROUPS w.val).off (State.ownVf p w 0x2000) m.toNat (decide (p = .s)))
    ∧ (p = .s → s.carries .s none true →
      (x.getLsbD 16 = false → ∃ v, exec (.fltInject p x) s = .next v ∧ v = { s with fld := v.fld } ∧ v.getF F.FLT_INJECT_GROUP = g ∧ v.getF F.FLT_INJECT_CLASS = c
        ∧ v.getF F.FLT_BEACON_GROUPS = s.getF F.FLT_BEACON_GROUPS ∧ (g ≠ (x.extractLsb' 0 6).toNat → v.getF F.FLT_STATUS_CLAMPED = 1))
      ∧ (x.getLsbD 16 = true → ∃ v, exec (.fltInject p x) s = .next v ∧ (v.getF F.FLT_BEACON_GROUPS).testBit g = true
        ∧ v.getF (F.FLT_RCOUNT_C g) = (if c = 1 then min (2 ^ 32 - 1) (s.getF (F.FLT_RCOUNT_C g) + 1) else s.getF (F.FLT_RCOUNT_C g))
        ∧ v.getF (F.FLT_RCOUNT_U g) = (if c = 2 then min (2 ^ 16 - 1) (s.getF (F.FLT_RCOUNT_U g) + 1) else s.getF (F.FLT_RCOUNT_U g))
        ∧ v.getF (F.FLT_RCOUNT_F g) = (if c = 3 then min (2 ^ 16 - 1) (s.getF (F.FLT_RCOUNT_F g) + 1) else s.getF (F.FLT_RCOUNT_F g))
        ∧ ((s.getF F.FLT_BEACON_GROUPS).testBit g = false → v.getF (F.FLT_RSTAT_MAX g) = c ∧ v.getF (F.FLT_RSTAT_FCLASS g) = c ∧ v.getF (F.FLT_RSTAT_FKIND g) = 15
            ∧ v.getF (F.FLT_RSTAT_FUNIT g) = 255 ∧ v.getF (F.FLT_RSTAT_FWARDS g) = wards.toNat ∧ v.getF (F.FLT_RSTAT_MORE g) = 0
            ∧ v.getF (F.FLT_RDETAIL_VALUE g) = detail ∧ v.getF (F.FLT_RTIME_VALUE g) = s.supTime % 2 ^ 64)
        ∧ ((s.getF F.FLT_BEACON_GROUPS).testBit g = true → v.getF (F.FLT_RSTAT_MAX g) = max (s.getF (F.FLT_RSTAT_MAX g)) c ∧ v.getF (F.FLT_RSTAT_MORE g) = 1
            ∧ v.getF (F.FLT_RSTAT_FKIND g) = s.getF (F.FLT_RSTAT_FKIND g) ∧ v.getF (F.FLT_RDETAIL_VALUE g) = s.getF (F.FLT_RDETAIL_VALUE g)
            ∧ v.getF (F.FLT_RTIME_VALUE g) = s.getF (F.FLT_RTIME_VALUE g))
        ∧ (∀ w : WardId, wards.getLsbD w.val = true → (v.getF (F.FLTW_BEACON_GROUPS w.val)).testBit g = true)
        ∧ (∀ w : WardId, wards.getLsbD w.val = false → v.getF (F.FLTW_BEACON_GROUPS w.val) = s.getF (F.FLTW_BEACON_GROUPS w.val))
        ∧ (a.testBit 5 = true → v.getF F.FLT_STATUS_FAULTN = 1) ∧ (a.testBit 5 = false → v.getF F.FLT_STATUS_FAULTN = s.getF F.FLT_STATUS_FAULTN)
        ∧ (a.testBit 3 = true → v.smbAlert = true ∧ v.mgmt.alertMask.getLsbD g = true)
        ∧ (∀ w : WardId, a.testBit 2 = true → wards.getLsbD w.val = true → s.resettingWard w = false → v.quarantined w = true)
        ∧ (a.testBit 6 = true → s.logQueue.length < 16 → v.logQueue = s.logQueue ++ [⟨⟨g, c, 15, 255, wards, BitVec.ofNat 64 detail⟩, false, 0, s.supTime⟩])
        ∧ (a.testBit 6 = false → v.logQueue = s.logQueue) ∧ v.dram = s.dram ∧ v.tiles = s.tiles)
      ∧ (∀ view m, ∃ v, exec (.fltBeaconClear p view m) s = .next v ∧ v = { s with fld := v.fld } ∧ ∀ k < 49,
        let f := (match view with | none => F.FLT_BEACON_GROUPS | some w => F.FLTW_BEACON_GROUPS w.val : Fld)
        (v.getF f).testBit k = ((s.getF f).testBit k && !m.getLsbD k)))
    ∧ heldBack .faultnClear s .s F.FLT_STATUS_FAULTN.off none (State.inWord F.FLT_STATUS_FAULTN 1 (s.keptWord F.FLT_STATUS_FAULTN.off)) true
    ∧ heldBack .fltLock s .s F.FLT_CTRL_LOCK.off none (State.inWord F.FLT_CTRL_LOCK 1 (s.keptWord F.FLT_CTRL_LOCK.off)) true
    ∧ (s.carries .s none true → exec .faultnClear s = .next (s.setF F.FLT_STATUS_FAULTN 0) ∧ exec .fltLock s = .next (s.setF F.FLT_CTRL_LOCK 1))

/-- R448–R450: the Gatehouse programs its oldest queued entry into the next slot, erasing the next sector first when it
enters one; a failed program is reported and consumes its slot; a slot is read into FLT_LOG_DATA with its CRC checked;
an erase is refused under LOCK and leaves the boot marker alone in the log. The word that a row writes, and what a
port does that may not write it, are the model's reading (log 93). -/
def Obligations.LogKeepsItsEntries : Prop :=
  ∀ (s : State),
    (∀ e rest eo, s.logQueue = e :: rest → s.power.vauxGood = true → s.isF F.FLT_LOG_CTRL_ERASE = false → s.calSaving = false → s.logNextSlot < 2048 →
      let k := s.logNextSlot
      let at_ := logBase + 32 * k
      (∃ v, exec (.logWrite true true) s = .next v ∧ v = { s with flash := v.flash, logQueue := rest, logNextSeq := (s.logNextSeq + 1) % 2 ^ 32, logNextSlot := (k + 1) % 2048 }
        ∧ (∀ i < 32, v.flash.get 0xFF (at_ + i) = (logBytes s.logNextSeq e).getD i 0)
        ∧ (k % 128 ≠ 0 → ∀ j, (j < at_ ∨ at_ + 32 ≤ j) → v.flash.get 0xFF j = s.flash.get 0xFF j)
        ∧ (k % 128 = 0 → ∀ j < 4096, v.flash.get 0xFF (logBase + 4096 * ((k / 128 + 1) % 16) + j) = 0xFF))
      ∧ (∃ v, exec (.logWrite false eo) s = .next v ∧ v.getF F.FLT_STATUS_LOG_FAIL = 1 ∧ v.logNextSeq = (s.logNextSeq + 1) % 2 ^ 32 ∧ v.logNextSlot = (k + 1) % 2048))
    ∧ (s.logQueue = [] → ∀ ok eo, exec (.logWrite ok eo) s = .next s)
    ∧ (∀ slot, heldBack (.logCtrlRead slot) s .s F.FLT_LOG_CTRL_READ.off none (1 + slot % 2048 * 65536) true)
    ∧ heldBack .logCtrlErase s .s F.FLT_LOG_CTRL_ERASE.off none (State.inWord F.FLT_LOG_CTRL_ERASE 1 (s.keptWord F.FLT_LOG_CTRL_ERASE.off)) true
    ∧ (∀ slot < 2048, s.carries .s none true →
        (s.isF F.FLT_LOG_CTRL_BUSY = true → ∃ v, exec (.logCtrlRead slot) s = .next v ∧ v.getF F.FLT_STATUS_REFUSED = 1 ∧ v = { s with fld := v.fld })
        ∧ (s.isF F.FLT_LOG_CTRL_BUSY = false → ∃ v, exec (.logCtrlRead slot) s = .next v ∧ v = { s with fld := v.fld } ∧ v.getF F.FLT_LOG_CTRL_BUSY = 1
          ∧ ∃ u, exec .logCtrlReadDone v = .next u ∧ u = { s with fld := u.fld } ∧ u.getF F.FLT_LOG_CTRL_BUSY = 0
            ∧ (∀ i < 4, u.getF (F.FLT_LOG_DATA_VALUE i) = ofLe (s.flashBytes (logBase + 32 * slot + 8 * i) 8))
            ∧ u.getF F.FLT_LOG_CTRL_BADCRC = (if State.slotGood (s.logSlot slot) then 0 else 1)))
    ∧ (s.carries .s none true → (s.isF F.FLT_CTRL_LOCK = true ∨ s.isF F.FLT_LOG_CTRL_BUSY = true → exec .logCtrlErase s = .next (s.setF F.FLT_STATUS_REFUSED 1))
        ∧ (s.isF F.FLT_CTRL_LOCK = false → s.isF F.FLT_LOG_CTRL_BUSY = false → ∃ v, exec .logCtrlErase s = .next v ∧ v = { s with fld := v.fld }
            ∧ v.getF F.FLT_LOG_CTRL_BUSY = 1 ∧ v.getF F.FLT_LOG_CTRL_ERASE = 1))
    ∧ (s.isF F.FLT_LOG_CTRL_ERASE = true → ∃ v k, exec .logEraseDone s = .next v ∧ v.getF F.FLT_LOG_CTRL_BUSY = 0 ∧ v.getF F.FLT_LOG_CTRL_ERASE = 0 ∧ k < 2048
        ∧ v.logSlot k = logBytes s.logNextSeq s.bootMarker ∧ (∀ j < 2048, j ≠ k → v.logSlot j = List.replicate 32 0xFF)
        ∧ (∀ j, (j < logBase ∨ logBase + 65536 ≤ j) → v.flash.get 0xFF j = s.flash.get 0xFF j))

/-! ### Supply, dim state, temperature, calibration -/

/-- R452–R461: samples of the rails, VCORE droops and the band; a core rail out of its range takes the device into the dim
state, once, with its cause, and half its low bound is core loss; the quarters drain and memory goes to self-refresh; LIMIT
ends the waiting of host requests; PLW_N begins the quiesce, which its release does not undo. -/
def Obligations.SupplyIsWatched : Prop :=
  ∀ (s : State),
    let dims := fun (v : State) (cause : Nat) => v.getF F.SUP_DIM_STATE = 1 ∧ v.getF F.SUP_DIM_CAUSE = cause
      ∧ v.getF F.SUP_DIM_ENTRIES = min (2 ^ 16 - 1) (s.getF F.SUP_DIM_ENTRIES + 1)
    let beacon := fun (v : State) => (v.getF F.FLT_BEACON_GROUPS).testBit 44 = true
    (∀ mv tj, s.power.vauxGood = true → mv.length = 6 → (∀ x ∈ mv, x < 2 ^ 16) → tj.length = 18 →
      ∃ v, exec (.railSample mv tj) s = .next v ∧ v = { s with fld := v.fld }
        ∧ (∀ n x, mv[n]? = some x → v.getF (F.SUP_RAIL_NOW n) = x ∧ v.getF (F.SUP_RAIL_LOW n) = min x (s.getF (F.SUP_RAIL_LOW n))
          ∧ v.getF (F.SUP_RAIL_HIGH n) = max x (s.getF (F.SUP_RAIL_HIGH n)) ∧ (State.railIn n x = true → v.getF (F.SUP_RAIL_OUT n) = 0))
        ∧ (∀ n t, tj[n]? = some t → v.getF (F.SUP_TSENSE_VALUE n) = intBits 16 (s.tjShown t))
        ∧ ∃ n t, tj[n]? = some t ∧ (∀ u ∈ tj, u ≤ t) ∧ v.getF F.SUP_THERM_TJ = intBits 16 (s.tjShown t) ∧ v.getF F.SUP_THERM_HOT = n)
    ∧ (∀ (r : Fin 6) mv, (State.railIn r.val mv = true → exec (.railOutOfRange r mv) s = .next s)
      ∧ (s.power.vauxGood = true → State.railIn r.val mv = false →
        (1 ≤ r.val → r.val ≤ 3 → State.railHalf r.val ≤ mv → s.coreRuns = true → s.isF (F.SUP_RAIL_OUT r.val) = false → s.dimmed = false →
          ∃ v, exec (.railOutOfRange r mv) s = .next v ∧ dims v r.val ∧ beacon v ∧ v.getF (F.SUP_RAIL_OUT r.val) = 1)
        ∧ (r.val = 0 → 375 ≤ mv → mv < 570 → s.coreRuns = true → s.dimmed = false → ∃ v, exec (.railOutOfRange r mv) s = .next v ∧ dims v 0 ∧ beacon v)
        ∧ (r.val ≤ 3 → mv < State.railHalf r.val → s.power.coreGood = true → ∃ v, exec (.railOutOfRange r mv) s = .next v ∧ v.power.coreUp = false ∧ v.ready = false)
        ∧ (4 ≤ r.val → (State.railRange r.val).2 < mv → s.isF (F.SUP_RAIL_OUT r.val) = false → ∃ v, exec (.railOutOfRange r mv) s = .next v ∧ beacon v
            ∧ v.getF (F.SUP_RAIL_OUT r.val) = 1 ∧ v.power = s.power)))
    ∧ (∀ mv, s.power.coreGood = true →
      (s.belowWarn mv = true → s.power.belowSince = none → ∃ v, exec (.droopWarnFall mv) s = .next v ∧ v.power = { s.power with belowSince := some s.supTime }
        ∧ v.getF F.SUP_DROOP_STAT_COUNT = min (2 ^ 16 - 1) (s.getF F.SUP_DROOP_STAT_COUNT + 1) ∧ v = { s with fld := v.fld, power := v.power })
      ∧ (s.power.inBand = false → 570 ≤ mv → mv < 600 → ∃ v, exec (.vcoreBandEntry mv) s = .next v ∧ v.power.inBand = true ∧ beacon v
        ∧ v.getF F.SUP_DROOP_STAT_BAND = min (2 ^ 16 - 1) (s.getF F.SUP_DROOP_STAT_BAND + 1)))
    ∧ (∀ mv t, 610 ≤ mv → s.belowWarn mv = false → s.power.belowSince = some t → ∃ v, exec (.vcoreRecovery mv) s = .next v
        ∧ v.power = { s.power with inBand := false, belowSince := none } ∧ v.getF F.SUP_DROOP_STAT_LONGEST = max (min 0xFFFF (s.supTime - t)) (s.getF F.SUP_DROOP_STAT_LONGEST))
    ∧ (∀ (c : Fin 16) mv, s.coreRuns = true → (s.dimmed = true → exec (.dimEnter c mv) s = .next s)
        ∧ (s.dimmed = false → c.val = 8 → s.isF F.SUP_THERM_TRIPPED = true → ∃ v, exec (.dimEnter c mv) s = .next v ∧ dims v 8 ∧ v = { s with fld := v.fld, ready := v.ready })
        ∧ (s.dimmed = false → 1 ≤ c.val → c.val < 4 → State.railIn c.val mv = false → ∃ v, exec (.dimEnter c mv) s = .next v ∧ dims v c.val ∧ beacon v))
    ∧ (s.getF F.SUP_DIM_STATE = 1 → s.workEnded = true → s.power.dimDrain = true → s.pumpAll = s → s.allDrained = true →
        ∃ v, exec .dimSelfRefresh s = .next v ∧ v.getF F.SUP_DIM_STATE = 2 ∧ v = { s with fld := v.fld })
    ∧ (s.dimmed = true → s.power.dimOut = false → ∃ v, exec .dimLimit s = .next v ∧ v.getF F.SUP_DIM_TIMED_OUT = 1 ∧ v.power.dimOut = true ∧ beacon v ∧ v.link.held = [])
    ∧ (s.power.vauxGood = true → s.isF F.SUP_PLW_LEVEL = false → s.coreRuns = true → s.power.plwRunning = false → ∃ v, exec .plwNAssert s = .next v
        ∧ v.getF F.SUP_PLW_LEVEL = 1 ∧ v.power.plwRunning = true ∧ beacon v)
    ∧ (s.power.plwRunning = true → s.isF F.SUP_PLW_QUIESCED = false → s.drainBuffers = s → (∀ c ∈ s.tiles.cells, c.2.sb = []) → s.pumpAll = s → s.beginDrains = s →
        s.allDrained = true → ∃ v, exec .plwQuiesced s = .next v ∧ v.getF F.SUP_PLW_QUIESCED = 1 ∧ v = { s with fld := v.fld })
    ∧ exec .plwNDeassert s = .next (s.setF F.SUP_PLW_LEVEL 0)

/-- R462–R467: the thermal conditions are set at their thresholds and re-armed 2 °C on the safe side; TRIP pulls
THERMTRIP, reports and dims; a WARN holds dispatch by THROTTLE; an offset is clamped to its range, held 1 µs; SAVE,
RELOAD and ZERO are refused while the store is held, and a SAVE writes the copy that is not in force. The word that a
row writes, and what a port does that may not write it, are the model's reading (log 93). -/
def Obligations.HeatAndCalibration : Prop :=
  ∀ (s : State) (t : Int) (n : Fin 18),
    let tj := s.tjShown t
    (s.power.vauxGood = true →
      (exec (.thermWarn t n) s = .next (if 8 * s.calEff 4 ≤ tj then s.setF F.SUP_THERM_WARN 1 else s))
      ∧ (exec (.thermCold t n) s = .next (if tj < 8 * s.gradeLower then s.setF F.SUP_THERM_COLD 1 else s))
      ∧ (8 * s.gradeUpper < tj → s.isF F.SUP_THERM_OVER = false → ∃ v, exec (.thermOver t n) s = .next v ∧ v.getF F.SUP_THERM_OVER = 1
          ∧ (v.getF F.FLT_BEACON_GROUPS).testBit 45 = true)
      ∧ (8 * s.calEff 5 ≤ t → s.thermtrip = false → ∃ v, exec (.thermalTrip t n) s = .next v ∧ v.thermtrip = true ∧ v.getF F.SUP_THERM_TRIPPED = 1
          ∧ (v.getF F.FLT_BEACON_GROUPS).testBit 45 = true ∧ v.getF F.SUP_DIM_CAUSE = 8 ∧ v.getF F.SUP_DIM_STATE ≠ 0)
      ∧ (∃ v, exec (.thermalRearm t) s = .next v ∧ v = { s with fld := v.fld, power := v.power }
          ∧ v.getF F.SUP_THERM_WARN = (if tj ≤ 8 * s.calEff 4 - 16 then 0 else s.getF F.SUP_THERM_WARN)
          ∧ v.getF F.SUP_THERM_OVER = (if tj ≤ 8 * s.gradeUpper - 16 then 0 else s.getF F.SUP_THERM_OVER)
          ∧ v.getF F.SUP_THERM_COLD = (if 8 * s.gradeLower + 16 ≤ tj then 0 else s.getF F.SUP_THERM_COLD)))
    ∧ (s.isF F.SUP_THERM_WARN = true → s.isF F.SUP_THERM_THROTTLE = true → ∃ v, exec .throttleHold s = .next v ∧ v = { s with power := v.power }
        ∧ s.getF F.SUP_THERM_THROTTLE * 1250 ≤ 40 * (v.power.throttleUntil - s.supTime) ∧ 40 * (v.power.throttleUntil - s.supTime) < s.getF F.SUP_THERM_THROTTLE * 1250 + 40)
    ∧ (∀ (p : Port) (k : Fin 7), heldBack (.calUserWrite p k t) s p (F.SUP_CAL_ITEM_USER k.val).off none (intBits 8 t) true)
    ∧ heldBack .calCmdSave s .s F.SUP_CAL_CMD_SAVE.off none 1 true ∧ heldBack .calCmdReload s .s F.SUP_CAL_CMD_RELOAD.off none 2 true
    ∧ heldBack .calCmdZero s .s F.SUP_CAL_CMD_ZERO.off none 4 true
    ∧ (s.carries .s none true →
      (s.power.calJob ≠ none → ∀ c ∈ [Instr.calUserWrite .s 0 t, .calCmdSave, .calCmdReload, .calCmdZero], exec c s = .next (s.setF F.SUP_CAL_STATUS_REFUSED 1))
      ∧ (s.power.calJob = none →
        (∀ (k : Fin 7), let e := max (calRange k.val).1 (min (calRange k.val).2 t)
          ∃ v, exec (.calUserWrite .s k t) s = .next v ∧ v.calUser k.val = e ∧ (e ≠ t → v.getF (F.SUP_CAL_ITEM_CLAMPED k.val) = 1) ∧ v.getF F.SUP_CAL_STATUS_BUSY = 1
            ∧ v.power.calJob = some (0, 0) ∧ ∃ u, exec .calUserHoldEnd v = .next u ∧ u.power.calJob = none ∧ u.getF F.SUP_CAL_STATUS_BUSY = 0 ∧ u.calUser k.val = e)
        ∧ (s.power.bootDone = true → ∃ v, exec .calCmdSave s = .next v ∧ v.power.calJob = some (0, 1) ∧ v.getF F.SUP_CAL_STATUS_BUSY = 1)
        ∧ (s.power.bootDone = false → exec .calCmdSave s = .next (s.setF F.SUP_CAL_STATUS_REFUSED 1))
        ∧ (∃ v, exec .calCmdReload s = .next v ∧ v.power.calJob = some (0, 2) ∧ v.getF F.SUP_CAL_STATUS_BUSY = 1)
        ∧ (∃ v, exec .calCmdZero s = .next v ∧ ∀ k < 7, v.calUser k = 0)))
    ∧ (∀ o, s.power.calJob = some (o, 1) → s.mgmt.calWait = none →
      let b := match s.calCurrent with | none => false | some b => !b
      (∃ v, exec (.calFlashDone true) s = .next v ∧ v.power.calJob = none ∧ v.getF F.SUP_CAL_STATUS_BUSY = 0 ∧ v.calGood b = true
        ∧ v.getF F.SUP_CAL_STATUS_SEQ = (s.getF F.SUP_CAL_STATUS_SEQ + 1) % 2 ^ 32
        ∧ (∀ k < 7, v.flash.get 0xFF (calCopy b + 8 + k) = BitVec.ofNat 8 (s.getF (F.SUP_CAL_ITEM_USER k)))
        ∧ (∀ j, (j < calCopy b ∨ calCopy b + 4096 ≤ j) → v.flash.get 0xFF j = s.flash.get 0xFF j))
      ∧ (∃ v, exec (.calFlashDone false) s = .next v ∧ v.power.calJob = none ∧ v.getF F.SUP_CAL_STATUS_SAVE_FAIL = 1))

/-! ### Fabric events -/

/-- R105–R109, R113: a sample of the pace raises the alarm below its threshold; a stall or an illegal code is recorded: in a
tile or an engine that a ward owns it is contained there, elsewhere it is F-class; a parity error poisons its word, and in the
Gatehouse's own state it is F-class (R114). An uncorrectable byte of local store shows at the next read; of a Ledger entry it
makes the entry close POISON (13 R366), of a directory entry it poisons the line (12 R322, log 83). -/
def Obligations.FabricEventsAreContained : Prop :=
  ∀ (s : State), s.coreRuns = true →
    (∀ p < 2 ^ 16, ∃ v, exec (.paceSample p) s = .next v ∧ v = { s with fld := v.fld } ∧ v.getF F.SUP_PACE_CURRENT = p
      ∧ (v.getF F.SUP_PACE_LOW = if s.getF F.SUP_PACE_LOW = 0 then p else min p (s.getF F.SUP_PACE_LOW))
      ∧ (v.getF F.SUP_PACE_HIGH = if s.getF F.SUP_PACE_HIGH = 0 then p else max p (s.getF F.SUP_PACE_HIGH))
      ∧ (p < s.getF F.SUP_PACE_ALARM_THRESH → v.getF F.SUP_PACE_ALARM_BELOW = 1))
    ∧ (∀ c k u, (c, k) ∈ [(Instr.stallEvent u, 1), (.illegalCodeDetect u, 2)] → (k = 1 → s.isF F.SUP_STALL_CTRL_ENABLE = true ∧ s.unwatched u = false) →
      let rec_ := fun (v : State) => v.getF F.SUP_STALL_STATUS_KIND = k ∧ v.getF F.SUP_STALL_STATUS_EVENTS = min (2 ^ 16 - 1) (s.getF F.SUP_STALL_STATUS_EVENTS + 1)
        ∧ v.getF F.SUP_STALL_STATUS_UNIT = unitCode u ∧ (v.getF F.FLT_BEACON_GROUPS).testBit (unitGroup u).1 = true
      (∀ t, u = .tile t → ∃ v, exec c s = .next v ∧ rec_ v
        ∧ (v.tile t).mode = (if (s.tile t).mode = .stranded then .stranded else .faultHeld) ∧ (v.tile t).item = none ∧ (∀ r, r ≠ t → v.tile r = s.tile r)
        ∧ v.getF (F.FLT_RCOUNT_U (t.val / 16)) = min (2 ^ 16 - 1) (s.getF (F.FLT_RCOUNT_U (t.val / 16)) + 1))
      ∧ (∀ h, u = .home h → ∃ v, exec c s = .next v ∧ rec_ v ∧ v.getF (F.FLT_RCOUNT_F (16 + h.val)) = min (2 ^ 16 - 1) (s.getF (F.FLT_RCOUNT_F (16 + h.val)) + 1)))
    ∧ (s.isF F.SUP_STALL_CTRL_SELFTEST = true → (∃ v, exec (.stallSelftest false) s = .next v ∧ v.getF F.SUP_STALL_STATUS_SELFTEST_FAIL = 1 ∧ v.getF F.SUP_STALL_STATUS_KIND = 5
        ∧ (v.getF F.FLT_BEACON_GROUPS).testBit 46 = true) ∧ exec (.stallSelftest true) s = .next s)
    ∧ (∀ t (w : Fin 32768) r, ∃ v, exec (.parityError (.tile t) r (.lsWord t w)) s = .next v ∧ v.getF F.SUP_STALL_STATUS_KIND = (if r then 4 else 3)
        ∧ (v.tile t).lsPoison.get false w.val = true ∧ (v.tile t).ls = (s.tile t).ls ∧ (v.getF F.FLT_BEACON_GROUPS).testBit (t.val / 16) = true)
    ∧ (∀ t i p, s.net[i]? = some p → ∃ v, exec (.parityError (.crossing t) false (.packet i)) s = .next v ∧ v.net[i]? = some { p with poison := true }
        ∧ v.getF (F.TIL_AVE_CNT_PARITY t.val) = min (2 ^ (F.TIL_AVE_CNT_PARITY t.val).w - 1) (s.getF (F.TIL_AVE_CNT_PARITY t.val) + 1))
    ∧ (s.power.vauxGood = true → ∀ r, ∃ v, exec (.parityError .gatehouse r .unheld) s = .next v ∧ (v.getF F.FLT_BEACON_GROUPS).testBit 47 = true
        ∧ v.getF (F.FLT_RCOUNT_F 47) = min (2 ^ 16 - 1) (s.getF (F.FLT_RCOUNT_F 47) + 1) ∧ v.tiles = s.tiles ∧ v.net = s.net ∧ v.dram = s.dram)
    ∧ (∀ u r t (o : Fin 262144) f d, u ≠ .gatehouse → decode13 (encode13 ((s.tile t).ls.get 0 o.val).toNat ^^^ f.toNat) = .uncorrectable d →
        ∃ v, exec (.parityError u r (.lsByte t o f)) s = .next v ∧ v = { s with tiles := v.tiles } ∧ (v.tile t).lsBad.get false o.val = true)
    ∧ (∀ u r x e f d, u ≠ .gatehouse → s.entry x = some e → decode13 f.toNat = .uncorrectable d → ∃ v, exec (.parityError u r (.ledgerEntry x f)) s = .next v
        ∧ v.entry x = some { e with bad := true } ∧ (v.getF F.FLT_BEACON_GROUPS).testBit 41 = true)
    ∧ (∀ u r (h : Fin 17) l e f d, u ≠ .gatehouse → s.dirGet h.val l.n = some e → decode13 f.toNat = .uncorrectable d →
        ∃ v, exec (.parityError u r (.dirEntry h l f)) s = .next v ∧ v.dirGet h.val l.n = some { e with poison := true })

/-! ### The management port -/

/-- R475, R481–R483: before VAUX good + 5 ms a request is not answered. A request that arrives while one executes is
held, and a third is answered BUSY with a hint of 5. An idle port answers VERSION to another VER and INVALID to a reserved
field that is not 0 or to a LEN that is not the command's, with no other effect. R485–R487, R489, R492: the commands that read. Identity; health, supply, temperatures, the log's state and the
calibration store, each register as it stands, with nothing cleared; a log slot with its CRC flag; the alert mask, which a
1 clears with the alert. -/
def Obligations.ManagementAnswersItsRequests : Prop :=
  (∀ (s : State) (c : Instr) (q : MgmtHdr) (cmd : Nat) (p : List Byte) (ok : Bool), mgmtRow c = some (q, cmd, p, ok) →
    (s.mgmtAwake = false → exec c s = .next s)
    ∧ (s.mgmtAwake = true → 2 ≤ bN s.mgmtBusy + s.mgmt.queue.length →
        exec c s = .next { s with mgmt := { s.mgmt with others := s.mgmt.others ++ [mgmtRsp q cmd 2 5 []] } })
    ∧ (s.mgmtAwake = true → s.mgmtBusy = true → s.mgmt.queue = [] →
        exec c s = .next { s with mgmt := { s.mgmt with queue := [mgmtMsg q cmd p ok] } })
    ∧ (s.mgmtIdle → q.ver ≠ 1 →
        exec c s = .next { s with mgmt := { s.mgmt with response := some (mgmtRsp q cmd 5 0 []), retries := 0 } })
    ∧ (s.mgmtIdle → q.ver = 1 → (q.flags ≠ 0 ∨ q.status ≠ 0 ∨ q.retry ≠ 0 ∨ q.len.toNat ≠ p.length) →
        exec c s = .next { s with mgmt := { s.mgmt with response := some (mgmtRsp q cmd 4 0 []), retries := 0 } }))
  ∧ (∀ (s : State) (q : MgmtHdr), s.mgmtIdle →
    let answers := fun (c : Instr) (cmd st : Nat) (p : List Byte) =>
      exec c s = .next { s with mgmt := { s.mgmt with response := some (mgmtRsp q cmd st 0 p), retries := 0 } }
    let regs := fun (l : List Nat) => l.flatMap (fun o => s.regLe o 8)
    (hdrFair q 0 →
      answers (.getIdentity q) 0x01 0 (leBytes 2 0xC9A5 ++ leBytes 2 0x8640 ++ [2, BitVec.ofNat 8 (bN s.fuses.gradeX)] ++ leBytes 2 s.fuses.ref
        ++ [BitVec.ofNat 8 (bN s.power.fuseGood)] ++ leBytes 8 s.fuses.serial.toNat)
      ∧ answers (.getHealth q) 0x02 0 ([BitVec.ofNat 8 s.healthByte] ++ regs [0x30000, 0x30008] ++ s.coreLe 0x10018 4
        ++ regs [0x40300, 0x40580, 0x40588, 0x40590, 0x40598, 0x405A0])
      ∧ answers (.getSupply q) 0x03 0 (regs [0x40000, 0x40008, 0x40010, 0x40018, 0x40020, 0x40028, 0x40200] ++ s.regLe 0x40310 4 ++ s.coreLe 0x40108 8)
      ∧ answers (.getThermal q) 0x04 0 (regs (0x40400 :: (List.range 18).map (fun i => 0x40480 + 8 * i)))
      ∧ answers (.logHead q) 0x07 0 (regs [0x32008, 0x30008])
      ∧ answers (.calGet q) 0x09 0 (regs ((List.range 7).map (fun i => 0x40800 + 8 * i) ++ [0x40888])))
    ∧ (hdrFair q 2 → ∀ slot < 65536, ∀ ok : Bool,
      (2048 ≤ slot → answers (.logRead q slot ok) 0x08 4 [])
      ∧ (slot < 2048 → s.isF F.FLT_LOG_CTRL_BUSY = false → s.calSaving = false →
          answers (.logRead q slot true) 0x08 0 (s.logSlot slot ++ [if State.slotGood (s.logSlot slot) then 0 else 1])
          ∧ answers (.logRead q slot false) 0x08 7 [])
      ∧ (slot < 2048 → s.isF F.FLT_LOG_CTRL_BUSY = true ∨ s.calSaving = true → ∃ v r, exec (.logRead q slot ok) s = .next v
          ∧ v = { s with freeCtr := v.freeCtr, mgmt := v.mgmt } ∧ v.mgmt.response = some (mgmtRsp q 0x08 2 r [])))
    ∧ (hdrFair q 1 → answers (.alertGet q 0) 0x10 0 (leBytes 8 s.mgmt.alertMask.toNat)
      ∧ (∃ v, exec (.alertGet q 1) s = .next v ∧ v = { s with smbAlert := false, mgmt := v.mgmt } ∧ v.mgmt.alertMask = 0
          ∧ v.mgmt.response = some (mgmtRsp q 0x10 0 0 (leBytes 8 s.mgmt.alertMask.toNat)))
      ∧ ∀ ack, 2 ≤ ack → ack < 256 → answers (.alertGet q ack) 0x10 4 []))

/-- R482, R484, R488–R491, R493: the commands that act. Register access with the authority of M, from the boot plan step
on; the calibration store, in turn with S; THROTTLE; a reset, which waits for its answer; the Lantern's arming. -/
def Obligations.ManagementCommandsAct : Prop :=
  ∀ (s : State) (q : MgmtHdr), s.mgmtIdle →
    let does := fun (c : Instr) (cmd st r : Nat) (p : List Byte) (t : State) => ∃ v, exec c s = .next v ∧ v = { t with mgmt := v.mgmt }
      ∧ v.mgmt.response = some (mgmtRsp q cmd st r p)
    let fails := fun (c : Instr) (cmd st r : Nat) => does c cmd st r [] s
    (∀ off width val, off < 2 ^ 32 → width < 256 → val < 2 ^ 64 →
      let bad := (width ≠ 4 ∧ width ≠ 8) ∨ off % width ≠ 0
      (hdrFair q 5 → (s.power.bootDone = false → fails (.readReg q off width) 0x05 1 s.notReadyHint)
        ∧ (s.power.bootDone = true → (bad → fails (.readReg q off width) 0x05 4 0) ∧ (¬ bad → State.mgtAt off = some 0 → fails (.readReg q off width) 0x05 3 0)
          ∧ (¬ bad → State.mgtAt off ≠ some 0 → does (.readReg q off width) 0x05 0 0 (leBytes 8 (s.portRead .m off width).1) (s.portRead .m off width).2)))
      ∧ (hdrFair q 13 → s.power.bootDone = true → (bad → fails (.writeReg q off width val) 0x06 4 0)
        ∧ (¬ bad → State.mgtAt off ≠ some 2 → fails (.writeReg q off width val) 0x06 3 0)
        ∧ (¬ bad → State.mgtAt off = some 2 → s.power.calJob = none →
            let t := s.portWrite .m off width (val % 2 ^ (8 * width))
            ∃ st, (st = 0 ∨ st = 6) ∧ does (.writeReg q off width val) 0x06 st 0 (leBytes 8 (ofLe (t.readBytes .m off width))) t)))
    ∧ (s.power.calJob ≠ none → (hdrFair q 2 → ∀ i < 7, ∀ o, fails (.calSet q i o) 0x0A 2 s.calHint)
        ∧ (hdrFair q 0 → fails (.calSave q) 0x0B 2 s.calHint ∧ fails (.calReload q) 0x0C 2 s.calHint ∧ fails (.calZero q) 0x0D 2 s.calHint))
    ∧ (s.power.calJob = none →
      (hdrFair q 2 → ∀ i < 7, ∀ o : Byte,
        let e := max (calRange i).1 (min (calRange i).2 o.toInt)
        ∃ v, exec (.calSet q i o) s = .next v ∧ v.calUser i = e ∧ v.power.calJob = some (1, 0)
          ∧ v.mgmt.response = some (mgmtRsp q 0x0A (if e = o.toInt then 0 else 6) 0 (v.regLe (0x40800 + 8 * i) 8)))
      ∧ (hdrFair q 0 →
        (∃ v, exec (.calZero q) s = .next v ∧ (∀ i < 7, v.calUser i = 0) ∧ v.mgmt.response = some (mgmtRsp q 0x0D 0 0 v.calItems))
        ∧ (∀ p, s.power.bootDone = false → s.power.pAt = some p → fails (.calSave q) 0x0B 2 (s.timeLeft (p + 11250000) 25000))
        ∧ (∀ c cmd what, (c, cmd, what) ∈ [(Instr.calSave q, 0x0B, 1), (.calReload q, 0x0C, 2)] → (what = 1 → s.power.bootDone = true) →
          ∃ v, exec c s = .next v ∧ v.mgmt.response = none ∧ v.power.calJob = some (1, what) ∧ v.mgmt.calWait = some (q, cmd)
            ∧ ∀ ok, ∃ u p, exec (.calFlashDone ok) v = .next u ∧ u.power.calJob = none ∧ u.mgmt.response = some (mgmtRsp q cmd (if ok then 0 else 7) 0 p))))
    ∧ (hdrFair q 2 → ∀ i < 256, 7 ≤ i → ∀ o, fails (.calSet q i o) 0x0A 4 0)
    ∧ (hdrFair q 1 → (does (.throttle q 255) 0x0E 0 0 (s.regLe 0x40400 8) s)
        ∧ ∀ x < 255, (7 < x → fails (.throttle q x) 0x0E 4 0)
          ∧ (x ≤ 7 → let t := s.setF F.SUP_THERM_THROTTLE x; does (.throttle q x) 0x0E 0 0 (t.regLe 0x40400 8) t))
    ∧ (hdrFair q 2 → ∀ kind < 256, ∀ ward < 256,
        let asks := ∃ v, exec (.resetReq q kind ward) s = .next v ∧ v = { s with mgmt := v.mgmt } ∧ v.mgmt.pendingReset = some (kind, ward)
          ∧ v.mgmt.response = some (mgmtRsp q 0x0F 0 0 [])
        (kind = 1 ∨ kind = 2 → ward = 0 → asks)
        ∧ (kind = 0 ∨ 3 < kind ∨ (kind < 3 ∧ ward ≠ 0) ∨ (kind = 3 ∧ 7 < ward) → fails (.resetReq q kind ward) 0x0F 4 0)
        ∧ (kind = 3 → ward ≤ 7 → (s.power.bootDone = true → s.dimmed = false → s.power.plwRunning = false → asks)
            ∧ (s.power.bootDone = false → fails (.resetReq q kind ward) 0x0F 1 s.notReadyHint)))
    ∧ (hdrFair q 2 → ∀ m < 256,
        (∃ v, exec (.lanternCtrl q 0 m) s = .next v ∧ v.lantern.lock = 0 ∧ v.mgmt.nonce = none ∧ v.lantern.halts = []
          ∧ v.mgmt.response = some (mgmtRsp q 0x11 0 0 [0, 0, 0, 0, 0]))
        ∧ (∃ v n, exec (.lanternCtrl q 1 m) s = .next v ∧ v.mgmt.nonce = some n ∧ v.lantern = { s.lantern with lock := if s.lantern.lock = 2 then 2 else 1, fails := 0 }
          ∧ v.mgmt.armedUntil = s.supTime + max 1 m * 1500000000
          ∧ v.mgmt.response = some (mgmtRsp q 0x11 (if m = 0 then 6 else 0) 0 (leBytes 4 n.toNat ++ [BitVec.ofNat 8 (max 1 m)])))
        ∧ ∀ op, 2 ≤ op → op < 256 → fails (.lanternCtrl q op m) 0x11 4 0)

/-- R475, R478, R479, R491, R492: MCTP control is answered; a packet that carries a whole request is that request, one
that opens a message of several is gathered, and one with a bad PEC is ignored; an answer leaves in its turn or, after
three lost arbitrations, is dropped, and a reset that was asked for begins after it. -/
def Obligations.ManagementPortCarriesMessages : Prop :=
  ∀ (s : State),
    (s.mgmtAwake = false → ∀ (e : Byte) b ok, ∀ c ∈ [Instr.setEndpointId e, .getEndpointId, .getMctpVersionSupport, .getMessageTypeSupport,
        .getVendorDefinedMessageSupport, .alertResponseAddress, .mctpPacket b ok], exec c s = .next s)
    ∧ (s.mgmtAwake = true →
      let answer := fun (a : List Byte) => { s with mgmt := { s.mgmt with others := s.mgmt.others ++ [[0, 0, 0, 0] ++ a] } }
      (∀ e : Byte, e = 0 ∨ e = 255 → exec (.setEndpointId e) s = .next (answer [1, 2]))
      ∧ (∀ e : Byte, e ≠ 0 → e ≠ 255 → exec (.setEndpointId e) s = .next { answer [1, 0, 0, e, 0] with mgmt := { (answer [1, 0, 0, e, 0]).mgmt with eid := e } })
      ∧ exec .getEndpointId s = .next (answer [2, 0, s.mgmt.eid, 0, 0]) ∧ exec .getMctpVersionSupport s = .next (answer [4, 0, 1, 0xF1, 0xF3, 0xF1, 0])
      ∧ exec .getMessageTypeSupport s = .next (answer [5, 0, 1, 0x7E]) ∧ exec .getVendorDefinedMessageSupport s = .next (answer [6, 0, 0xFF, 0, 0xC9, 0xA5, 0, 0])
      ∧ exec .alertResponseAddress s = .next { s with out := s.out ++ [.smbus [0x4C]] }
      ∧ (∀ b, exec (.mctpPacket b false) s = .next s)
      ∧ (∀ c q cmd p, mgmtRow c = some (q, cmd, p, true) →
          exec (.mctpPacket ([1, s.mgmt.eid, q.requester, BitVec.ofNat 8 (0xC8 + q.tag.toNat)] ++ (mgmtMsg q cmd p true).drop 3) true) s
            = exec c { s with mgmt := { s.mgmt with partialMsg := [] } })
      ∧ (∀ (d src : Byte) (sq tag : Nat) (body : List Byte), sq < 4 → tag < 8 → body ≠ [] → body.length ≤ 64 →
          exec (.mctpPacket ([1, d, src, BitVec.ofNat 8 (0x88 + 16 * sq + tag)] ++ body) true) s
            = .next { s with mgmt := { s.mgmt with partialMsg := [src, BitVec.ofNat 8 tag, BitVec.ofNat 8 ((sq + 1) % 4)] ++ body } }))
    ∧ (s.mgmt.others = [] → s.mgmt.response = none → ∀ sent, exec (.mgmtResponseSend sent) s = .next s)
    ∧ (∀ r rest, s.mgmt.others = r :: rest →
        exec (.mgmtResponseSend true) s = .next { s with out := s.out ++ [.smbus r], mgmt := { s.mgmt with others := rest, retries := 0 } })
    ∧ (∀ r, s.mgmt.others = [] → s.mgmt.response = some r → s.mgmt.queue = [] → s.mgmt.calWait = none →
        (s.mgmt.pendingReset = none →
          exec (.mgmtResponseSend true) s = .next { s with out := s.out ++ [.smbus r], mgmt := { s.mgmt with response := none, retries := 0 } }
          ∧ (s.mgmt.retries < 3 → exec (.mgmtResponseSend false) s = .next { s with mgmt := { s.mgmt with retries := s.mgmt.retries + 1 } })
          ∧ (3 ≤ s.mgmt.retries → exec (.mgmtResponseSend false) s = .next { s with mgmt := { s.mgmt with response := none, retries := 0 } }))
        ∧ (∀ k w, s.mgmt.pendingReset = some (k, w) → s.coreRuns = true → ∃ v, exec (.mgmtResponseSend true) s = .next v
            ∧ (k = 1 → v.getF F.GBL_RESET_CAUSE_LAST = 5) ∧ (k = 2 → s.power.coreGood = true → v.getF F.GBL_RESET_CAUSE_LAST = 2)
            ∧ (k = 3 → w < 8 → v.isF (F.WRD_STATUS_RESETTING w) = true)))

/-! ### Lantern -/

/-- R493–R500, R502, R513: the packets. Nothing is answered before VAUX good + 2 ms; a bad parity, START or STOP gives PARERR;
STATUS is always answered, READ, WRITE and LNT_EVENT only unlocked; UNLOCK follows the lock; a READ gives the register, and
of the access window the outcome; a line reset drops a partial packet; the end of the arming time relocks. -/
def Obligations.LanternAnswersPackets : Prop :=
  ∀ (s : State) (h : LntHdr) (d : LntData),
    let ack := fun (c : Instr) (a : Nat) (t : State) => exec c s = .next { t with out := s.out ++ [.lantern a none] }
    let data := fun (c : Instr) (v : W64) => exec c s = .next { s with out := s.out ++ [.lantern 1 (some v)] }
    let good := fun (op : Nat) => h.start = false ∧ h.stop = true ∧ h.parity = parityN (op + 8 * h.lreg.toNat) 11
    let whole := d.parity = parityN d.d.toNat 64
    let locked := s.lantern.lock ≠ 2 ∨ s.power.fuseGood = false
    let r := h.lreg.toNat
    exec .lineReset s = .next { s with lantern := { s.lantern with partialBits := 0 } }
    ∧ (s.lantern.lock = 0 → exec .lanternArmExpire s = .next s)
    ∧ (s.lantern.lock ≠ 0 → ∃ v, exec .lanternArmExpire s = .next v ∧ v.lantern.lock = 0 ∧ v.mgmt.nonce = none ∧ v.lantern.halts = [])
    ∧ (s.lntAwake = false → ∀ c ∈ [Instr.status h, .read h, .write h d, .unlock h d, .lntEventRead], exec c s = .next s)
    ∧ (s.lntAwake = true →
      (¬ good 0 → ack (.status h) 6 s) ∧ (¬ good 1 → ack (.read h) 6 s) ∧ (¬ (good 2 ∧ whole) → ack (.write h d) 6 s)
      ∧ (¬ (good 3 ∧ whole) → ack (.unlock h d) 6 s)
      ∧ (good 0 → data (.status h) (BitVec.ofNat 64 s.lntStatus))
      ∧ (locked → (good 1 → ack (.read h) 4 s) ∧ (good 2 → whole → ack (.write h d) 4 s) ∧ ack .lntEventRead 4 s)
      ∧ (good 3 → whole →
        (s.lantern.lock = 0 → ack (.unlock h d) 4 s)
        ∧ (∀ n, s.lantern.lock ≠ 0 → s.mgmt.nonce = some n → d.d = ~~~ n ++ n → ack (.unlock h d) 1 { s with lantern := { s.lantern with lock := 2 } })
        ∧ ((∀ n, s.mgmt.nonce = some n → d.d ≠ ~~~ n ++ n) →
          (s.lantern.lock = 2 → ack (.unlock h d) 3 s)
          ∧ (s.lantern.lock = 1 → s.lantern.fails < 2 → ack (.unlock h d) 3 { s with lantern := { s.lantern with fails := s.lantern.fails + 1 } })
          ∧ (s.lantern.lock = 1 → s.lantern.fails = 2 →
              ack (.unlock h d) 3 { s with lantern := { s.lantern with lock := 0, fails := 3 }, mgmt := { s.mgmt with nonce := none } })))
      ∧ (¬ locked → good 1 →
        (∀ n v, (n, v) ∈ [(0, s.lntStatus), (2, s.getF F.LNT_ACC_ADDR_VALUE), (7, s.lntRunStatus), (8, s.getF F.LNT_FREEZE_BITS),
            (0x0A, s.getF F.LNT_EVENT_PC_VALUE), (0x0B, s.getF F.LNT_EVENT_ADDR_VALUE)] → r = n → data (.read h) (BitVec.ofNat 64 v))
        ∧ (∀ n, (n < 8 → r = 0x20 + 2 * n → data (.read h) (BitVec.ofNat 64 (s.getF (F.LNT_BP_ADDR_VALUE n))))
            ∧ (n < 4 → r = 0x30 + 2 * n → data (.read h) (BitVec.ofNat 64 (s.getF (F.LNT_WP_ADDR_VALUE n)))))
        ∧ (r = 1 ∨ r = 5 ∨ (0x0C ≤ r ∧ r < 0x20) ∨ 0x38 ≤ r → data (.read h) 0)
        ∧ (r = 3 ∨ r = 4 → (s.lantern.accPhase ≠ 0 → ack (.read h) 2 s) ∧ (s.lantern.accPhase = 0 → s.lantern.accFault = true → ack (.read h) 5 s)
            ∧ (s.lantern.accPhase = 0 → s.lantern.accFault = false → data (.read h) (if r = 4 then s.lantern.accData else BitVec.ofNat 64 s.accCtrl)))
        ∧ (∀ c, c = .lntEventRead ∨ (r = 9 ∧ c = .read h) → ∃ v, exec c s = .next v ∧ v.getF F.LNT_EVENT_COUNT = 0
            ∧ v = { s with fld := v.fld, lantern := { s.lantern with eventNew := false }, out := s.out ++ [.lantern 1 (some (BitVec.ofNat 64
                (s.getF F.LNT_EVENT_KIND + 8 * s.getF F.LNT_EVENT_INDEX + 128 * s.getF F.LNT_EVENT_TILE + 2 ^ 32 * s.getF F.LNT_EVENT_COUNT)))] })))

/-- R500, R501, R504, R510: what a WRITE does at each LREG: the registers of the window answer WAIT while an access runs; GO
starts an access that exists and is allowed; LNT_RUN_CMD is a run command; a comparator's control register needs a good scope
and, to be enabled, RUN consent; what is read-only is left, and a number that is not listed gives FAULT. -/
def Obligations.LanternWritesItsRegisters : Prop :=
  ∀ (s : State), s.lntAwake = true → s.lantern.lock = 2 → s.power.fuseGood = true →
    let ack := fun (c : Instr) (a : Nat) (t : State) => exec c s = .next { t with out := s.out ++ [.lantern a none] }
    (∀ (h : LntHdr) (d : LntData), h.start = false → h.stop = true → h.parity = parityN (2 + 8 * h.lreg.toNat) 11 → d.parity = parityN d.d.toNat 64 →
      let r := h.lreg.toNat
      let x := d.d.toNat
      let w := ack (.write h d)
      (r = 2 ∨ r = 3 ∨ r = 4 → s.lantern.accPhase ≠ 0 → w 2 s)
      ∧ (s.lantern.accPhase = 0 → (r = 2 → w 1 (s.setF F.LNT_ACC_ADDR_VALUE x)) ∧ (r = 4 → w 1 { s with lantern := { s.lantern with accData := d.d } }))
      ∧ (r = 8 → w 1 (s.setF F.LNT_FREEZE_BITS (if d.d.getLsbD 1 then x % 64 ||| 1 else x % 64)))
      ∧ (r = 0 ∨ r = 7 ∨ r = 9 ∨ r = 0x0A ∨ r = 0x0B → w 1 s)
      ∧ (r = 1 ∨ r = 5 ∨ (0x0C ≤ r ∧ r < 0x20) ∨ 0x38 ≤ r → w 5 s)
      ∧ (∀ n, (n < 8 → r = 0x20 + 2 * n → w 1 (s.setF (F.LNT_BP_ADDR_VALUE n) x)) ∧ (n < 4 → r = 0x30 + 2 * n → w 1 (s.setF (F.LNT_WP_ADDR_VALUE n) x))
          ∧ (n < 8 → r = 0x21 + 2 * n → exec (.write h d) s = exec (.lntComparatorWrite true n d.d) s)
          ∧ (n < 4 → r = 0x31 + 2 * n → exec (.write h d) s = exec (.lntComparatorWrite false n d.d) s))
      ∧ (r = 6 →
        let scope := (d.d.extractLsb' 0 2).toNat
        let target := (d.d.extractLsb' 2 8).toNat
        let cmd := (d.d.extractLsb' 10 3).toNat
        (cmd = 1 → exec (.write h d) s = exec (.halt scope target) s) ∧ (cmd = 2 → exec (.write h d) s = exec (.resume scope target) s)
        ∧ (cmd = 3 → exec (.write h d) s = exec (.step scope target) s) ∧ (cmd = 0 ∨ 3 < cmd → w 5 s))
      ∧ (r = 3 → s.lantern.accPhase = 0 →
        let kind := x % 8
        (4 ≤ kind → w 5 s)
        ∧ (kind < 4 → d.d.getLsbD 24 = true →
          (s.coreRuns = false ∨ (kind = 1 ∧ s.isF F.LNK_STATUS_MEM_ACTIVE = false) → w 2 s)
          ∧ (s.coreRuns = true → (kind = 1 → s.isF F.LNK_STATUS_MEM_ACTIVE = true) → s.accAllowed x (s.getF F.LNT_ACC_ADDR_VALUE) = false → w 3 s))
        ∧ (kind < 4 → (d.d.getLsbD 24 = true → s.coreRuns = true ∧ (kind = 1 → s.isF F.LNK_STATUS_MEM_ACTIVE = true)
              ∧ s.accAllowed x (s.getF F.LNT_ACC_ADDR_VALUE) = true) →
            ∃ v, exec (.write h d) s = .next v ∧ v = { s with fld := v.fld, lantern := v.lantern, out := s.out ++ [.lantern 1 none] }
              ∧ v.lantern = (if d.d.getLsbD 24 then { s.lantern with accPhase := 1, accFault := false, accPoison := false } else s.lantern)
              ∧ v.getF F.LNT_ACC_CTRL_KIND = kind ∧ v.getF F.LNT_ACC_CTRL_WRITE = bN (d.d.getLsbD 3) ∧ v.getF F.LNT_ACC_CTRL_WIDE = bN (d.d.getLsbD 4)
              ∧ v.getF F.LNT_ACC_CTRL_WARD = x / 32 % 8 ∧ v.getF F.LNT_ACC_CTRL_TILE = x / 256 % 256 ∧ v.getF F.LNT_ACC_CTRL_BYTES = x / 65536 % 256
              ∧ v.getF F.LNT_ACC_CTRL_INC = bN (d.d.getLsbD 27))))
    ∧ (∀ (bp : Bool) (n : Nat) (z : BitVec 64),
      let c := Instr.lntComparatorWrite bp n z
      let scope := (z.extractLsb' 1 2).toNat
      let target := (z.extractLsb' 3 8).toNat
      let sz := (z.extractLsb' 16 6).toNat
      let fits := n < (if bp then 8 else 4) ∧ scope ≠ 3 ∧ State.scopeGood scope target = true
      (¬ fits → ack c 5 s)
      ∧ (fits → z.getLsbD 0 = true → s.runConsent scope target = false → ack c 3 s)
      ∧ (fits → (z.getLsbD 0 = true → s.runConsent scope target = true) → ∃ v, exec c s = .next v ∧ v = { s with fld := v.fld, out := s.out ++ [.lantern 1 none] }
          ∧ v.getF (State.compF bp n 0 1) = bN (z.getLsbD 0) ∧ v.getF (State.compF bp n 1 2) = scope ∧ v.getF (State.compF bp n 3 8) = target
          ∧ v.getF (State.compF bp n 11 2) = (if (z.extractLsb' 11 2).toNat = 3 then 0 else (z.extractLsb' 11 2).toNat)
          ∧ v.getF (State.compF bp n 13 1) = bN (z.getLsbD 13) ∧ v.getF (State.compF bp n 14 1) = bN (z.getLsbD 14)
          ∧ v.getF (State.compF bp n 15 1) = bN (z.getLsbD 15) ∧ v.getF (State.compF bp n 16 6) = max 3 (min 40 sz)))

/-- R501–R503: an access of the window. One that is not aligned ends with FAULT; a register access has Lantern's authority;
memory is reached through the ward's windows by a request of its own; local store and the registers of a halted or stranded
tile are read and written in place; the end of the access moves the address by its width when INC asks for it. What the wards'
consent granted when the access was asked for it completes, though the consent be withdrawn meanwhile (01 R42). -/
def Obligations.LanternReachesTheDevice : Prop :=
  ∀ (s : State),
    let n := if s.isF F.LNT_ACC_CTRL_WIDE then 8 else 4
    let a := s.getF F.LNT_ACC_ADDR_VALUE
    let kind := fun (k : Nat) => s.lantern.accPhase = 1 ∧ s.getF F.LNT_ACC_CTRL_KIND = k
    let wr := s.isF F.LNT_ACC_CTRL_WRITE = true
    let t : TileId := Fin.ofNat 256 (s.getF F.LNT_ACC_CTRL_TILE)
    let x := s.lantern.accData.toNat
    let stops := fun (c : Instr) (u : State) => exec c s = .next { u with lantern := { s.lantern with accPhase := 3, accFault := true, accPoison := false } }
    let reads := fun (c : Instr) (u : State) (p : Bool) (v : Nat) =>
      exec c s = .next { u with lantern := { u.lantern with accPhase := 3, accFault := false, accPoison := p, accData := BitVec.ofNat 64 v } }
    let writes := fun (c : Instr) (u : State) => exec c s = .next { u with lantern := { u.lantern with accPhase := 3, accFault := false, accPoison := false } }
    (∀ c k, (c, k) ∈ [(Instr.lntAccessReg, 0), (.lntAccessMem, 1), (.lntAccessLs, 2), (.lntAccessCore, 3)] →
      (¬ kind k → exec c s = .next s) ∧ (kind k → k ≠ 3 → a % n ≠ 0 → stops c s))
    ∧ (kind 0 → a % n = 0 →
      let mayR := s.lntReads (fun _ => true)
      let mayW := s.lntWrites (fun _ => true)
      let got := s.readBy .l mayR (fun r => mayR r && mayW r) a n
      (wr → writes .lntAccessReg (s.writeBy .l mayW a n (x % 2 ^ (8 * n)))) ∧ (¬ wr → reads .lntAccessReg got.2 false got.1))
    ∧ (kind 1 → a % n = 0 →
      let w : WardId := Fin.ofNat 8 (s.getF F.LNT_ACC_CTRL_WARD)
      (∀ c, s.translate w a n (if s.isF F.LNT_ACC_CTRL_WRITE then .write else .read) = .inl c → stops .lntAccessMem (s.winFault w c a))
      ∧ (∀ z, s.translate w a n (if s.isF F.LNT_ACC_CTRL_WRITE then .write else .read) = .inr z → ∃ v, exec .lntAccessMem s = .next v
          ∧ v.lantern = { s.lantern with accPhase := 2 } ∧ v.tiles = s.tiles ∧ v.dram = s.dram ∧ (z.host = false → v.accOut = true)))
    ∧ (kind 2 → a % n = 0 →
      (0x40000 < a + n → stops .lntAccessLs s)
      ∧ (a + n ≤ 0x40000 → ¬ wr → ((s.tile t).lsSound a n = true → reads .lntAccessLs s ((s.tile t).marked a n) ((s.tile t).lsRead a n))
        ∧ ∃ v, exec .lntAccessLs s = .next v ∧ v.lantern = { s.lantern with
            accPhase := 3, accFault := false, accPoison := ((s.tile t).marked a n || (s.tile t).lsError a n), accData := BitVec.ofNat 64 ((s.tile t).lsRead a n) })
      ∧ (a + n ≤ 0x40000 → wr → ∃ v, exec .lntAccessLs s = .next v ∧ (∀ r, r ≠ t → v.tile r = s.tile r)
          ∧ v = { s with tiles := v.tiles, lantern := { s.lantern with accPhase := 3, accFault := false, accPoison := false } }
          ∧ (∀ j, (v.tile t).ls.get 0 j = if a ≤ j ∧ j < a + n ∧ (s.getF F.LNT_ACC_CTRL_BYTES).testBit (j - a) = true then BitVec.ofNat 8 (x >>> (8 * (j - a)))
              else (s.tile t).ls.get 0 j)))
    ∧ (kind 3 →
      let here := s.tileCode t = 7 ∨ s.tileCode t = 8
      (¬ here → stops .lntAccessCore s)
      ∧ (here →
        (∀ g, g < 32 → a = g → (¬ wr → reads .lntAccessCore s false (((s.tile t).rg (BitVec.ofNat 5 g)).toNat % 2 ^ (8 * n)))
          ∧ (wr → n = 8 → writes .lntAccessCore (s.updTile t (fun y => y.wg (BitVec.ofNat 5 g) s.lantern.accData))))
        ∧ (∀ g, g < 32 → a = 32 + g → ¬ wr → reads .lntAccessCore s false ((s.tile t).rf (BitVec.ofNat 5 g)).toNat)
        ∧ (a = 64 → (¬ wr → reads .lntAccessCore s false ((s.tile t).pc.toNat % 2 ^ (8 * n)))
          ∧ (wr → n = 8 → writes .lntAccessCore (s.updTile t (fun y => { y with pc := s.lantern.accData }))))
        ∧ (0x200 ≤ a → a < 0x210 → (wr → stops .lntAccessCore s)
          ∧ (¬ wr → reads .lntAccessCore s false (((s.tile t).trace.getD (a - 0x200) 0).toNat % 2 ^ (8 * n))))
        ∧ (0x210 ≤ a ∨ (65 ≤ a ∧ a < 0x100) → stops .lntAccessCore s)))
    ∧ (s.lantern.accPhase = 3 ∨ (s.lantern.accPhase = 2 ∧ s.accOut = false) → ∃ v, exec .lntAccessDone s = .next v
        ∧ v = { s with fld := v.fld, lantern := { s.lantern with accPhase := 0 } }
        ∧ v.getF F.LNT_ACC_ADDR_VALUE = (if s.isF F.LNT_ACC_CTRL_INC then (a + if s.getF F.LNT_ACC_CTRL_KIND = 3 then 1 else n) % 2 ^ 64 else a))
    ∧ (s.lantern.accPhase = 0 ∨ s.lantern.accPhase = 1 ∨ (s.lantern.accPhase = 2 ∧ s.accOut = true) → exec .lntAccessDone s = .next s)

/-- R504–R508, R513: HALT adds a halt once, with the freeze setting; a tile that it covers halts at its next boundary, where
a blocked RECV is given up; RESUME lifts the halts within its scope, and a tile that no halt covers goes on; STEP lets one
halted tile run an instruction and halts it again; each halt and step end latches a debug event. -/
def Obligations.TilesHaltResumeAndStep : Prop :=
  ∀ (s : State) (scope target : Nat),
    let ack := fun (c : Instr) (a : Nat) => exec c s = .next { s with out := s.out ++ [.lantern a none] }
    let hurt := fun (v : State) (t : TileId) (k : Nat) (pc : W64) => v.getF F.LNT_EVENT_KIND = k ∧ v.getF F.LNT_EVENT_TILE = t.val
      ∧ v.getF F.LNT_EVENT_PC_VALUE = pc.toNat ∧ v.lantern = { s.lantern with eventNew := true } ∧ (∀ r, r ≠ t → v.tile r = s.tile r)
    (∀ c ∈ [Instr.halt scope target, .resume scope target, .step scope target],
      (s.lntAwake = false → exec c s = .next s)
      ∧ (s.lntAwake = true → (s.lantern.lock ≠ 2 ∨ s.power.fuseGood = false → ack c 4)
        ∧ (s.lantern.lock = 2 → s.power.fuseGood = true → (State.scopeGood scope target = false → ack c 5)
          ∧ (State.scopeGood scope target = true → (s.coreRuns = false → ack c 2) ∧ (s.coreRuns = true → scope < 2 → s.runConsent scope target = false → ack c 3)))))
    ∧ (s.lntAwake = true → s.lantern.lock = 2 → s.power.fuseGood = true → State.scopeGood scope target = true → s.coreRuns = true →
        (scope < 2 → s.runConsent scope target = true) →
      ((∀ t, (s.tile t).stepping = false) → exec (.halt scope target) s = .next { s with
          lantern := { s.lantern with halts := if s.lantern.halts.contains ⟨scope, target⟩ then s.lantern.halts else s.lantern.halts ++ [⟨scope, target⟩],
                                      freezeNow := BitVec.ofNat 6 (s.getF F.LNT_FREEZE_BITS) }
          out := s.out ++ [.lantern 1 none] })
      ∧ (∃ v, exec (.resume scope target) s = .next v ∧ v.out = s.out ++ [.lantern 1 none]
          ∧ v.lantern.halts = s.lantern.halts.filter (fun h => !s.haltWithin scope target h)
          ∧ (scope = 3 → v.lantern.halts = []) ∧ (∀ t, (v.tile t).halted = ((s.tile t).halted && v.haltCovers t)))
      ∧ ((scope ≠ 0 ∨ s.tileCode (Fin.ofNat 256 target) ≠ 7) → ack (.step scope target) 5)
      ∧ (∀ t : TileId, scope = 0 → t.val = target → s.tileCode t = 7 → exec (.step scope target) s = .next { s.setTile t { s.tile t with
          stepping := true, stepDone := false, stepPc := (s.tile t).pc } with out := s.out ++ [.lantern 1 none] }))
    ∧ (∀ (t : TileId),
      let y := s.tile t
      (s.haltCovers t = false ∨ y.halted = true → exec (.tileHalt t) s = .next s)
      ∧ (s.haltCovers t = true → y.halted = false → y.ie = false → (y.mode = .running ∨ ∃ a rd, y.mode = .inRecv a rd) →
          ∃ v, exec (.tileHalt t) s = .next v ∧ v.tile t = { y with mode := .running, halted := true } ∧ hurt v t 4 y.pc)
      ∧ (y.stepping = true → y.stepDone = true → ∃ v, exec (.stepEnd t) s = .next v ∧ v.tile t = { y with stepping := false, stepDone := false } ∧ hurt v t 3 y.stepPc)
      ∧ (y.stepping = false ∨ y.stepDone = false → exec (.stepEnd t) s = .next s))

/-! ### Resets, wards and plans -/

/-- R3, R421, R453, R469, R472, R473: the resets. A warm reset clears the core domain and keeps the Gatehouse island and, when
no cache holds a modified line, memory as it was, an FLR the link too; a reset that management was asked for and that this one
contains is absorbed (R14, R491). With the core rails memory is lost as well, and with VAUX all but the flash; rails that are
already gone are not lost again. The core leaves reset once the fuses are read, the core rails good and PERST_N released. -/
def Obligations.ResetsKeepTheIsland : Prop :=
  ∀ (s : State),
    let island := fun (v : State) (cold : Bool) => v.pending = s.pending ∧ v.supTime = s.supTime ∧ v.tickCount = s.tickCount ∧ v.fuses = s.fuses
      ∧ v.mgmt = { s.mgmt with pendingReset := s.mgmt.pendingReset.filter (fun x => x.1 == 2 || (!cold && x.1 == 1)) }
      ∧ v.logQueue = s.logQueue ∧ v.logNextSeq = s.logNextSeq ∧ v.logNextSlot = s.logNextSlot ∧ v.flash = s.flash ∧ v.smbAlert = s.smbAlert
      ∧ v.lantern.lock = s.lantern.lock ∧ v.lantern.fails = s.lantern.fails ∧ v.lantern.halts = []
    let core := fun (v : State) => v.tiles = .empty ∧ v.plan = Plan.none ∧ v.keys = .empty ∧ v.lamp = .empty ∧ v.engines = .empty ∧ v.quarters = .empty
      ∧ v.net = [] ∧ v.arrivals = [] ∧ v.ledger = State.reset.ledger ∧ v.ready = false ∧ v.job = .idle
    let why := fun (v : State) (c : Nat) => v.getF F.GBL_RESET_CAUSE_LAST = c
      ∧ v.getF F.GBL_RESET_CAUSE_WARM_COUNT = min 65535 (s.getF F.GBL_RESET_CAUSE_WARM_COUNT + 1)
    let quiet := s.isF F.FLT_LOG_CTRL_ERASE = false
      ∧ (∀ q, (s.quarter q).bufs = [] ∧ ∀ c ∈ (s.quarter q).ways.cells, c.2.tagBad = false ∧ c.2.maskErrs = [] ∧ c.2.st ≠ .m ∧ c.2.st ≠ .im ∧ c.2.st ≠ .sm)
      ∧ (∀ h < 17, (s.homeN h).txns = [] ∧ (s.homeN h).wbufs = [])
    let good := s.power.vauxGood && s.power.fuseGood && s.power.coreGood
    let leaves := fun (v : State) => v.power.coreUp = true ∧ v.power.pAt = some s.supTime ∧ v.wake = false ∧ v.power.d3cold = false
      ∧ v.getF (F.SUP_BOOT_VALUE 0) = s.supTime % 2 ^ 64
    (∀ c cause, (c, cause) ∈ [(Instr.hotReset, 4), (.linkDown, 5)] →
      ((s.coreRuns = false ∨ s.link.up = false) → exec c s = .next s)
      ∧ (s.coreRuns = true → s.link.up = true → ∃ v, exec c s = .next v ∧ core v ∧ v.getF F.GBL_RESET_CAUSE_LAST = cause ∧ v.link.up = false)
      ∧ (s.coreRuns = true → s.link.up = true → quiet → ∃ v, exec c s = .next v ∧ island v false ∧ core v ∧ why v cause ∧ v.dram = s.dram ∧ v.link.up = false
          ∧ v.power.coreUp = (good && !s.power.perst)))
    ∧ ((s.coreRuns = false ∨ s.power.cfgReady = false) → exec .pf0Flr s = .next s)
    ∧ (s.coreRuns = true → s.power.cfgReady = true → ∃ v, exec .pf0Flr s = .next v ∧ core v ∧ v.getF F.GBL_RESET_CAUSE_LAST = 6)
    ∧ (s.coreRuns = true → s.power.cfgReady = true → quiet → ∃ v, exec .pf0Flr s = .next v ∧ island v false ∧ core v ∧ why v 6 ∧ v.dram = s.dram
        ∧ v.link.up = s.link.up ∧ v.link.rate = s.link.rate ∧ v.link.cxl = s.link.cxl ∧ v.power.coreUp = (good && !s.power.perst))
    ∧ (s.power.coreUp = false → exec .perstNAssert s = .next { s with power := { s.power with perst := true } })
    ∧ (s.power.coreUp = true → ∃ v, exec .perstNAssert s = .next v ∧ core v ∧ v.getF F.GBL_RESET_CAUSE_LAST = 3)
    ∧ (s.power.coreUp = true → quiet → ∃ v, exec .perstNAssert s = .next v ∧ island v false ∧ core v ∧ why v 3 ∧ v.dram = s.dram
        ∧ v.power.perst = true ∧ v.power.coreUp = false)
    ∧ (s.power.vauxGood = false ∨ s.power.coreGood = false → exec .coreRailLoss s = .next s) ∧ (s.power.vauxGood = false → exec .coreGood s = .next s)
    ∧ (s.power.vauxGood = true → s.power.coreGood = true → s.isF F.FLT_LOG_CTRL_ERASE = false → ∃ v, exec .coreRailLoss s = .next v ∧ island v true ∧ core v ∧ why v 2 ∧ v.dram = .empty
        ∧ v.homes = .empty ∧ v.power.coreUp = false ∧ v.power.coreGood = false ∧ v.power.d3cold = true ∧ v.thermtrip = false)
    ∧ (s.isF F.FLT_LOG_CTRL_ERASE = false → s.calSaving = false → exec .vauxLoss s = .next { State.reset with
        pending := s.pending, freeCtr := s.freeCtr, out := s.out, flash := s.flash, power := { Power.off with perst := s.power.perst } })
    ∧ (s.power.vauxGood = true → ∀ ok fz, exec (.vauxGood ok fz) s = .next s)
    ∧ (s.power.vauxGood = false → s.logQueue.length < 15 → ∀ fz,
        (∃ v, exec (.vauxGood true fz) s = .next v ∧ v.power.vauxGood = true ∧ v.power.fuseGood = true ∧ v.fuses = fz
          ∧ v.logQueue = s.logQueue ++ [⟨⟨0, 0, 0, 0, 0, 1⟩, true, 0, s.supTime⟩]
          ∧ (s.calCurrent = none → v.getF F.SUP_CAL_STATUS_STORE_EMPTY = 1 ∧ ∀ k < 7, v.calUser k = 0)
          ∧ (s.power.coreGood = true → s.power.perst = false → s.power.pAt = none → leaves v))
        ∧ (∃ v, exec (.vauxGood false fz) s = .next v ∧ v.power.vauxGood = true ∧ v.power.fuseGood = false ∧ v.fuses = Fuses.blank
          ∧ v.power.coreUp = s.power.coreUp ∧ (v.getF F.FLT_BEACON_GROUPS).testBit 47 = true
          ∧ ⟨⟨0, 0, 0, 0, 0, 0⟩, true, 0, s.supTime⟩ ∈ v.logQueue))
    ∧ (s.power.vauxGood = true →
        (s.power.fuseGood = true → s.power.perst = false → s.power.pAt = none → ∃ v, exec .coreGood s = .next v ∧ v.power.coreGood = true
          ∧ v.power.coreUp = true ∧ v.power.pAt = some s.supTime ∧ v.wake = false ∧ v.power.d3cold = false)
        ∧ ((s.power.fuseGood = false ∨ s.power.perst = true ∨ s.power.pAt ≠ none) → exec .coreGood s = .next { s with power := { s.power with coreGood := true } }))
    ∧ (good = true → s.power.pAt = none → ∃ v, exec .perstNDeassert s = .next v ∧ v.power.perst = false ∧ v.power.coreUp = true ∧ v.power.pAt = some s.supTime)
    ∧ ((good = false ∨ s.power.pAt ≠ none) → exec .perstNDeassert s = .next { s with power := { s.power with perst := false } })
    ∧ (s.coreRuns = true → s.power.cfgReady = false →
        exec .configSpaceReady s = .next (({ s with power := { s.power with cfgReady := true } }).setF (F.SUP_BOOT_VALUE 1) s.supTime))
    ∧ ((s.coreRuns = false ∨ s.power.cfgReady = true) → exec .configSpaceReady s = .next s)

/-- R42, R46, R48–R51, R421, R422: a ward reset begins at once, stops the ward's tiles and work, and, once nothing of it is
outstanding, wipes what it held and ends with an empty, unquarantined ward without consent; an FLR of its function begins
one, after the Bulk writes that it received before (13 R368), and a CXL Reset one of every ward, which end together. Consent
is the ward's to give, and S may take it away. The word that a row writes, and what a port does that may not write it, are the
model's reading (log 93). -/
def Obligations.WardResetsAndConsent : Prop :=
  ∀ (s : State) (w : WardId),
    let begun := fun (v : State) => v.resettingWard w = true ∧ v.wardStep.get 0 w.val = 3 ∧ v.lampw w = LampWard.init ∧ (∀ x ∈ v.arrivals, x.1 ≠ w)
      ∧ (∀ t ∈ s.wardTiles w, v.isF (F.TIL_CTRL_RUN t.val) = false ∧ (v.tile t).inbox = [] ∧ (v.tile t).sb = [] ∧ (v.tile t).ls = .empty)
    (∀ p, heldBack (.wardReset p w) s p (F.WRD_CTRL_RESET w.val).off (State.ownVf p w 0x1000)
        (State.inWord (F.WRD_CTRL_RESET w.val) 1 (s.keptWord (F.WRD_CTRL_RESET w.val).off)) true
      ∧ (s.carries p (State.ownVf p w 0x1000) true →
        ((s.coreRuns = false ∨ s.resettingWard w = true) → exec (.wardReset p w) s = .next s)
        ∧ (s.coreRuns = true → s.resettingWard w = false → ∃ v, exec (.wardReset p w) s = .next v ∧ begun v)))
    ∧ ((s.power.cfgReady = false ∨ s.link.cxlResetBusy = true) → exec (.vfFlr w) s = .next s)
    ∧ (s.power.cfgReady = true → s.link.cxlResetBusy = false → (∀ c ∈ s.ledger.entries.cells, ∀ e, c.2 = some e → e.bulk = some (.vf w) → e.wdata.isSome = true) →
        (∀ e ∈ s.ledger.waiting, e.bulk = some (.vf w) → e.wdata.isSome = true) →
      (s.bulkPending w = true → ∃ v, exec (.vfFlr w) s = .next v ∧ v = { s with link := v.link } ∧ v.link.rxq = s.link.rxq ++ [.flr w] ∧ (v.bulkOf (.vf w)).reads = [])
      ∧ (s.bulkPending w = false → s.coreRuns = true → ∃ v, exec (.vfFlr w) s = .next v ∧ w.val ∈ v.link.flr ∧ v.resettingWard w = true
        ∧ (s.resettingWard w = false → begun v)))
    ∧ (let ready := s.resettingWard w = true ∧ s.wardStep.get 0 w.val = 3 ∧ s.link.cxlResetBusy = false ∧ s.ledgerClear w = true ∧ s.regionBusy w = false
        ∧ s.bulkOut (.vf w) = false
      (¬ ready → exec (.wardResetWipe w) s = .next s)
      ∧ (ready → (∀ h < 16, ∀ c ∈ (s.homeN h).dir.cells, ∀ d, c.2 = some d → d.pres.getLsbD 16 = true → s.wardLine w ⟨false, c.1⟩ = false) → (∀ q, ∀ c ∈ (s.quarter q).ways.cells, c.2.held = true → c.2.ward ≠ w) → ∃ v, exec (.wardResetWipe w) s = .next v
          ∧ v.wardStep.get 0 w.val = 5 ∧ v.key w = none ∧ v.resettingWard w = true))
    ∧ (let ready := s.resettingWard w = true ∧ s.wardStep.get 0 w.val = 5 ∧ s.link.cxlResetBusy = false ∧ s.ledgerClear w = true
      (¬ ready → exec (.wardResetDone w) s = .next s)
      ∧ (ready → ∃ v, exec (.wardResetDone w) s = .next v ∧ v.resettingWard w = false ∧ v.quarantined w = false ∧ v.lampw w = LampWard.init
          ∧ v.consentRegs w = false ∧ v.consentMem w = false ∧ v.consentRun w = false ∧ v.plan = s.plan ∧ v.dram = s.dram ∧ w.val ∉ v.link.flr))
    ∧ (∀ (z : BitVec 3),
      let had := fun (k : Nat) => if k = 0 then s.consentRegs w else if k = 1 then s.consentMem w else s.consentRun w
      let has := fun (v : State) (k : Nat) => if k = 0 then v.consentRegs w else if k = 1 then v.consentMem w else v.consentRun w
      (∀ p, heldBack (.dbgConsentWrite p w z) s p (F.WRD_DBG_CONSENT_REGS w.val).off (State.ownVf p w 0x1010) z.toNat true)
      ∧ (s.carries (.w w) (some 0x1010) true → ∃ v, exec (.dbgConsentWrite (.w w) w z) s = .next v ∧ (∀ k < 3, has v k = z.getLsbD k)
          ∧ (z.getLsbD 2 = true ∨ s.consentRun w = false → v = { s with fld := v.fld })
          ∧ (z.getLsbD 2 = false → s.consentRun w = true → ∀ h ∈ v.lantern.halts, h.scope = 3 ∨ s.scopeTouches h.scope h.target w = false))
      ∧ (s.carries .s none true → ∃ v, exec (.dbgConsentWrite .s w z) s = .next v ∧ ∀ k < 3, has v k = (had k && !z.getLsbD k)))
    ∧ (∀ mc, (s.power.cfgReady = false ∨ s.coreRuns = false ∨ s.link.cxlResetBusy = true → exec (.cxlReset mc) s = .next s)
      ∧ (s.power.cfgReady = true → s.coreRuns = true → s.link.cxlResetBusy = false → ∃ v, exec (.cxlReset mc) s = .next v ∧ v.link.cxlResetBusy = true
          ∧ v.link.cxlResetMemClr = mc ∧ ∀ x, v.resettingWard x = true))
    ∧ (s.link.cxlResetBusy = false → exec .cxlResetComplete s = .next s)
    ∧ (s.link.cxlResetBusy = true → s.pumpAll = s → s.cxlQuiet = true → s.link.held = [] → ∃ v, exec .cxlResetComplete s = .next v ∧ v.link.cxlResetBusy = false
        ∧ v.link.cxlResetComplete = true ∧ v.keys = .empty ∧ (∀ x, v.resettingWard x = false ∧ v.quarantined x = false)
        ∧ (s.link.cxlResetMemClr = true → v.ages = .empty ∧ ∀ h < 16, (v.homeN h).bitmap = .empty))

/-- R79–R89: PLN_CMD is refused while the loader is busy. LOAD and SWAP read the staged image line by line, each line of a
reserve entry, check it once it is whole, report why they reject it, and install it whole, once the wards are reset or
the ward's work has drained; SEAL stops later LOADs; the boot plan comes from the first slot that is good, after
training, and with none NO_BOOT is set and reported. That BUSY is set while the boot plan waits is the model's choice
(log 84). The word that a row writes, and what a port does that may not write it, are the model's reading (log 93). -/
def Obligations.PlansAreCheckedAndInstalled : Prop :=
  ∀ (s : State) (w : WardId),
    let dpa := s.getF F.PLN_IMG_DPA_DPA
    let len := s.getF F.PLN_IMG_LEN_LEN
    let first := LEntry.make (Req.make .rdC ⟨false, dpa / 64⟩ .loader none false) .reserve
    let x0 := State.lowestFree s.ledger.entries.cells 0
    let reading := fun (v : State) (sw : Option WardId) => v.job = .read sw dpa len [] ∧ v.getF F.PLN_STATUS_BUSY = 1 ∧ v.plan = s.plan
      ∧ v.entry x0 = some { first with tag := x0 } ∧ v.net = s.net ++ [reqPkt x0 first.req]
    let fields := fun (v : State) => v = { s with fld := v.fld }
    let installed := fun (v : State) (b : List Byte) => v.plan = (clampFull b s.capacity s.fuses.defects).1 ∧ v.job = .idle
      ∧ v.getF F.PLN_STATUS_LOADED = 1 ∧ v.getF F.PLN_STATUS_BUSY = 0
      ∧ v.getF F.PLN_STATUS_RESULT = (if (clampFull b s.capacity s.fuses.defects).2.1.isEmpty then 1 else 2)
    (∀ c op, (c, op) ∈ [(Instr.plnLoad, 1), (.plnSwap w, 2 + 16 * w.val), (.plnSeal, 3)] → heldBack c s .s F.PLN_CMD_OP.off none op true)
    ∧ (s.carries .s none true →
      (s.planBusy = true → ∀ c ∈ [Instr.plnLoad, .plnSwap w, .plnSeal], exec c s = .next (s.setF F.PLN_STATUS_REFUSED 1))
      ∧ (s.planBusy = false →
        (∃ v, exec .plnSeal s = .next v ∧ fields v ∧ v.getF F.PLN_STATUS_SEALED = 1)
        ∧ (s.isF F.PLN_STATUS_SEALED = true → exec .plnLoad s = .next (s.setF F.PLN_STATUS_RESULT 9))
        ∧ (s.isF F.PLN_STATUS_SEALED = false → dpa < s.capacity → s.grantsNow first = true → ∃ v, exec .plnLoad s = .next v ∧ reading v none)
        ∧ (s.resettingWard w = true → exec (.plnSwap w) s = .next (s.setF F.PLN_STATUS_REFUSED 1))
        ∧ (s.resettingWard w = false → dpa < s.capacity → s.grantsNow first = true → ∃ v, exec (.plnSwap w) s = .next v ∧ reading v (some w))))
    ∧ (∀ (i : Nat) (p : Packet) (e : LEntry) (v : LineVal) z sw base n (got : List LineVal), s.arrived i = some p → p.chan = .rsp → p.kind = RspKind.data.code →
      p.poison = false → p.payload = .line v z → (stopHome p.dst = none ∨ (stopHome p.dst = some 16 ∧ stopQuarter p.src = none)) → s.entry p.xid = some e →
      e.req.line = p.about → e.aborted = false → e.forgotten = false → e.bad = false → e.pend = 1 → e.req.kind = .rdC → e.req.src = .loader →
      s.job = .read sw base n got → e.req.line = ⟨false, base / 64 + got.length⟩ → got.length * 64 < max n 64 →
      let img := State.gotImage (v :: got)
      let r := rejectCode img n ((v :: got).any (·.poison)) sw
      ((got.length + 1) * 64 < max n 64 → (base / 64 + got.length + 1) * 64 < s.capacity → ∃ u, exec (.data i) s = .next u ∧ u.job = .read sw base n (v :: got)
          ∧ u.plan = s.plan)
      ∧ (max n 64 ≤ (got.length + 1) * 64 →
        (r ≠ 0 → ∃ u, exec (.data i) s = .next u ∧ u.job = .idle ∧ u.plan = s.plan ∧ u.getF F.PLN_STATUS_RESULT = r % 16 ∧ u.getF F.PLN_STATUS_BUSY = 0)
        ∧ (r = 0 → sw = none → ∃ u, exec (.data i) s = .next u ∧ u.job = .load (img.take n) ∧ u.plan = s.plan ∧ (s.coreRuns = true → ∀ x, u.resettingWard x = true))
        ∧ (r = 0 → sw = some w → ∃ u, exec (.data i) s = .next u ∧ u.plan = s.plan ∧ u.swapping w = true
            ∧ u.job = .swap w (clampWard (img.take n) s.plan w s.capacity).1 (clampWard (img.take n) s.plan w s.capacity).2.length s.tickCount s.supTime)))
    ∧ (∀ b, s.job = .load b → s.loadQuiet = true → (∀ q, ∀ c ∈ (s.quarter q).ways.cells, c.2.held = false) → ∃ v, exec .loadInstall s = .next v ∧ installed v b)
    ∧ (∀ b, s.job = .load b → (∃ x, s.resettingWard x = true) → ∃ v, exec .loadInstall s = .next v ∧ v.job = .load b ∧ v.plan = s.plan ∧ v.dram = s.dram)
    ∧ ((∀ b, s.job ≠ .load b) → exec .loadInstall s = .next s.updReady)
    ∧ ((∀ x sec n tick since, s.job ≠ .swap x sec n tick since) → exec .swapInstall s = .next s ∧ exec .swapAbandon s = .next s)
    ∧ (∀ sec n tick since, s.job = .swap w sec n tick since →
      ((s.lampw w).running ≠ [] → exec .swapInstall s = .next s
        ∧ ∃ v, exec .swapAbandon s = .next v ∧ v.job = .idle ∧ v.plan = s.plan ∧ v.swapping w = false ∧ v.getF F.PLN_STATUS_BUSY = 0
          ∧ v.getF F.PLN_STATUS_RESULT = 10)
      ∧ ((s.lampw w).running = [] → exec .swapAbandon s = .next s
        ∧ ∃ v, exec .swapInstall s = .next v ∧ v.job = .idle ∧ v.sec w = sec ∧ (∀ x, x ≠ w → v.sec x = s.sec x) ∧ v.plan.own = s.plan.own
          ∧ v.swapping w = false ∧ v.getF F.PLN_STATUS_BUSY = 0 ∧ v.getF F.PLN_STATUS_RESULT = (if n = 0 then 1 else 2)
          ∧ v.getF (F.PLN_WARD_ID_VALUE w.val) = sec.planId.toNat))
    ∧ (¬ (s.power.coreUp = true ∧ s.power.bootDone = false ∧ s.job = .idle) → exec .bootPlanLoad s = .next s)
    ∧ (s.power.coreUp = true → s.power.bootDone = false → s.job = .idle →
      let a := s.slotImage 0x100000
      let b := s.slotImage 0x900000
      ∃ v, exec .bootPlanLoad s = .next v ∧ v = { s with fld := v.fld, job := v.job } ∧ v.getF F.PLN_STATUS_BUSY = 1
        ∧ v.job = (if rejectCode a.1 a.2 false none = 0 then .boot (some (a.1.take a.2)) false 0
            else if rejectCode b.1 b.2 false none = 0 then .boot (some (b.1.take b.2)) true 0 else .boot none true (rejectCode b.1 b.2 false none)))
    ∧ (∀ o slotB r, s.job = .boot o slotB r →
      (s.power.trained = false → exec .bootPlanInstall s = .next s)
      ∧ (s.power.trained = true →
        (∀ b, o = some b → ∃ v, exec .bootPlanInstall s = .next v ∧ installed v b ∧ v.power.bootDone = true ∧ v.getF F.PLN_STATUS_BOOT_SLOT = bN slotB)
        ∧ (o = none → ∃ v, exec .bootPlanInstall s = .next v ∧ v.power.bootDone = true ∧ v.job = .idle ∧ v.getF F.PLN_STATUS_NO_BOOT = 1
            ∧ v.getF F.PLN_STATUS_RESULT = r % 16 ∧ v.getF F.PLN_STATUS_BUSY = 0 ∧ v.plan = s.plan ∧ v.ready = false
            ∧ (v.getF F.FLT_BEACON_GROUPS).testBit 43 = true)))
    ∧ ((∀ o slotB r, s.job ≠ .boot o slotB r) → exec .bootPlanInstall s = .next s)

/-- R8–R13, R19, R20, R50: register space. An access that reaches no register, or writes part of one, is counted with its
offset; a writable field takes what is written, cut to its range with a report, one that is read only stays, and a 1 clears a
W1C bit; a read answers the port and clears RC fields. A ward that resets, and a port without authority, change nothing. R458:
once a rail has recovered, the dim state ends. -/
def Obligations.RegistersReadAndWrite : Prop :=
  ∀ (s : State),
    let answers := fun (p : Port) (off : Nat) (v : Nat) => s.out ++ [.readData p off v]
    (s.mmioOpen = false → ∀ off len val, exec (.registerWrite .s off len val) s = .next (s.turnedAway .s))
    ∧ (∀ w, s.fnOpen (.vf w) = false → ∀ off len val, exec (.registerWrite (.w w) off len val) s = .next (s.turnedAway (.w w)))
    ∧ (∀ w, s.fnOpen (.vf w) = true → s.resettingWard w = true → s.link.rxq = [] → s.bulkOut (.vf w) = false → ∀ off len val,
        exec (.registerWrite (.w w) off len val) s = .next s)
    ∧ (∀ off len val, s.power.bootDone = false ∨ s.mayWrite .m off = false → exec (.registerWrite .m off len val) s = .next s)
    ∧ (∀ off len val, s.coreRuns = false ∨ s.lantern.lock ≠ 2 ∨ s.mayWrite .l off = false → exec (.registerWrite .l off len val) s = .next s)
    ∧ (∀ off len, s.power.bootDone = false ∨ s.mayRead .m off = false → exec (.rcFieldRead .m off len) s = .next s)
    ∧ (∀ off len, s.coreRuns = false ∨ s.lantern.lock ≠ 2 ∨ s.mayRead .l off = false → exec (.rcFieldRead .l off len) s = .next s)
    ∧ (s.mmioOpen = true → (s.link.rxq ≠ [] ∨ s.bulkOut .pf0 = true) →
        (∀ off len, exec (.rcFieldRead .s off len) s = .next (s.holdPosted (.regRead .s off len)))
        ∧ ∀ off len val, exec (.registerWrite .s off len val) s = .next (s.holdPosted (.regWrite .s off len val)))
    ∧ (s.carries .s none true →
      let counted := fun (v : State) (off : Nat) => v = { s with fld := v.fld, out := v.out, link := v.link }
        ∧ v.getF F.GBL_ACCESS_ERR_COUNT = min 65535 (s.getF F.GBL_ACCESS_ERR_COUNT + 1)
        ∧ v.getF F.GBL_ACCESS_ERR_OFFSET = off % 2 ^ 41 ∧ v.getF F.GBL_ACCESS_ERR_SOURCE = 0
      (∀ off len val, s.viewSpan .s off = none → ∃ v, exec (.registerWrite .s off len val) s = .next v ∧ counted v off)
      ∧ (∀ off len val r n k, s.viewSpan .s off = some (r, n, k) → (k ≠ 0 ∨ len ≠ n) → (∀ f, State.bulkRegOf r = some f → s.bulkOut f = false) → ∃ v, exec (.registerWrite .s off len val) s = .next v ∧ counted v off)
      ∧ (∀ off, s.viewSpan .s off = none → ∃ v, exec (.rcFieldRead .s off 1) s = .next v ∧ counted v off ∧ v.out = answers .s off 0)
      ∧ (∀ (t : TileId) (z : W64), ∃ v, exec (.registerWrite .s (F.TIL_ENTRY_VALUE t.val).off 8 z.toNat) s = .next v ∧ v = { s with fld := v.fld }
          ∧ v.getF (F.TIL_ENTRY_VALUE t.val) = z.toNat)
      ∧ (∀ (z : W32), ∃ v, exec (.registerWrite .s 0x50000 4 z.toNat) s = .next v ∧ v = { s with fld := v.fld }
          ∧ v.getF F.LMP_TICK_PERIOD = max 3 (min 25000 (z.toNat % 32768))
          ∧ (z.toNat % 32768 < 3 ∨ 25000 < z.toNat % 32768 → v.getF F.LMP_TICK_CLAMPED = 1)
          ∧ (3 ≤ z.toNat % 32768 → z.toNat % 32768 ≤ 25000 → z.getLsbD 31 = true → s.getF F.LMP_TICK_CLAMPED = 1 → v.getF F.LMP_TICK_CLAMPED = 0))
      ∧ (∀ (z : W64), exec (.registerWrite .s 0x40100 8 z.toNat) s = .next s)
      ∧ (∃ v, exec (.rcFieldRead .s 0x40100 8) s = .next v ∧ v.out = answers .s 0x40100 (s.supTime % 2 ^ 64) ∧ v.fld = s.fld)
      ∧ (∀ n < 6, ∃ v, exec (.rcFieldRead .s (0x40000 + 8 * n) 8) s = .next v ∧ v.getF (F.SUP_RAIL_LOW n) = 0xFFFF ∧ v.getF (F.SUP_RAIL_HIGH n) = 0
          ∧ v.getF (F.SUP_RAIL_NOW n) = s.getF (F.SUP_RAIL_NOW n)))
    ∧ (∀ w (t : TileId) (z : W64), s.tileWard t = some w → s.carries (.w w) (some (0x40008 + 0x400 * t.val)) true →
        (∃ v, exec (.registerWrite (.w w) (0x40008 + 0x400 * t.val) 8 z.toNat) s = .next v ∧ v = { s with fld := v.fld } ∧ v.getF (F.TIL_ENTRY_VALUE t.val) = z.toNat)
        ∧ ∃ v, exec (.rcFieldRead (.w w) (0x40008 + 0x400 * t.val) 8) s = .next v ∧ v.fld = s.fld
          ∧ v.out = answers (.w w) (0x40008 + 0x400 * t.val) (s.getF (F.TIL_ENTRY_VALUE t.val) % 2 ^ 64))
    ∧ (s.power.bootDone = true → ∀ (z : W32),
        let lim := (z.extractLsb' 8 10).toNat
        (∃ v, exec (.registerWrite .m 0x40120 4 z.toNat) s = .next v ∧ v = { s with fld := v.fld } ∧ v.getF F.SUP_STALL_CTRL_ENABLE = bN (z.getLsbD 0)
          ∧ v.getF F.SUP_STALL_CTRL_SELFTEST = bN (z.getLsbD 1) ∧ v.getF F.SUP_STALL_CTRL_LIMIT = max 2 (min 1000 lim)
          ∧ (lim < 2 ∨ 1000 < lim → v.getF F.SUP_STALL_STATUS_CLAMPED = 1))
        ∧ ∃ v, exec (.rcFieldRead .m 0x40100 8) s = .next v ∧ v.fld = s.fld ∧ v.out = answers .m 0x40100 (s.supTime % 2 ^ 64))
    ∧ (s.coreRuns = true → s.lantern.lock = 2 →
        (∀ (w : WardId) (x : BitVec 2), s.consentRegs w = true → ∃ v, exec (.registerWrite .l (F.WRD_CTRL_ATOMIC_POLICY w.val).off 4 (2 * x.toNat)) s = .next v
          ∧ v = { s with fld := v.fld } ∧ v.getF (F.WRD_CTRL_ATOMIC_POLICY w.val) = (if x = 3 then 0 else x.toNat) ∧ (x = 3 → v.getF (F.WRD_STATUS_CLAMPED w.val) = 1))
        ∧ ∃ v, exec (.rcFieldRead .l 0x40100 8) s = .next v ∧ v.fld = s.fld ∧ v.out = answers .l 0x40100 (s.supTime % 2 ^ 64))
    ∧ ((s.dimmed = false ∨ 8 ≤ s.getF F.SUP_DIM_CAUSE ∨ s.power.plwRunning = true) → exec .dimExit s = .next s)
    ∧ (s.dimmed = true → s.getF F.SUP_DIM_CAUSE < 8 → s.power.plwRunning = false → s.link.held = [] → s.link.rxq = [] → ∃ v, exec .dimExit s = .next v
        ∧ v.getF F.SUP_DIM_STATE = 0 ∧ v.power = { s.power with dimDrain := false, dimOut := false } ∧ v.ready = v.readyNow ∧ v.dram = s.dram)

/-! ### The whole machine -/

/-- R1, R3, R4, R8, R16: the device right after a cold reset: no command waits, VAUX is absent, every register field reads its
reset value, no plan is installed, every tile stands held at level K with an empty local store, nothing is in flight, and
memory and the boot flash list nothing. The values that the spec does not state are those of the log. -/
def Obligations.ResetLeavesTheColdDevice : Prop :=
  State.reset.pending = [] ∧ State.reset.supTime = 0 ∧ State.reset.tickCount = 0 ∧ State.reset.power.vauxGood = false
  ∧ State.reset.power.coreUp = false ∧ State.reset.ready = false ∧ State.reset.net = [] ∧ State.reset.arrivals = []
  ∧ (∀ f : Fld, State.reset.getF f = fldReset f.key)
  ∧ State.reset.getF F.GBL_RESET_CAUSE_LAST = 1 ∧ State.reset.getF F.LMP_TICK_PERIOD = 25 ∧ State.reset.regWord 0 % 2 ^ 40 = 0x028640C9A5
  ∧ (∀ w : WardId, State.reset.key w = none ∧ (State.reset.sec w).loaded = false ∧ State.reset.resettingWard w = false ∧ State.reset.lampw w = LampWard.init)
  ∧ (∀ t : TileId, (State.reset.tile t).k = true ∧ (State.reset.tile t).mode = .held ∧ (State.reset.tile t).inbox = [] ∧ (State.reset.tile t).sb = []
      ∧ (∀ r, (State.reset.tile t).rg r = if r = 2 then 0xFFFFF00000040000 else 0) ∧ (∀ a, (State.reset.tile t).ls.get 0 a = 0))
  ∧ (∀ e : EngId, (State.reset.engine e).queue = [] ∧ (State.reset.engine e).run = none)
  ∧ (∀ n x, State.reset.dram.get 0 n = 0 ∧ State.reset.entry x = none)
  ∧ State.reset.lantern.lock = 0 ∧ State.reset.mgmt.queue = [] ∧ State.reset.mgmt.response = none ∧ State.reset.ledger.waiting = []
  ∧ storageKept State.reset

/-- The stored bytes of memory and of the boot flash, and the register fields, keep their canonical form in every step:
addresses strictly rising, and no entry equal to what an unlisted address reads as (the model's representation, log 6). -/
def Obligations.StorageStaysCanonical : Prop :=
  ∀ (s v : State), storageKept s → step s = .next v → storageKept v

/-- A step of a device that no command waits for passes 40 ns of Gatehouse time (the model's choice, log 1): nothing without
VAUX; with the core in reset the time stamp alone; else SUP_TIME counts, no register of a tile, no memory and no packet
changes. -/
def Obligations.EmptyQueuePassesTime : Prop :=
  ∀ (s : State), s.pending = [] →
    (s.power.vauxGood = false → step s = .next s)
    ∧ (s.power.vauxGood = true → s.power.coreUp = false → step s = .next { s with supTime := (s.supTime + 1) % 2 ^ 64 })
    ∧ (s.power.vauxGood = true → s.power.coreUp = true → (∀ w, (s.lampw w).traceQ = []) → ∃ v, step s = .next v ∧ v.supTime = (s.supTime + 1) % 2 ^ 64
        ∧ v = { s with supTime := v.supTime, tiles := v.tiles, lamp := v.lamp, fld := v.fld }
        ∧ ∀ t, (v.tile t).g = (s.tile t).g ∧ (v.tile t).pc = (s.tile t).pc ∧ (v.tile t).mode = (s.tile t).mode ∧ (v.tile t).ls = (s.tile t).ls)

/-! ### Words of tile instructions -/

/-- R148–R150, R152, R154–R157, R160–R162, R164, R167, R168: decode and encode agree. Every tile instruction has a word, at
every value of its fields, the reserved ones too; that word decodes to it and no other word does; a word whose opcode or
sub-opcode no table lists, all zeros and all ones among them, is no instruction. -/
def Obligations.WordsAndInstructionsAgree : Prop :=
  (∀ (c : Instr) (t : TileId) (bad : Bool), tileWord c = some (t, bad) → ∃ w, encodeTile c = some w ∧ decodeTile t w = some c)
  ∧ (∀ (c : Instr) (t : TileId) (w : W32), decodeTile t w = some c → encodeTile c = some w ∧ ∃ bad, tileWord c = some (t, bad))
  ∧ (∀ t, decodeTile t 0 = none ∧ decodeTile t (BitVec.allOnes 32) = none)
  ∧ (∀ t (w : W32), (w.extractLsb' 26 6).toNat ∈ [0x00, 0x0A, 0x0B, 0x0C, 0x0D, 0x0E, 0x0F, 0x29, 0x2A, 0x2B, 0x2C, 0x2D, 0x2E, 0x2F, 0x35, 0x37, 0x39, 0x3A, 0x3B, 0x3D, 0x3F] →
      decodeTile t w = none)
end

