-- ==== Sys2Proof/Laws/Tables.lean ====
section
/-! SUPPORT. The laws of sparse tables: a read after a write gives the value written, a write leaves every other key
alone, every operation keeps the canonical form. -/

namespace Sys2Proof

/-! ### Reading after writing -/

theorem lookupCell_insertCell {α : Type} (d : α) (k : Nat) (v : α) (j : Nat) (l : List (Nat × α)) :
    lookupCell d (insertCell k v l) j = if j = k then v else lookupCell d l j := by
  induction l with
  | nil => rfl
  | cons y l ih => grind [insertCell, lookupCell]

theorem lookupCell_eraseCell {α : Type} (d : α) (k j : Nat) (l : List (Nat × α)) :
    lookupCell d (eraseCell k l) j = if j = k then d else lookupCell d l j := by
  induction l with
  | nil => simp [eraseCell, lookupCell]
  | cons y l ih => grind [eraseCell, lookupCell]

@[simp] theorem Tbl.get_put {α : Type} [DecidableEq α] (d : α) (t : Tbl α) (k : Nat) (v : α) : (t.put d k v).get d k = v := by
  grind [Tbl.put, Tbl.get, lookupCell_insertCell, lookupCell_eraseCell]

theorem lookupCell_eraseCell_other {α : Type} (d : α) {k j : Nat} (h : j ≠ k) (l : List (Nat × α)) :
    lookupCell d (eraseCell k l) j = lookupCell d l j := (lookupCell_eraseCell d k j l).trans (if_neg h)

theorem Tbl.get_put_other {α : Type} [DecidableEq α] (d e : α) (t : Tbl α) (k : Nat) (v : α) (j : Nat) (h : j ≠ k) :
    (t.put d k v).get e j = t.get e j := by
  grind [Tbl.put, Tbl.get, lookupCell_insertCell, lookupCell_eraseCell_other]

@[simp] theorem Tbl.get_empty {α : Type} (d : α) (k : Nat) : (Tbl.empty : Tbl α).get d k = d := rfl

/-! ### The canonical form -/

/-- What an insertion lists: the new pair, and pairs that stood there. -/
theorem mem_insertCell {α : Type} {k : Nat} {v : α} {c : Nat × α} {l : List (Nat × α)} (h : c ∈ insertCell k v l) : c = (k, v) ∨ c ∈ l := by
  induction l with
  | nil => exact .inl (List.mem_singleton.mp h)
  | cons y l ih => grind [insertCell]

theorem ordered_insertCell {α : Type} (k : Nat) (v : α) {l : List (Nat × α)} (h : ordered l = true) : ordered (insertCell k v l) = true := by
  refine decide_eq_true ?_
  induction of_decide_eq_true h with
  | nil => exact List.pairwise_singleton _ _
  | @cons y l hy hl ih =>
    have far : ∀ c ∈ insertCell k v l, y.1 < k → y.1 < c.1 := fun c hc hk => (mem_insertCell hc).elim (fun e => e ▸ hk) (hy c)
    have ih := ih (decide_eq_true hl)
    simp only [insertCell, apply_ite (List.Pairwise _), List.pairwise_cons]
    grind

theorem ordered_filter {α : Type} (p : Nat × α → Bool) {l : List (Nat × α)} (h : ordered l = true) : ordered (l.filter p) = true :=
  decide_eq_true ((of_decide_eq_true h).filter p)

/-- A write keeps keys rising, and any property of cells that the new one has. -/
theorem Tbl.put_keeps {α : Type} [DecidableEq α] (q : Nat × α → Bool) (d : α) (t : Tbl α) (k : Nat) (v : α) (hv : v ≠ d → q (k, v) = true)
    (h : (ordered t.cells && t.cells.all q) = true) : (ordered (t.put d k v).cells && (t.put d k v).cells.all q) = true := by
  obtain ⟨ho, hq⟩ := Bool.and_eq_true_iff.mp h
  have hq := List.all_eq_true.mp hq
  refine Bool.and_eq_true_iff.mpr ?_
  by_cases e : v = d
  · rw [Tbl.put, if_pos e]
    exact ⟨ordered_filter _ ho, List.all_eq_true.mpr (fun c hc => hq c (List.mem_of_mem_filter hc))⟩
  · rw [Tbl.put, if_neg e]
    exact ⟨ordered_insertCell k v ho, List.all_eq_true.mpr (fun c hc => (mem_insertCell hc).elim (fun x => x ▸ hv e) (hq c))⟩

/-- Taking entries out keeps both. -/
theorem Tbl.drop_keeps {α : Type} (q : Nat × α → Bool) (t : Tbl α) (p : Nat → Bool)
    (h : (ordered t.cells && t.cells.all q) = true) : (ordered (t.drop p).cells && (t.drop p).cells.all q) = true := by
  obtain ⟨ho, hq⟩ := Bool.and_eq_true_iff.mp h
  exact Bool.and_eq_true_iff.mpr ⟨ordered_filter _ ho, List.all_eq_true.mpr (fun c hc => List.all_eq_true.mp hq c (List.mem_of_mem_filter hc))⟩

/-- A write keeps the canonical form. -/
theorem Tbl.wf_put {α : Type} [DecidableEq α] (d : α) (t : Tbl α) (k : Nat) (v : α) (h : t.wf d = true) : (t.put d k v).wf d = true :=
  Tbl.put_keeps _ d t k v decide_eq_true h

/-- Taking entries out keeps the canonical form. -/
theorem Tbl.wf_drop {α : Type} [DecidableEq α] (d : α) (t : Tbl α) (p : Nat → Bool) (h : t.wf d = true) : (t.drop p).wf d = true :=
  Tbl.drop_keeps _ t p h

@[simp] theorem Tbl.wf_empty {α : Type} [DecidableEq α] (d : α) : (Tbl.empty : Tbl α).wf d = true := rfl

end Sys2Proof
end

