-- ==== Sys2Proof/Laws/State.lean ====
section
/-! SUPPORT. The fields of the state under each of its updates, one lemma for each field and update, and the reads
of its parts after a write. -/

namespace Sys2Proof.Machine

open State

/-! ### setTile -/

@[simp] theorem State.setTile_pending (s : State) (t : TileId) (v : Tile) : (s.setTile t v).pending = s.pending := rfl
@[simp] theorem State.setTile_supTime (s : State) (t : TileId) (v : Tile) : (s.setTile t v).supTime = s.supTime := rfl
@[simp] theorem State.setTile_tickCount (s : State) (t : TileId) (v : Tile) : (s.setTile t v).tickCount = s.tickCount := rfl
@[simp] theorem State.setTile_tickPeriod (s : State) (t : TileId) (v : Tile) : (s.setTile t v).tickPeriod = s.tickPeriod := rfl
@[simp] theorem State.setTile_freeCtr (s : State) (t : TileId) (v : Tile) : (s.setTile t v).freeCtr = s.freeCtr := rfl
@[simp] theorem State.setTile_out (s : State) (t : TileId) (v : Tile) : (s.setTile t v).out = s.out := rfl
@[simp] theorem State.setTile_fld (s : State) (t : TileId) (v : Tile) : (s.setTile t v).fld = s.fld := rfl
@[simp] theorem State.setTile_fuses (s : State) (t : TileId) (v : Tile) : (s.setTile t v).fuses = s.fuses := rfl
@[simp] theorem State.setTile_power (s : State) (t : TileId) (v : Tile) : (s.setTile t v).power = s.power := rfl
@[simp] theorem State.setTile_ready (s : State) (t : TileId) (v : Tile) : (s.setTile t v).ready = s.ready := rfl
@[simp] theorem State.setTile_thermtrip (s : State) (t : TileId) (v : Tile) : (s.setTile t v).thermtrip = s.thermtrip := rfl
@[simp] theorem State.setTile_wake (s : State) (t : TileId) (v : Tile) : (s.setTile t v).wake = s.wake := rfl
@[simp] theorem State.setTile_smbAlert (s : State) (t : TileId) (v : Tile) : (s.setTile t v).smbAlert = s.smbAlert := rfl
@[simp] theorem State.setTile_flash (s : State) (t : TileId) (v : Tile) : (s.setTile t v).flash = s.flash := rfl
@[simp] theorem State.setTile_tiles (s : State) (t : TileId) (v : Tile) : (s.setTile t v).tiles = s.tiles.put Tile.init t.val v := rfl
@[simp] theorem State.setTile_plan (s : State) (t : TileId) (v : Tile) : (s.setTile t v).plan = s.plan := rfl
@[simp] theorem State.setTile_job (s : State) (t : TileId) (v : Tile) : (s.setTile t v).job = s.job := rfl
@[simp] theorem State.setTile_clampRpt (s : State) (t : TileId) (v : Tile) : (s.setTile t v).clampRpt = s.clampRpt := rfl
@[simp] theorem State.setTile_swapRpt (s : State) (t : TileId) (v : Tile) : (s.setTile t v).swapRpt = s.swapRpt := rfl
@[simp] theorem State.setTile_keys (s : State) (t : TileId) (v : Tile) : (s.setTile t v).keys = s.keys := rfl
@[simp] theorem State.setTile_keyInstall (s : State) (t : TileId) (v : Tile) : (s.setTile t v).keyInstall = s.keyInstall := rfl
@[simp] theorem State.setTile_wardStep (s : State) (t : TileId) (v : Tile) : (s.setTile t v).wardStep = s.wardStep := rfl
@[simp] theorem State.setTile_lamp (s : State) (t : TileId) (v : Tile) : (s.setTile t v).lamp = s.lamp := rfl
@[simp] theorem State.setTile_storeServed (s : State) (t : TileId) (v : Tile) : (s.setTile t v).storeServed = s.storeServed := rfl
@[simp] theorem State.setTile_dispatchServed (s : State) (t : TileId) (v : Tile) : (s.setTile t v).dispatchServed = s.dispatchServed := rfl
@[simp] theorem State.setTile_gwQueue (s : State) (t : TileId) (v : Tile) : (s.setTile t v).gwQueue = s.gwQueue := rfl
@[simp] theorem State.setTile_arrivals (s : State) (t : TileId) (v : Tile) : (s.setTile t v).arrivals = s.arrivals := rfl
@[simp] theorem State.setTile_pins (s : State) (t : TileId) (v : Tile) : (s.setTile t v).pins = s.pins := rfl
@[simp] theorem State.setTile_net (s : State) (t : TileId) (v : Tile) : (s.setTile t v).net = s.net := rfl
@[simp] theorem State.setTile_gateBufs (s : State) (t : TileId) (v : Tile) : (s.setTile t v).gateBufs = s.gateBufs := rfl
@[simp] theorem State.setTile_engines (s : State) (t : TileId) (v : Tile) : (s.setTile t v).engines = s.engines := rfl
@[simp] theorem State.setTile_quarters (s : State) (t : TileId) (v : Tile) : (s.setTile t v).quarters = s.quarters := rfl
@[simp] theorem State.setTile_homes (s : State) (t : TileId) (v : Tile) : (s.setTile t v).homes = s.homes := rfl
@[simp] theorem State.setTile_dram (s : State) (t : TileId) (v : Tile) : (s.setTile t v).dram = s.dram := rfl
@[simp] theorem State.setTile_sigs (s : State) (t : TileId) (v : Tile) : (s.setTile t v).sigs = s.sigs := rfl
@[simp] theorem State.setTile_symErrs (s : State) (t : TileId) (v : Tile) : (s.setTile t v).symErrs = s.symErrs := rfl
@[simp] theorem State.setTile_ages (s : State) (t : TileId) (v : Tile) : (s.setTile t v).ages = s.ages := rfl
@[simp] theorem State.setTile_scrub (s : State) (t : TileId) (v : Tile) : (s.setTile t v).scrub = s.scrub := rfl
@[simp] theorem State.setTile_ledger (s : State) (t : TileId) (v : Tile) : (s.setTile t v).ledger = s.ledger := rfl
@[simp] theorem State.setTile_link (s : State) (t : TileId) (v : Tile) : (s.setTile t v).link = s.link := rfl
@[simp] theorem State.setTile_logQueue (s : State) (t : TileId) (v : Tile) : (s.setTile t v).logQueue = s.logQueue := rfl
@[simp] theorem State.setTile_logNextSeq (s : State) (t : TileId) (v : Tile) : (s.setTile t v).logNextSeq = s.logNextSeq := rfl
@[simp] theorem State.setTile_logNextSlot (s : State) (t : TileId) (v : Tile) : (s.setTile t v).logNextSlot = s.logNextSlot := rfl
@[simp] theorem State.setTile_mgmt (s : State) (t : TileId) (v : Tile) : (s.setTile t v).mgmt = s.mgmt := rfl
@[simp] theorem State.setTile_lantern (s : State) (t : TileId) (v : Tile) : (s.setTile t v).lantern = s.lantern := rfl

/-! ### updTile -/

@[simp] theorem State.updTile_pending (s : State) (t : TileId) (g : Tile → Tile) : (s.updTile t g).pending = s.pending := rfl
@[simp] theorem State.updTile_supTime (s : State) (t : TileId) (g : Tile → Tile) : (s.updTile t g).supTime = s.supTime := rfl
@[simp] theorem State.updTile_tickCount (s : State) (t : TileId) (g : Tile → Tile) : (s.updTile t g).tickCount = s.tickCount := rfl
@[simp] theorem State.updTile_tickPeriod (s : State) (t : TileId) (g : Tile → Tile) : (s.updTile t g).tickPeriod = s.tickPeriod := rfl
@[simp] theorem State.updTile_freeCtr (s : State) (t : TileId) (g : Tile → Tile) : (s.updTile t g).freeCtr = s.freeCtr := rfl
@[simp] theorem State.updTile_out (s : State) (t : TileId) (g : Tile → Tile) : (s.updTile t g).out = s.out := rfl
@[simp] theorem State.updTile_fld (s : State) (t : TileId) (g : Tile → Tile) : (s.updTile t g).fld = s.fld := rfl
@[simp] theorem State.updTile_fuses (s : State) (t : TileId) (g : Tile → Tile) : (s.updTile t g).fuses = s.fuses := rfl
@[simp] theorem State.updTile_power (s : State) (t : TileId) (g : Tile → Tile) : (s.updTile t g).power = s.power := rfl
@[simp] theorem State.updTile_ready (s : State) (t : TileId) (g : Tile → Tile) : (s.updTile t g).ready = s.ready := rfl
@[simp] theorem State.updTile_thermtrip (s : State) (t : TileId) (g : Tile → Tile) : (s.updTile t g).thermtrip = s.thermtrip := rfl
@[simp] theorem State.updTile_wake (s : State) (t : TileId) (g : Tile → Tile) : (s.updTile t g).wake = s.wake := rfl
@[simp] theorem State.updTile_smbAlert (s : State) (t : TileId) (g : Tile → Tile) : (s.updTile t g).smbAlert = s.smbAlert := rfl
@[simp] theorem State.updTile_flash (s : State) (t : TileId) (g : Tile → Tile) : (s.updTile t g).flash = s.flash := rfl
@[simp] theorem State.updTile_tiles (s : State) (t : TileId) (g : Tile → Tile) : (s.updTile t g).tiles = s.tiles.put Tile.init t.val (g (s.tile t)) := rfl
@[simp] theorem State.updTile_plan (s : State) (t : TileId) (g : Tile → Tile) : (s.updTile t g).plan = s.plan := rfl
@[simp] theorem State.updTile_job (s : State) (t : TileId) (g : Tile → Tile) : (s.updTile t g).job = s.job := rfl
@[simp] theorem State.updTile_clampRpt (s : State) (t : TileId) (g : Tile → Tile) : (s.updTile t g).clampRpt = s.clampRpt := rfl
@[simp] theorem State.updTile_swapRpt (s : State) (t : TileId) (g : Tile → Tile) : (s.updTile t g).swapRpt = s.swapRpt := rfl
@[simp] theorem State.updTile_keys (s : State) (t : TileId) (g : Tile → Tile) : (s.updTile t g).keys = s.keys := rfl
@[simp] theorem State.updTile_keyInstall (s : State) (t : TileId) (g : Tile → Tile) : (s.updTile t g).keyInstall = s.keyInstall := rfl
@[simp] theorem State.updTile_wardStep (s : State) (t : TileId) (g : Tile → Tile) : (s.updTile t g).wardStep = s.wardStep := rfl
@[simp] theorem State.updTile_lamp (s : State) (t : TileId) (g : Tile → Tile) : (s.updTile t g).lamp = s.lamp := rfl
@[simp] theorem State.updTile_storeServed (s : State) (t : TileId) (g : Tile → Tile) : (s.updTile t g).storeServed = s.storeServed := rfl
@[simp] theorem State.updTile_dispatchServed (s : State) (t : TileId) (g : Tile → Tile) : (s.updTile t g).dispatchServed = s.dispatchServed := rfl
@[simp] theorem State.updTile_gwQueue (s : State) (t : TileId) (g : Tile → Tile) : (s.updTile t g).gwQueue = s.gwQueue := rfl
@[simp] theorem State.updTile_arrivals (s : State) (t : TileId) (g : Tile → Tile) : (s.updTile t g).arrivals = s.arrivals := rfl
@[simp] theorem State.updTile_pins (s : State) (t : TileId) (g : Tile → Tile) : (s.updTile t g).pins = s.pins := rfl
@[simp] theorem State.updTile_net (s : State) (t : TileId) (g : Tile → Tile) : (s.updTile t g).net = s.net := rfl
@[simp] theorem State.updTile_gateBufs (s : State) (t : TileId) (g : Tile → Tile) : (s.updTile t g).gateBufs = s.gateBufs := rfl
@[simp] theorem State.updTile_engines (s : State) (t : TileId) (g : Tile → Tile) : (s.updTile t g).engines = s.engines := rfl
@[simp] theorem State.updTile_quarters (s : State) (t : TileId) (g : Tile → Tile) : (s.updTile t g).quarters = s.quarters := rfl
@[simp] theorem State.updTile_homes (s : State) (t : TileId) (g : Tile → Tile) : (s.updTile t g).homes = s.homes := rfl
@[simp] theorem State.updTile_dram (s : State) (t : TileId) (g : Tile → Tile) : (s.updTile t g).dram = s.dram := rfl
@[simp] theorem State.updTile_sigs (s : State) (t : TileId) (g : Tile → Tile) : (s.updTile t g).sigs = s.sigs := rfl
@[simp] theorem State.updTile_symErrs (s : State) (t : TileId) (g : Tile → Tile) : (s.updTile t g).symErrs = s.symErrs := rfl
@[simp] theorem State.updTile_ages (s : State) (t : TileId) (g : Tile → Tile) : (s.updTile t g).ages = s.ages := rfl
@[simp] theorem State.updTile_scrub (s : State) (t : TileId) (g : Tile → Tile) : (s.updTile t g).scrub = s.scrub := rfl
@[simp] theorem State.updTile_ledger (s : State) (t : TileId) (g : Tile → Tile) : (s.updTile t g).ledger = s.ledger := rfl
@[simp] theorem State.updTile_link (s : State) (t : TileId) (g : Tile → Tile) : (s.updTile t g).link = s.link := rfl
@[simp] theorem State.updTile_logQueue (s : State) (t : TileId) (g : Tile → Tile) : (s.updTile t g).logQueue = s.logQueue := rfl
@[simp] theorem State.updTile_logNextSeq (s : State) (t : TileId) (g : Tile → Tile) : (s.updTile t g).logNextSeq = s.logNextSeq := rfl
@[simp] theorem State.updTile_logNextSlot (s : State) (t : TileId) (g : Tile → Tile) : (s.updTile t g).logNextSlot = s.logNextSlot := rfl
@[simp] theorem State.updTile_mgmt (s : State) (t : TileId) (g : Tile → Tile) : (s.updTile t g).mgmt = s.mgmt := rfl
@[simp] theorem State.updTile_lantern (s : State) (t : TileId) (g : Tile → Tile) : (s.updTile t g).lantern = s.lantern := rfl

/-! ### setLampw -/

@[simp] theorem State.setLampw_pending (s : State) (w : WardId) (v : LampWard) : (s.setLampw w v).pending = s.pending := rfl
@[simp] theorem State.setLampw_supTime (s : State) (w : WardId) (v : LampWard) : (s.setLampw w v).supTime = s.supTime := rfl
@[simp] theorem State.setLampw_tickCount (s : State) (w : WardId) (v : LampWard) : (s.setLampw w v).tickCount = s.tickCount := rfl
@[simp] theorem State.setLampw_tickPeriod (s : State) (w : WardId) (v : LampWard) : (s.setLampw w v).tickPeriod = s.tickPeriod := rfl
@[simp] theorem State.setLampw_freeCtr (s : State) (w : WardId) (v : LampWard) : (s.setLampw w v).freeCtr = s.freeCtr := rfl
@[simp] theorem State.setLampw_out (s : State) (w : WardId) (v : LampWard) : (s.setLampw w v).out = s.out := rfl
@[simp] theorem State.setLampw_fld (s : State) (w : WardId) (v : LampWard) : (s.setLampw w v).fld = s.fld := rfl
@[simp] theorem State.setLampw_fuses (s : State) (w : WardId) (v : LampWard) : (s.setLampw w v).fuses = s.fuses := rfl
@[simp] theorem State.setLampw_power (s : State) (w : WardId) (v : LampWard) : (s.setLampw w v).power = s.power := rfl
@[simp] theorem State.setLampw_ready (s : State) (w : WardId) (v : LampWard) : (s.setLampw w v).ready = s.ready := rfl
@[simp] theorem State.setLampw_thermtrip (s : State) (w : WardId) (v : LampWard) : (s.setLampw w v).thermtrip = s.thermtrip := rfl
@[simp] theorem State.setLampw_wake (s : State) (w : WardId) (v : LampWard) : (s.setLampw w v).wake = s.wake := rfl
@[simp] theorem State.setLampw_smbAlert (s : State) (w : WardId) (v : LampWard) : (s.setLampw w v).smbAlert = s.smbAlert := rfl
@[simp] theorem State.setLampw_flash (s : State) (w : WardId) (v : LampWard) : (s.setLampw w v).flash = s.flash := rfl
@[simp] theorem State.setLampw_tiles (s : State) (w : WardId) (v : LampWard) : (s.setLampw w v).tiles = s.tiles := rfl
@[simp] theorem State.setLampw_plan (s : State) (w : WardId) (v : LampWard) : (s.setLampw w v).plan = s.plan := rfl
@[simp] theorem State.setLampw_job (s : State) (w : WardId) (v : LampWard) : (s.setLampw w v).job = s.job := rfl
@[simp] theorem State.setLampw_clampRpt (s : State) (w : WardId) (v : LampWard) : (s.setLampw w v).clampRpt = s.clampRpt := rfl
@[simp] theorem State.setLampw_swapRpt (s : State) (w : WardId) (v : LampWard) : (s.setLampw w v).swapRpt = s.swapRpt := rfl
@[simp] theorem State.setLampw_keys (s : State) (w : WardId) (v : LampWard) : (s.setLampw w v).keys = s.keys := rfl
@[simp] theorem State.setLampw_keyInstall (s : State) (w : WardId) (v : LampWard) : (s.setLampw w v).keyInstall = s.keyInstall := rfl
@[simp] theorem State.setLampw_wardStep (s : State) (w : WardId) (v : LampWard) : (s.setLampw w v).wardStep = s.wardStep := rfl
@[simp] theorem State.setLampw_lamp (s : State) (w : WardId) (v : LampWard) : (s.setLampw w v).lamp = s.lamp.put LampWard.init w.val v := rfl
@[simp] theorem State.setLampw_storeServed (s : State) (w : WardId) (v : LampWard) : (s.setLampw w v).storeServed = s.storeServed := rfl
@[simp] theorem State.setLampw_dispatchServed (s : State) (w : WardId) (v : LampWard) : (s.setLampw w v).dispatchServed = s.dispatchServed := rfl
@[simp] theorem State.setLampw_gwQueue (s : State) (w : WardId) (v : LampWard) : (s.setLampw w v).gwQueue = s.gwQueue := rfl
@[simp] theorem State.setLampw_arrivals (s : State) (w : WardId) (v : LampWard) : (s.setLampw w v).arrivals = s.arrivals := rfl
@[simp] theorem State.setLampw_pins (s : State) (w : WardId) (v : LampWard) : (s.setLampw w v).pins = s.pins := rfl
@[simp] theorem State.setLampw_net (s : State) (w : WardId) (v : LampWard) : (s.setLampw w v).net = s.net := rfl
@[simp] theorem State.setLampw_gateBufs (s : State) (w : WardId) (v : LampWard) : (s.setLampw w v).gateBufs = s.gateBufs := rfl
@[simp] theorem State.setLampw_engines (s : State) (w : WardId) (v : LampWard) : (s.setLampw w v).engines = s.engines := rfl
@[simp] theorem State.setLampw_quarters (s : State) (w : WardId) (v : LampWard) : (s.setLampw w v).quarters = s.quarters := rfl
@[simp] theorem State.setLampw_homes (s : State) (w : WardId) (v : LampWard) : (s.setLampw w v).homes = s.homes := rfl
@[simp] theorem State.setLampw_dram (s : State) (w : WardId) (v : LampWard) : (s.setLampw w v).dram = s.dram := rfl
@[simp] theorem State.setLampw_sigs (s : State) (w : WardId) (v : LampWard) : (s.setLampw w v).sigs = s.sigs := rfl
@[simp] theorem State.setLampw_symErrs (s : State) (w : WardId) (v : LampWard) : (s.setLampw w v).symErrs = s.symErrs := rfl
@[simp] theorem State.setLampw_ages (s : State) (w : WardId) (v : LampWard) : (s.setLampw w v).ages = s.ages := rfl
@[simp] theorem State.setLampw_scrub (s : State) (w : WardId) (v : LampWard) : (s.setLampw w v).scrub = s.scrub := rfl
@[simp] theorem State.setLampw_ledger (s : State) (w : WardId) (v : LampWard) : (s.setLampw w v).ledger = s.ledger := rfl
@[simp] theorem State.setLampw_link (s : State) (w : WardId) (v : LampWard) : (s.setLampw w v).link = s.link := rfl
@[simp] theorem State.setLampw_logQueue (s : State) (w : WardId) (v : LampWard) : (s.setLampw w v).logQueue = s.logQueue := rfl
@[simp] theorem State.setLampw_logNextSeq (s : State) (w : WardId) (v : LampWard) : (s.setLampw w v).logNextSeq = s.logNextSeq := rfl
@[simp] theorem State.setLampw_logNextSlot (s : State) (w : WardId) (v : LampWard) : (s.setLampw w v).logNextSlot = s.logNextSlot := rfl
@[simp] theorem State.setLampw_mgmt (s : State) (w : WardId) (v : LampWard) : (s.setLampw w v).mgmt = s.mgmt := rfl
@[simp] theorem State.setLampw_lantern (s : State) (w : WardId) (v : LampWard) : (s.setLampw w v).lantern = s.lantern := rfl

/-! ### setEngine -/

@[simp] theorem State.setEngine_pending (s : State) (e : EngId) (v : Engine) : (s.setEngine e v).pending = s.pending := rfl
@[simp] theorem State.setEngine_supTime (s : State) (e : EngId) (v : Engine) : (s.setEngine e v).supTime = s.supTime := rfl
@[simp] theorem State.setEngine_tickCount (s : State) (e : EngId) (v : Engine) : (s.setEngine e v).tickCount = s.tickCount := rfl
@[simp] theorem State.setEngine_tickPeriod (s : State) (e : EngId) (v : Engine) : (s.setEngine e v).tickPeriod = s.tickPeriod := rfl
@[simp] theorem State.setEngine_freeCtr (s : State) (e : EngId) (v : Engine) : (s.setEngine e v).freeCtr = s.freeCtr := rfl
@[simp] theorem State.setEngine_out (s : State) (e : EngId) (v : Engine) : (s.setEngine e v).out = s.out := rfl
@[simp] theorem State.setEngine_fld (s : State) (e : EngId) (v : Engine) : (s.setEngine e v).fld = s.fld := rfl
@[simp] theorem State.setEngine_fuses (s : State) (e : EngId) (v : Engine) : (s.setEngine e v).fuses = s.fuses := rfl
@[simp] theorem State.setEngine_power (s : State) (e : EngId) (v : Engine) : (s.setEngine e v).power = s.power := rfl
@[simp] theorem State.setEngine_ready (s : State) (e : EngId) (v : Engine) : (s.setEngine e v).ready = s.ready := rfl
@[simp] theorem State.setEngine_thermtrip (s : State) (e : EngId) (v : Engine) : (s.setEngine e v).thermtrip = s.thermtrip := rfl
@[simp] theorem State.setEngine_wake (s : State) (e : EngId) (v : Engine) : (s.setEngine e v).wake = s.wake := rfl
@[simp] theorem State.setEngine_smbAlert (s : State) (e : EngId) (v : Engine) : (s.setEngine e v).smbAlert = s.smbAlert := rfl
@[simp] theorem State.setEngine_flash (s : State) (e : EngId) (v : Engine) : (s.setEngine e v).flash = s.flash := rfl
@[simp] theorem State.setEngine_tiles (s : State) (e : EngId) (v : Engine) : (s.setEngine e v).tiles = s.tiles := rfl
@[simp] theorem State.setEngine_plan (s : State) (e : EngId) (v : Engine) : (s.setEngine e v).plan = s.plan := rfl
@[simp] theorem State.setEngine_job (s : State) (e : EngId) (v : Engine) : (s.setEngine e v).job = s.job := rfl
@[simp] theorem State.setEngine_clampRpt (s : State) (e : EngId) (v : Engine) : (s.setEngine e v).clampRpt = s.clampRpt := rfl
@[simp] theorem State.setEngine_swapRpt (s : State) (e : EngId) (v : Engine) : (s.setEngine e v).swapRpt = s.swapRpt := rfl
@[simp] theorem State.setEngine_keys (s : State) (e : EngId) (v : Engine) : (s.setEngine e v).keys = s.keys := rfl
@[simp] theorem State.setEngine_keyInstall (s : State) (e : EngId) (v : Engine) : (s.setEngine e v).keyInstall = s.keyInstall := rfl
@[simp] theorem State.setEngine_wardStep (s : State) (e : EngId) (v : Engine) : (s.setEngine e v).wardStep = s.wardStep := rfl
@[simp] theorem State.setEngine_lamp (s : State) (e : EngId) (v : Engine) : (s.setEngine e v).lamp = s.lamp := rfl
@[simp] theorem State.setEngine_storeServed (s : State) (e : EngId) (v : Engine) : (s.setEngine e v).storeServed = s.storeServed := rfl
@[simp] theorem State.setEngine_dispatchServed (s : State) (e : EngId) (v : Engine) : (s.setEngine e v).dispatchServed = s.dispatchServed := rfl
@[simp] theorem State.setEngine_gwQueue (s : State) (e : EngId) (v : Engine) : (s.setEngine e v).gwQueue = s.gwQueue := rfl
@[simp] theorem State.setEngine_arrivals (s : State) (e : EngId) (v : Engine) : (s.setEngine e v).arrivals = s.arrivals := rfl
@[simp] theorem State.setEngine_pins (s : State) (e : EngId) (v : Engine) : (s.setEngine e v).pins = s.pins := rfl
@[simp] theorem State.setEngine_net (s : State) (e : EngId) (v : Engine) : (s.setEngine e v).net = s.net := rfl
@[simp] theorem State.setEngine_gateBufs (s : State) (e : EngId) (v : Engine) : (s.setEngine e v).gateBufs = s.gateBufs := rfl
@[simp] theorem State.setEngine_engines (s : State) (e : EngId) (v : Engine) : (s.setEngine e v).engines = s.engines.put Engine.init e.val v := rfl
@[simp] theorem State.setEngine_quarters (s : State) (e : EngId) (v : Engine) : (s.setEngine e v).quarters = s.quarters := rfl
@[simp] theorem State.setEngine_homes (s : State) (e : EngId) (v : Engine) : (s.setEngine e v).homes = s.homes := rfl
@[simp] theorem State.setEngine_dram (s : State) (e : EngId) (v : Engine) : (s.setEngine e v).dram = s.dram := rfl
@[simp] theorem State.setEngine_sigs (s : State) (e : EngId) (v : Engine) : (s.setEngine e v).sigs = s.sigs := rfl
@[simp] theorem State.setEngine_symErrs (s : State) (e : EngId) (v : Engine) : (s.setEngine e v).symErrs = s.symErrs := rfl
@[simp] theorem State.setEngine_ages (s : State) (e : EngId) (v : Engine) : (s.setEngine e v).ages = s.ages := rfl
@[simp] theorem State.setEngine_scrub (s : State) (e : EngId) (v : Engine) : (s.setEngine e v).scrub = s.scrub := rfl
@[simp] theorem State.setEngine_ledger (s : State) (e : EngId) (v : Engine) : (s.setEngine e v).ledger = s.ledger := rfl
@[simp] theorem State.setEngine_link (s : State) (e : EngId) (v : Engine) : (s.setEngine e v).link = s.link := rfl
@[simp] theorem State.setEngine_logQueue (s : State) (e : EngId) (v : Engine) : (s.setEngine e v).logQueue = s.logQueue := rfl
@[simp] theorem State.setEngine_logNextSeq (s : State) (e : EngId) (v : Engine) : (s.setEngine e v).logNextSeq = s.logNextSeq := rfl
@[simp] theorem State.setEngine_logNextSlot (s : State) (e : EngId) (v : Engine) : (s.setEngine e v).logNextSlot = s.logNextSlot := rfl
@[simp] theorem State.setEngine_mgmt (s : State) (e : EngId) (v : Engine) : (s.setEngine e v).mgmt = s.mgmt := rfl
@[simp] theorem State.setEngine_lantern (s : State) (e : EngId) (v : Engine) : (s.setEngine e v).lantern = s.lantern := rfl

/-! ### setQuarter -/

@[simp] theorem State.setQuarter_pending (s : State) (q : QuarterId) (v : Quarter) : (s.setQuarter q v).pending = s.pending := rfl
@[simp] theorem State.setQuarter_supTime (s : State) (q : QuarterId) (v : Quarter) : (s.setQuarter q v).supTime = s.supTime := rfl
@[simp] theorem State.setQuarter_tickCount (s : State) (q : QuarterId) (v : Quarter) : (s.setQuarter q v).tickCount = s.tickCount := rfl
@[simp] theorem State.setQuarter_tickPeriod (s : State) (q : QuarterId) (v : Quarter) : (s.setQuarter q v).tickPeriod = s.tickPeriod := rfl
@[simp] theorem State.setQuarter_freeCtr (s : State) (q : QuarterId) (v : Quarter) : (s.setQuarter q v).freeCtr = s.freeCtr := rfl
@[simp] theorem State.setQuarter_out (s : State) (q : QuarterId) (v : Quarter) : (s.setQuarter q v).out = s.out := rfl
@[simp] theorem State.setQuarter_fld (s : State) (q : QuarterId) (v : Quarter) : (s.setQuarter q v).fld = s.fld := rfl
@[simp] theorem State.setQuarter_fuses (s : State) (q : QuarterId) (v : Quarter) : (s.setQuarter q v).fuses = s.fuses := rfl
@[simp] theorem State.setQuarter_power (s : State) (q : QuarterId) (v : Quarter) : (s.setQuarter q v).power = s.power := rfl
@[simp] theorem State.setQuarter_ready (s : State) (q : QuarterId) (v : Quarter) : (s.setQuarter q v).ready = s.ready := rfl
@[simp] theorem State.setQuarter_thermtrip (s : State) (q : QuarterId) (v : Quarter) : (s.setQuarter q v).thermtrip = s.thermtrip := rfl
@[simp] theorem State.setQuarter_wake (s : State) (q : QuarterId) (v : Quarter) : (s.setQuarter q v).wake = s.wake := rfl
@[simp] theorem State.setQuarter_smbAlert (s : State) (q : QuarterId) (v : Quarter) : (s.setQuarter q v).smbAlert = s.smbAlert := rfl
@[simp] theorem State.setQuarter_flash (s : State) (q : QuarterId) (v : Quarter) : (s.setQuarter q v).flash = s.flash := rfl
@[simp] theorem State.setQuarter_tiles (s : State) (q : QuarterId) (v : Quarter) : (s.setQuarter q v).tiles = s.tiles := rfl
@[simp] theorem State.setQuarter_plan (s : State) (q : QuarterId) (v : Quarter) : (s.setQuarter q v).plan = s.plan := rfl
@[simp] theorem State.setQuarter_job (s : State) (q : QuarterId) (v : Quarter) : (s.setQuarter q v).job = s.job := rfl
@[simp] theorem State.setQuarter_clampRpt (s : State) (q : QuarterId) (v : Quarter) : (s.setQuarter q v).clampRpt = s.clampRpt := rfl
@[simp] theorem State.setQuarter_swapRpt (s : State) (q : QuarterId) (v : Quarter) : (s.setQuarter q v).swapRpt = s.swapRpt := rfl
@[simp] theorem State.setQuarter_keys (s : State) (q : QuarterId) (v : Quarter) : (s.setQuarter q v).keys = s.keys := rfl
@[simp] theorem State.setQuarter_keyInstall (s : State) (q : QuarterId) (v : Quarter) : (s.setQuarter q v).keyInstall = s.keyInstall := rfl
@[simp] theorem State.setQuarter_wardStep (s : State) (q : QuarterId) (v : Quarter) : (s.setQuarter q v).wardStep = s.wardStep := rfl
@[simp] theorem State.setQuarter_lamp (s : State) (q : QuarterId) (v : Quarter) : (s.setQuarter q v).lamp = s.lamp := rfl
@[simp] theorem State.setQuarter_storeServed (s : State) (q : QuarterId) (v : Quarter) : (s.setQuarter q v).storeServed = s.storeServed := rfl
@[simp] theorem State.setQuarter_dispatchServed (s : State) (q : QuarterId) (v : Quarter) : (s.setQuarter q v).dispatchServed = s.dispatchServed := rfl
@[simp] theorem State.setQuarter_gwQueue (s : State) (q : QuarterId) (v : Quarter) : (s.setQuarter q v).gwQueue = s.gwQueue := rfl
@[simp] theorem State.setQuarter_arrivals (s : State) (q : QuarterId) (v : Quarter) : (s.setQuarter q v).arrivals = s.arrivals := rfl
@[simp] theorem State.setQuarter_pins (s : State) (q : QuarterId) (v : Quarter) : (s.setQuarter q v).pins = s.pins := rfl
@[simp] theorem State.setQuarter_net (s : State) (q : QuarterId) (v : Quarter) : (s.setQuarter q v).net = s.net := rfl
@[simp] theorem State.setQuarter_gateBufs (s : State) (q : QuarterId) (v : Quarter) : (s.setQuarter q v).gateBufs = s.gateBufs := rfl
@[simp] theorem State.setQuarter_engines (s : State) (q : QuarterId) (v : Quarter) : (s.setQuarter q v).engines = s.engines := rfl
@[simp] theorem State.setQuarter_quarters (s : State) (q : QuarterId) (v : Quarter) : (s.setQuarter q v).quarters = s.quarters.put Quarter.init q.val v := rfl
@[simp] theorem State.setQuarter_homes (s : State) (q : QuarterId) (v : Quarter) : (s.setQuarter q v).homes = s.homes := rfl
@[simp] theorem State.setQuarter_dram (s : State) (q : QuarterId) (v : Quarter) : (s.setQuarter q v).dram = s.dram := rfl
@[simp] theorem State.setQuarter_sigs (s : State) (q : QuarterId) (v : Quarter) : (s.setQuarter q v).sigs = s.sigs := rfl
@[simp] theorem State.setQuarter_symErrs (s : State) (q : QuarterId) (v : Quarter) : (s.setQuarter q v).symErrs = s.symErrs := rfl
@[simp] theorem State.setQuarter_ages (s : State) (q : QuarterId) (v : Quarter) : (s.setQuarter q v).ages = s.ages := rfl
@[simp] theorem State.setQuarter_scrub (s : State) (q : QuarterId) (v : Quarter) : (s.setQuarter q v).scrub = s.scrub := rfl
@[simp] theorem State.setQuarter_ledger (s : State) (q : QuarterId) (v : Quarter) : (s.setQuarter q v).ledger = s.ledger := rfl
@[simp] theorem State.setQuarter_link (s : State) (q : QuarterId) (v : Quarter) : (s.setQuarter q v).link = s.link := rfl
@[simp] theorem State.setQuarter_logQueue (s : State) (q : QuarterId) (v : Quarter) : (s.setQuarter q v).logQueue = s.logQueue := rfl
@[simp] theorem State.setQuarter_logNextSeq (s : State) (q : QuarterId) (v : Quarter) : (s.setQuarter q v).logNextSeq = s.logNextSeq := rfl
@[simp] theorem State.setQuarter_logNextSlot (s : State) (q : QuarterId) (v : Quarter) : (s.setQuarter q v).logNextSlot = s.logNextSlot := rfl
@[simp] theorem State.setQuarter_mgmt (s : State) (q : QuarterId) (v : Quarter) : (s.setQuarter q v).mgmt = s.mgmt := rfl
@[simp] theorem State.setQuarter_lantern (s : State) (q : QuarterId) (v : Quarter) : (s.setQuarter q v).lantern = s.lantern := rfl

/-! ### updQuarter -/

@[simp] theorem State.updQuarter_pending (s : State) (q : QuarterId) (g : Quarter → Quarter) : (s.updQuarter q g).pending = s.pending := rfl
@[simp] theorem State.updQuarter_supTime (s : State) (q : QuarterId) (g : Quarter → Quarter) : (s.updQuarter q g).supTime = s.supTime := rfl
@[simp] theorem State.updQuarter_tickCount (s : State) (q : QuarterId) (g : Quarter → Quarter) : (s.updQuarter q g).tickCount = s.tickCount := rfl
@[simp] theorem State.updQuarter_tickPeriod (s : State) (q : QuarterId) (g : Quarter → Quarter) : (s.updQuarter q g).tickPeriod = s.tickPeriod := rfl
@[simp] theorem State.updQuarter_freeCtr (s : State) (q : QuarterId) (g : Quarter → Quarter) : (s.updQuarter q g).freeCtr = s.freeCtr := rfl
@[simp] theorem State.updQuarter_out (s : State) (q : QuarterId) (g : Quarter → Quarter) : (s.updQuarter q g).out = s.out := rfl
@[simp] theorem State.updQuarter_fld (s : State) (q : QuarterId) (g : Quarter → Quarter) : (s.updQuarter q g).fld = s.fld := rfl
@[simp] theorem State.updQuarter_fuses (s : State) (q : QuarterId) (g : Quarter → Quarter) : (s.updQuarter q g).fuses = s.fuses := rfl
@[simp] theorem State.updQuarter_power (s : State) (q : QuarterId) (g : Quarter → Quarter) : (s.updQuarter q g).power = s.power := rfl
@[simp] theorem State.updQuarter_ready (s : State) (q : QuarterId) (g : Quarter → Quarter) : (s.updQuarter q g).ready = s.ready := rfl
@[simp] theorem State.updQuarter_thermtrip (s : State) (q : QuarterId) (g : Quarter → Quarter) : (s.updQuarter q g).thermtrip = s.thermtrip := rfl
@[simp] theorem State.updQuarter_wake (s : State) (q : QuarterId) (g : Quarter → Quarter) : (s.updQuarter q g).wake = s.wake := rfl
@[simp] theorem State.updQuarter_smbAlert (s : State) (q : QuarterId) (g : Quarter → Quarter) : (s.updQuarter q g).smbAlert = s.smbAlert := rfl
@[simp] theorem State.updQuarter_flash (s : State) (q : QuarterId) (g : Quarter → Quarter) : (s.updQuarter q g).flash = s.flash := rfl
@[simp] theorem State.updQuarter_tiles (s : State) (q : QuarterId) (g : Quarter → Quarter) : (s.updQuarter q g).tiles = s.tiles := rfl
@[simp] theorem State.updQuarter_plan (s : State) (q : QuarterId) (g : Quarter → Quarter) : (s.updQuarter q g).plan = s.plan := rfl
@[simp] theorem State.updQuarter_job (s : State) (q : QuarterId) (g : Quarter → Quarter) : (s.updQuarter q g).job = s.job := rfl
@[simp] theorem State.updQuarter_clampRpt (s : State) (q : QuarterId) (g : Quarter → Quarter) : (s.updQuarter q g).clampRpt = s.clampRpt := rfl
@[simp] theorem State.updQuarter_swapRpt (s : State) (q : QuarterId) (g : Quarter → Quarter) : (s.updQuarter q g).swapRpt = s.swapRpt := rfl
@[simp] theorem State.updQuarter_keys (s : State) (q : QuarterId) (g : Quarter → Quarter) : (s.updQuarter q g).keys = s.keys := rfl
@[simp] theorem State.updQuarter_keyInstall (s : State) (q : QuarterId) (g : Quarter → Quarter) : (s.updQuarter q g).keyInstall = s.keyInstall := rfl
@[simp] theorem State.updQuarter_wardStep (s : State) (q : QuarterId) (g : Quarter → Quarter) : (s.updQuarter q g).wardStep = s.wardStep := rfl
@[simp] theorem State.updQuarter_lamp (s : State) (q : QuarterId) (g : Quarter → Quarter) : (s.updQuarter q g).lamp = s.lamp := rfl
@[simp] theorem State.updQuarter_storeServed (s : State) (q : QuarterId) (g : Quarter → Quarter) : (s.updQuarter q g).storeServed = s.storeServed := rfl
@[simp] theorem State.updQuarter_dispatchServed (s : State) (q : QuarterId) (g : Quarter → Quarter) : (s.updQuarter q g).dispatchServed = s.dispatchServed := rfl
@[simp] theorem State.updQuarter_gwQueue (s : State) (q : QuarterId) (g : Quarter → Quarter) : (s.updQuarter q g).gwQueue = s.gwQueue := rfl
@[simp] theorem State.updQuarter_arrivals (s : State) (q : QuarterId) (g : Quarter → Quarter) : (s.updQuarter q g).arrivals = s.arrivals := rfl
@[simp] theorem State.updQuarter_pins (s : State) (q : QuarterId) (g : Quarter → Quarter) : (s.updQuarter q g).pins = s.pins := rfl
@[simp] theorem State.updQuarter_net (s : State) (q : QuarterId) (g : Quarter → Quarter) : (s.updQuarter q g).net = s.net := rfl
@[simp] theorem State.updQuarter_gateBufs (s : State) (q : QuarterId) (g : Quarter → Quarter) : (s.updQuarter q g).gateBufs = s.gateBufs := rfl
@[simp] theorem State.updQuarter_engines (s : State) (q : QuarterId) (g : Quarter → Quarter) : (s.updQuarter q g).engines = s.engines := rfl
@[simp] theorem State.updQuarter_quarters (s : State) (q : QuarterId) (g : Quarter → Quarter) : (s.updQuarter q g).quarters = s.quarters.put Quarter.init q.val (g (s.quarter q)) := rfl
@[simp] theorem State.updQuarter_homes (s : State) (q : QuarterId) (g : Quarter → Quarter) : (s.updQuarter q g).homes = s.homes := rfl
@[simp] theorem State.updQuarter_dram (s : State) (q : QuarterId) (g : Quarter → Quarter) : (s.updQuarter q g).dram = s.dram := rfl
@[simp] theorem State.updQuarter_sigs (s : State) (q : QuarterId) (g : Quarter → Quarter) : (s.updQuarter q g).sigs = s.sigs := rfl
@[simp] theorem State.updQuarter_symErrs (s : State) (q : QuarterId) (g : Quarter → Quarter) : (s.updQuarter q g).symErrs = s.symErrs := rfl
@[simp] theorem State.updQuarter_ages (s : State) (q : QuarterId) (g : Quarter → Quarter) : (s.updQuarter q g).ages = s.ages := rfl
@[simp] theorem State.updQuarter_scrub (s : State) (q : QuarterId) (g : Quarter → Quarter) : (s.updQuarter q g).scrub = s.scrub := rfl
@[simp] theorem State.updQuarter_ledger (s : State) (q : QuarterId) (g : Quarter → Quarter) : (s.updQuarter q g).ledger = s.ledger := rfl
@[simp] theorem State.updQuarter_link (s : State) (q : QuarterId) (g : Quarter → Quarter) : (s.updQuarter q g).link = s.link := rfl
@[simp] theorem State.updQuarter_logQueue (s : State) (q : QuarterId) (g : Quarter → Quarter) : (s.updQuarter q g).logQueue = s.logQueue := rfl
@[simp] theorem State.updQuarter_logNextSeq (s : State) (q : QuarterId) (g : Quarter → Quarter) : (s.updQuarter q g).logNextSeq = s.logNextSeq := rfl
@[simp] theorem State.updQuarter_logNextSlot (s : State) (q : QuarterId) (g : Quarter → Quarter) : (s.updQuarter q g).logNextSlot = s.logNextSlot := rfl
@[simp] theorem State.updQuarter_mgmt (s : State) (q : QuarterId) (g : Quarter → Quarter) : (s.updQuarter q g).mgmt = s.mgmt := rfl
@[simp] theorem State.updQuarter_lantern (s : State) (q : QuarterId) (g : Quarter → Quarter) : (s.updQuarter q g).lantern = s.lantern := rfl

/-! ### setHomeN -/

@[simp] theorem State.setHomeN_pending (s : State) (h : Nat) (v : Home) : (s.setHomeN h v).pending = s.pending := rfl
@[simp] theorem State.setHomeN_supTime (s : State) (h : Nat) (v : Home) : (s.setHomeN h v).supTime = s.supTime := rfl
@[simp] theorem State.setHomeN_tickCount (s : State) (h : Nat) (v : Home) : (s.setHomeN h v).tickCount = s.tickCount := rfl
@[simp] theorem State.setHomeN_tickPeriod (s : State) (h : Nat) (v : Home) : (s.setHomeN h v).tickPeriod = s.tickPeriod := rfl
@[simp] theorem State.setHomeN_freeCtr (s : State) (h : Nat) (v : Home) : (s.setHomeN h v).freeCtr = s.freeCtr := rfl
@[simp] theorem State.setHomeN_out (s : State) (h : Nat) (v : Home) : (s.setHomeN h v).out = s.out := rfl
@[simp] theorem State.setHomeN_fld (s : State) (h : Nat) (v : Home) : (s.setHomeN h v).fld = s.fld := rfl
@[simp] theorem State.setHomeN_fuses (s : State) (h : Nat) (v : Home) : (s.setHomeN h v).fuses = s.fuses := rfl
@[simp] theorem State.setHomeN_power (s : State) (h : Nat) (v : Home) : (s.setHomeN h v).power = s.power := rfl
@[simp] theorem State.setHomeN_ready (s : State) (h : Nat) (v : Home) : (s.setHomeN h v).ready = s.ready := rfl
@[simp] theorem State.setHomeN_thermtrip (s : State) (h : Nat) (v : Home) : (s.setHomeN h v).thermtrip = s.thermtrip := rfl
@[simp] theorem State.setHomeN_wake (s : State) (h : Nat) (v : Home) : (s.setHomeN h v).wake = s.wake := rfl
@[simp] theorem State.setHomeN_smbAlert (s : State) (h : Nat) (v : Home) : (s.setHomeN h v).smbAlert = s.smbAlert := rfl
@[simp] theorem State.setHomeN_flash (s : State) (h : Nat) (v : Home) : (s.setHomeN h v).flash = s.flash := rfl
@[simp] theorem State.setHomeN_tiles (s : State) (h : Nat) (v : Home) : (s.setHomeN h v).tiles = s.tiles := rfl
@[simp] theorem State.setHomeN_plan (s : State) (h : Nat) (v : Home) : (s.setHomeN h v).plan = s.plan := rfl
@[simp] theorem State.setHomeN_job (s : State) (h : Nat) (v : Home) : (s.setHomeN h v).job = s.job := rfl
@[simp] theorem State.setHomeN_clampRpt (s : State) (h : Nat) (v : Home) : (s.setHomeN h v).clampRpt = s.clampRpt := rfl
@[simp] theorem State.setHomeN_swapRpt (s : State) (h : Nat) (v : Home) : (s.setHomeN h v).swapRpt = s.swapRpt := rfl
@[simp] theorem State.setHomeN_keys (s : State) (h : Nat) (v : Home) : (s.setHomeN h v).keys = s.keys := rfl
@[simp] theorem State.setHomeN_keyInstall (s : State) (h : Nat) (v : Home) : (s.setHomeN h v).keyInstall = s.keyInstall := rfl
@[simp] theorem State.setHomeN_wardStep (s : State) (h : Nat) (v : Home) : (s.setHomeN h v).wardStep = s.wardStep := rfl
@[simp] theorem State.setHomeN_lamp (s : State) (h : Nat) (v : Home) : (s.setHomeN h v).lamp = s.lamp := rfl
@[simp] theorem State.setHomeN_storeServed (s : State) (h : Nat) (v : Home) : (s.setHomeN h v).storeServed = s.storeServed := rfl
@[simp] theorem State.setHomeN_dispatchServed (s : State) (h : Nat) (v : Home) : (s.setHomeN h v).dispatchServed = s.dispatchServed := rfl
@[simp] theorem State.setHomeN_gwQueue (s : State) (h : Nat) (v : Home) : (s.setHomeN h v).gwQueue = s.gwQueue := rfl
@[simp] theorem State.setHomeN_arrivals (s : State) (h : Nat) (v : Home) : (s.setHomeN h v).arrivals = s.arrivals := rfl
@[simp] theorem State.setHomeN_pins (s : State) (h : Nat) (v : Home) : (s.setHomeN h v).pins = s.pins := rfl
@[simp] theorem State.setHomeN_net (s : State) (h : Nat) (v : Home) : (s.setHomeN h v).net = s.net := rfl
@[simp] theorem State.setHomeN_gateBufs (s : State) (h : Nat) (v : Home) : (s.setHomeN h v).gateBufs = s.gateBufs := rfl
@[simp] theorem State.setHomeN_engines (s : State) (h : Nat) (v : Home) : (s.setHomeN h v).engines = s.engines := rfl
@[simp] theorem State.setHomeN_quarters (s : State) (h : Nat) (v : Home) : (s.setHomeN h v).quarters = s.quarters := rfl
@[simp] theorem State.setHomeN_homes (s : State) (h : Nat) (v : Home) : (s.setHomeN h v).homes = s.homes.put Home.init h v := rfl
@[simp] theorem State.setHomeN_dram (s : State) (h : Nat) (v : Home) : (s.setHomeN h v).dram = s.dram := rfl
@[simp] theorem State.setHomeN_sigs (s : State) (h : Nat) (v : Home) : (s.setHomeN h v).sigs = s.sigs := rfl
@[simp] theorem State.setHomeN_symErrs (s : State) (h : Nat) (v : Home) : (s.setHomeN h v).symErrs = s.symErrs := rfl
@[simp] theorem State.setHomeN_ages (s : State) (h : Nat) (v : Home) : (s.setHomeN h v).ages = s.ages := rfl
@[simp] theorem State.setHomeN_scrub (s : State) (h : Nat) (v : Home) : (s.setHomeN h v).scrub = s.scrub := rfl
@[simp] theorem State.setHomeN_ledger (s : State) (h : Nat) (v : Home) : (s.setHomeN h v).ledger = s.ledger := rfl
@[simp] theorem State.setHomeN_link (s : State) (h : Nat) (v : Home) : (s.setHomeN h v).link = s.link := rfl
@[simp] theorem State.setHomeN_logQueue (s : State) (h : Nat) (v : Home) : (s.setHomeN h v).logQueue = s.logQueue := rfl
@[simp] theorem State.setHomeN_logNextSeq (s : State) (h : Nat) (v : Home) : (s.setHomeN h v).logNextSeq = s.logNextSeq := rfl
@[simp] theorem State.setHomeN_logNextSlot (s : State) (h : Nat) (v : Home) : (s.setHomeN h v).logNextSlot = s.logNextSlot := rfl
@[simp] theorem State.setHomeN_mgmt (s : State) (h : Nat) (v : Home) : (s.setHomeN h v).mgmt = s.mgmt := rfl
@[simp] theorem State.setHomeN_lantern (s : State) (h : Nat) (v : Home) : (s.setHomeN h v).lantern = s.lantern := rfl

/-! ### setPin -/

@[simp] theorem State.setPin_pending (s : State) (p : Fin 8) (v : EvtPin) : (s.setPin p v).pending = s.pending := rfl
@[simp] theorem State.setPin_supTime (s : State) (p : Fin 8) (v : EvtPin) : (s.setPin p v).supTime = s.supTime := rfl
@[simp] theorem State.setPin_tickCount (s : State) (p : Fin 8) (v : EvtPin) : (s.setPin p v).tickCount = s.tickCount := rfl
@[simp] theorem State.setPin_tickPeriod (s : State) (p : Fin 8) (v : EvtPin) : (s.setPin p v).tickPeriod = s.tickPeriod := rfl
@[simp] theorem State.setPin_freeCtr (s : State) (p : Fin 8) (v : EvtPin) : (s.setPin p v).freeCtr = s.freeCtr := rfl
@[simp] theorem State.setPin_out (s : State) (p : Fin 8) (v : EvtPin) : (s.setPin p v).out = s.out := rfl
@[simp] theorem State.setPin_fld (s : State) (p : Fin 8) (v : EvtPin) : (s.setPin p v).fld = s.fld := rfl
@[simp] theorem State.setPin_fuses (s : State) (p : Fin 8) (v : EvtPin) : (s.setPin p v).fuses = s.fuses := rfl
@[simp] theorem State.setPin_power (s : State) (p : Fin 8) (v : EvtPin) : (s.setPin p v).power = s.power := rfl
@[simp] theorem State.setPin_ready (s : State) (p : Fin 8) (v : EvtPin) : (s.setPin p v).ready = s.ready := rfl
@[simp] theorem State.setPin_thermtrip (s : State) (p : Fin 8) (v : EvtPin) : (s.setPin p v).thermtrip = s.thermtrip := rfl
@[simp] theorem State.setPin_wake (s : State) (p : Fin 8) (v : EvtPin) : (s.setPin p v).wake = s.wake := rfl
@[simp] theorem State.setPin_smbAlert (s : State) (p : Fin 8) (v : EvtPin) : (s.setPin p v).smbAlert = s.smbAlert := rfl
@[simp] theorem State.setPin_flash (s : State) (p : Fin 8) (v : EvtPin) : (s.setPin p v).flash = s.flash := rfl
@[simp] theorem State.setPin_tiles (s : State) (p : Fin 8) (v : EvtPin) : (s.setPin p v).tiles = s.tiles := rfl
@[simp] theorem State.setPin_plan (s : State) (p : Fin 8) (v : EvtPin) : (s.setPin p v).plan = s.plan := rfl
@[simp] theorem State.setPin_job (s : State) (p : Fin 8) (v : EvtPin) : (s.setPin p v).job = s.job := rfl
@[simp] theorem State.setPin_clampRpt (s : State) (p : Fin 8) (v : EvtPin) : (s.setPin p v).clampRpt = s.clampRpt := rfl
@[simp] theorem State.setPin_swapRpt (s : State) (p : Fin 8) (v : EvtPin) : (s.setPin p v).swapRpt = s.swapRpt := rfl
@[simp] theorem State.setPin_keys (s : State) (p : Fin 8) (v : EvtPin) : (s.setPin p v).keys = s.keys := rfl
@[simp] theorem State.setPin_keyInstall (s : State) (p : Fin 8) (v : EvtPin) : (s.setPin p v).keyInstall = s.keyInstall := rfl
@[simp] theorem State.setPin_wardStep (s : State) (p : Fin 8) (v : EvtPin) : (s.setPin p v).wardStep = s.wardStep := rfl
@[simp] theorem State.setPin_lamp (s : State) (p : Fin 8) (v : EvtPin) : (s.setPin p v).lamp = s.lamp := rfl
@[simp] theorem State.setPin_storeServed (s : State) (p : Fin 8) (v : EvtPin) : (s.setPin p v).storeServed = s.storeServed := rfl
@[simp] theorem State.setPin_dispatchServed (s : State) (p : Fin 8) (v : EvtPin) : (s.setPin p v).dispatchServed = s.dispatchServed := rfl
@[simp] theorem State.setPin_gwQueue (s : State) (p : Fin 8) (v : EvtPin) : (s.setPin p v).gwQueue = s.gwQueue := rfl
@[simp] theorem State.setPin_arrivals (s : State) (p : Fin 8) (v : EvtPin) : (s.setPin p v).arrivals = s.arrivals := rfl
@[simp] theorem State.setPin_pins (s : State) (p : Fin 8) (v : EvtPin) : (s.setPin p v).pins = s.pins.put EvtPin.init p.val v := rfl
@[simp] theorem State.setPin_net (s : State) (p : Fin 8) (v : EvtPin) : (s.setPin p v).net = s.net := rfl
@[simp] theorem State.setPin_gateBufs (s : State) (p : Fin 8) (v : EvtPin) : (s.setPin p v).gateBufs = s.gateBufs := rfl
@[simp] theorem State.setPin_engines (s : State) (p : Fin 8) (v : EvtPin) : (s.setPin p v).engines = s.engines := rfl
@[simp] theorem State.setPin_quarters (s : State) (p : Fin 8) (v : EvtPin) : (s.setPin p v).quarters = s.quarters := rfl
@[simp] theorem State.setPin_homes (s : State) (p : Fin 8) (v : EvtPin) : (s.setPin p v).homes = s.homes := rfl
@[simp] theorem State.setPin_dram (s : State) (p : Fin 8) (v : EvtPin) : (s.setPin p v).dram = s.dram := rfl
@[simp] theorem State.setPin_sigs (s : State) (p : Fin 8) (v : EvtPin) : (s.setPin p v).sigs = s.sigs := rfl
@[simp] theorem State.setPin_symErrs (s : State) (p : Fin 8) (v : EvtPin) : (s.setPin p v).symErrs = s.symErrs := rfl
@[simp] theorem State.setPin_ages (s : State) (p : Fin 8) (v : EvtPin) : (s.setPin p v).ages = s.ages := rfl
@[simp] theorem State.setPin_scrub (s : State) (p : Fin 8) (v : EvtPin) : (s.setPin p v).scrub = s.scrub := rfl
@[simp] theorem State.setPin_ledger (s : State) (p : Fin 8) (v : EvtPin) : (s.setPin p v).ledger = s.ledger := rfl
@[simp] theorem State.setPin_link (s : State) (p : Fin 8) (v : EvtPin) : (s.setPin p v).link = s.link := rfl
@[simp] theorem State.setPin_logQueue (s : State) (p : Fin 8) (v : EvtPin) : (s.setPin p v).logQueue = s.logQueue := rfl
@[simp] theorem State.setPin_logNextSeq (s : State) (p : Fin 8) (v : EvtPin) : (s.setPin p v).logNextSeq = s.logNextSeq := rfl
@[simp] theorem State.setPin_logNextSlot (s : State) (p : Fin 8) (v : EvtPin) : (s.setPin p v).logNextSlot = s.logNextSlot := rfl
@[simp] theorem State.setPin_mgmt (s : State) (p : Fin 8) (v : EvtPin) : (s.setPin p v).mgmt = s.mgmt := rfl
@[simp] theorem State.setPin_lantern (s : State) (p : Fin 8) (v : EvtPin) : (s.setPin p v).lantern = s.lantern := rfl

/-! ### setGateBuf -/

@[simp] theorem State.setGateBuf_pending (s : State) (g : Nat) (v : List Packet) : (s.setGateBuf g v).pending = s.pending := rfl
@[simp] theorem State.setGateBuf_supTime (s : State) (g : Nat) (v : List Packet) : (s.setGateBuf g v).supTime = s.supTime := rfl
@[simp] theorem State.setGateBuf_tickCount (s : State) (g : Nat) (v : List Packet) : (s.setGateBuf g v).tickCount = s.tickCount := rfl
@[simp] theorem State.setGateBuf_tickPeriod (s : State) (g : Nat) (v : List Packet) : (s.setGateBuf g v).tickPeriod = s.tickPeriod := rfl
@[simp] theorem State.setGateBuf_freeCtr (s : State) (g : Nat) (v : List Packet) : (s.setGateBuf g v).freeCtr = s.freeCtr := rfl
@[simp] theorem State.setGateBuf_out (s : State) (g : Nat) (v : List Packet) : (s.setGateBuf g v).out = s.out := rfl
@[simp] theorem State.setGateBuf_fld (s : State) (g : Nat) (v : List Packet) : (s.setGateBuf g v).fld = s.fld := rfl
@[simp] theorem State.setGateBuf_fuses (s : State) (g : Nat) (v : List Packet) : (s.setGateBuf g v).fuses = s.fuses := rfl
@[simp] theorem State.setGateBuf_power (s : State) (g : Nat) (v : List Packet) : (s.setGateBuf g v).power = s.power := rfl
@[simp] theorem State.setGateBuf_ready (s : State) (g : Nat) (v : List Packet) : (s.setGateBuf g v).ready = s.ready := rfl
@[simp] theorem State.setGateBuf_thermtrip (s : State) (g : Nat) (v : List Packet) : (s.setGateBuf g v).thermtrip = s.thermtrip := rfl
@[simp] theorem State.setGateBuf_wake (s : State) (g : Nat) (v : List Packet) : (s.setGateBuf g v).wake = s.wake := rfl
@[simp] theorem State.setGateBuf_smbAlert (s : State) (g : Nat) (v : List Packet) : (s.setGateBuf g v).smbAlert = s.smbAlert := rfl
@[simp] theorem State.setGateBuf_flash (s : State) (g : Nat) (v : List Packet) : (s.setGateBuf g v).flash = s.flash := rfl
@[simp] theorem State.setGateBuf_tiles (s : State) (g : Nat) (v : List Packet) : (s.setGateBuf g v).tiles = s.tiles := rfl
@[simp] theorem State.setGateBuf_plan (s : State) (g : Nat) (v : List Packet) : (s.setGateBuf g v).plan = s.plan := rfl
@[simp] theorem State.setGateBuf_job (s : State) (g : Nat) (v : List Packet) : (s.setGateBuf g v).job = s.job := rfl
@[simp] theorem State.setGateBuf_clampRpt (s : State) (g : Nat) (v : List Packet) : (s.setGateBuf g v).clampRpt = s.clampRpt := rfl
@[simp] theorem State.setGateBuf_swapRpt (s : State) (g : Nat) (v : List Packet) : (s.setGateBuf g v).swapRpt = s.swapRpt := rfl
@[simp] theorem State.setGateBuf_keys (s : State) (g : Nat) (v : List Packet) : (s.setGateBuf g v).keys = s.keys := rfl
@[simp] theorem State.setGateBuf_keyInstall (s : State) (g : Nat) (v : List Packet) : (s.setGateBuf g v).keyInstall = s.keyInstall := rfl
@[simp] theorem State.setGateBuf_wardStep (s : State) (g : Nat) (v : List Packet) : (s.setGateBuf g v).wardStep = s.wardStep := rfl
@[simp] theorem State.setGateBuf_lamp (s : State) (g : Nat) (v : List Packet) : (s.setGateBuf g v).lamp = s.lamp := rfl
@[simp] theorem State.setGateBuf_storeServed (s : State) (g : Nat) (v : List Packet) : (s.setGateBuf g v).storeServed = s.storeServed := rfl
@[simp] theorem State.setGateBuf_dispatchServed (s : State) (g : Nat) (v : List Packet) : (s.setGateBuf g v).dispatchServed = s.dispatchServed := rfl
@[simp] theorem State.setGateBuf_gwQueue (s : State) (g : Nat) (v : List Packet) : (s.setGateBuf g v).gwQueue = s.gwQueue := rfl
@[simp] theorem State.setGateBuf_arrivals (s : State) (g : Nat) (v : List Packet) : (s.setGateBuf g v).arrivals = s.arrivals := rfl
@[simp] theorem State.setGateBuf_pins (s : State) (g : Nat) (v : List Packet) : (s.setGateBuf g v).pins = s.pins := rfl
@[simp] theorem State.setGateBuf_net (s : State) (g : Nat) (v : List Packet) : (s.setGateBuf g v).net = s.net := rfl
@[simp] theorem State.setGateBuf_gateBufs (s : State) (g : Nat) (v : List Packet) : (s.setGateBuf g v).gateBufs = s.gateBufs.put [] g v := rfl
@[simp] theorem State.setGateBuf_engines (s : State) (g : Nat) (v : List Packet) : (s.setGateBuf g v).engines = s.engines := rfl
@[simp] theorem State.setGateBuf_quarters (s : State) (g : Nat) (v : List Packet) : (s.setGateBuf g v).quarters = s.quarters := rfl
@[simp] theorem State.setGateBuf_homes (s : State) (g : Nat) (v : List Packet) : (s.setGateBuf g v).homes = s.homes := rfl
@[simp] theorem State.setGateBuf_dram (s : State) (g : Nat) (v : List Packet) : (s.setGateBuf g v).dram = s.dram := rfl
@[simp] theorem State.setGateBuf_sigs (s : State) (g : Nat) (v : List Packet) : (s.setGateBuf g v).sigs = s.sigs := rfl
@[simp] theorem State.setGateBuf_symErrs (s : State) (g : Nat) (v : List Packet) : (s.setGateBuf g v).symErrs = s.symErrs := rfl
@[simp] theorem State.setGateBuf_ages (s : State) (g : Nat) (v : List Packet) : (s.setGateBuf g v).ages = s.ages := rfl
@[simp] theorem State.setGateBuf_scrub (s : State) (g : Nat) (v : List Packet) : (s.setGateBuf g v).scrub = s.scrub := rfl
@[simp] theorem State.setGateBuf_ledger (s : State) (g : Nat) (v : List Packet) : (s.setGateBuf g v).ledger = s.ledger := rfl
@[simp] theorem State.setGateBuf_link (s : State) (g : Nat) (v : List Packet) : (s.setGateBuf g v).link = s.link := rfl
@[simp] theorem State.setGateBuf_logQueue (s : State) (g : Nat) (v : List Packet) : (s.setGateBuf g v).logQueue = s.logQueue := rfl
@[simp] theorem State.setGateBuf_logNextSeq (s : State) (g : Nat) (v : List Packet) : (s.setGateBuf g v).logNextSeq = s.logNextSeq := rfl
@[simp] theorem State.setGateBuf_logNextSlot (s : State) (g : Nat) (v : List Packet) : (s.setGateBuf g v).logNextSlot = s.logNextSlot := rfl
@[simp] theorem State.setGateBuf_mgmt (s : State) (g : Nat) (v : List Packet) : (s.setGateBuf g v).mgmt = s.mgmt := rfl
@[simp] theorem State.setGateBuf_lantern (s : State) (g : Nat) (v : List Packet) : (s.setGateBuf g v).lantern = s.lantern := rfl

/-! ### setF -/

@[simp] theorem State.setF_pending (s : State) (f : Fld) (v : Nat) : (s.setF f v).pending = s.pending := rfl
@[simp] theorem State.setF_supTime (s : State) (f : Fld) (v : Nat) : (s.setF f v).supTime = s.supTime := rfl
@[simp] theorem State.setF_tickCount (s : State) (f : Fld) (v : Nat) : (s.setF f v).tickCount = s.tickCount := rfl
@[simp] theorem State.setF_tickPeriod (s : State) (f : Fld) (v : Nat) : (s.setF f v).tickPeriod = s.tickPeriod := rfl
@[simp] theorem State.setF_freeCtr (s : State) (f : Fld) (v : Nat) : (s.setF f v).freeCtr = s.freeCtr := rfl
@[simp] theorem State.setF_out (s : State) (f : Fld) (v : Nat) : (s.setF f v).out = s.out := rfl
@[simp] theorem State.setF_fld (s : State) (f : Fld) (v : Nat) : (s.setF f v).fld = s.fld.put (fldReset f.key) f.key (v % 2 ^ f.w) := rfl
@[simp] theorem State.setF_fuses (s : State) (f : Fld) (v : Nat) : (s.setF f v).fuses = s.fuses := rfl
@[simp] theorem State.setF_power (s : State) (f : Fld) (v : Nat) : (s.setF f v).power = s.power := rfl
@[simp] theorem State.setF_ready (s : State) (f : Fld) (v : Nat) : (s.setF f v).ready = s.ready := rfl
@[simp] theorem State.setF_thermtrip (s : State) (f : Fld) (v : Nat) : (s.setF f v).thermtrip = s.thermtrip := rfl
@[simp] theorem State.setF_wake (s : State) (f : Fld) (v : Nat) : (s.setF f v).wake = s.wake := rfl
@[simp] theorem State.setF_smbAlert (s : State) (f : Fld) (v : Nat) : (s.setF f v).smbAlert = s.smbAlert := rfl
@[simp] theorem State.setF_flash (s : State) (f : Fld) (v : Nat) : (s.setF f v).flash = s.flash := rfl
@[simp] theorem State.setF_tiles (s : State) (f : Fld) (v : Nat) : (s.setF f v).tiles = s.tiles := rfl
@[simp] theorem State.setF_plan (s : State) (f : Fld) (v : Nat) : (s.setF f v).plan = s.plan := rfl
@[simp] theorem State.setF_job (s : State) (f : Fld) (v : Nat) : (s.setF f v).job = s.job := rfl
@[simp] theorem State.setF_clampRpt (s : State) (f : Fld) (v : Nat) : (s.setF f v).clampRpt = s.clampRpt := rfl
@[simp] theorem State.setF_swapRpt (s : State) (f : Fld) (v : Nat) : (s.setF f v).swapRpt = s.swapRpt := rfl
@[simp] theorem State.setF_keys (s : State) (f : Fld) (v : Nat) : (s.setF f v).keys = s.keys := rfl
@[simp] theorem State.setF_keyInstall (s : State) (f : Fld) (v : Nat) : (s.setF f v).keyInstall = s.keyInstall := rfl
@[simp] theorem State.setF_wardStep (s : State) (f : Fld) (v : Nat) : (s.setF f v).wardStep = s.wardStep := rfl
@[simp] theorem State.setF_lamp (s : State) (f : Fld) (v : Nat) : (s.setF f v).lamp = s.lamp := rfl
@[simp] theorem State.setF_storeServed (s : State) (f : Fld) (v : Nat) : (s.setF f v).storeServed = s.storeServed := rfl
@[simp] theorem State.setF_dispatchServed (s : State) (f : Fld) (v : Nat) : (s.setF f v).dispatchServed = s.dispatchServed := rfl
@[simp] theorem State.setF_gwQueue (s : State) (f : Fld) (v : Nat) : (s.setF f v).gwQueue = s.gwQueue := rfl
@[simp] theorem State.setF_arrivals (s : State) (f : Fld) (v : Nat) : (s.setF f v).arrivals = s.arrivals := rfl
@[simp] theorem State.setF_pins (s : State) (f : Fld) (v : Nat) : (s.setF f v).pins = s.pins := rfl
@[simp] theorem State.setF_net (s : State) (f : Fld) (v : Nat) : (s.setF f v).net = s.net := rfl
@[simp] theorem State.setF_gateBufs (s : State) (f : Fld) (v : Nat) : (s.setF f v).gateBufs = s.gateBufs := rfl
@[simp] theorem State.setF_engines (s : State) (f : Fld) (v : Nat) : (s.setF f v).engines = s.engines := rfl
@[simp] theorem State.setF_quarters (s : State) (f : Fld) (v : Nat) : (s.setF f v).quarters = s.quarters := rfl
@[simp] theorem State.setF_homes (s : State) (f : Fld) (v : Nat) : (s.setF f v).homes = s.homes := rfl
@[simp] theorem State.setF_dram (s : State) (f : Fld) (v : Nat) : (s.setF f v).dram = s.dram := rfl
@[simp] theorem State.setF_sigs (s : State) (f : Fld) (v : Nat) : (s.setF f v).sigs = s.sigs := rfl
@[simp] theorem State.setF_symErrs (s : State) (f : Fld) (v : Nat) : (s.setF f v).symErrs = s.symErrs := rfl
@[simp] theorem State.setF_ages (s : State) (f : Fld) (v : Nat) : (s.setF f v).ages = s.ages := rfl
@[simp] theorem State.setF_scrub (s : State) (f : Fld) (v : Nat) : (s.setF f v).scrub = s.scrub := rfl
@[simp] theorem State.setF_ledger (s : State) (f : Fld) (v : Nat) : (s.setF f v).ledger = s.ledger := rfl
@[simp] theorem State.setF_link (s : State) (f : Fld) (v : Nat) : (s.setF f v).link = s.link := rfl
@[simp] theorem State.setF_logQueue (s : State) (f : Fld) (v : Nat) : (s.setF f v).logQueue = s.logQueue := rfl
@[simp] theorem State.setF_logNextSeq (s : State) (f : Fld) (v : Nat) : (s.setF f v).logNextSeq = s.logNextSeq := rfl
@[simp] theorem State.setF_logNextSlot (s : State) (f : Fld) (v : Nat) : (s.setF f v).logNextSlot = s.logNextSlot := rfl
@[simp] theorem State.setF_mgmt (s : State) (f : Fld) (v : Nat) : (s.setF f v).mgmt = s.mgmt := rfl
@[simp] theorem State.setF_lantern (s : State) (f : Fld) (v : Nat) : (s.setF f v).lantern = s.lantern := rfl

/-! ### setB -/

@[simp] theorem State.setB_pending (s : State) (f : Fld) (b : Bool) : (s.setB f b).pending = s.pending := rfl
@[simp] theorem State.setB_supTime (s : State) (f : Fld) (b : Bool) : (s.setB f b).supTime = s.supTime := rfl
@[simp] theorem State.setB_tickCount (s : State) (f : Fld) (b : Bool) : (s.setB f b).tickCount = s.tickCount := rfl
@[simp] theorem State.setB_tickPeriod (s : State) (f : Fld) (b : Bool) : (s.setB f b).tickPeriod = s.tickPeriod := rfl
@[simp] theorem State.setB_freeCtr (s : State) (f : Fld) (b : Bool) : (s.setB f b).freeCtr = s.freeCtr := rfl
@[simp] theorem State.setB_out (s : State) (f : Fld) (b : Bool) : (s.setB f b).out = s.out := rfl
@[simp] theorem State.setB_fld (s : State) (f : Fld) (b : Bool) : (s.setB f b).fld = s.fld.put (fldReset f.key) f.key (bN b % 2 ^ f.w) := rfl
@[simp] theorem State.setB_fuses (s : State) (f : Fld) (b : Bool) : (s.setB f b).fuses = s.fuses := rfl
@[simp] theorem State.setB_power (s : State) (f : Fld) (b : Bool) : (s.setB f b).power = s.power := rfl
@[simp] theorem State.setB_ready (s : State) (f : Fld) (b : Bool) : (s.setB f b).ready = s.ready := rfl
@[simp] theorem State.setB_thermtrip (s : State) (f : Fld) (b : Bool) : (s.setB f b).thermtrip = s.thermtrip := rfl
@[simp] theorem State.setB_wake (s : State) (f : Fld) (b : Bool) : (s.setB f b).wake = s.wake := rfl
@[simp] theorem State.setB_smbAlert (s : State) (f : Fld) (b : Bool) : (s.setB f b).smbAlert = s.smbAlert := rfl
@[simp] theorem State.setB_flash (s : State) (f : Fld) (b : Bool) : (s.setB f b).flash = s.flash := rfl
@[simp] theorem State.setB_tiles (s : State) (f : Fld) (b : Bool) : (s.setB f b).tiles = s.tiles := rfl
@[simp] theorem State.setB_plan (s : State) (f : Fld) (b : Bool) : (s.setB f b).plan = s.plan := rfl
@[simp] theorem State.setB_job (s : State) (f : Fld) (b : Bool) : (s.setB f b).job = s.job := rfl
@[simp] theorem State.setB_clampRpt (s : State) (f : Fld) (b : Bool) : (s.setB f b).clampRpt = s.clampRpt := rfl
@[simp] theorem State.setB_swapRpt (s : State) (f : Fld) (b : Bool) : (s.setB f b).swapRpt = s.swapRpt := rfl
@[simp] theorem State.setB_keys (s : State) (f : Fld) (b : Bool) : (s.setB f b).keys = s.keys := rfl
@[simp] theorem State.setB_keyInstall (s : State) (f : Fld) (b : Bool) : (s.setB f b).keyInstall = s.keyInstall := rfl
@[simp] theorem State.setB_wardStep (s : State) (f : Fld) (b : Bool) : (s.setB f b).wardStep = s.wardStep := rfl
@[simp] theorem State.setB_lamp (s : State) (f : Fld) (b : Bool) : (s.setB f b).lamp = s.lamp := rfl
@[simp] theorem State.setB_storeServed (s : State) (f : Fld) (b : Bool) : (s.setB f b).storeServed = s.storeServed := rfl
@[simp] theorem State.setB_dispatchServed (s : State) (f : Fld) (b : Bool) : (s.setB f b).dispatchServed = s.dispatchServed := rfl
@[simp] theorem State.setB_gwQueue (s : State) (f : Fld) (b : Bool) : (s.setB f b).gwQueue = s.gwQueue := rfl
@[simp] theorem State.setB_arrivals (s : State) (f : Fld) (b : Bool) : (s.setB f b).arrivals = s.arrivals := rfl
@[simp] theorem State.setB_pins (s : State) (f : Fld) (b : Bool) : (s.setB f b).pins = s.pins := rfl
@[simp] theorem State.setB_net (s : State) (f : Fld) (b : Bool) : (s.setB f b).net = s.net := rfl
@[simp] theorem State.setB_gateBufs (s : State) (f : Fld) (b : Bool) : (s.setB f b).gateBufs = s.gateBufs := rfl
@[simp] theorem State.setB_engines (s : State) (f : Fld) (b : Bool) : (s.setB f b).engines = s.engines := rfl
@[simp] theorem State.setB_quarters (s : State) (f : Fld) (b : Bool) : (s.setB f b).quarters = s.quarters := rfl
@[simp] theorem State.setB_homes (s : State) (f : Fld) (b : Bool) : (s.setB f b).homes = s.homes := rfl
@[simp] theorem State.setB_dram (s : State) (f : Fld) (b : Bool) : (s.setB f b).dram = s.dram := rfl
@[simp] theorem State.setB_sigs (s : State) (f : Fld) (b : Bool) : (s.setB f b).sigs = s.sigs := rfl
@[simp] theorem State.setB_symErrs (s : State) (f : Fld) (b : Bool) : (s.setB f b).symErrs = s.symErrs := rfl
@[simp] theorem State.setB_ages (s : State) (f : Fld) (b : Bool) : (s.setB f b).ages = s.ages := rfl
@[simp] theorem State.setB_scrub (s : State) (f : Fld) (b : Bool) : (s.setB f b).scrub = s.scrub := rfl
@[simp] theorem State.setB_ledger (s : State) (f : Fld) (b : Bool) : (s.setB f b).ledger = s.ledger := rfl
@[simp] theorem State.setB_link (s : State) (f : Fld) (b : Bool) : (s.setB f b).link = s.link := rfl
@[simp] theorem State.setB_logQueue (s : State) (f : Fld) (b : Bool) : (s.setB f b).logQueue = s.logQueue := rfl
@[simp] theorem State.setB_logNextSeq (s : State) (f : Fld) (b : Bool) : (s.setB f b).logNextSeq = s.logNextSeq := rfl
@[simp] theorem State.setB_logNextSlot (s : State) (f : Fld) (b : Bool) : (s.setB f b).logNextSlot = s.logNextSlot := rfl
@[simp] theorem State.setB_mgmt (s : State) (f : Fld) (b : Bool) : (s.setB f b).mgmt = s.mgmt := rfl
@[simp] theorem State.setB_lantern (s : State) (f : Fld) (b : Bool) : (s.setB f b).lantern = s.lantern := rfl

/-! ### bumpF -/

@[simp] theorem State.bumpF_pending (s : State) (f : Fld) (k : Nat) : (s.bumpF f k).pending = s.pending := rfl
@[simp] theorem State.bumpF_supTime (s : State) (f : Fld) (k : Nat) : (s.bumpF f k).supTime = s.supTime := rfl
@[simp] theorem State.bumpF_tickCount (s : State) (f : Fld) (k : Nat) : (s.bumpF f k).tickCount = s.tickCount := rfl
@[simp] theorem State.bumpF_tickPeriod (s : State) (f : Fld) (k : Nat) : (s.bumpF f k).tickPeriod = s.tickPeriod := rfl
@[simp] theorem State.bumpF_freeCtr (s : State) (f : Fld) (k : Nat) : (s.bumpF f k).freeCtr = s.freeCtr := rfl
@[simp] theorem State.bumpF_out (s : State) (f : Fld) (k : Nat) : (s.bumpF f k).out = s.out := rfl
@[simp] theorem State.bumpF_fld (s : State) (f : Fld) (k : Nat) : (s.bumpF f k).fld = s.fld.put (fldReset f.key) f.key (min (2 ^ f.w - 1) (s.getF f + k) % 2 ^ f.w) := rfl
@[simp] theorem State.bumpF_fuses (s : State) (f : Fld) (k : Nat) : (s.bumpF f k).fuses = s.fuses := rfl
@[simp] theorem State.bumpF_power (s : State) (f : Fld) (k : Nat) : (s.bumpF f k).power = s.power := rfl
@[simp] theorem State.bumpF_ready (s : State) (f : Fld) (k : Nat) : (s.bumpF f k).ready = s.ready := rfl
@[simp] theorem State.bumpF_thermtrip (s : State) (f : Fld) (k : Nat) : (s.bumpF f k).thermtrip = s.thermtrip := rfl
@[simp] theorem State.bumpF_wake (s : State) (f : Fld) (k : Nat) : (s.bumpF f k).wake = s.wake := rfl
@[simp] theorem State.bumpF_smbAlert (s : State) (f : Fld) (k : Nat) : (s.bumpF f k).smbAlert = s.smbAlert := rfl
@[simp] theorem State.bumpF_flash (s : State) (f : Fld) (k : Nat) : (s.bumpF f k).flash = s.flash := rfl
@[simp] theorem State.bumpF_tiles (s : State) (f : Fld) (k : Nat) : (s.bumpF f k).tiles = s.tiles := rfl
@[simp] theorem State.bumpF_plan (s : State) (f : Fld) (k : Nat) : (s.bumpF f k).plan = s.plan := rfl
@[simp] theorem State.bumpF_job (s : State) (f : Fld) (k : Nat) : (s.bumpF f k).job = s.job := rfl
@[simp] theorem State.bumpF_clampRpt (s : State) (f : Fld) (k : Nat) : (s.bumpF f k).clampRpt = s.clampRpt := rfl
@[simp] theorem State.bumpF_swapRpt (s : State) (f : Fld) (k : Nat) : (s.bumpF f k).swapRpt = s.swapRpt := rfl
@[simp] theorem State.bumpF_keys (s : State) (f : Fld) (k : Nat) : (s.bumpF f k).keys = s.keys := rfl
@[simp] theorem State.bumpF_keyInstall (s : State) (f : Fld) (k : Nat) : (s.bumpF f k).keyInstall = s.keyInstall := rfl
@[simp] theorem State.bumpF_wardStep (s : State) (f : Fld) (k : Nat) : (s.bumpF f k).wardStep = s.wardStep := rfl
@[simp] theorem State.bumpF_lamp (s : State) (f : Fld) (k : Nat) : (s.bumpF f k).lamp = s.lamp := rfl
@[simp] theorem State.bumpF_storeServed (s : State) (f : Fld) (k : Nat) : (s.bumpF f k).storeServed = s.storeServed := rfl
@[simp] theorem State.bumpF_dispatchServed (s : State) (f : Fld) (k : Nat) : (s.bumpF f k).dispatchServed = s.dispatchServed := rfl
@[simp] theorem State.bumpF_gwQueue (s : State) (f : Fld) (k : Nat) : (s.bumpF f k).gwQueue = s.gwQueue := rfl
@[simp] theorem State.bumpF_arrivals (s : State) (f : Fld) (k : Nat) : (s.bumpF f k).arrivals = s.arrivals := rfl
@[simp] theorem State.bumpF_pins (s : State) (f : Fld) (k : Nat) : (s.bumpF f k).pins = s.pins := rfl
@[simp] theorem State.bumpF_net (s : State) (f : Fld) (k : Nat) : (s.bumpF f k).net = s.net := rfl
@[simp] theorem State.bumpF_gateBufs (s : State) (f : Fld) (k : Nat) : (s.bumpF f k).gateBufs = s.gateBufs := rfl
@[simp] theorem State.bumpF_engines (s : State) (f : Fld) (k : Nat) : (s.bumpF f k).engines = s.engines := rfl
@[simp] theorem State.bumpF_quarters (s : State) (f : Fld) (k : Nat) : (s.bumpF f k).quarters = s.quarters := rfl
@[simp] theorem State.bumpF_homes (s : State) (f : Fld) (k : Nat) : (s.bumpF f k).homes = s.homes := rfl
@[simp] theorem State.bumpF_dram (s : State) (f : Fld) (k : Nat) : (s.bumpF f k).dram = s.dram := rfl
@[simp] theorem State.bumpF_sigs (s : State) (f : Fld) (k : Nat) : (s.bumpF f k).sigs = s.sigs := rfl
@[simp] theorem State.bumpF_symErrs (s : State) (f : Fld) (k : Nat) : (s.bumpF f k).symErrs = s.symErrs := rfl
@[simp] theorem State.bumpF_ages (s : State) (f : Fld) (k : Nat) : (s.bumpF f k).ages = s.ages := rfl
@[simp] theorem State.bumpF_scrub (s : State) (f : Fld) (k : Nat) : (s.bumpF f k).scrub = s.scrub := rfl
@[simp] theorem State.bumpF_ledger (s : State) (f : Fld) (k : Nat) : (s.bumpF f k).ledger = s.ledger := rfl
@[simp] theorem State.bumpF_link (s : State) (f : Fld) (k : Nat) : (s.bumpF f k).link = s.link := rfl
@[simp] theorem State.bumpF_logQueue (s : State) (f : Fld) (k : Nat) : (s.bumpF f k).logQueue = s.logQueue := rfl
@[simp] theorem State.bumpF_logNextSeq (s : State) (f : Fld) (k : Nat) : (s.bumpF f k).logNextSeq = s.logNextSeq := rfl
@[simp] theorem State.bumpF_logNextSlot (s : State) (f : Fld) (k : Nat) : (s.bumpF f k).logNextSlot = s.logNextSlot := rfl
@[simp] theorem State.bumpF_mgmt (s : State) (f : Fld) (k : Nat) : (s.bumpF f k).mgmt = s.mgmt := rfl
@[simp] theorem State.bumpF_lantern (s : State) (f : Fld) (k : Nat) : (s.bumpF f k).lantern = s.lantern := rfl

/-! ### setEntry -/

@[simp] theorem State.setEntry_pending (s : State) (x : Nat) (e : Option LEntry) : (s.setEntry x e).pending = s.pending := rfl
@[simp] theorem State.setEntry_supTime (s : State) (x : Nat) (e : Option LEntry) : (s.setEntry x e).supTime = s.supTime := rfl
@[simp] theorem State.setEntry_tickCount (s : State) (x : Nat) (e : Option LEntry) : (s.setEntry x e).tickCount = s.tickCount := rfl
@[simp] theorem State.setEntry_tickPeriod (s : State) (x : Nat) (e : Option LEntry) : (s.setEntry x e).tickPeriod = s.tickPeriod := rfl
@[simp] theorem State.setEntry_freeCtr (s : State) (x : Nat) (e : Option LEntry) : (s.setEntry x e).freeCtr = s.freeCtr := rfl
@[simp] theorem State.setEntry_out (s : State) (x : Nat) (e : Option LEntry) : (s.setEntry x e).out = s.out := rfl
@[simp] theorem State.setEntry_fld (s : State) (x : Nat) (e : Option LEntry) : (s.setEntry x e).fld = s.fld := rfl
@[simp] theorem State.setEntry_fuses (s : State) (x : Nat) (e : Option LEntry) : (s.setEntry x e).fuses = s.fuses := rfl
@[simp] theorem State.setEntry_power (s : State) (x : Nat) (e : Option LEntry) : (s.setEntry x e).power = s.power := rfl
@[simp] theorem State.setEntry_ready (s : State) (x : Nat) (e : Option LEntry) : (s.setEntry x e).ready = s.ready := rfl
@[simp] theorem State.setEntry_thermtrip (s : State) (x : Nat) (e : Option LEntry) : (s.setEntry x e).thermtrip = s.thermtrip := rfl
@[simp] theorem State.setEntry_wake (s : State) (x : Nat) (e : Option LEntry) : (s.setEntry x e).wake = s.wake := rfl
@[simp] theorem State.setEntry_smbAlert (s : State) (x : Nat) (e : Option LEntry) : (s.setEntry x e).smbAlert = s.smbAlert := rfl
@[simp] theorem State.setEntry_flash (s : State) (x : Nat) (e : Option LEntry) : (s.setEntry x e).flash = s.flash := rfl
@[simp] theorem State.setEntry_tiles (s : State) (x : Nat) (e : Option LEntry) : (s.setEntry x e).tiles = s.tiles := rfl
@[simp] theorem State.setEntry_plan (s : State) (x : Nat) (e : Option LEntry) : (s.setEntry x e).plan = s.plan := rfl
@[simp] theorem State.setEntry_job (s : State) (x : Nat) (e : Option LEntry) : (s.setEntry x e).job = s.job := rfl
@[simp] theorem State.setEntry_clampRpt (s : State) (x : Nat) (e : Option LEntry) : (s.setEntry x e).clampRpt = s.clampRpt := rfl
@[simp] theorem State.setEntry_swapRpt (s : State) (x : Nat) (e : Option LEntry) : (s.setEntry x e).swapRpt = s.swapRpt := rfl
@[simp] theorem State.setEntry_keys (s : State) (x : Nat) (e : Option LEntry) : (s.setEntry x e).keys = s.keys := rfl
@[simp] theorem State.setEntry_keyInstall (s : State) (x : Nat) (e : Option LEntry) : (s.setEntry x e).keyInstall = s.keyInstall := rfl
@[simp] theorem State.setEntry_wardStep (s : State) (x : Nat) (e : Option LEntry) : (s.setEntry x e).wardStep = s.wardStep := rfl
@[simp] theorem State.setEntry_lamp (s : State) (x : Nat) (e : Option LEntry) : (s.setEntry x e).lamp = s.lamp := rfl
@[simp] theorem State.setEntry_storeServed (s : State) (x : Nat) (e : Option LEntry) : (s.setEntry x e).storeServed = s.storeServed := rfl
@[simp] theorem State.setEntry_dispatchServed (s : State) (x : Nat) (e : Option LEntry) : (s.setEntry x e).dispatchServed = s.dispatchServed := rfl
@[simp] theorem State.setEntry_gwQueue (s : State) (x : Nat) (e : Option LEntry) : (s.setEntry x e).gwQueue = s.gwQueue := rfl
@[simp] theorem State.setEntry_arrivals (s : State) (x : Nat) (e : Option LEntry) : (s.setEntry x e).arrivals = s.arrivals := rfl
@[simp] theorem State.setEntry_pins (s : State) (x : Nat) (e : Option LEntry) : (s.setEntry x e).pins = s.pins := rfl
@[simp] theorem State.setEntry_net (s : State) (x : Nat) (e : Option LEntry) : (s.setEntry x e).net = s.net := rfl
@[simp] theorem State.setEntry_gateBufs (s : State) (x : Nat) (e : Option LEntry) : (s.setEntry x e).gateBufs = s.gateBufs := rfl
@[simp] theorem State.setEntry_engines (s : State) (x : Nat) (e : Option LEntry) : (s.setEntry x e).engines = s.engines := rfl
@[simp] theorem State.setEntry_quarters (s : State) (x : Nat) (e : Option LEntry) : (s.setEntry x e).quarters = s.quarters := rfl
@[simp] theorem State.setEntry_homes (s : State) (x : Nat) (e : Option LEntry) : (s.setEntry x e).homes = s.homes := rfl
@[simp] theorem State.setEntry_dram (s : State) (x : Nat) (e : Option LEntry) : (s.setEntry x e).dram = s.dram := rfl
@[simp] theorem State.setEntry_sigs (s : State) (x : Nat) (e : Option LEntry) : (s.setEntry x e).sigs = s.sigs := rfl
@[simp] theorem State.setEntry_symErrs (s : State) (x : Nat) (e : Option LEntry) : (s.setEntry x e).symErrs = s.symErrs := rfl
@[simp] theorem State.setEntry_ages (s : State) (x : Nat) (e : Option LEntry) : (s.setEntry x e).ages = s.ages := rfl
@[simp] theorem State.setEntry_scrub (s : State) (x : Nat) (e : Option LEntry) : (s.setEntry x e).scrub = s.scrub := rfl
@[simp] theorem State.setEntry_ledger (s : State) (x : Nat) (e : Option LEntry) : (s.setEntry x e).ledger = { s.ledger with entries := s.ledger.entries.put none x e } := rfl
@[simp] theorem State.setEntry_link (s : State) (x : Nat) (e : Option LEntry) : (s.setEntry x e).link = s.link := rfl
@[simp] theorem State.setEntry_logQueue (s : State) (x : Nat) (e : Option LEntry) : (s.setEntry x e).logQueue = s.logQueue := rfl
@[simp] theorem State.setEntry_logNextSeq (s : State) (x : Nat) (e : Option LEntry) : (s.setEntry x e).logNextSeq = s.logNextSeq := rfl
@[simp] theorem State.setEntry_logNextSlot (s : State) (x : Nat) (e : Option LEntry) : (s.setEntry x e).logNextSlot = s.logNextSlot := rfl
@[simp] theorem State.setEntry_mgmt (s : State) (x : Nat) (e : Option LEntry) : (s.setEntry x e).mgmt = s.mgmt := rfl
@[simp] theorem State.setEntry_lantern (s : State) (x : Nat) (e : Option LEntry) : (s.setEntry x e).lantern = s.lantern := rfl

/-! ### emit -/

@[simp] theorem State.emit_pending (s : State) (o : Out) : (s.emit o).pending = s.pending := rfl
@[simp] theorem State.emit_supTime (s : State) (o : Out) : (s.emit o).supTime = s.supTime := rfl
@[simp] theorem State.emit_tickCount (s : State) (o : Out) : (s.emit o).tickCount = s.tickCount := rfl
@[simp] theorem State.emit_tickPeriod (s : State) (o : Out) : (s.emit o).tickPeriod = s.tickPeriod := rfl
@[simp] theorem State.emit_freeCtr (s : State) (o : Out) : (s.emit o).freeCtr = s.freeCtr := rfl
@[simp] theorem State.emit_out (s : State) (o : Out) : (s.emit o).out = s.out ++ [o] := rfl
@[simp] theorem State.emit_fld (s : State) (o : Out) : (s.emit o).fld = s.fld := rfl
@[simp] theorem State.emit_fuses (s : State) (o : Out) : (s.emit o).fuses = s.fuses := rfl
@[simp] theorem State.emit_power (s : State) (o : Out) : (s.emit o).power = s.power := rfl
@[simp] theorem State.emit_ready (s : State) (o : Out) : (s.emit o).ready = s.ready := rfl
@[simp] theorem State.emit_thermtrip (s : State) (o : Out) : (s.emit o).thermtrip = s.thermtrip := rfl
@[simp] theorem State.emit_wake (s : State) (o : Out) : (s.emit o).wake = s.wake := rfl
@[simp] theorem State.emit_smbAlert (s : State) (o : Out) : (s.emit o).smbAlert = s.smbAlert := rfl
@[simp] theorem State.emit_flash (s : State) (o : Out) : (s.emit o).flash = s.flash := rfl
@[simp] theorem State.emit_tiles (s : State) (o : Out) : (s.emit o).tiles = s.tiles := rfl
@[simp] theorem State.emit_plan (s : State) (o : Out) : (s.emit o).plan = s.plan := rfl
@[simp] theorem State.emit_job (s : State) (o : Out) : (s.emit o).job = s.job := rfl
@[simp] theorem State.emit_clampRpt (s : State) (o : Out) : (s.emit o).clampRpt = s.clampRpt := rfl
@[simp] theorem State.emit_swapRpt (s : State) (o : Out) : (s.emit o).swapRpt = s.swapRpt := rfl
@[simp] theorem State.emit_keys (s : State) (o : Out) : (s.emit o).keys = s.keys := rfl
@[simp] theorem State.emit_keyInstall (s : State) (o : Out) : (s.emit o).keyInstall = s.keyInstall := rfl
@[simp] theorem State.emit_wardStep (s : State) (o : Out) : (s.emit o).wardStep = s.wardStep := rfl
@[simp] theorem State.emit_lamp (s : State) (o : Out) : (s.emit o).lamp = s.lamp := rfl
@[simp] theorem State.emit_storeServed (s : State) (o : Out) : (s.emit o).storeServed = s.storeServed := rfl
@[simp] theorem State.emit_dispatchServed (s : State) (o : Out) : (s.emit o).dispatchServed = s.dispatchServed := rfl
@[simp] theorem State.emit_gwQueue (s : State) (o : Out) : (s.emit o).gwQueue = s.gwQueue := rfl
@[simp] theorem State.emit_arrivals (s : State) (o : Out) : (s.emit o).arrivals = s.arrivals := rfl
@[simp] theorem State.emit_pins (s : State) (o : Out) : (s.emit o).pins = s.pins := rfl
@[simp] theorem State.emit_net (s : State) (o : Out) : (s.emit o).net = s.net := rfl
@[simp] theorem State.emit_gateBufs (s : State) (o : Out) : (s.emit o).gateBufs = s.gateBufs := rfl
@[simp] theorem State.emit_engines (s : State) (o : Out) : (s.emit o).engines = s.engines := rfl
@[simp] theorem State.emit_quarters (s : State) (o : Out) : (s.emit o).quarters = s.quarters := rfl
@[simp] theorem State.emit_homes (s : State) (o : Out) : (s.emit o).homes = s.homes := rfl
@[simp] theorem State.emit_dram (s : State) (o : Out) : (s.emit o).dram = s.dram := rfl
@[simp] theorem State.emit_sigs (s : State) (o : Out) : (s.emit o).sigs = s.sigs := rfl
@[simp] theorem State.emit_symErrs (s : State) (o : Out) : (s.emit o).symErrs = s.symErrs := rfl
@[simp] theorem State.emit_ages (s : State) (o : Out) : (s.emit o).ages = s.ages := rfl
@[simp] theorem State.emit_scrub (s : State) (o : Out) : (s.emit o).scrub = s.scrub := rfl
@[simp] theorem State.emit_ledger (s : State) (o : Out) : (s.emit o).ledger = s.ledger := rfl
@[simp] theorem State.emit_link (s : State) (o : Out) : (s.emit o).link = if o.onLink then { s.link with l1 := false } else s.link := rfl
@[simp] theorem State.emit_logQueue (s : State) (o : Out) : (s.emit o).logQueue = s.logQueue := rfl
@[simp] theorem State.emit_logNextSeq (s : State) (o : Out) : (s.emit o).logNextSeq = s.logNextSeq := rfl
@[simp] theorem State.emit_logNextSlot (s : State) (o : Out) : (s.emit o).logNextSlot = s.logNextSlot := rfl
@[simp] theorem State.emit_mgmt (s : State) (o : Out) : (s.emit o).mgmt = s.mgmt := rfl
@[simp] theorem State.emit_lantern (s : State) (o : Out) : (s.emit o).lantern = s.lantern := rfl

/-! ### Reads after writes -/

@[simp] theorem State.tile_setTile (s : State) (i : TileId) (v : Tile) : (s.setTile i v).tile i = v := Tbl.get_put ..
theorem State.tile_setTile_other (s : State) (i j : TileId) (v : Tile) (h : j ≠ i) : (s.setTile i v).tile j = s.tile j :=
  Tbl.get_put_other _ _ _ _ _ _ (fun e => h (Fin.ext e))
@[simp] theorem State.lampw_setLampw (s : State) (i : WardId) (v : LampWard) : (s.setLampw i v).lampw i = v := Tbl.get_put ..
theorem State.lampw_setLampw_other (s : State) (i j : WardId) (v : LampWard) (h : j ≠ i) : (s.setLampw i v).lampw j = s.lampw j :=
  Tbl.get_put_other _ _ _ _ _ _ (fun e => h (Fin.ext e))
@[simp] theorem State.engine_setEngine (s : State) (i : EngId) (v : Engine) : (s.setEngine i v).engine i = v := Tbl.get_put ..
theorem State.engine_setEngine_other (s : State) (i j : EngId) (v : Engine) (h : j ≠ i) : (s.setEngine i v).engine j = s.engine j :=
  Tbl.get_put_other _ _ _ _ _ _ (fun e => h (Fin.ext e))
@[simp] theorem State.quarter_setQuarter (s : State) (i : QuarterId) (v : Quarter) : (s.setQuarter i v).quarter i = v := Tbl.get_put ..
theorem State.quarter_setQuarter_other (s : State) (i j : QuarterId) (v : Quarter) (h : j ≠ i) : (s.setQuarter i v).quarter j = s.quarter j :=
  Tbl.get_put_other _ _ _ _ _ _ (fun e => h (Fin.ext e))
@[simp] theorem State.pin_setPin (s : State) (i : Fin 8) (v : EvtPin) : (s.setPin i v).pin i = v := Tbl.get_put ..
theorem State.pin_setPin_other (s : State) (i j : Fin 8) (v : EvtPin) (h : j ≠ i) : (s.setPin i v).pin j = s.pin j :=
  Tbl.get_put_other _ _ _ _ _ _ (fun e => h (Fin.ext e))
@[simp] theorem State.homeN_setHomeN (s : State) (i : Nat) (v : Home) : (s.setHomeN i v).homeN i = v := Tbl.get_put ..
theorem State.homeN_setHomeN_other (s : State) (i j : Nat) (v : Home) (h : j ≠ i) : (s.setHomeN i v).homeN j = s.homeN j :=
  Tbl.get_put_other _ _ _ _ _ _ h
@[simp] theorem State.gateBuf_setGateBuf (s : State) (i : Nat) (v : List Packet) : (s.setGateBuf i v).gateBuf i = v := Tbl.get_put ..
theorem State.gateBuf_setGateBuf_other (s : State) (i j : Nat) (v : List Packet) (h : j ≠ i) : (s.setGateBuf i v).gateBuf j = s.gateBuf j :=
  Tbl.get_put_other _ _ _ _ _ _ h
@[simp] theorem State.entry_setEntry (s : State) (i : Nat) (v : Option LEntry) : (s.setEntry i v).entry i = v := Tbl.get_put ..
theorem State.entry_setEntry_other (s : State) (i j : Nat) (v : Option LEntry) (h : j ≠ i) : (s.setEntry i v).entry j = s.entry j :=
  Tbl.get_put_other _ _ _ _ _ _ h
@[simp] theorem State.tile_updTile (s : State) (i : TileId) (g : Tile → Tile) : (s.updTile i g).tile i = g (s.tile i) := Tbl.get_put ..
theorem State.tile_updTile_other (s : State) (i j : TileId) (g : Tile → Tile) (h : j ≠ i) : (s.updTile i g).tile j = s.tile j :=
  Tbl.get_put_other _ _ _ _ _ _ (fun e => h (Fin.ext e))
@[simp] theorem State.getF_setF (s : State) (f : Fld) (v : Nat) : (s.setF f v).getF f = v % 2 ^ f.w := Tbl.get_put ..
theorem State.getF_setF_other (s : State) (f g : Fld) (v : Nat) (h : g.key ≠ f.key) : (s.setF f v).getF g = s.getF g :=
  Tbl.get_put_other _ _ _ _ _ _ h
/-- A state whose tiles are the same reads the same tiles. -/
theorem State.tile_congr {s u : State} (h : s.tiles = u.tiles) (t : TileId) : s.tile t = u.tile t := by
  unfold State.tile; rw [h]
theorem State.getF_congr {s u : State} (h : s.fld = u.fld) (f : Fld) : s.getF f = u.getF f := by
  unfold State.getF; rw [h]

end Sys2Proof.Machine
end

