-- ==== Sys2Proof/Laws/Tile.lean ====
section
/-! SUPPORT. What the shared operations of a tile can do: counting, retirement, running an instruction, local
store. -/

namespace Sys2Proof.Machine

/-! ### Registers -/

@[simp] theorem Tile.rg_zero (y : Tile) : y.rg 0 = 0 := by simp [Tile.rg]

theorem Tile.wg_zero (y : Tile) (v : W64) : y.wg 0 v = y := by simp [Tile.wg]

theorem Tile.rg_wg_same (y : Tile) (r : BitVec 5) (v : W64) (h : r ≠ 0) : (y.wg r v).rg r = v := by
  unfold Tile.rg Tile.wg
  rw [if_neg h, if_neg h]
  exact Vector.getElem_set_self (regIx r).isLt

theorem Tile.rg_wg_other (y : Tile) (r q : BitVec 5) (v : W64) (h : q ≠ r) : (y.wg r v).rg q = y.rg q := by
  by_cases hr : r = 0
  · rw [hr, Tile.wg_zero]
  · have e : (regIx r).val ≠ (regIx q).val := fun e => h (BitVec.eq_of_toNat_eq (by simpa [regIx] using e.symm))
    simp only [Tile.rg, Tile.wg, if_neg hr]
    exact if_congr Iff.rfl rfl (Vector.getElem_set_ne (regIx r).isLt (regIx q).isLt e)

theorem Tile.rg_wg (y : Tile) (r q : BitVec 5) (v : W64) : (y.wg r v).rg q = if q = r ∧ r ≠ 0 then v else y.rg q := by
  grind [Tile.wg_zero, Tile.rg_wg_same, Tile.rg_wg_other]

/-! ### Counting -/

/-- Counting an event moves the performance counters only (spec 04 R147). -/
theorem Tile.countEv_cases (y : Tile) (ev k : Nat) : ∃ a b, y.countEv ev k = { y with pmc := a, ovf := b } := by
  have fold : ∀ l : List (Fin 4), ∃ a b, l.foldl (fun t i =>
      if (t.sel.get i).toNat = ev then
        { t with pmc := t.pmc.set i.val (BitVec.ofNat 48 ((t.pmc.get i).toNat + k)) i.isLt,
                 ovf := if (t.pmc.get i).toNat + k < 2 ^ 48 then t.ovf else t.ovf ||| BitVec.ofNat 4 (2 ^ i.val) }
      else t) y = { y with pmc := a, ovf := b } := fun l =>
    List.foldlRecOn (motive := fun t : Tile => ∃ a b, t = { y with pmc := a, ovf := b }) l _ ⟨_, _, rfl⟩ (by
      rintro _ ⟨a, b, rfl⟩ i _
      split
      exacts [⟨_, _, rfl⟩, ⟨_, _, rfl⟩])
  unfold Tile.countEv
  split_ifs
  exacts [⟨_, _, rfl⟩, fold _]

/-! ### One tile -/

theorem onlyTile_refl (s : State) (t : TileId) : onlyTile s s t := ⟨rfl, fun _ _ => rfl⟩

theorem onlyTile_trans {a b c : State} {t : TileId} (h : onlyTile a b t) (h2 : onlyTile b c t) : onlyTile a c t := by
  obtain ⟨h1, h1'⟩ := h
  obtain ⟨h2, h2'⟩ := h2
  refine ⟨?_, fun r hr => (h2' r hr).trans (h1' r hr)⟩
  rw [h2, h1]

theorem onlyTile_setTile (s : State) (t : TileId) (v : Tile) : onlyTile s (s.setTile t v) t :=
  ⟨rfl, fun r h => State.tile_setTile_other s t r v h⟩

theorem onlyTile_updTile (s : State) (t : TileId) (f : Tile → Tile) : onlyTile s (s.updTile t f) t := onlyTile_setTile ..

theorem onlyTile_free (s : State) (t : TileId) (n : Nat) : onlyTile s { s with freeCtr := n } t := ⟨rfl, fun _ _ => rfl⟩

/-- Counting an event at a tile. -/
theorem State.countTile_cases (s : State) (t : TileId) (ev k : Nat) :
    onlyTile s (s.countTile t ev k) t ∧ ∃ a b, (s.countTile t ev k).tile t = { s.tile t with pmc := a, ovf := b } := by
  refine ⟨onlyTile_updTile .., ?_⟩
  obtain ⟨a, b, h⟩ := (s.tile t).countEv_cases ev k
  exact ⟨a, b, by unfold State.countTile; simp [h]⟩

/-- What retirement does (spec 04 R116). -/
theorem State.retireAs_cases (s : State) (t : TileId) (alone : Bool) (pc : W64) :
    onlyTile s (s.retireAs t alone pc) t ∧ retiredAs (s.tile t) ((s.retireAs t alone pc).tile t) pc := by
  have fresh : ∀ c : Bool, onlyTile s (if c = true then s.free else (0, s)).2 t ∧ (if c = true then s.free else (0, s)).2.tile t = s.tile t :=
    Bool.rec ⟨onlyTile_refl .., rfl⟩ ⟨onlyTile_free .., rfl⟩
  have counted : ∀ (n : Nat) (u : State), onlyTile u (if n % 2 = 1 then u.countTile t 2 1 else u) t
      ∧ ∃ a b, (if n % 2 = 1 then u.countTile t 2 1 else u).tile t = { u.tile t with pmc := a, ovf := b } := by
    intro n u
    split_ifs
    exacts [State.countTile_cases .., ⟨onlyTile_refl .., _, _, rfl⟩]
  unfold State.retireAs
  extract_lets tl may
  obtain ⟨f1, f2⟩ := fresh may
  generalize (if may = true then s.free else (0, s)) = p at f1 f2
  obtain ⟨c1, a, b, c2⟩ := counted p.1 p.2
  refine ⟨onlyTile_trans (onlyTile_trans f1 c1) (onlyTile_updTile ..), ?_⟩
  simp only [State.tile_updTile, c2, f2, retiredAs]
  obtain ⟨x, z, h⟩ := Tile.countEv_cases { s.tile t with
    pc := pc, retired := (s.tile t).retired + 1, trace := ((s.tile t).pc :: (s.tile t).trace).take 16, stepDone := (s.tile t).stepping,
    mode := .running, older := !alone && p.1 % 2 == 0, pmc := a, ovf := b } 1 1
  rw [h]

/-- The body of an instruction that begins, is not ILLEGAL and has its level runs on the state after the fetch. -/
theorem State.tileOp_begins {s u : State} {c : Instr} {t : TileId} (h : s.begins c t u) (bad priv : Bool) (body : State → State) :
    s.tileOp c t bad priv body = if bad then u.except t 1 0 else if priv && !(u.tile t).k then u.except t 2 0 else body u := by
  obtain ⟨w, ⟨h1, h2, h3⟩, h4⟩ := h
  simp [State.tileOp, h1, h2, h3, h4]

/-- A word that is not listed raises ILLEGAL whatever the command (spec 05 R150). -/
theorem State.tileOp_unlisted {s u : State} {t : TileId} {w : W32} (h : s.fetches t u w) (hw : decodeTile t w = none) (c : Instr) (bad priv : Bool)
    (body : State → State) : s.tileOp c t bad priv body = u.except t 1 0 := by
  obtain ⟨h1, h2, h3⟩ := h
  simp [State.tileOp, h1, h2, h3, hw]

/-- A change of the tile's registers that then retires. -/
theorem State.updTile_retireAs (u : State) (t : TileId) (alone : Bool) (f : Tile → Tile) (hp : (f (u.tile t)).pc = (u.tile t).pc) :
    let v := (u.updTile t f).retireAs t alone (((u.updTile t f).tile t).pc + 4)
    onlyTile u v t ∧ retiredAs (f (u.tile t)) (v.tile t) ((u.tile t).pc + 4) := by
  obtain ⟨h1, h2⟩ := State.retireAs_cases (u.updTile t f) t alone (((u.updTile t f).tile t).pc + 4)
  exact ⟨onlyTile_trans (onlyTile_updTile ..) h1, by simpa only [State.tile_updTile, hp] using h2⟩

/-- An instruction that only changes registers (spec 04 R116). -/
theorem State.regOp_retires {s u : State} {c : Instr} {t : TileId} (h : s.begins c t u) (f : Tile → Tile) (hp : ∀ y, (f y).pc = y.pc)
    (hc : exec c s = .next (s.regOp c t false f)) : retires c s u t (f (u.tile t)) ((u.tile t).pc + 4) :=
  ⟨_, hc, by simpa [State.regOp, State.tileOp_begins h] using State.updTile_retireAs u t (State.divides c) f (hp _)⟩

@[simp] theorem Tile.wg_pc (y : Tile) (r : BitVec 5) (v : W64) : (y.wg r v).pc = y.pc := by unfold Tile.wg; split <;> rfl
@[simp] theorem Tile.wf_pc (y : Tile) (r : BitVec 5) (v : W32) : (y.wf r v).pc = y.pc := rfl

end Sys2Proof.Machine
end

