-- ==== Sys2Proof/Laws/Exceptions.lean ====
section
/-! SUPPORT. Local store after its operations, and what taking an exception or an interrupt does. -/

namespace Sys2Proof.Machine

/-! ### Bytes of numbers -/

@[simp] theorem leBytes_length (n v : Nat) : (leBytes n v).length = n := by
  induction n generalizing v with
  | zero => rfl
  | succ n ih => simp [leBytes, ih]

theorem ofLe_leBytes (n v : Nat) : ofLe (leBytes n v) = v % 256 ^ n := by
  induction n generalizing v with
  | zero => simp [leBytes, ofLe, Nat.mod_one]
  | succ n ih =>
    simp only [leBytes, ofLe, ih, BitVec.toNat_ofNat]
    rw [show (2 : Nat) ^ 8 = 256 from rfl, Nat.pow_succ, Nat.mul_comm (256 ^ n) 256, Nat.mod_mul]

/-! ### Local store -/

/-- Writing bytes changes local store and the errors that stand in it. -/
theorem Tile.lsWriteBytes_eq (b : List Byte) (y : Tile) (o : Nat) :
    y.lsWriteBytes o b = { y with ls := (y.lsWriteBytes o b).ls, lsBad := (y.lsWriteBytes o b).lsBad, lsFix := (y.lsWriteBytes o b).lsFix } := by
  induction b generalizing y o with
  | nil => rfl
  | cons x b ih => exact ih _ (o + 1)

/-- What local store reads after bytes have been written. -/
theorem Tile.lsWriteBytes_get (b : List Byte) : ∀ (y : Tile) (o j : Nat),
    (y.lsWriteBytes o b).ls.get 0 j = if o ≤ j ∧ j < o + b.length then b.getD (j - o) 0 else y.ls.get 0 j := by
  induction b with
  | nil => intro y o j; simp [Tile.lsWriteBytes]
  | cons x b ih =>
    intro y o j
    unfold Tile.lsWriteBytes
    rw [ih]
    by_cases h : o = j
    · subst h
      rw [if_neg (by omega), if_pos (by simp)]
      simp
    · have hg : ({ y with ls := y.ls.put 0 o x } : Tile).ls.get 0 j = y.ls.get 0 j := Tbl.get_put_other _ _ _ _ _ _ (fun e => h e.symm)
      rw [hg]
      by_cases h2 : o + 1 ≤ j ∧ j < o + 1 + b.length
      · rw [if_pos h2, if_pos (by simp; omega)]
        have : j - o = (j - (o + 1)) + 1 := by omega
        rw [this, List.getD_cons_succ]
      · rw [if_neg h2, if_neg (by simp; omega)]

/-- A write takes standing errors away. -/
theorem Tile.lsWriteBytes_bad (b : List Byte) (y : Tile) (o k : Nat) (h : (y.lsWriteBytes o b).lsBad.get false k = true) : y.lsBad.get false k = true := by
  induction b generalizing y o with
  | nil => exact h
  | cons x b ih => grind [Tbl.get_put, Tbl.get_put_other, Tile.lsWriteBytes]

/-- Marking words changes the marks alone. -/
theorem Tile.markWords_eq (b : Bool) (n : Nat) (y : Tile) (o : Nat) : y.markWords o b n = { y with lsPoison := (y.markWords o b n).lsPoison } := by
  induction n generalizing y o with
  | zero => rfl
  | succ n ih => exact ih _ (o + 8)

theorem Tile.markWords_ls (y : Tile) (o n : Nat) (b : Bool) : (y.markWords o b n).ls = y.ls := by rw [Tile.markWords_eq]

/-- `n` bytes of local store depend on those bytes alone. -/
theorem Tile.lsRead_congr (n : Nat) : ∀ (x y : Tile) (o : Nat), (∀ j, o ≤ j → j < o + n → x.ls.get 0 j = y.ls.get 0 j) → x.lsRead o n = y.lsRead o n := by
  induction n with
  | zero => exact fun _ _ _ _ => rfl
  | succ n ih =>
    intro x y o h
    unfold Tile.lsRead
    rw [h o (by omega) (by omega), ih x y (o + 1) (fun j h1 h2 => h j (by omega) (by omega))]

/-- Bytes just written read back. -/
theorem Tile.lsRead_written (b : List Byte) : ∀ (x : Tile) (o : Nat), (∀ i, i < b.length → x.ls.get 0 (o + i) = b.getD i 0) → x.lsRead o b.length = ofLe b := by
  induction b with
  | nil => exact fun _ _ _ => rfl
  | cons v b ih =>
    intro x o h
    have h0 := h 0 (by simp)
    have hr := ih x (o + 1) (fun i hi => by
      have := h (i + 1) (by simp; omega)
      rw [show o + 1 + i = o + (i + 1) by omega, this, List.getD_cons_succ])
    simp only [Nat.add_zero, List.getD_cons_zero] at h0
    simp only [List.length_cons, Tile.lsRead, ofLe, h0, hr]

/-- An eight-byte word just written reads back. -/
theorem Tile.word_written (x : Tile) (o : Nat) (w : W64) (h : ∀ i, i < 8 → x.ls.get 0 (o + i) = (leBytes 8 w.toNat).getD i 0) : x.word o = w := by
  have := Tile.lsRead_written (leBytes 8 w.toNat) x o (fun i hi => h i (by simpa using hi))
  rw [leBytes_length] at this
  unfold Tile.word
  rw [this, ofLe_leBytes]
  apply BitVec.eq_of_toNat_eq
  rw [BitVec.toNat_ofNat]
  have := w.isLt
  omega

/-! ### The frame -/

/-- Word `k` of a list of words laid out as bytes. -/
theorem getD_flatMap_le (l : List W64) : ∀ (k i : Nat) (w : W64), i < 8 → l[k]? = some w → (l.flatMap (fun w => leBytes 8 w.toNat)).getD (8 * k + i) 0 = (leBytes 8 w.toNat).getD i 0 := by
  induction l with
  | nil => intro k i w _ h; simp at h
  | cons x l ih =>
    intro k i w hi h
    cases k with
    | zero =>
      simp only [List.getElem?_cons_zero, Option.some.injEq] at h
      subst h
      simp only [List.flatMap_cons, Nat.mul_zero, Nat.zero_add]
      rw [List.getD_append _ _ _ _ (by simpa using hi)]
    | succ k =>
      simp only [List.getElem?_cons_succ] at h
      simp only [List.flatMap_cons]
      rw [List.getD_append_right _ _ _ _ (by simp; omega)]
      rw [leBytes_length, show 8 * (k + 1) + i - 8 = 8 * k + i by omega]
      exact ih k i w hi h

/-- Taking marks out of local store marks nothing else. -/
theorem Tile.markWords_clears (n : Nat) (y : Tile) (o k : Nat) (h : (y.markWords o false n).lsPoison.get false k = true) : y.lsPoison.get false k = true := by
  induction n generalizing y o with
  | zero => exact h
  | succ n ih => grind [Tbl.get_put, Tbl.get_put_other, Tile.markWords]

/-! ### Taking an exception -/

/-- A fetch that meets no exception meets none once words of the tile's local store have been cleared of marks. -/
theorem State.fetchFault_none {s v : State} {t : TileId} {pc : W64} (hp : v.plan = s.plan) (hk : v.keys = s.keys) (hi : (v.tile t).l1i = (s.tile t).l1i)
    (hm : ∀ k, (v.tile t).lsPoison.get false k = true → (s.tile t).lsPoison.get false k = true)
    (hb : ∀ k, (v.tile t).lsBad.get false k = true → (s.tile t).lsBad.get false k = true) (h : s.fetchFault t pc = none) : v.fetchFault t pc = none := by
  have hw : v.tileWard t = s.tileWard t := by unfold State.tileWard State.own; rw [hp]
  have hx : ∀ w a n k, v.translate w a n k = s.translate w a n k := by
    intro w a n k; unfold State.translate State.sec State.key; rw [hp, hk]
  have m1 : ∀ o n, (s.tile t).marked o n = false → (v.tile t).marked o n = false := by
    intro o n e
    unfold Tile.marked at *
    simp only [List.any_eq_false] at *
    exact fun i hi' hc => e i hi' (hm _ hc)
  have m2 : ∀ o n, (s.tile t).lsError o n = false → (v.tile t).lsError o n = false := by
    intro o n e
    unfold Tile.lsError at *
    simp only [List.any_eq_false] at *
    exact fun i hi' hc => e i hi' (hb _ hc)
  unfold State.fetchFault at *
  dsimp only at *
  rw [hw, hi]
  split at h
  · rename_i hin
    rw [if_pos hin]
    cases hmk : (s.tile t).marked (pc.toNat - pc.toNat % 4 - lsBase) 4
    · rw [hmk] at h
      cases hbd : (s.tile t).lsError (pc.toNat - pc.toNat % 4 - lsBase) 4
      · simp [m1 _ _ hmk, m2 _ _ hbd]
      · rw [hbd] at h; simp at h
    · rw [hmk] at h; simp at h
  · rename_i hin
    rw [if_neg hin]
    simp only [hx]
    exact h

/-- An exception or interrupt that is no window fault and no local-store error, with a valid stack and a vector that can be
fetched: the tile enters the handler, and nothing else changes (spec 04 R130). -/
theorem State.takeException_enters (s : State) (t : TileId) (code tn : Nat) (bad epc : W64) (h4 : code ≠ 4) (h5 : code ≠ 5) (h9 : code ≠ 9)
    (hc : s.canEnter t code) : onlyTile s (s.takeException t code 0 tn bad epc) t
      ∧ entered (s.tile t) ((s.takeException t code 0 tn bad epc).tile t) (s.tileStatus t) (causeWord code 0 tn) bad epc code := by
  obtain ⟨hv, he, hf⟩ := hc
  have e1 : ∃ a b, ((s.tile t).countEv (if code < 0x20 then 14 else 15) 1) = { s.tile t with pmc := a, ovf := b } := Tile.countEv_cases ..
  have e2 : ∃ a b, (if code = 7 ∨ code = 8 then ((s.tile t).countEv (if code < 0x20 then 14 else 15) 1).countEv 16 1
      else (s.tile t).countEv (if code < 0x20 then 14 else 15) 1) = { s.tile t with pmc := a, ovf := b } := by
    obtain ⟨a, b, e⟩ := e1
    rw [e]
    split
    · obtain ⟨a2, b2, e⟩ := Tile.countEv_cases { s.tile t with pmc := a, ovf := b } 16 1
      exact ⟨a2, b2, e⟩
    · exact ⟨a, b, rfl⟩
  obtain ⟨a, b, e⟩ := e2
  have hrec : s.recordTileFault t code 0 bad = s := by unfold State.recordTileFault; rw [if_neg (by omega)]
  have hg2 : ({ s.tile t with pmc := a, ovf := b } : Tile).rg 2 = (s.tile t).rg 2 := rfl
  unfold State.takeException
  dsimp only
  rw [hrec, e, if_neg h9, hg2, if_pos hv]
  simp only [State.tile_setTile]
  generalize hy : ({ s.tile t with pmc := a, ovf := b } : Tile) = y
  have hst : (s.setTile t y).tileStatus t = s.tileStatus t := by
    unfold State.tileStatus; simp only [State.tile_setTile, State.setTile_supTime]; rw [← hy]
  have hfr : (s.setTile t y).trapFrame t epc (causeWord code 0 tn) bad
      = #v[epc, s.tileStatus t, causeWord code 0 tn, bad, (s.tile t).rg 1, (s.tile t).rg 3, (s.tile t).rg 4, (s.tile t).rg 5] := by
    unfold State.trapFrame; simp only [State.tile_setTile]; rw [hst, ← hy]; rfl
  have hye : y.lsError (((s.tile t).rg 2).toNat - 64 - lsBase) 64 = false := by rw [← hy]; exact he
  rw [hfr, if_neg (by rw [hye]; exact Bool.false_ne_true)]
  generalize hfb : frameBytes #v[epc, s.tileStatus t, causeWord code 0 tn, bad, (s.tile t).rg 1, (s.tile t).rg 3, (s.tile t).rg 4, (s.tile t).rg 5] = fb
  generalize ho : ((s.tile t).rg 2).toNat - 64 - lsBase = o
  generalize hz : (y.lsWriteBytes o fb).markWords o false 8 = z
  generalize hx : ({ (z.wg 2 ((s.tile t).rg 2 - 64)) with epc := epc, cause := causeWord code 0 tn, badaddr := bad, k := true, ie := false, pc := (z.wg 2 ((s.tile t).rg 2 - 64)).vbase + BitVec.ofNat 64 (16 * code), mode := .running, stepDone := (z.wg 2 ((s.tile t).rg 2 - 64)).stepping, vectoring := some #v[epc, s.tileStatus t, causeWord code 0 tn, bad, (s.tile t).rg 1, (s.tile t).rg 3, (s.tile t).rg 4, (s.tile t).rg 5] } : Tile) = x
  have zeq : z = { s.tile t with pmc := a, ovf := b, ls := z.ls, lsPoison := z.lsPoison, lsBad := z.lsBad, lsFix := z.lsFix } := by
    rw [← hz, Tile.markWords_eq, Tile.lsWriteBytes_eq, ← hy]
  have xeq : x = { s.tile t with pmc := a, ovf := b, ls := z.ls, lsPoison := z.lsPoison, lsBad := z.lsBad, lsFix := z.lsFix, g := x.g, epc := epc, cause := causeWord code 0 tn, badaddr := bad, k := true, ie := false, pc := (s.tile t).vbase + BitVec.ofNat 64 (16 * code), mode := .running, stepDone := (s.tile t).stepping, vectoring := some #v[epc, s.tileStatus t, causeWord code 0 tn, bad, (s.tile t).rg 1, (s.tile t).rg 3, (s.tile t).rg 4, (s.tile t).rg 5] } := by
    rw [← hx]; unfold Tile.wg; split <;> (rw [zeq])
  have hno : ((s.setTile t y).setTile t x).fetchFault t x.pc = none := by
    refine State.fetchFault_none (s := s) rfl rfl ?_ ?_ ?_ ?_
    · rw [State.tile_setTile, xeq]
    · intro k h
      have h : z.lsPoison.get false k = true := by rwa [State.tile_setTile, xeq] at h
      rw [← hz] at h
      have := Tile.markWords_clears 8 _ _ _ h
      rwa [Tile.lsWriteBytes_eq, ← hy] at this
    · intro k h
      have h : z.lsBad.get false k = true := by rwa [State.tile_setTile, xeq] at h
      rw [← hz, Tile.markWords_eq] at h
      have := Tile.lsWriteBytes_bad _ _ _ _ h
      rwa [← hy] at this
    · rw [xeq]; exact hf
  have xpc : (z.wg 2 ((s.tile t).rg 2 - 64)).vbase + BitVec.ofNat 64 (16 * code) = x.pc := by rw [← hx]
  rw [xpc, hno]
  refine ⟨onlyTile_trans (onlyTile_setTile ..) (onlyTile_setTile ..), ?_⟩
  rw [State.tile_setTile]
  have zg : z.g = (s.tile t).g := by rw [zeq]
  have xg : x.g = (z.wg 2 ((s.tile t).rg 2 - 64)).g := by rw [← hx]
  have rgx : ∀ r, x.rg r = (z.wg 2 ((s.tile t).rg 2 - 64)).rg r := by intro r; show (if r = 0 then 0 else x.g.get (regIx r)) = _; rw [xg]; rfl
  have lsz : z.ls = (y.lsWriteBytes o fb).ls := by rw [← hz, Tile.markWords_ls]
  have ysl : y.ls = (s.tile t).ls := by rw [← hy]
  have xls : x.ls = z.ls := by rw [xeq]
  have len : fb.length = 64 := by rw [← hfb]; simp [frameBytes]
  have get : ∀ j, x.ls.get 0 j = if o ≤ j ∧ j < o + 64 then fb.getD (j - o) 0 else (s.tile t).ls.get 0 j := by
    intro j; rw [xls, lsz, Tile.lsWriteBytes_get, len, ysl]
  have wd : ∀ k w j, j = 8 * k → [epc, s.tileStatus t, causeWord code 0 tn, bad, (s.tile t).rg 1, (s.tile t).rg 3, (s.tile t).rg 4, (s.tile t).rg 5][k]? = some w →
      x.word (o + j) = w := by
    intro k w j hj h
    subst hj
    have hk : k < 8 := by
      have := (List.getElem?_eq_some_iff.mp h).1
      simpa using this
    apply Tile.word_written
    intro i hi
    rw [get, if_pos (by omega), show o + 8 * k + i - o = 8 * k + i by omega, ← hfb]
    exact getD_flatMap_le _ k i w hi h
  unfold entered
  dsimp only
  rw [ho]
  refine ⟨?_, ?_, by have := wd 0 _ 0 rfl rfl; rwa [Nat.add_zero] at this, wd 1 _ 8 (by norm_num) rfl, wd 2 _ 16 (by norm_num) rfl, wd 3 _ 24 (by norm_num) rfl, wd 4 _ 32 (by norm_num) rfl, wd 5 _ 40 (by norm_num) rfl, wd 6 _ 48 (by norm_num) rfl, wd 7 _ 56 (by norm_num) rfl, ?_⟩
  · rw [xeq]
  · intro r
    rw [rgx, Tile.rg_wg]
    by_cases h : r = 2
    · subst h; simp
    · rw [if_neg (fun c => h c.1), if_neg h]; unfold Tile.rg; rw [zg]
  · intro j hj
    rw [get, if_neg (by omega)]

end Sys2Proof.Machine
end

