-- ==== Sys2Proof/Laws/Storage.lean ====
section
/-! SUPPORT. Every operation on register fields, memory and the boot flash keeps their canonical form, and with them the
shared operations that write them: the Beacon's events, window faults, a line's read and write, the log. -/

namespace Sys2Proof.Machine

/-! ### The three tables -/

theorem fldKept_put (t : Tbl Nat) (k v : Nat) (h : fldKept t = true) : fldKept (t.put (fldReset k) k v) = true :=
  Tbl.put_keeps _ (fldReset k) t k v decide_eq_true h

theorem fldKept_drop (t : Tbl Nat) (p : Nat → Bool) (h : fldKept t = true) : fldKept (t.drop p) = true := Tbl.drop_keeps _ t p h

/-- Bytes put one after another. -/
theorem wf_puts (d : Byte) (g : Nat → Nat) (b : Nat → Byte) (l : List Nat) (t : Tbl Byte) (h : t.wf d = true) :
    (l.foldl (fun t i => t.put d (g i) (b i)) t).wf d = true :=
  List.foldlRecOn (motive := fun t : Tbl Byte => t.wf d = true) l _ h (fun t ht i _ => Tbl.wf_put d t (g i) (b i) ht)

/-! ### Ways to build an operation that keeps the form -/

/-- It leaves the three tables. -/
theorem storageKept_congr {s v : State} (hf : v.fld = s.fld) (hd : v.dram = s.dram) (hx : v.flash = s.flash) (h : storageKept s) : storageKept v :=
  ⟨hf ▸ h.1, hd ▸ h.2.1, hx ▸ h.2.2⟩

/-- It writes register fields. -/
theorem storageKept_fld {s v : State} (hf : fldKept v.fld = true) (hd : v.dram = s.dram) (hx : v.flash = s.flash) (h : storageKept s) : storageKept v :=
  ⟨hf, hd ▸ h.2.1, hx ▸ h.2.2⟩

/-- It chooses between two that do. -/
theorem storageKept_ite {p : Prop} [Decidable p] {a b : State} (ha : storageKept a) (hb : storageKept b) : storageKept (if p then a else b) := by
  split_ifs <;> assumption

/-- It is done or left. -/
theorem storageKept_when {p : Prop} [Decidable p] {g : State → State} (hg : ∀ u, storageKept u → storageKept (g u)) {s : State} (h : storageKept s) :
    storageKept (if p then g s else s) := storageKept_ite (hg s h) h

/-- It is done for each of a list. -/
theorem storageKept_foldl {α : Type} (g : State → α → State) (hg : ∀ s x, storageKept s → storageKept (g s x)) (l : List α) (s : State)
    (h : storageKept s) : storageKept (l.foldl g s) := List.foldlRecOn l g h (fun s hs x _ => hg s x hs)

namespace State
variable {s : State}

theorem setF_kept (f : Fld) (v : Nat) (h : storageKept s) : storageKept (s.setF f v) :=
  storageKept_fld (s := s) (fldKept_put _ _ _ h.1) rfl rfl h
theorem setB_kept (f : Fld) (b : Bool) (h : storageKept s) : storageKept (s.setB f b) := setF_kept f _ h
theorem bumpF_kept (f : Fld) (k : Nat) (h : storageKept s) : storageKept (s.bumpF f k) := setF_kept f _ h
theorem lowF_kept (f : Fld) (v : Nat) (h : storageKept s) : storageKept (s.lowF f v) := storageKept_ite (setF_kept f v h) h
theorem highF_kept (f : Fld) (v : Nat) (h : storageKept s) : storageKept (s.highF f v) := storageKept_ite (setF_kept f v h) h
theorem emit_kept (o : Out) (h : storageKept s) : storageKept (s.emit o) := h
theorem setTile_kept (t : TileId) (v : Tile) (h : storageKept s) : storageKept (s.setTile t v) := h
theorem updTile_kept (t : TileId) (g : Tile → Tile) (h : storageKept s) : storageKept (s.updTile t g) := h
theorem setCfgByte_kept (fn off : Nat) (b : Byte) (h : storageKept s) : storageKept (s.setCfgByte fn off b) := h
theorem setMsix_kept (fn v : Nat) (e : MsixEntry) (h : storageKept s) : storageKept (s.setMsix fn v e) := h

/-! ### Interrupts and the Beacon -/

theorem updIntx_kept (h : storageKept s) : storageKept s.updIntx := storageKept_ite h h
theorem pmeOnPending_kept (h : storageKept s) : storageKept s.pmeOnPending := storageKept_ite h h
theorem raiseMsix_kept (fn : Func) (v : Nat) (h : storageKept s) : storageKept (s.raiseMsix fn v) :=
  match fn with
  | .vf w => storageKept_ite h (storageKept_ite (pmeOnPending_kept (setMsix_kept (Func.vf w).ix v _ h)) h)
  | .pf0 => storageKept_ite h (storageKept_ite (pmeOnPending_kept (updIntx_kept (setF_kept _ _ h)))
      (storageKept_ite (pmeOnPending_kept (setMsix_kept 0 v _ h)) h))
theorem latchAt_kept (base : Nat) (ev : Event) (h : storageKept s) : storageKept (s.latchAt base ev) := by
  have count : ∀ u : State, storageKept u → storageKept (if ev.cls = 1 then u.bumpF (recF base ev.group 0x18 0 32) 1
      else if ev.cls = 2 then u.bumpF (recF base ev.group 0x18 32 16) 1 else u.bumpF (recF base ev.group 0x18 48 16) 1) :=
    fun u hu => storageKept_ite (bumpF_kept _ _ hu) (storageKept_ite (bumpF_kept _ _ hu) (bumpF_kept _ _ hu))
  unfold latchAt
  refine count _ (storageKept_ite ?_ ?_) <;> repeat (first | apply setF_kept | apply highF_kept | exact h)
theorem quarantine_kept (w : WardId) (h : storageKept s) : storageKept (s.quarantine w) := storageKept_ite h (setF_kept _ _ h)
theorem enterViral_kept (h : storageKept s) : storageKept s.enterViral := storageKept_ite (storageKept_ite h (setF_kept _ _ h)) (setF_kept _ _ h)
theorem queueLog_kept (e : LogEntry) (h : storageKept s) : storageKept (s.queueLog e) := storageKept_ite h h
theorem reportAer_kept (fn : Func) (unc : Bool) (bit : Nat) (what : String) (h : storageKept s) : storageKept (s.reportAer fn unc bit what) :=
  storageKept_ite h h
theorem reportRas_kept (unc : Bool) (bit : Nat) (what : String) (h : storageKept s) : storageKept (s.reportRas unc bit what) := storageKept_ite h h
theorem tellHost_kept (ev : Event) (h : storageKept s) : storageKept (s.tellHost ev) := by
  have a : ∀ (u : State) fn unc bit what, storageKept u → storageKept (u.reportAer fn unc bit what) := fun u _ _ _ _ hu => reportAer_kept _ _ _ _ hu
  have r : ∀ (u : State) unc bit what, storageKept u → storageKept (u.reportRas unc bit what) := fun u _ _ _ hu => reportRas_kept _ _ _ hu
  simp only [tellHost, apply_ite storageKept, a, r, h, ite_self]
theorem react_kept (ev : Event) (h : storageKept s) : storageKept (s.react ev) := by
  have log : ∀ u : State, storageKept u → storageKept (u.queueLog ⟨ev, false, 0, u.supTime⟩) := fun u => queueLog_kept _
  have wards : ∀ u : State, storageKept u → storageKept ((List.finRange 8).foldl (fun s w =>
      if inScope ev w = true then s.raiseMsix (.vf w) (s.getF (wvecF w)) else s) u) :=
    fun u => storageKept_foldl _ (fun _ w => storageKept_when (fun _ => raiseMsix_kept (.vf w) _)) _ u
  have quar : ∀ u : State, storageKept u → storageKept ((List.finRange 8).foldl (fun s w =>
      if (inScope ev w || (ev.wards == 0 && (s.sec w).loaded)) = true then s.quarantine w else s) u) :=
    fun u => storageKept_foldl _ (fun _ w => storageKept_when (fun _ => quarantine_kept w)) _ u
  unfold react
  extract_lets a vec s1 _ s2 s3 s4 s5 s6
  have k1 : storageKept s1 := storageKept_ite (setF_kept _ _ h) h
  have k2 : storageKept s2 := storageKept_ite k1 k1
  have k3 : storageKept s3 := storageKept_ite (enterViral_kept k2) k2
  have k4 : storageKept s4 := storageKept_ite (quar s3 k3) k3
  have k5 : storageKept s5 := storageKept_ite (raiseMsix_kept _ _ k4) k4
  have k6 : storageKept s6 := storageKept_ite (wards s5 k5) k5
  exact storageKept_ite (log s6 k6) k6
theorem event_kept (ev : Event) (h : storageKept s) : storageKept (s.event ev) :=
  tellHost_kept ev (react_kept ev (storageKept_foldl _ (fun _ w hu => storageKept_ite (latchAt_kept (0x34000 + 0x1000 * w.val) ev hu) hu) _ _ (latchAt_kept 0x30000 ev h)))
theorem winFault_kept (w : WardId) (cause addr : Nat) (h : storageKept s) : storageKept (s.winFault w cause addr) :=
  setF_kept _ _ (setF_kept _ _ (bumpF_kept _ _ h))

/-! ### Memory -/

theorem putDramLine_kept (n : Nat) (d : Line512) (h : storageKept s) : storageKept (s.putDramLine n d) :=
  ⟨h.1, wf_puts 0 (fun i => n * 64 + i) (fun i => byteAt d i) _ _ h.2.1, h.2.2⟩
theorem writeDram_kept (n : Nat) (d : Line512) (sig : Bool) (h : storageKept s) : storageKept (s.writeDram n d sig) :=
  storageKept_ite (setF_kept _ _ (setF_kept _ _ (storageKept_congr (s := s.putDramLine n d) rfl rfl rfl (putDramLine_kept n d h))))
    (storageKept_congr (s := s.putDramLine n d) rfl rfl rfl (putDramLine_kept n d h))
theorem eccLast_kept (h0 n kind dev : Nat) (scrub : Bool) (h : storageKept s) : storageKept (s.eccLast h0 n kind dev scrub) :=
  setB_kept _ _ (setF_kept _ _ (setF_kept _ _ (setF_kept _ _ (setF_kept _ _ (setF_kept _ _ (setF_kept _ _ h))))))
theorem eccEvent_kept (h0 cls kind unit : Nat) (w : Option WardId) (h : storageKept s) : storageKept (s.eccEvent h0 cls kind unit w) := event_kept _ h
theorem countDev_kept (h0 n dev : Nat) (h : storageKept s) : storageKept (s.countDev h0 n dev) := bumpF_kept _ _ h
theorem readDram_kept (n : Nat) (masks : List (Nat × W64)) (w : Option WardId) (scrub : Bool) (h : storageKept s) :
    storageKept (s.readDram n masks w scrub).2 := by
  unfold readDram
  cases s.dramOutcome n masks with
  | clean d => exact h
  | sig d => exact eccLast_kept _ _ _ _ _ (bumpF_kept _ _ h)
  | uncorrectable d => exact eccEvent_kept _ _ _ _ _ (eccLast_kept _ _ _ _ _ (bumpF_kept _ _ (writeDram_kept _ _ _ h)))
  | _ => exact eccEvent_kept _ _ _ _ _ (eccLast_kept _ _ _ _ _ (countDev_kept _ _ _ (bumpF_kept _ _ (writeDram_kept _ _ _ h))))
theorem setPart_kept (h0 r : Nat) (b : Bool) (h : storageKept s) : storageKept (s.setPart h0 r b) := h
theorem initPart_kept (h0 r : Nat) (w : Option WardId) (n : Nat) (raw : LineVal) (h : storageKept s) : storageKept (s.initPart h0 r w n raw) :=
  setPart_kept h0 r true (storageKept_foldl _ (fun _ m hu => storageKept_ite (writeDram_kept m _ _ hu) (writeDram_kept m _ _ hu)) _ s h)

/-! ### Boot flash -/

theorem flashWrite_kept (b : List Byte) (o : Nat) (s : State) (h : storageKept s) : storageKept (s.flashWrite o b) := by
  induction b generalizing o s with
  | nil => exact h
  | cons x b ih => exact ih (o + 1) _ ⟨h.1, h.2.1, Tbl.wf_put _ _ _ _ h.2.2⟩
theorem flashErase_kept (o n : Nat) (h : storageKept s) : storageKept (s.flashErase o n) := ⟨h.1, h.2.1, Tbl.wf_drop _ _ _ h.2.2⟩
theorem flashSpoil_kept (o n : Nat) (h : storageKept s) : storageKept (s.flashSpoil o n) := flashWrite_kept _ _ s.free.2 h
theorem logFailed_kept (d : Nat) (h : storageKept s) : storageKept (s.logFailed d) := event_kept _ (setF_kept _ _ h)
theorem logProgram_kept (e : LogEntry) (ok eraseOk : Bool) (h : storageKept s) : storageKept (s.logProgram e ok eraseOk) := by
  unfold logProgram
  extract_lets slot nx s1 s2
  have k1 : storageKept s1 := storageKept_ite (storageKept_ite (flashErase_kept _ _ h) (logFailed_kept _ (flashSpoil_kept _ _ h))) h
  have k2 : storageKept s2 := storageKept_ite (flashWrite_kept _ _ s1 k1) (logFailed_kept _ (flashSpoil_kept _ _ k1))
  exact storageKept_congr (s := s2) rfl rfl rfl k2

end State

/-! ### Reset -/

theorem storageKept_reset : storageKept State.reset := ⟨rfl, rfl, rfl⟩

end Sys2Proof.Machine
end

