-- ==== Sys2Proof/WellFormed.lean ====
section
/-! DEFINITION. Which commands a port of the block can carry: the operand ranges that the spec gives the fields,
packets and pins a command stands for. `exec` answers for the others too; no statement needs them. A tile
instruction is well formed with any field values, since spec 05 R150 makes a reserved bit an exception. -/

namespace Sys2Proof

/-- CXL.mem addresses name 64-byte lines (spec 15 R409). -/
def lineAligned (addr : Nat) : Bool := decide (addr % 64 = 0)

/-- The link widths of spec 15 R401. -/
def linkWidth (w : Nat) : Bool := decide (w = 4 ∨ w = 8 ∨ w = 16)

/-- A halt's scope and the number it applies to (spec 19 R505). -/
def haltTarget (scope target : Nat) : Bool := decide (scope < 4 ∧ target < 256)

/-- A configuration request names bytes of one DW of the 4096 (spec 15 R402). -/
def CfgReq.wf (q : CfgReq) : Bool :=
  decide (1 ≤ q.size ∧ q.off % 4 + q.size ≤ 4 ∧ q.off < 4096)

/-- The operands lie in the ranges that their port can carry. -/
def wellFormed (i : Instr) : Bool :=
  match i with
  | .registerWrite _ _ len val => decide (1 ≤ len ∧ len ≤ 512 ∧ val < 2 ^ (8 * len))
  | .rcFieldRead _ _ len => decide (1 ≤ len ∧ len ≤ 4096)
  | .vauxLoss => true
  | .vauxGood _ _ => true
  | .coreGood => true
  | .coreRailLoss => true
  | .perstNAssert => true
  | .perstNDeassert => true
  | .hotReset => true
  | .linkDown => true
  | .pf0Flr => true
  | .vfFlr _ => true
  | .wardReset _ _ => true
  | .wardResetWipe _ => true
  | .wardResetDone _ => true
  | .cxlReset _ => true
  | .cxlResetComplete => true
  | .tileReset _ _ => true
  | .tilRunWrite _ _ _ => true
  | .doorbell _ _ => true
  | .dbgConsentWrite _ _ _ => true
  | .plnLoad => true
  | .loadInstall => true
  | .plnSwap _ => true
  | .swapInstall => true
  | .swapAbandon => true
  | .plnSeal => true
  | .bootPlanLoad => true
  | .bootPlanInstall => true
  | .paceSample _ => true
  | .stallEvent _ => true
  | .stallSelftest _ => true
  | .illegalCodeDetect _ => true
  | .parityError _ _ _ => true
  | .add _ _ => true
  | .sub _ _ => true
  | .and _ _ => true
  | .or _ _ => true
  | .xor _ _ => true
  | .sll _ _ => true
  | .srl _ _ => true
  | .sra _ _ => true
  | .slt _ _ => true
  | .sltu _ _ => true
  | .mul _ _ => true
  | .mulh _ _ => true
  | .mulhu _ _ => true
  | .div _ _ => true
  | .divu _ _ => true
  | .rem _ _ => true
  | .remu _ _ => true
  | .min _ _ => true
  | .max _ _ => true
  | .minu _ _ => true
  | .maxu _ _ => true
  | .addi _ _ => true
  | .andi _ _ => true
  | .ori _ _ => true
  | .xori _ _ => true
  | .slti _ _ => true
  | .sltiu _ _ => true
  | .shi _ _ => true
  | .insh _ _ => true
  | .lb _ _ => true
  | .lbu _ _ => true
  | .lh _ _ => true
  | .lhu _ _ => true
  | .lw _ _ => true
  | .lwu _ _ => true
  | .ld _ _ => true
  | .flw _ _ => true
  | .flh _ _ => true
  | .ptest _ _ => true
  | .sb _ _ => true
  | .sh _ _ => true
  | .sw _ _ => true
  | .sd _ _ => true
  | .fsw _ _ => true
  | .fsh _ _ => true
  | .beq _ _ => true
  | .bne _ _ => true
  | .blt _ _ => true
  | .bge _ _ => true
  | .bltu _ _ => true
  | .bgeu _ _ => true
  | .j _ _ => true
  | .jal _ _ => true
  | .jr _ _ => true
  | .jalr _ _ => true
  | .faddS _ _ => true
  | .fsubS _ _ => true
  | .fmulS _ _ => true
  | .fdivS _ _ => true
  | .fsqrtS _ _ => true
  | .fminS _ _ => true
  | .fmaxS _ _ => true
  | .fnegS _ _ => true
  | .fabsS _ _ => true
  | .feqS _ _ => true
  | .fltS _ _ => true
  | .fleS _ _ => true
  | .fcvtLS _ _ => true
  | .fcvtLuS _ _ => true
  | .fcvtSL _ _ => true
  | .fcvtSLu _ _ => true
  | .fcvtBfS _ _ => true
  | .fmvGF _ _ => true
  | .fmvFG _ _ => true
  | .faddB _ _ => true
  | .fmulB _ _ => true
  | .fsubB _ _ => true
  | .fmaddS _ _ => true
  | .fmsubS _ _ => true
  | .fnmaddS _ _ => true
  | .fmaddB _ _ => true
  | .atomicSwap _ _ => true
  | .atomicCas _ _ => true
  | .atomicAdd _ _ => true
  | .atomicAnd _ _ => true
  | .atomicOr _ _ => true
  | .atomicXor _ _ => true
  | .atomicMin _ _ => true
  | .atomicMax _ _ => true
  | .atomicMinu _ _ => true
  | .atomicMaxu _ _ => true
  | .send _ _ => true
  | .recv _ _ => true
  | .getwork _ _ => true
  | .puttok _ _ => true
  | .pset _ _ => true
  | .fenceCAcquire _ _ => true
  | .fenceCRelease _ _ => true
  | .fenceCReleaseAcquire _ _ => true
  | .fenceQAcquire _ _ => true
  | .fenceQRelease _ _ => true
  | .fenceQReleaseAcquire _ _ => true
  | .fenceSAcquire _ _ => true
  | .fenceSRelease _ _ => true
  | .fenceSReleaseAcquire _ _ => true
  | .fenceComplete _ => true
  | .mfcr _ _ => true
  | .mtcr _ _ => true
  | .eret _ _ => true
  | .trap _ _ => true
  | .brk _ _ => true
  | .wait _ _ => true
  | .syncI _ _ => true
  | .timecmpReached _ => true
  | .interruptTake _ => true
  | .storeBufferDrain _ _ => true
  | .packetAdvance _ => true
  | .msgDeliver _ => true
  | .gateEnter _ _ => true
  | .gateDeliver _ => true
  | .probeGo _ _ _ => true
  | .probeArrive _ => true
  | .probeReturn _ => true
  | .tokenArrive _ => true
  | .matchStoreAdmit _ => true
  | .workDispatchTile _ _ => true
  | .workDispatchEngine _ _ => true
  | .tick => true
  | .dlyFlush _ _ _ => true
  | .obsClear _ _ => true
  | .traceTailWrite _ _ val => decide (val < 2 ^ 64)
  | .evtEdge _ _ => true
  | .evtFilterPass _ => true
  | .evtDeliver _ => true
  | .engineAccept _ => true
  | .feedMessage _ => true
  | .ringFetch _ => true
  | .ringTailWrite _ _ val => decide (val < 2 ^ 64)
  | .ringFaultClear _ _ => true
  | .feedEnWrite _ _ _ _ => true
  | .engineReset _ _ => true
  | .engLast0Read _ _ => true
  | .gemm _ => true
  | .eweAdd _ => true
  | .eweMul _ => true
  | .axpby _ => true
  | .unary _ => true
  | .convert _ => true
  | .rownorm _ => true
  | .softmax _ => true
  | .adamw _ => true
  | .sgdm _ => true
  | .factored _ => true
  | .gather _ => true
  | .scatter _ => true
  | .scatterAdd _ => true
  | .pack _ => true
  | .sum _ => true
  | .allreduce _ => true
  | .copy _ => true
  | .bmeFill _ => true
  | .strided _ => true
  | .sha256 _ => true
  | .crc64 _ => true
  | .engineComplete _ => true
  | .holdExpire _ _ => true
  | .qcDisable _ _ => true
  | .qcDrainDone _ => true
  | .qcEnable _ _ => true
  | .qreset _ _ => true
  | .qcInjArm _ _ _ => true
  | .rdS _ => true
  | .rdX _ => true
  | .upg _ => true
  | .own _ => true
  | .fill _ => true
  | .wb _ => true
  | .wbP _ => true
  | .evict _ => true
  | .rdC _ => true
  | .wrInv _ => true
  | .atP _ => true
  | .atFar _ => true
  | .hRd _ => true
  | .hWr _ => true
  | .data _ => true
  | .gntS _ => true
  | .gntE _ => true
  | .gntX _ => true
  | .wgo _ => true
  | .done _ => true
  | .retry _ => true
  | .nack _ => true
  | .go _ => true
  | .atRes _ => true
  | .requestResend _ => true
  | .inv _ => true
  | .snpS _ => true
  | .snpInv _ => true
  | .snpCur _ => true
  | .ack _ => true
  | .ackS _ => true
  | .snpMask _ => true
  | .lost _ => true
  | .dramReadComplete _ _ _ => true
  | .writeDataArrive _ => true
  | .snoopTimeout _ _ _ => true
  | .biSnoopTimeout _ _ => true
  | .writeDataTimeout _ _ => true
  | .lazyInitDone _ _ => true
  | .hostCacheResponse _ _ => true
  | .hostSnpData _ => true
  | .hostSnpInv _ => true
  | .hostSnpCur _ => true
  | .biRsp _ _ => true
  | .ledgerGrant => true
  | .ddrTrainingDone mods => decide (mods.length = 16)
  | .sealLoad _ _ => true
  | .sealKeyInstalled => true
  | .scrub => true
  | .wipe => true
  | .scrubAbort => true
  | .scrubLine _ _ => true
  | .scrubPassEnd => true
  | .coverageAgeTick => true
  | .eccInjArm _ _ _ => true
  | .linkTrained rate width _ => decide (1 ≤ rate ∧ rate ≤ 6) && linkWidth width
  | .configSpaceReady => true
  | .configRequest q => q.wf
  | .memoryActive => true
  | .memoryActiveTimeout => true
  | .hdmCommit _ => true
  | .memRd addr _ _ => lineAligned addr
  | .memRdData addr _ => lineAligned addr
  | .memInv addr _ _ => lineAligned addr
  | .memInvNt addr _ _ => lineAligned addr
  | .memClnEvct addr _ => lineAligned addr
  | .memSpecRd addr _ => lineAligned addr
  | .memWr addr _ _ _ => lineAligned addr
  | .memWrPtl addr _ _ _ _ => lineAligned addr
  | .biConflict addr _ => lineAligned addr
  | .memBadOpcode _ _ => true
  | .disableCaching => true
  | .cacheWriteBackAndInvalidation => true
  | .cacheInvalidSet => true
  | .filterAtomic _ => true
  | .bulkWrite _ tlp _ => decide (1 ≤ tlp.length ∧ tlp.length ≤ 512)
  | .bulkRead _ n _ => decide (1 ≤ n ∧ n ≤ 4096)
  | .blkAddrWrite _ val => decide (val < 2 ^ 64)
  | .blkShapeWrite _ _ val => decide (val < 2 ^ 64)
  | .msixUnmask _ _ => true
  | .msixEnableChange _ => true
  | .intxUpdate => true
  | .d3hotEntry => true
  | .d0Return => true
  | .l1Request => true
  | .l0pNarrow => true
  | .l0pWiden => true
  | .flitCrcFail _ _ => true
  | .ideIntegrityFail _ => true
  | .ideKmKeyProgram _ => true
  | .doeRequest _ => true
  | .fltBeaconClear _ _ _ => true
  | .faultnClear => true
  | .fltLock => true
  | .fltInject _ _ => true
  | .logWrite _ _ => true
  | .logCtrlRead slot => decide (slot < 2 ^ 16)
  | .logCtrlErase => true
  | .logEraseDone => true
  | .railSample mv tj => decide (mv.length = 6 ∧ tj.length = 18)
  | .railOutOfRange _ _ => true
  | .droopWarnFall _ => true
  | .vcoreBandEntry _ => true
  | .dimEnter _ _ => true
  | .dimSelfRefresh => true
  | .dimExit => true
  | .dimLimit => true
  | .plwNAssert => true
  | .plwQuiesced => true
  | .thermWarn _ _ => true
  | .thermOver _ _ => true
  | .thermCold _ _ => true
  | .thermalTrip _ _ => true
  | .throttleHold => true
  | .calUserWrite _ _ val => decide (-128 ≤ val ∧ val ≤ 127)
  | .calCmdSave => true
  | .calCmdReload => true
  | .calCmdZero => true
  | .calFlashDone _ => true
  | .mctpPacket b _ => decide (b.length ≤ 256)
  | .mgmtResponseSend _ => true
  | .setEndpointId _ => true
  | .getEndpointId => true
  | .getMctpVersionSupport => true
  | .getMessageTypeSupport => true
  | .getVendorDefinedMessageSupport => true
  | .getIdentity _ => true
  | .getHealth _ => true
  | .getSupply _ => true
  | .getThermal _ => true
  | .readReg _ off width => decide (off < 2 ^ 32 ∧ width < 2 ^ 8)
  | .writeReg _ off width val => decide (off < 2 ^ 32 ∧ width < 2 ^ 8 ∧ val < 2 ^ 64)
  | .logHead _ => true
  | .logRead _ slot _ => decide (slot < 2 ^ 16)
  | .calGet _ => true
  | .calSet _ item _ => decide (item < 2 ^ 8)
  | .calSave _ => true
  | .calReload _ => true
  | .calZero _ => true
  | .throttle _ v => decide (v < 2 ^ 8)
  | .resetReq _ kind ward => decide (kind < 2 ^ 8 ∧ ward < 2 ^ 8)
  | .alertGet _ ack => decide (ack < 2 ^ 8)
  | .alertResponseAddress => true
  | .lanternCtrl _ op minutes => decide (op < 2 ^ 8 ∧ minutes < 2 ^ 8)
  | .lanternArmExpire => true
  | .lineReset => true
  | .status _ => true
  | .read _ => true
  | .write _ _ => true
  | .unlock _ _ => true
  | .lntEventRead => true
  | .lntAccessReg => true
  | .lntAccessMem => true
  | .lntAccessLs => true
  | .lntAccessCore => true
  | .lntAccessDone => true
  | .halt scope target => haltTarget scope target
  | .tileHalt _ => true
  | .resume scope target => haltTarget scope target
  | .step scope target => haltTarget scope target
  | .stepEnd _ => true
  | .lntComparatorWrite bp n _ => decide (n < if bp then 8 else 4)
  | .thermalRearm _ => true
  | .vcoreRecovery _ => true
  | .plwNDeassert => true
  | .l0pPartnerRequest width => linkWidth width
  | .cxlIoCompletion _ d _ => decide (d.length = 64)
  | .logCtrlReadDone => true
  | .calUserHoldEnd => true

end Sys2Proof
end

