-- ==== Sys2Proof/Tests/Slice0.lean ====
section
/-! SUPPORT. Smoke tests of WellFormed, small tests of single commands with results taken from the spec, and for every
statement states that meet its hypotheses. -/

namespace Sys2Proof.Tests

open Sys2Proof Sys2Proof.Machine

set_option Elab.async false

/-! ### States -/

/-- A device that runs: powered, trained with 512 GiB, booted, the link up with CXL. -/
def live : State := { State.reset with
  power := { Power.off with vauxGood := true, fuseGood := true, coreGood := true, coreUp := true, cfgReady := true, trained := true, bootDone := true, capGib := 512, perst := false, pAt := some 0 }
  link := { Link.down with up := true, rate := 6, width := 16, cxl := true, l0p := 16, cfg := ⟨[(0x004, 6), (0x150, 9), (0x158, 8)]⟩ }
  supTime := 200000 }

/-- A window of ward 0: 16 MiB of device memory at 0x1000_0000, readable, writable, executable. -/
def win0 : Win := ⟨0x10000000, 0x1000000, 0x2000000, 0x1D⟩

/-- A node of ward 0: two ports, rule ALL, pool 3. -/
def node0 : PlanNode := ⟨0, 0x55, 2, 0, 3, 0, 0, 0x1234, [], 0⟩

/-- Ward 0 owns every tile and engine, ways 0 to 11 of each quarter, scratch way 12. -/
def own0 : Own := ⟨BitVec.allOnes 256, BitVec.allOnes 128, List.replicate 16 0x0FFF, List.replicate 16 0x1000, 64, 1024, 16, 0, 16, 1024⟩

def sec0 : WardSec := ⟨true, 1, [win0], [(3, 1)], [node0], [⟨2, 3, 0, 1, 0x55, 7, 0, 25⟩], []⟩

/-- The live device with a plan: ward 0 with a window, a pool, a node and a pin, and a route to tile 5. -/
def ward : State := { live with fld := ((live.setF (F.LDGW_SHARE_MIN 0) 64).setF (F.LDGW_SHARE_CEIL 0) 1024).fld, plan := { Plan.none with own := ⟨[(0, own0)]⟩, routes := [⟨0, 5, 0xFF, true, 5⟩], wards := ⟨[(0, sec0)]⟩ } }

/-- Tile 0 of ward 0 runs code in its local store at level K. Register 1 points into local store, 6 into the window,
7 below the window, 8 at the control page, 9 into quarter scratch, 10 at a gap of the tile-local region. -/
def tile0 : Tile :=
  (((((({ Tile.init with mode := .running, pc := 0xFFFFF00000000100#64 }.wg 1 0xFFFFF00000000200#64).wg 6 0x10000040#64).wg 7 0x1000#64).wg 8
    0xFFFFF00010000000#64).wg 9 0xFFFFF00020000000#64).wg 10 0xFFFFF00000040000#64).wg 5 5#64

def run (y : Tile) : State := { ward with tiles := ⟨[(0, y)]⟩ }

/-- The same tile at level T. -/
def tileT : Tile := { tile0 with k := false }

/-- The same tile with an invalid stack. -/
def tileS : Tile := tile0.wg 2 0x1000#64

/-- Tile 0 with the word `w` where it fetches next, in its local store. -/
def wordPut (w : W32) (s : State) : State :=
  s.updTile 0 (fun y => { y.lsStore (y.pc.toNat - lsBase) 4 w.toNat with lsBuf := none })

/-- Tile 0 with the word of instruction `c` there; any other command needs no word. -/
def placed (c : Instr) (s : State) : State :=
  match encodeTile c with
  | some w => wordPut w s
  | none => s

/-- The state after tile 0's fetch. -/
def fetchedOf (s : State) : State :=
  match s.fetch 0 with
  | .ok u _ => u
  | _ => s
def aft (c : Instr) (s : State) : State := fetchedOf (placed c s)

def fetchesB (s : State) (w : W32) : Bool :=
  s.tileReady 0 && (s.breakHit 0).isNone && (match s.fetch 0 with | .ok _ v => v == w | _ => false)
def beginsB (c : Instr) (s : State) : Bool := (encodeTile c).any (fun w => fetchesB (placed c s) w && decide (decodeTile 0 w = some c))

theorem fetches_of {s : State} {w : W32} (h : fetchesB s w = true) : s.fetches 0 (fetchedOf s) w := by
  unfold fetchesB at h; unfold State.fetches fetchedOf
  simp only [Bool.and_eq_true, Option.isNone_iff_eq_none] at h
  refine ⟨h.1.1, h.1.2, ?_⟩
  have h2 := h.2; split at h2
  · simp only [beq_iff_eq] at h2; simp [*]
  · cases h2

/-- The word of `c` stands at tile 0's PC, and the tile begins it. -/
theorem begins_of {c : Instr} {s : State} (h : beginsB c s = true) : (placed c s).begins c 0 (aft c s) := by
  unfold beginsB at h
  cases hw : encodeTile c with
  | none => rw [hw] at h; simp at h
  | some w =>
    rw [hw] at h; simp only [Option.any_some, Bool.and_eq_true, decide_eq_true_eq] at h
    exact ⟨w, fetches_of h.1, h.2⟩

def entersB (u : State) (code : Nat) : Bool :=
  State.validStack ((u.tile 0).rg 2) && !(u.tile 0).lsError (((u.tile 0).rg 2).toNat - 64 - lsBase) 64
    && (u.fetchFault 0 ((u.tile 0).vbase + BitVec.ofNat 64 (16 * code))).isNone
theorem enters_of {u : State} {code : Nat} (h : entersB u code = true) : u.canEnter 0 code := by
  unfold entersB at h; simp only [Bool.and_eq_true, Bool.not_eq_true', Option.isNone_iff_eq_none] at h
  exact ⟨h.1.1, h.1.2, h.2⟩

/-- The state after a command, which finds its word in place; every command answers a next state. -/
def after (c : Instr) (s : State) : State :=
  match exec c (placed c s) with
  | .next t => t
  | _ => State.reset

/-! ### Witnesses of the statements' hypotheses -/

theorem wit_StepRunsFrontCommand : ({ ward with pending := [.tick, .scrub] } : State).pending = .tick :: [.scrub] := rfl

/-- Words of the integer family, each at tile 0. -/
def intForm : RForm := ⟨4, 1, 5, 0⟩
def intWords : List Instr :=
  [.add 0 intForm, .sub 0 intForm, .and 0 intForm, .or 0 intForm, .xor 0 intForm, .sll 0 intForm, .srl 0 intForm, .sra 0 intForm, .slt 0 intForm, .sltu 0 intForm,
   .mul 0 intForm, .mulh 0 intForm, .mulhu 0 intForm, .div 0 intForm, .divu 0 intForm, .rem 0 intForm, .remu 0 intForm, .min 0 intForm, .max 0 intForm, .minu 0 intForm,
   .maxu 0 intForm, .shi 0 ⟨4, 1, 0x003F⟩, .shi 0 ⟨4, 1, 0x007F⟩, .shi 0 ⟨4, 1, 0x00BF⟩, .addi 0 ⟨4, 1, 9⟩, .andi 0 ⟨4, 1, 9⟩, .ori 0 ⟨4, 1, 9⟩, .xori 0 ⟨4, 1, 9⟩,
   .slti 0 ⟨4, 1, 9⟩, .sltiu 0 ⟨4, 1, 9⟩, .insh 0 ⟨4, 3, 9⟩]

theorem wit_IntegerOperationsCompute : (∀ c ∈ intWords, (placed c (run tile0)).begins c 0 (aft c (run tile0))) ∧ intForm.rsv = 0
    ∧ (0x003F#16).extractLsb' 8 8 = 0 ∧ (0x003F#16).extractLsb' 6 2 = 0 ∧ (0x007F#16).extractLsb' 6 2 = 1 ∧ (0x00BF#16).extractLsb' 6 2 = 2
    ∧ (3#5).extractLsb' 2 3 = 0 :=
  ⟨fun c h => begins_of ((by decide +kernel : ∀ c ∈ intWords, beginsB c (run tile0) = true) c h), by decide +kernel⟩

def jumpWords : List Instr :=
  [.beq 0 ⟨1, 5, 0xFFFF⟩, .bne 0 ⟨1, 5, 0xFFFF⟩, .blt 0 ⟨1, 5, 0xFFFF⟩, .bge 0 ⟨1, 5, 0xFFFF⟩, .bltu 0 ⟨1, 5, 0xFFFF⟩, .bgeu 0 ⟨1, 5, 0xFFFF⟩,
   .j 0 0x3FFFFFF, .jal 0 4, .jr 0 ⟨0, 1, 0, 0⟩, .jalr 0 ⟨0, 1, 0, 0⟩]
theorem wit_BranchesAndJumpsGoOn : (∀ c ∈ jumpWords, (placed c (run tile0)).begins c 0 (aft c (run tile0))) ∧ (⟨0, 1, 0, 0⟩ : RForm).rsv = 0 ∧ (⟨0, 1, 0, 0⟩ : RForm).rb = 0 :=
  ⟨fun c h => begins_of ((by decide +kernel : ∀ c ∈ jumpWords, beginsB c (run tile0) = true) c h), by decide +kernel⟩

def fp2 : FpForm := ⟨1, 2, 3, 7, 0⟩
def fp1 : FpForm := ⟨1, 2, 0, 3, 0⟩
def fpm : FpForm := ⟨1, 2, 0, 0, 0⟩
def fp4 : R4Form := ⟨1, 2, 3, 4, 0, 0⟩
def roundWords : List Instr :=
  [.faddS 0 fp2, .fsubS 0 fp2, .fmulS 0 fp2, .fdivS 0 fp2, .faddB 0 fp2, .fsubB 0 fp2, .fmulB 0 fp2, .fsqrtS 0 fp1, .fcvtBfS 0 fp1, .fcvtSL 0 fp1, .fcvtSLu 0 fp1,
   .fcvtLS 0 fp1, .fcvtLuS 0 fp1, .fmaddS 0 fp4, .fmsubS 0 fp4, .fnmaddS 0 fp4, .fmaddB 0 fp4]
theorem wit_FloatingOperationsRoundOnce : (∀ c ∈ roundWords, (placed c (run tileT)).begins c 0 (aft c (run tileT))) ∧ fp2.rsv = 0 ∧ fp1.rb = 0
    ∧ (∀ m ∈ [fp2.rm, fp1.rm, fp4.rm], m ≠ 4 ∧ m ≠ 5 ∧ m ≠ 6) :=
  ⟨fun c h => begins_of ((by decide +kernel : ∀ c ∈ roundWords, beginsB c (run tileT) = true) c h), by decide +kernel⟩

def moveWords : List Instr := [.fminS 0 fpm, .fmaxS 0 fpm, .fnegS 0 fpm, .fabsS 0 fpm, .feqS 0 fpm, .fltS 0 fpm, .fleS 0 fpm, .fmvGF 0 fpm, .fmvFG 0 fpm]
theorem wit_FloatingMovesAndNans : (∀ c ∈ moveWords, (placed c (run tile0)).begins c 0 (aft c (run tile0))) ∧ fpm.rsv = 0 ∧ fpm.rm = 0 ∧ fpm.rb = 0
    ∧ (unpack fp32 0x7FC00001).isNan = true ∧ (unpack fp32 0x7F800001).isNan = true ∧ (unpack fp32 0x7F800001).isSig = true :=
  ⟨fun c h => begins_of ((by decide +kernel : ∀ c ∈ moveWords, beginsB c (run tile0) = true) c h), by decide +kernel⟩

/-- A tile with its interrupts enabled and a pending one of each kind: an inbox word, the timer, a doorbell. -/
def tileI (inbox : List Msg) (cmp : W64) (bell : Bool) : Tile :=
  { tile0 with ie := true, im := 7, inbox := inbox, timecmp := cmp, ipDoorbell := bell }

def tilesI : List Tile := [tileI [⟨5, 0, false, 0, false, []⟩] 0 true, tileI [] 200000 true, tileI [] 200001 true, tileI [] 200001 false]
/-- At level T with a whole frame below the top of local store. -/
def tileV : Tile := tileT.wg 2 0xFFFFF00000001000#64
def privWords : List Instr := [.eret 0 ⟨0, 0, 0⟩, .mtcr 0 ⟨0, 1, 4⟩, .mfcr 0 ⟨1, 0, 5⟩]
def trapWords : List (Instr × Nat) := [(.trap 0 ⟨0, 0, 9⟩, 0x0A), (.brk 0 ⟨0, 0, 0⟩, 0x0B)]

/-- A word of each reserved kind that R150 makes ILLEGAL by its fields. -/
def badWords : List Instr :=
  [.add 0 ⟨1, 2, 3, 16⟩, .shi 0 ⟨1, 2, 0x100⟩, .shi 0 ⟨1, 2, 0xC0⟩, .insh 0 ⟨1, 4, 0⟩, .jr 0 ⟨1, 2, 0, 0⟩, .faddS 0 ⟨1, 2, 3, 4, 0⟩, .fnegS 0 ⟨1, 2, 3, 0, 0⟩,
   .fmaddS 0 ⟨1, 2, 3, 4, 0, 1⟩, .atomicAdd 0 ⟨1, 2, 3, 0, 3, 0⟩, .send 0 ⟨0, 1, 2, 65⟩, .recv 0 ⟨0, 1, 2, 0⟩, .fenceCAcquire 0 ⟨1, 0, 0, 0⟩, .mfcr 0 ⟨1, 0, 0x0C⟩, .wait 0 ⟨0, 0, 1⟩]

theorem beginBad : ∀ c ∈ badWords, beginsB c (run tile0) = true := by decide +kernel

/-- Words whose opcode or sub-opcode no table lists: all zeros, all ones, fn 63 of opcode 0x01, fn 31 of opcode 0x30. -/
def badCodes : List Nat := [0, 0xFFFFFFFF, 0x0400003F, 0xC00007C0]
def codeS (n : Nat) : State := wordPut (BitVec.ofNat 32 n) (run tile0)

theorem wit_TrapsAndInterruptsEnterTheirHandlers :
    (∀ c ∈ badWords, (placed c (run tile0)).begins c 0 (aft c (run tile0)) ∧ tileWord c = some (0, true) ∧ (aft c (run tile0)).canEnter 0 1)
    ∧ (∀ n ∈ badCodes, (codeS n).fetches 0 (fetchedOf (codeS n)) (BitVec.ofNat 32 n) ∧ decodeTile 0 (BitVec.ofNat 32 n) = none
        ∧ (fetchedOf (codeS n)).canEnter 0 1)
    ∧ (∀ c ∈ privWords, (placed c (run tileV)).begins c 0 (aft c (run tileV)) ∧ (aft c (run tileV)).canEnter 0 2
        ∧ ((aft c (run tileV)).tile 0).k = false ∧ State.eretStack (((aft c (run tileV)).tile 0).rg 2) = true)
    ∧ (∀ c ∈ trapWords, (placed c.1 (run tile0)).begins c.1 0 (aft c.1 (run tile0)) ∧ (aft c.1 (run tile0)).canEnter 0 c.2)
    ∧ (∀ y ∈ tilesI, ((run y).canRun 0 = true ∧ ((run y).tile 0).mode = .running ∧ ((run y).tile 0).ie = true ∧ ((run y).tile 0).stepping = false)
        ∧ ∀ c ∈ [0x20, 0x21, 0x22], (run y).canEnter 0 c) :=
  ⟨fun c h => ⟨begins_of (beginBad c h), (by decide +kernel : ∀ c ∈ badWords, tileWord c = some (0, true)) c h,
      enters_of ((by decide +kernel : ∀ c ∈ badWords, entersB (aft c (run tile0)) 1 = true) c h)⟩,
    fun n h => ⟨fetches_of ((by decide +kernel : ∀ n ∈ badCodes, fetchesB (codeS n) (BitVec.ofNat 32 n) = true) n h),
      (by decide +kernel : ∀ n ∈ badCodes, decodeTile 0 (BitVec.ofNat 32 n) = none) n h,
      enters_of ((by decide +kernel : ∀ n ∈ badCodes, entersB (fetchedOf (codeS n)) 1 = true) n h)⟩,
    fun c h => ⟨begins_of ((by decide +kernel : ∀ c ∈ privWords, beginsB c (run tileV) = true) c h), enters_of ((by decide +kernel : ∀ c ∈ privWords, entersB (aft c (run tileV)) 2 = true) c h),
      (by decide +kernel : ∀ c ∈ privWords, ((aft c (run tileV)).tile 0).k = false ∧ State.eretStack (((aft c (run tileV)).tile 0).rg 2) = true) c h⟩,
    fun c h => ⟨begins_of ((by decide +kernel : ∀ c ∈ trapWords, beginsB c.1 (run tile0) = true) c h), enters_of ((by decide +kernel : ∀ c ∈ trapWords, entersB (aft c.1 (run tile0)) c.2 = true) c h)⟩,
    fun y h => ⟨(by decide +kernel : ∀ y ∈ tilesI, (run y).canRun 0 = true ∧ ((run y).tile 0).mode = .running ∧ ((run y).tile 0).ie = true ∧ ((run y).tile 0).stepping = false) y h,
      fun c h2 => enters_of ((by decide +kernel : ∀ y ∈ tilesI, ∀ c ∈ [0x20, 0x21, 0x22], entersB (run y) c = true) y h c h2)⟩⟩

/-- g2 at the last and the first place of a whole frame. -/
def tileHi : Tile := tile0.wg 2 0xFFFFF0000003FFC0#64
def tileLo : Tile := tile0.wg 2 0xFFFFF00000000000#64

theorem wit_FramesAreSavedAndRestored :
    ((placed (.brk 0 ⟨0, 0, 0⟩) (run tileS)).begins (.brk 0 ⟨0, 0, 0⟩) 0 (aft (.brk 0 ⟨0, 0, 0⟩) (run tileS)) ∧ State.validStack (((aft (.brk 0 ⟨0, 0, 0⟩) (run tileS)).tile 0).rg 2) = false)
    ∧ (∀ y ∈ [tileHi, tileLo, tile0, tileS], (placed (.eret 0 ⟨0, 0, 0⟩) (run y)).begins (.eret 0 ⟨0, 0, 0⟩) 0 (aft (.eret 0 ⟨0, 0, 0⟩) (run y)))
    ∧ (∀ y ∈ [tileHi, tileLo], let x := (aft (.eret 0 ⟨0, 0, 0⟩) (run y)).tile 0
        (x.rg 2).toNat % 16 = 0 ∧ lsBase ≤ (x.rg 2).toNat ∧ (x.rg 2).toNat ≤ 0xFFFFF0000003FFC0 ∧ x.k = true ∧ x.lsSound ((x.rg 2).toNat - lsBase) 64 = true)
    ∧ ¬ (((aft (.eret 0 ⟨0, 0, 0⟩) (run tile0)).tile 0).rg 2).toNat ≤ 0xFFFFF0000003FFC0 ∧ (aft (.eret 0 ⟨0, 0, 0⟩) (run tile0)).canEnter 0 1
    ∧ State.validStack (((aft (.eret 0 ⟨0, 0, 0⟩) (run tileS)).tile 0).rg 2) = false :=
  ⟨⟨begins_of (by decide +kernel), by decide +kernel⟩,
    fun y h => begins_of ((by decide +kernel : ∀ y ∈ [tileHi, tileLo, tile0, tileS], beginsB (.eret 0 ⟨0, 0, 0⟩) (run y) = true) y h),
    by decide +kernel, by decide +kernel, enters_of (by decide +kernel), by decide +kernel⟩

/-- Every control register of R124, read and written; the gaps between them are no registers. -/
def crWords : List Instr :=
  ([0, 1, 2, 3, 4, 5, 6, 8, 9, 0x0B, 0x11, 0x12, 0x14] : List (BitVec 12)).flatMap (fun n => [.mfcr 0 ⟨1, 0, n⟩, .mtcr 0 ⟨0, 5, n⟩])
theorem wit_ControlRegistersReadAndWrite : ∀ c ∈ crWords, (placed c (run tile0)).begins c 0 (aft c (run tile0)) ∧ ((aft c (run tile0)).tile 0).k = true :=
  fun c h => ⟨begins_of ((by decide +kernel : ∀ c ∈ crWords, beginsB c (run tile0) = true) c h), (by decide +kernel : ∀ c ∈ crWords, ((aft c (run tile0)).tile 0).k = true) c h⟩

/-- Tile 0 with a marked word at offset 0x200 of local store. -/
def tileP : Tile := { tile0 with lsPoison := ⟨[(0x40, true)]⟩ }

/-- A data access, the tile that makes it, and the exception it raises. -/
def faultWords : List (Instr × Tile × Nat) :=
  [(.ld 0 ⟨4, 1, 1⟩, tile0, 3), (.lw 0 ⟨4, 8, 2⟩, tile0, 3), (.ld 0 ⟨4, 10, 0⟩, tile0, 6), (.lw 0 ⟨4, 8, 0⟩, tile0, 6), (.sb 0 ⟨5, 8, 0x7FF⟩, tile0, 6),
   (.ld 0 ⟨4, 1, 0⟩, tileP, 7), (.lbu 0 ⟨4, 1, 7⟩, tileP, 7), (.atomicAdd 0 ⟨4, 1, 5, 1, 0, 0⟩, tileP, 7), (.ld 0 ⟨4, 8, 0x7F8⟩, tileT, 2), (.sh 0 ⟨5, 8, 1⟩, tileT, 2),
   (.ld 0 ⟨4, 7, 0⟩, tile0, 5), (.sd 0 ⟨5, 7, 0⟩, tileT, 5)]
/-- Its address after the fetch. -/
def addrOf (x : Instr × Tile × Nat) : Nat := ((dataAccess x.1).map (fun d => ((((aft x.1 (run x.2.1)).tile 0).rg d.2.1) + d.2.2.1).toNat)).getD 0

theorem beginFault : ∀ x ∈ faultWords, beginsB x.1 (run x.2.1) = true := by decide +kernel
theorem enterFault : ∀ x ∈ faultWords, entersB (aft x.1 (run x.2.1)) x.2.2 = true := by decide +kernel
theorem wit_DataAccessFaultsAreTaken :
    (∀ x ∈ faultWords, (placed x.1 (run x.2.1)).begins x.1 0 (aft x.1 (run x.2.1)) ∧ (aft x.1 (run x.2.1)).canEnter 0 x.2.2)
    ∧ (∀ x ∈ faultWords, tileWord x.1 = some (0, false))
    ∧ faultWords.map addrOf = [0xFFFFF00000000201, 0xFFFFF00010000002, 0xFFFFF00000040000, 0xFFFFF00010000000, 0xFFFFF000100007FF, 0xFFFFF00000000200, 0xFFFFF00000000207, 0xFFFFF00000000200,
        0xFFFFF000100007F8, 0xFFFFF00010000001, 0x1000, 0x1000]
    ∧ (((run tileP).tile 0).lsSound 0x200 8 = true ∧ ((run tileP).tile 0).marked 0x207 1 = true ∧ ((run tileT).tile 0).k = false)
    ∧ ((run tile0).tileWard 0 = some 0 ∧ (run tile0).translate 0 0x1000 8 .read = .inl 1 ∧ (run tileT).translate 0 0x1000 8 .write = .inl 1) :=
  ⟨fun x h => ⟨begins_of (beginFault x h), enters_of (enterFault x h)⟩, by decide +kernel, by decide +kernel, by decide +kernel, by decide +kernel⟩

/-- A line that holds the bytes 0, 1, 2, … -/
def line0 : Line512 := BitVec.ofNat 512 (ofLe ((List.range 64).map (fun i => BitVec.ofNat 8 i)))
/-- Tile 0 with the window's line 1 in its L1D. -/
def l1dLine : L1Line := ⟨⟨false, 0x80001⟩, ⟨line0, false⟩, fullMask, false⟩
def tileL : Tile := { tile0 with l1d := [l1dLine] }
/-- The place of the window's line 1. -/
def x0 : Xlat := ⟨false, 0x2000040, false, false, false⟩

/-- Loads of local store, at both ends of an alignment; of the control page; of scratch; of the window's line in L1D. -/
def lsLoads : List Instr :=
  [.lb 0 ⟨4, 1, 7⟩, .lbu 0 ⟨4, 1, 0⟩, .lh 0 ⟨4, 1, 6⟩, .lhu 0 ⟨4, 1, 0⟩, .lw 0 ⟨4, 1, 4⟩, .lwu 0 ⟨4, 1, 0⟩, .ld 0 ⟨4, 1, 0⟩, .flw 0 ⟨4, 1, 4⟩, .flh 0 ⟨4, 1, 6⟩, .ptest 0 ⟨4, 1, 0⟩]
def otherLoads : List Instr := [.ld 0 ⟨4, 8, 160⟩, .ld 0 ⟨4, 9, 0⟩, .lb 0 ⟨4, 9, 7⟩, .lw 0 ⟨4, 6, 0⟩, .ld 0 ⟨4, 6, 56⟩, .flh 0 ⟨4, 6, 62⟩]
theorem beginLoads : ∀ c ∈ lsLoads ++ otherLoads, beginsB c (run tileL) = true := by decide +kernel

theorem wit_LoadsReadTheirBytes :
    (∀ c ∈ lsLoads ++ otherLoads, (placed c (run tileL)).begins c 0 (aft c (run tileL)))
    ∧ (∀ o ∈ [(7, 1), (0, 1), (6, 2), (4, 4), (0, 8)], (run tileL).localData 0 (0xFFFFF00000000200#64 + BitVec.ofNat 64 o.1) o.2)
    ∧ (run tileL).wpHits 0 true false 0xFFFFF00000000200 8 = []
    ∧ (crListed 0x14 = true ∧ (((run tileL).tile 0).rg 8 + 160).toNat = cpBase + 8 * 0x14 ∧ tileL.k = true)
    ∧ (let p := (run tileL).scratchPlace 0 0 0
       (run tileL).tileWard 0 = some 0 ∧ (((run tileL).tile 0).rg 9).toNat = qsBase + 0 ∧ 8 ≤ (run tileL).scratchSize 0 (tileQuarter 0) ∧ (run tileL).sbFor 0 true ⟨false, p / 64⟩ = none
         ∧ ((run tileL).quarter 0).scratchTagBad.get false (p / 64) = false ∧ (∀ i < 8, ((run tileL).quarter 0).scratchErrs.get 0 (p + i) = 0)
         ∧ ((run tileL).quarter 0).scratchPoison.get false (p / 8) = false)
    ∧ (∀ a ∈ [(0, 4), (56, 8), (62, 2)], (run tileL).wardData 0 (0x10000040#64 + BitVec.ofNat 64 a.1) a.2 .read 0 { x0 with addr := 0x2000040 + a.1 } ∧ a.1 + a.2 ≤ 64)
    ∧ ((run tileL).sbFor 0 false x0.line = none ∧ ((run tileL).tile 0).l1d.find? (fun z => decide (z.line = x0.line) && (rangeMask 62 2 &&& z.valid == rangeMask 62 2)) = some l1dLine
      ∧ l1dLine.stale = false ∧ l1dLine.v.poison = false) := by
  refine ⟨fun c h => begins_of (beginLoads c h), ?_, by decide +kernel, by decide +kernel, by decide +kernel, ?_, by decide +kernel⟩
  · unfold State.localData; decide +kernel
  · unfold State.wardData; decide +kernel

/-- Tile 0 with a store of the window's line 1 in its store buffer. -/
def sbe0 : SbEntry := ⟨false, ⟨false, 0x80001⟩, 0xF, 5, 0, false, false, false, false⟩
def tileB : Tile := { tile0 with sb := [sbe0] }
def storeWords : List Instr :=
  [.sb 0 ⟨5, 1, 0⟩, .sh 0 ⟨5, 1, 2⟩, .sw 0 ⟨5, 1, 4⟩, .sd 0 ⟨5, 1, 0⟩, .fsw 0 ⟨5, 1, 4⟩, .fsh 0 ⟨5, 1, 6⟩, .sd 0 ⟨5, 6, 0⟩, .sb 0 ⟨5, 6, 63⟩, .fsw 0 ⟨5, 6, 4⟩]
theorem beginStores : ∀ c ∈ storeWords, ∀ y ∈ [tile0, tileB], beginsB c (run y) = true := by decide +kernel

theorem wit_StoresPutTheirBytes :
    (∀ c ∈ storeWords, ∀ y ∈ [tile0, tileB], (placed c (run y)).begins c 0 (aft c (run y)))
    ∧ (∀ c ∈ storeWords, storesFrom c tile0 = some (if c = .fsw 0 ⟨5, 1, 4⟩ ∨ c = .fsh 0 ⟨5, 1, 6⟩ ∨ c = .fsw 0 ⟨5, 6, 4⟩ then 0 else 5))
    ∧ ((run tile0).wpHits 0 false true 0xFFFFF00000000200 8 = [] ∧ (run tile0).wpHits 0 false true 0x10000040 8 = [])
    ∧ (∀ a ∈ [(0, 8), (63, 1), (4, 4)], (run tile0).wardData 0 (0x10000040#64 + BitVec.ofNat 64 a.1) a.2 .write 0 { x0 with addr := 0x2000040 + a.1 })
    ∧ ((run tile0).sbFor 0 false x0.line = none ∧ ((run tile0).tile 0).sb.length < 16 ∧ (run tileB).sbFor 0 false x0.line = some sbe0 ∧ sbe0.mask ||| rangeMask 0 8 ≠ fullMask) := by
  refine ⟨fun c h y k => begins_of (beginStores c h y k), by decide +kernel, by decide +kernel, ?_, by decide +kernel⟩
  unfold State.wardData; decide +kernel

/-- Quarter 0 holds the window's line 1 in state M. -/
def way0 : CWay := ⟨⟨false, 0x80001⟩, .m, fullMask, false, 7, 0, [], [], false, false, 0, false⟩
def cacheM : State := { run tile0 with quarters := ⟨[(0, { Quarter.init with ways := ⟨[(16, way0)]⟩ })]⟩ }

theorem oneWay (w : CWay) (h : w.tagBad = false) (k : Nat) : (({ Quarter.init with ways := ⟨[(16, w)]⟩ } : Quarter).ways.get CWay.free k).tagBad = false := by
  simp only [Tbl.get, lookupCell]; split
  · exact h
  · rfl

def atomWords (f : AtForm) : List Instr :=
  [.atomicSwap 0 f, .atomicCas 0 f, .atomicAdd 0 f, .atomicAnd 0 f, .atomicOr 0 f, .atomicXor 0 f, .atomicMin 0 f, .atomicMax 0 f, .atomicMinu 0 f, .atomicMaxu 0 f]
def atForms : List AtForm := [⟨4, 1, 5, 1, 2, 0⟩, ⟨4, 1, 5, 0, 0, 0⟩, ⟨4, 6, 5, 1, 1, 0⟩, ⟨4, 6, 5, 0, 0, 0⟩]
theorem beginAtoms : ∀ f ∈ atForms, ∀ c ∈ atomWords f, beginsB c cacheM = true := by decide +kernel

theorem wit_AtomicsExchangeTheirWords :
    (∀ f ∈ atForms, f.rsv = 0 ∧ f.hint ≠ 3 ∧ ∀ c ∈ atomWords f, (placed c cacheM).begins c 0 (aft c cacheM))
    ∧ (∀ n ∈ [8, 4], cacheM.localData 0 0xFFFFF00000000200 n ∧ cacheM.wpHits 0 true true 0xFFFFF00000000200 n = [])
    ∧ (∀ n ∈ [8, 4], cacheM.wardData 0 0x10000040 n .atomic 0 x0 ∧ cacheM.wpHits 0 true true 0x10000040 n = [] ∧ rangeMask 0 n &&& way0.valid = rangeMask 0 n)
    ∧ ((cacheM.tile 0).sb = [] ∧ cacheM.cached (tileQuarter 0) 0 false = true ∧ cacheM.qFind (tileQuarter 0) x0.line = some 0 ∧ (cacheM.quarter (tileQuarter 0)).way (setOf x0.line) 0 = way0
      ∧ way0.errs = [] ∧ way0.maskErrs = [] ∧ way0.poison = false ∧ cacheM.uncachedWrite 0 x0.line = false ∧ cacheM.isF (F.QC_INJ_ARM 0) = false
      ∧ cacheM.quarterAsks (tileQuarter 0) x0.line = false ∧ cacheM.bufOf (tileQuarter 0) x0.line = none ∧ cacheM.atomicMode 0 0 ≠ 2 ∧ cacheM.atomicMode 0 1 ≠ 2)
    ∧ (∀ k, ((cacheM.quarter (tileQuarter 0)).ways.get CWay.free k).tagBad = false) := by
  refine ⟨fun f h => ⟨?_, ?_, fun c k => begins_of (beginAtoms f h c k)⟩, ?_, ?_, by decide +kernel, oneWay way0 rfl⟩
  · revert f h; decide +kernel
  · revert f h; decide +kernel
  · unfold State.localData; decide +kernel
  · unfold State.wardData; decide +kernel

/-- Tile 0 with a message in its inbox, and subscribed to no pool. -/
def tileR : Tile := { tile0 with inbox := [⟨5, 0, false, 0, true, [1, 2, 3]⟩] }
def tileN : Tile := { tile0 with wkmask := 0 }
/-- The ward's credits of tile 0 are all out: eight of its messages wait at its own node. -/
def noCredit : State := { run tile0 with net := List.replicate 8 (mkPkt .msg 0 (.tile 0) (.tile 5) 0 0 0 false (.message ⟨0, 0, false, 0, false, []⟩) noLine) }
/-- The destination register holds tile 6, to which no route leads. -/
def tile6 : Tile := tile0.wg 5 6
def sendW : Instr := .send 0 ⟨0, 5, 1, 64⟩
def recvW : Instr := .recv 0 ⟨4, 1, 0, 0⟩

theorem wit_MessagesLeaveAndAreTaken :
    (∀ s ∈ [run tile0, noCredit, run tile6], (placed sendW s).begins sendW 0 (aft sendW s))
    ∧ (∀ s ∈ [run tileR, run tile0], (placed recvW s).begins recvW 0 (aft recvW s))
    ∧ (inLs 0xFFFFF00000000200 64 = true ∧ tile0.lsSound 0x200 64 = true ∧ (run tile0).tileWard 0 = some 0)
    ∧ (((run tile0).route 0 5).isSome = true ∧ (run tile0).hasCredit (.tile 0) 0 = true ∧ (noCredit.route 0 5).isSome = true ∧ noCredit.hasCredit (.tile 0) 0 = false)
    ∧ ((run tile6).route 0 6 = none ∧ (aft sendW (run tile6)).canEnter 0 0x0C)
    ∧ (tileR.inbox = ⟨5, 0, false, 0, true, [1, 2, 3]⟩ :: [] ∧ tile0.inbox = []) :=
  ⟨fun s h => begins_of (by simp only [List.mem_cons, List.not_mem_nil, or_false] at h; obtain rfl | rfl | rfl := h <;> decide +kernel),
    fun s h => begins_of (by simp only [List.mem_cons, List.not_mem_nil, or_false] at h; obtain rfl | rfl := h <;> decide +kernel),
    by decide +kernel, by decide +kernel, ⟨by decide +kernel, enters_of (by decide +kernel)⟩, by decide +kernel⟩

theorem wit_WorkInstructionsIssue :
    (∀ c ∈ [Instr.getwork 0 ⟨4, 1, 0, 0⟩, .puttok 0 ⟨0, 1, 0, 0⟩, .pset 0 ⟨0, 1, 0, 0⟩], (placed c (run tile0)).begins c 0 (aft c (run tile0)))
    ∧ (placed (.getwork 0 ⟨4, 1, 0, 0⟩) (run tileN)).begins (.getwork 0 ⟨4, 1, 0, 0⟩) 0 (aft (.getwork 0 ⟨4, 1, 0, 0⟩) (run tileN))
    ∧ (tile0.item = none ∧ (run tile0).subscribed 0 ≠ [] ∧ (run tileN).subscribed 0 = [] ∧ inLs 0xFFFFF00000000200 96 = true ∧ tile0.lsSound 0x200 32 = true
      ∧ (run tile0).tileWard 0 = some 0 ∧ (run tile0).puttokOut 0 = false ∧ (run tile0).hasCredit (.tile 0) 0 = true
      ∧ (run tile0).nodeFault 0 (tokenOf (tile0.lsBytes 0xFFFFF00000000200 32)) = false) :=
  ⟨fun c h => begins_of ((by decide +kernel : ∀ c ∈ [Instr.getwork 0 ⟨4, 1, 0, 0⟩, .puttok 0 ⟨0, 1, 0, 0⟩, .pset 0 ⟨0, 1, 0, 0⟩], beginsB c (run tile0) = true) c h),
    begins_of (by decide +kernel), by decide +kernel⟩

def fenceForm : FenceForm := ⟨0, 0, 0, 0⟩
def fenceWords : List Instr :=
  [.fenceCAcquire 0 fenceForm, .fenceCRelease 0 fenceForm, .fenceCReleaseAcquire 0 fenceForm, .fenceQAcquire 0 fenceForm, .fenceQRelease 0 fenceForm, .fenceQReleaseAcquire 0 fenceForm,
   .fenceSAcquire 0 fenceForm, .fenceSRelease 0 fenceForm, .fenceSReleaseAcquire 0 fenceForm, .wait 0 ⟨0, 0, 0⟩, .syncI 0 ⟨0, 0, 0⟩]
/-- Tile 0 with a doorbell that its mask lets through. -/
def tileD4 : Tile := { tile0 with im := 4, ipDoorbell := true }
def fencing (fm : FForm) : State := run { tile0 with mode := .inFence .q fm [⟨false, 3⟩] }
/-- Something that arrived before waits at the host port. -/
def behind : State := { ward with link := { ward.link with rxq := [.regRead .s 0 4] } }
/-- The views of a host port that carries a write. -/
theorem carries_s : ward.carries .s none true := .inl (by decide +kernel)
theorem carries_w {s : State} {w : WardId} {vf : Option Nat} {own : Bool}
    (h : s.fnOpen (.vf w) = true ∧ vf ≠ none ∧ s.hostHolds (.w w) = false ∧ s.resettingWard w = false ∧ own = true) : s.carries (.w w) vf own :=
  .inr ⟨w, rfl, h⟩

/-- The cases of `heldBack`: a function that does not answer, one behind what arrived before, one whose ward resets, one that
does not own the unit. -/
theorem wit_heldBack : State.reset.mmioOpen = false ∧ (behind.mmioOpen = true ∧ behind.hostHolds .s = true)
    ∧ State.reset.fnOpen (.vf 0) = false ∧ ({ ward with link := { ward.link with rxq := [.regRead (.w 0) 0 4] } } : State).hostHolds (.w 0) = true ∧ ward.fnOpen (.vf 0) = true
    ∧ (let s := ward.setF (F.WRD_STATUS_RESETTING 0) 1; s.fnOpen (.vf 0) = true ∧ s.resettingWard 0 = true ∧ s.hostHolds (.w 0) = false)
    ∧ (let s : State := { ward with plan := { ward.plan with own := ⟨[(0, { own0 with tiles := 1, engines := 1 })]⟩ } }
       s.ownsTile (.w 0) 1 = false ∧ s.ownsEngine (.w 0) 68 = false ∧ s.hostHolds (.w 0) = false ∧ s.resettingWard 0 = false)
    ∧ State.ownVf (.w 0) 1 0x2000 = none ∧ State.ownVf (.w 0) 0 0x2000 ≠ none ∧ (State.tilVf 0 0).isSome = true := by
  decide +kernel

theorem wit_FencesWaitsAndDoorbells :
    (∀ c ∈ fenceWords, (placed c (run tile0)).begins c 0 (aft c (run tile0)) ∧ ((aft c (run tile0)).tile 0).sb = [])
    ∧ (∀ fm ∈ [FForm.acquire, .release, .releaseAcquire], ((fencing fm).tile 0).mode = .inFence .q fm [⟨false, 3⟩]
        ∧ (∀ l ∈ [(⟨false, 3⟩ : LineAddr)], (fencing fm).quarterEarly (tileQuarter 0) l = false) ∧ (fencing fm).tileStoresOut 0 = false)
    ∧ ((placed (.wait 0 ⟨0, 0, 0⟩) (run tileD4)).begins (.wait 0 ⟨0, 0, 0⟩) 0 (aft (.wait 0 ⟨0, 0, 0⟩) (run tileD4)) ∧ (run tileD4).pendingInt 0 = some 0x22 ∧ (run tile0).pendingInt 0 = none)
    ∧ (let s := run { tile0 with im := 2, timecmp := 200000, mode := .inWait }
       (s.tile 0).mode = .inWait ∧ (s.tile 0).im.getLsbD 1 = true ∧ (s.tile 0).timecmp.toNat ≤ s.supTime ∧ s.coreActive = true)
    ∧ ((run tile0).carries (.w 0) (State.tilVf 0 0) ((run tile0).ownsTile (.w 0) 0) ∧ ((run tile0).tile 0).mode ≠ .inWait ∧ ((run tile0).tile 0).mode ≠ .stranded)
    ∧ ((run { tile0 with mode := .stranded }).carries (.w 0) (State.tilVf 0 0) true ∧ ((run { tile0 with mode := .stranded }).tile 0).mode = .stranded) :=
  ⟨fun c h => ⟨begins_of ((by decide +kernel : ∀ c ∈ fenceWords, beginsB c (run tile0) = true) c h), (by decide +kernel : ∀ c ∈ fenceWords, ((aft c (run tile0)).tile 0).sb = []) c h⟩,
    by decide +kernel, ⟨begins_of (by decide +kernel), by decide +kernel⟩, by decide +kernel,
    ⟨carries_w (by decide +kernel), by decide +kernel⟩, carries_w (by decide +kernel), by decide +kernel⟩

def tileH : Tile := { tile0 with mode := .held }
theorem wit_TileResetAndRun : (∀ y ∈ [tile0, tileH], (run y).carries (.w 0) (State.tilVf 0 0) ((run y).ownsTile (.w 0) 0)) ∧ (run tile0).carries .s (State.tilVf 0 0) ((run tile0).ownsTile .s 0)
    ∧ (((run tile0).tileWard 0).any (run tile0).resettingWard = false ∧ ((run tile0).tile 0).item = none ∧ ((run tile0).tile 0).workIn = none)
    ∧ (let s := (run tile0).setF (F.WRD_STATUS_RESETTING 0) 1
       (s.tileWard 0).any s.resettingWard = true ∧ s.mmioOpen = true ∧ s.hostHolds .s = false)
    ∧ (((run tileH).tile 0).mode = .held ∧ (run tileH).haltCovers 0 = false ∧ (run tileH).tileWard 0 = some 0 ∧ (run tileH).resettingWard 0 = false) :=
  ⟨fun y h => carries_w (by revert y h; decide +kernel), .inl (by decide +kernel), by decide +kernel, by decide +kernel, by decide +kernel⟩

/-- Quarter 0 of `ward` with way 0 of the window's line in E, and the tile's store of that line waiting. -/
def wayE : CWay := { way0 with st := .e }
def drainE : State := { run tileB with quarters := ⟨[(0, { Quarter.init with ways := ⟨[(16, wayE)]⟩ })]⟩ }
/-- A store to quarter scratch. -/
def sbeS : SbEntry := ⟨true, ⟨false, 0xC000⟩, 1, 0x42, 0, false, false, false, false⟩
def drainS : State := run { tile0 with sb := [sbeS] }
/-- The same ward without a cache way: its stores leave as writes. -/
def noWays : Own := { own0 with ways := List.replicate 16 0 }
def drainW : State := { run tileB with plan := { ward.plan with own := ⟨[(0, noWays)]⟩ } }

/-- The transaction that the store then takes. -/
def entryW : LEntry :=
  { LEntry.make { Req.make .wrInv sbe0.line (.tile 0) (some 0) false with mask := sbe0.mask } (.ward 0) with wdata := some ⟨sbe0.data, false⟩ }

theorem wit_StoreBufferDrainsWhole :
    (∀ l m, tile0.mode ≠ .inMemory l m)
    ∧ ((drainS.tile 0).sb[0]? = some sbeS ∧ (drainS.quarter 0).scratchTagBad.get false 0xC000 = false ∧ drainS.isF (F.QC_INJ_ARM 0) = false)
    ∧ ((drainE.tile 0).sb[0]? = some sbe0 ∧ drainE.cached (tileQuarter 0) 0 false = true ∧ drainE.qFind (tileQuarter 0) sbe0.line = some 0
      ∧ (drainE.quarter (tileQuarter 0)).way (setOf sbe0.line) 0 = wayE ∧ wayE.maskErrs = [] ∧ drainE.isF (F.QC_INJ_ARM 0) = false ∧ drainE.uncachedWrite 0 sbe0.line = false
      ∧ drainE.bufOf (tileQuarter 0) sbe0.line = none)
    ∧ (∀ n, ((drainE.quarter (tileQuarter 0)).ways.get CWay.free n).tagBad = false)
    ∧ ((drainW.tile 0).sb[0]? = some sbe0 ∧ drainW.cached (tileQuarter 0) 0 false = false ∧ drainW.uncachedWrite 0 sbe0.line = false ∧ drainW.earlyHere (tileQuarter 0) sbe0.line = false
      ∧ drainW.grantsNow entryW = true) :=
  ⟨nofun, by decide +kernel, by decide +kernel, oneWay wayE rfl, by decide +kernel⟩

/-- A message from tile 5 on its way to tile 0, and one that has arrived. -/
def msg0 : Msg := ⟨5, 0, false, 0, false, [1, 2]⟩
def pktGo : Packet := mkPkt .msg 0 (.tile 5) (.tile 0) 0 0 0 false (.message msg0) noLine
def pktAt : Packet := { pktGo with prev := .tile 1, cur := .tile 0 }
def withNet (y : Tile) (l : List Packet) : State := { run y with net := l }

/-- A packet of a full buffer's sender: tile 4's buffer for it holds two. -/
def pktWait : Packet := { pktGo with prev := .tile 5, cur := .tile 4 }

/-- An item of node 0 that tile 0 is being handed. -/
def item0 : Item := ⟨0, 0, 0x55, 7, 3, 1, 0, [1, 2], false, 2, 0, 0, 0⟩
def tileW : Tile := { tile0 with mode := .inGetwork 0xFFFFF00000000200#64 4, workIn := some item0, workParts := 1 }
def pktWork : Packet := { mkPkt .msg 2 lampStop (.tile 0) 0 0 0 false (.work false) noLine with prev := .tile 1, cur := .tile 0 }
def pktProbe (kind : Nat) : Packet := { mkPkt .msg kind (.tile 5) (.tile 0) 0 8 0 false (.probe ⟨0xAB, 100000, 1⟩) noLine with prev := .tile 1, cur := .tile 0 }
/-- Every credit of tile 0's probe lane is out. -/
def probeFull : State := { withNet tile0 (pktProbe 3 :: List.replicate 8 { pktProbe 4 with src := .tile 0, dst := .tile 5, prev := .tile 0 }) with
  fld := (ward.setF (F.TIL_AVE_MIRROR_MIRROR 0) 1).fld }

theorem wit_PacketsTravelAndArrive :
    (let s : State := { withNet tile0 [pktGo] with tiles := ⟨[(0, tile0), (5, { Tile.init with mode := .running })]⟩ }
     s.net[0]? = some pktGo ∧ pktGo.cur ≠ pktGo.dst ∧ pktGo.cur = .tile 5 ∧ (s.tile 5).mode = .running ∧ pktGo.stuck = false ∧ isHead s.net 0 pktGo = true
       ∧ bufCount s.net pktGo.cur (nextHop pktGo.src pktGo.dst pktGo.cur) .msg 0 < bufLimit .msg 0)
    ∧ (let s : State := { withNet tile0 [pktGo, pktWait, pktWait] with tiles := ⟨[(0, tile0), (5, { Tile.init with mode := .running })]⟩ }
       (s.tile 5).mode = .running ∧ isHead s.net 0 pktGo = true ∧ bufLimit .msg 0 ≤ bufCount s.net pktGo.cur (nextHop pktGo.src pktGo.dst pktGo.cur) .msg 0)
    ∧ (255 : TileId) ≠ 0
    ∧ (let s := withNet tile0 [pktAt]
       s.arrived 0 = some pktAt ∧ pktAt.dst = .tile 0 ∧ pktAt.prev ≠ pktAt.cur ∧ pktAt.payload = .message msg0 ∧ msg0.gated = false ∧ pktAt.dead = false ∧ s.tileWard 0 = some 0
         ∧ s.resettingWard 0 = false ∧ (s.tile 0).inbox.length < 16 ∧ (s.tile 0).mode = .running)
    ∧ ((withNet tile0 [pktAt]).setF (F.WRD_STATUS_RESETTING 0) 1).resettingWard 0 = true
    ∧ ((withNet { tile0 with inbox := List.replicate 16 msg0 } [pktAt]).tile 0).inbox.length = 16
    ∧ (let s := withNet tileW [pktWork]
       s.arrived 0 = some pktWork ∧ pktWork.poison = false ∧ pktWork.dead = false ∧ (s.tile 0).workIn = some item0 ∧ (s.tile 0).workParts = 1 ∧ (s.tile 0).workBad = 0 ∧ item0.ppoison = 0
         ∧ s.nodeByKey 0 0x55 = some node0)
    ∧ (∀ k ∈ [3, 4], (withNet tile0 [pktProbe k]).arrived 0 = some (pktProbe k) ∧ (pktProbe k).chan = .msg)
    ∧ (withNet tile0 [pktProbe 3]).isF (F.TIL_AVE_MIRROR_MIRROR 0) = false
    ∧ (let s := (withNet tile0 [pktProbe 3]).setF (F.TIL_AVE_MIRROR_MIRROR 0) 1
       s.isF (F.TIL_AVE_MIRROR_MIRROR 0) = true ∧ s.hasCredit (.tile 0) 8 = true)
    ∧ (probeFull.isF (F.TIL_AVE_MIRROR_MIRROR 0) = true ∧ probeFull.arrived 0 = some (pktProbe 3) ∧ probeFull.hasCredit (.tile 0) 8 = false)
    ∧ ((withNet { tile0 with probeOut := true, probeSerial := 1 } [pktProbe 4]).tile 0).probeSerial = 1 := by
  decide +kernel

/-- A gate of wards 0 to 0, and a message that is sent through it. -/
def gate0 : Gate := ⟨0, 0, false, 0⟩
def msgG : Msg := { msg0 with gated := true }
def pktG : Packet := { mkPkt .msg 0 (.tile 5) gateStop 0 0 0 false (.message msgG) noLine with prev := stopN 119, cur := gateStop }
/-- The packet that stands in the gate's buffer, bound for tile 0. -/
def pktIn : Packet := { pktG with dst := .tile 0, gated := true }
def gateS (buf : List Packet) : State :=
  { withNet tile0 [pktG] with plan := { ward.plan with gates := ⟨[(0, some gate0)]⟩ }, gateBufs := ⟨[(0, buf)]⟩ }

theorem wit_GatesAndProbesSend : ward.carries .s none true ∧ ((0x0001000000AB0005#64).getLsbD 48 = true
    ∧ (gateS []).gate 0 = some gate0 ∧ (gateS []).arrived 0 = some pktG ∧ pktG.payload = .message msgG ∧ msgG.gated = true ∧ msgG.gate = 0 ∧ pktG.dead = false ∧ pktG.prev ≠ pktG.cur
    ∧ (gateS []).resettingWard 0 = false ∧ ((gateS []).setF (F.WRD_STATUS_RESETTING 0) 1).resettingWard 0 = true
    ∧ ((gateS (List.replicate 7 pktG)).gateBuf 0).length < 8 ∧ 8 ≤ ((gateS (List.replicate 8 pktG)).gateBuf 0).length
    ∧ (gateS [pktIn]).gateBuf 0 = pktIn :: [] ∧ pktIn.payload = .message msgG ∧ ((gateS []).tile 0).mode = .running ∧ ((gateS []).tile 0).inbox.length < 16) :=
  ⟨carries_s, by decide +kernel⟩

/-- A token for port 1 of node 0, by key. -/
def tok0 : Token := ⟨0x55, 1, 8, 0, 0, 7, 0, 0x1234⟩
/-- Node 0 with rule ANY. -/
def anyWard : State := { ward with plan := { ward.plan with wards := ⟨[(0, { sec0 with nodes := [{ node0 with rule := 1 }] })]⟩ } }
def got (s : State) (tk : Token) : State := { s with arrivals := [(0, tk, .init)] }
/-- A PUTTOK's token at Lamplighter's stop; its tile waits for it. -/
def pktTok : Packet := { mkPkt .msg 1 (.tile 0) lampStop 0 0 0 false (.token tok0 (.puttok 0)) noLine with prev := stopN 119, cur := lampStop }
def putS : State := withNet { tile0 with mode := .inPuttok 0xFFFFF00000000200#64 } [pktTok]

/-- Tile 0 waits for pool 3, whose queue holds an item. -/
def handS : State :=
  { run { tile0 with mode := .inGetwork 0xFFFFF00000000200#64 4 } with gwQueue := [0], lamp := ⟨[(0, { LampWard.init with ready := [item0] })]⟩ }

theorem lampw_ward (w : WardId) : handS.lampw w = if w.val = 0 then { LampWard.init with ready := [item0] } else LampWard.init := by
  simp only [State.lampw, Tbl.get]; show lookupCell LampWard.init [(0, _)] w.val = _; simp only [lookupCell]
theorem noTrace (w : WardId) : (handS.lampw w).traceQ = [] := by rw [lampw_ward]; split <;> rfl

theorem wit_TokensFireAndItemsAreDispatched :
    ((got ward tok0).arrivals[0]? = some (0, tok0, .init) ∧ tok0.gated = false ∧ tok0.delayed = false ∧ (∀ x ∈ ((got ward tok0).lampw 0).waiting, x.2 ≠ .init)
      ∧ tok0.byKey = true ∧ (got ward tok0).nodeByKey 0 0x55 = some node0 ∧ tok0.port.toNat < node0.arity ∧ (got ward tok0).storeTakes 0 = true ∧ (got ward tok0).storeTurn 0 = true
      ∧ tok0.global = false ∧ node0.rule = 0 ∧ 2 ≤ node0.arity ∧ (∀ x ∈ ((got ward tok0).lampw 0).tokens, x.node ≠ 0))
    ∧ (∀ t : TileId, TokSrc.init ≠ .puttok t)
    ∧ ((got ward { tok0 with node := 0x56 }).nodeByKey 0 0x56 = none ∧ node0.arity ≤ ({ tok0 with port := 2 } : Token).port.toNat)
    ∧ ((got anyWard tok0).nodeByKey 0 0x55 = some { node0 with rule := 1 } ∧ engineClass node0.cls = false ∧ tok0.port.toNat < 4 ∧ (got anyWard tok0).storeTurn 0 = true)
    ∧ (0 < putS.net.length ∧ putS.arrived 0 = some pktTok ∧ pktTok.payload = .token tok0 (.puttok 0) ∧ pktTok.dead = false ∧ pktTok.prev ≠ pktTok.cur
      ∧ (∀ x ∈ (putS.lampw 0).waiting, x.2 ≠ .puttok 0) ∧ (putS.tile 0).mode = .inPuttok 0xFFFFF00000000200#64 ∧ putS.storeTakes 0 = true ∧ putS.storeTurn 0 = true)
    ∧ (let s : State := { ward with lamp := ⟨[(0, { LampWard.init with waiting := [(tok0, .init)] })]⟩ }
       (s.lampw 0).waiting = (tok0, .init) :: [] ∧ s.storeTakes 0 = true ∧ s.storeTurn 0 = true ∧ s.nodeByKey 0 0x55 = some node0)
    ∧ (∀ x, (handS.lampw x).traceQ = [])
    ∧ (handS.isF (F.LMPW_CTRL_TRACE_EN 0) = false ∧ handS.dispatchStopped 0 = false ∧ handS.dispatchTurn 0 = true ∧ handS.poolTile 0 3 = some 0 ∧ handS.nextItem 0 3 = some item0
      ∧ item0.ward = 0 ∧ ward.power.vauxGood = true)
    ∧ (∀ w, (ward.lampw w).delays = []) ∧ (∀ w, (ward.lampw w).traceQ = []) :=
  ⟨by decide +kernel, nofun, by decide +kernel, by decide +kernel, by decide +kernel, by decide +kernel, noTrace, by decide +kernel, fun _ => rfl, fun _ => rfl⟩

/-- Pin 2 of ward 0 with a candidate level, and with an edge held. -/
def pinS (x : EvtPin) : State := { ward with pins := ⟨[(2, x)]⟩ }
def bind2 : EvtBind := ⟨2, 3, 0, 1, 0x55, 7, 0, 25⟩
def edge2 : EvtPin := { EvtPin.init with level := true, edge := some (200000, 1, true, true) }
/-- An entry of list 1 whose firing has begun, and one of list 2 that has not. -/
def delay0 (list : Nat) (begun : Bool) : DelayEntry := ⟨0, 0x55, 7, 1, 0, list, 0, begun, begun⟩
def delayS : State := { ward with lamp := ⟨[(0, { LampWard.init with delays := [delay0 1 true, delay0 2 false] })]⟩ }

theorem wit_ListsRingsAndPins :
    (delayS.carries (.w 0) (State.ownVf (.w 0) 0 0x3000) true ∧ ward.carries .s (State.ownVf .s 0 0x3048) true)
    ∧ (((delayS.lampw 0).delays.filter (fun e => (6#8).toNat.testBit e.list && !e.begun)).length = 1 ∧ (ward.lampw 0).traceQ = [] ∧ (32 : Nat) < 2 ^ 30)
    ∧ (ward.bindOf 2 = some (0, bind2) ∧ (ward.pin 2).level ≠ true ∧ bind2.filter ≠ 0)
    ∧ (let s := pinS { EvtPin.init with level := true, cand := some (true, 199000) }
       (s.pin 2).cand = some (true, 199000) ∧ (s.pin 2).edge = none ∧ s.bindOf 2 = some (0, bind2) ∧ bind2.edge = 3)
    ∧ (let s := pinS edge2
       (s.pin 2).edge = some (200000, 1, true, true) ∧ bind2.action ≠ 1 ∧ s.bindOf 2 = some (0, bind2) ∧ s.resettingWard 0 = false ∧ s.swapping 0 = false ∧ s.frozenWard 3 0 = false
         ∧ s.nodeByKey 0 bind2.nodeKey = some node0 ∧ bind2.port.toNat < node0.arity ∧ s.storeTakes 0 = true ∧ s.storeTurn 0 = true ∧ ∀ x ∈ (s.lampw 0).tokens, x.node ≠ node0.index) :=
  ⟨⟨carries_w (by decide +kernel), .inl (by decide +kernel)⟩, by decide +kernel, by decide +kernel, by decide +kernel, by decide +kernel⟩

/-! ### The Row -/

/-- A feed message whose OP is COPY. -/
def msgF : Msg := ⟨5, 0, false, 0, false, 0x50 :: List.replicate 63 0⟩
/-- Engine 68, the first bulk-move engine, is fed by tile 0. -/
def feedS (m : Msg) : State := ((run { tile0 with inbox := [m] }).setF (F.ENG_CTRL_FEED_EN 68) 1).setF (F.ENG_CTRL_FEED_TILE 68) 0
/-- Its ring of two slots stands at a device address, with one descriptor waiting. -/
def ringS (a : Nat) : State := ((ward.setF (F.ENG_RING_BASE_BASE 68) a).setF (F.ENG_RING_LOG2_LOG2 68) 1).setF (F.ENG_RING_TAIL_TAIL 68) 1
/-- An item for its class waits. -/
def nodeE : PlanNode := { node0 with cls := 0x15, template := 0x50 }
def itemE : Item := { item0 with cls := 0x15 }
def lampS : State :=
  { ward with
    plan := { ward.plan with wards := ⟨[(0, { sec0 with nodes := [nodeE] })]⟩ }
    lamp := ⟨[(0, { LampWard.init with ready := [itemE] })]⟩ }

def reqRing : LEntry := { LEntry.make (Req.make .rdC ⟨false, 0x80000⟩ (.engine 68) (some 0) false) (.ward 0) with role := 1 }

theorem wit_EnginesTakeDescriptors : engType 68 ≠ .mxe
    ∧ ((feedS msgF).feedCand 68 = some (0, msgF) ∧ (feedS msgF).nextPath 68 = some .feed ∧ ((feedS msgF).tile 0).inbox = msgF :: [] ∧ (feedS msgF).feedTarget 0 msgF = some 68
      ∧ (feedS msgF).coreActive = true ∧ (68 : EngId) ∈ (feedS msgF).feedEngines 0)
    ∧ ((feedS msg0).feedTarget 0 msg0 = none ∧ ((feedS msg0).tile 0).inbox = msg0 :: [] ∧ (68 : EngId) ∈ (feedS msg0).feedEngines 0)
    ∧ ((ringS 0x10000000).nextPath 68 = some .ring ∧ (ringS 0x10000000).engineWard 68 = some 0
      ∧ (ringS 0x10000000).engXlat 68 ((ringS 0x10000000).ringSlot 68 0) 64 .read = .inr ⟨false, 0x2000000, false, false, false⟩
      ∧ (ringS 0x10000000).engHas 68 (fun _ => true) = false ∧ (ringS 0x10000000).grantsNow reqRing = true)
    ∧ ((ringS 0x1000).nextPath 68 = some .ring ∧ (ringS 0x1000).engXlat 68 ((ringS 0x1000).ringSlot 68 0) 64 .read = .inl 1)
    ∧ (lampS.engineWard 68 = some 0 ∧ lampS.leastLoaded 0 (engType 68) = some 68 ∧ lampS.nextPath 68 = some .lamp ∧ lampS.lampCand 68 = some itemE ∧ itemE.ward = 0
      ∧ lampS.dispatchTurn 0 = true ∧ lampS.nodeByKey 0 itemE.key = some nodeE ∧ lampS.isF (F.LMPW_CTRL_TRACE_EN 0) = false ∧ (lampS.lampw 0).traceQ = []) := by
  decide +kernel

/-- Ward 0 owns tile 0 alone of the tiles. -/
def oneTile : State := { ward with plan := { ward.plan with own := ⟨[(0, { own0 with tiles := 1 })]⟩ } }
theorem wit_EngineRegistersControl : (∀ vf ∈ [0x20, 0x08, 0, 0x40], (ringS 0).carries (.w 0) (State.engVf 68 vf) ((ringS 0).ownsEngine (.w 0) 68))
    ∧ oneTile.carries .s (State.engVf 68 0) (oneTile.ownsEngine .s 68)
    ∧ (1 + 65536 - (ringS 0).getF (F.ENG_RING_DONE_DONE 68)) % 65536 ≤ (ringS 0).ringSize 68 ∧ (ringS 0).ringSize 68 < (3 + 65536 - (ringS 0).getF (F.ENG_RING_DONE_DONE 68)) % 65536
    ∧ (let s : State := { oneTile with tiles := ⟨[(0, tile0)]⟩ }
       s.engineWard 68 = some 0 ∧ s.tileWard 0 = some 0 ∧ s.tileWard 1 ≠ some 0 ∧ (s.tile (Fin.ofNat 256 (s.getF (F.ENG_CTRL_FEED_TILE 68)))).mode = .running)
    ∧ (oneTile.engine 68).run = none ∧ oneTile.engHas 68 (fun _ => true) = false :=
  ⟨fun vf h => carries_w (by revert vf h; decide +kernel), .inl (by decide +kernel), by decide +kernel⟩

/-- A descriptor of `op`: `n` bytes from `a` to `b`. -/
def desc0 (op a b n x : Nat) : Desc := State.Desc.blank (BitVec.ofNat 512 (op + a * 2 ^ 128 + x * 2 ^ 192 + b * 2 ^ 256 + n * 2 ^ 320)) .ring
def engS (d : Desc) (x : Engine) : State := { ward with engines := ⟨[(68, { x with queue := [d] })]⟩ }
def copy4 : Desc := desc0 0x50 0x10000040 0x10001000 4 0
/-- Engine 68 has read the operand line of `copy4`. -/
def fetched : Engine := { Engine.init with fetched := ⟨[(0x80001 * 4, some ⟨line0, false⟩)]⟩ }
def copyS : State := engS copy4 fetched

/-- A gather of records of no bytes, at the first gather engine. -/
def gather0 : Desc := desc0 0x30 0x10000040 0x10001000 1 0
def gatherS : State := { ward with engines := ⟨[(56, { Engine.init with queue := [gather0] })]⟩ }

theorem wit_EngineOperationsExecute :
    ((copyS.engine 68).queue = copy4 :: [] ∧ copyS.coreActive = true ∧ copy4.aborted = none ∧ (copyS.engine 68).run = none ∧ copy4.descPoison = false
      ∧ opType copy4.op = some (engType 68) ∧ copyS.headerBad 68 copy4 = false ∧ copy4.op = 0x50)
    ∧ ((gatherS.engine 56).queue = gather0 :: [] ∧ opType gather0.op = some (engType 56) ∧ gatherS.headerBad 56 gather0 = false ∧ (gatherS.planOf 56 gather0).bad = true)
    ∧ ((copyS.planOf 68 (desc0 0x50 0x10000040 0x10001000 0 0)).bad = false ∧ (copyS.planOf 68 (desc0 0x50 0x10000040 0x10001000 0 0)).empty = true)
    ∧ (let p := copyS.planOf 68 copy4
       let o := p.out [] (copyS.engRd 68)
       p.bad = false ∧ p.empty = false ∧ p.body = 0 ∧ p.badBody [] = false ∧ copyS.engineWard 68 ≠ none ∧ copyS.extentFault 68 (p.extents []) = none
       ∧ (copyS.fetchAll 68 (State.readsOf (p.extents []))).isNone = true ∧ (copyS.usable 68 o.parts).2 = none
       ∧ (copyS.fetchAll 68 (State.readsOf ((copyS.usable 68 o.parts).1.flatMap (·.touch)))).isNone = true ∧ copyS.readsPoison 68 (State.readsOf (p.extents [])) = false ∧ o.index = none
       ∧ ((copyS.usable 68 o.parts).1.foldl (fun outs p => (p.chunks (copyS.engRd 68) (copyS.engRdNow 68 outs)).foldl (copyS.addChunk 68) outs) []).map (fun y => (y.line.n, y.mask, y.data, y.poison))
           = [(0x80040, 0xF, 0x03020100, false)]) := by
  refine ⟨by decide +kernel, by decide +kernel, by decide +kernel, by decide +kernel⟩

def ranE (path : SubPath) (back : Nat) : State :=
  engS { copy4 with path := path, key := 0x55, item := if path = .lamp then some itemE else none } { Engine.init with run := some ⟨0, 0, 0, [], 0, back⟩ }
/-- A descriptor whose OP the engine does not perform. -/
def wrongOp : Desc := { desc0 0x60 0 0 4 0 with path := .feed }
def outNode : OutEntry := ⟨0x77, 0, 1, 0⟩

theorem wit_EnginesCompleteTheirDescriptors :
    (∀ p ∈ [SubPath.ring, .feed, .lamp], ∀ back ∈ [0, 2], (ranE p back).power.coreUp = true ∧ (ranE p back).tokensOut (.engine 68) = false
      ∧ ((ranE p back).engine 68).run = some ⟨0, 0, 0, [], 0, back⟩ ∧ (ranE p back).engCommitted 68 = true ∧ copy4.irq = false ∧ copy4.replyBit = false
      ∧ (ranE p back).engHas 68 (fun x => x.role == 2) = false)
    ∧ (outNode.valid = true ∧ outNode.vectorFlag = false ∧ outNode.gateFlag = false)
    ∧ (let s : State := { ranE .lamp 0 with plan := { ward.plan with wards := ⟨[(0, { sec0 with nodes := [{ nodeE with outs := [outNode] }] })]⟩ } }
       s.nodeByKey 0 itemE.key = some { nodeE with outs := [outNode] } ∧ itemE.ward = 0)
    ∧ (((engS wrongOp Engine.init).engine 68).run = none ∧ wrongOp.aborted = none ∧ wrongOp.descPoison = false ∧ opType wrongOp.op ≠ some (engType 68)
      ∧ (engS wrongOp Engine.init).tokensOut (.engine 68) = false ∧ wrongOp.irq = false ∧ wrongOp.replyBit = false) := by
  decide +kernel

/-! ### Quarter caches -/

/-- A snoop of the window's line from its home at quarter 0. -/
def snoop (k : SnpKind) : Packet :=
  { mkPkt .snp k.code (homeStop 2) (quarterStop 0 (homeStop 2)) 0 0 9 false (.lineSnoop ⟨false, 0x80001⟩) ⟨false, 0x80001⟩ with
    prev := stopN 119, cur := quarterStop 0 (homeStop 2) }
def snoopS (k : SnpKind) (q : Quarter) : State := { ward with net := [snoop k], quarters := ⟨[(0, q)]⟩ }
def holds (c : CWay) : Quarter := { Quarter.init with ways := ⟨[(16, c)]⟩ }
def bufWb : QBuf := ⟨9, { Req.make .wb ⟨false, 0x80001⟩ (.quarter 0 0) (some 0) false with mask := 0xFF }, ⟨5, false⟩, 0⟩

/-- The answer to a request of quarter 0, of XID 3, for the window's line. -/
def entryQ (k : ReqKind) (v : Option LineVal) : LEntry :=
  { LEntry.make (Req.make k ⟨false, 0x80001⟩ (.quarter 0 0) (some 0) false) (.ward 0) with rdata := v, tag := 3 }
def grantP (kind : Nat) : Packet :=
  { mkPkt .rsp kind (homeStop 2) (quarterStop 0 (homeStop 2)) 0 0 3 false (.empty false) ⟨false, 0x80001⟩ with prev := stopN 119, cur := quarterStop 0 (homeStop 2) }
def grantS (kind : Nat) (e : LEntry) (q : Quarter) : State :=
  { ward with net := [grantP kind], quarters := ⟨[(0, q)]⟩, ledger := ⟨⟨[(3, some e)]⟩, [], none⟩ }

/-- What quarter 0 may hold of the line when it is snooped. -/
def snooped : List Quarter :=
  [Quarter.init, { Quarter.init with lost := [⟨false, 0x80001⟩] }, { Quarter.init with bufs := [bufWb] }, holds way0, holds wayE, holds { way0 with valid := 0xFF },
   holds { way0 with st := .s }, holds { way0 with st := .sm }, holds { way0 with st := .im }, holds { way0 with hold := true }, { holds wayE with lost := [⟨false, 0x80001⟩] }]
/-- A grant with data, one whose DATA is still to come, and GNT_X, of a quarter that holds the line or asks for it. -/
def grants : List (Nat × Option LineVal × Quarter) :=
  [(1, none, Quarter.init), (2, none, Quarter.init), (1, some ⟨line0, false⟩, Quarter.init), (2, some ⟨line0, false⟩, Quarter.init), (2, some ⟨line0, false⟩, holds { way0 with st := .im, valid := 1 }),
   (3, none, holds { way0 with st := .im, valid := 1 }), (3, none, holds { way0 with st := .sm, valid := 1 })]
def granted (x : Nat × Option LineVal × Quarter) : State := grantS x.1 (entryQ .rdX x.2.1) x.2.2

theorem wit_SnoopsAndGrantsReachTheQuarter :
    (∀ k ∈ [SnpKind.inv, .snpS, .snpInv, .snpCur], ∀ q ∈ snooped,
      (snoopS k q).arrived 0 = some (snoop k) ∧ (snoop k).chan = .snp ∧ (snoop k).kind = k.code ∧ stopQuarter (snoop k).dst = some 0 ∧ stopHome (snoop k).src = some 2
        ∧ (snoopS k q).freezes 0 = false ∧ (snoopS k q).grantInFlight 0 ⟨false, 0x80001⟩ = false)
    ∧ (∀ q ∈ snooped, (snoopS .inv q).isF (F.QC_INJ_ARM 0) = false ∧ (∀ w < 16, (((snoopS .inv q).quarter 0).way (setOf ⟨false, 0x80001⟩) w).tagBad = false)
        ∧ (snoopS .inv q).getF (F.QC_CNT_VALUE 0 3) < 2 ^ (F.QC_CNT_VALUE 0 3).w ∧ (∀ c ∈ q.ways.cells, c.2.errs = [] ∧ c.2.maskErrs = []))
    ∧ snooped.map (fun q => (snoopS .inv q).qFind 0 ⟨false, 0x80001⟩) = none :: none :: none :: List.replicate 8 (some 0)
    ∧ (∀ x ∈ grants, (granted x).arrived 0 = some (grantP x.1) ∧ (grantP x.1).chan = .rsp ∧ (grantP x.1).kind = x.1 ∧ (granted x).quarterEntry (grantP x.1) = some (0, entryQ .rdX x.2.1)
        ∧ (granted x).isF (F.QC_INJ_ARM 0) = false ∧ (∀ w < 16, (((granted x).quarter 0).way 1 w).tagBad = false))
    ∧ ((entryQ .rdX none).pend = 1 ∧ (entryQ .rdX none).aborted = false ∧ (entryQ .rdX none).grant = none ∧ setOf (entryQ .rdX none).req.line = 1)
    ∧ (∀ x ∈ grants, x.2.2 = Quarter.init → (granted x).qFind 0 ⟨false, 0x80001⟩ = none ∧ ((granted x).pickWay 0 0 1).isSome = true ∧ ∀ w < 16, (((granted x).quarter 0).way 1 w).held = false)
    ∧ (∀ x ∈ grants, x.2.2 ≠ Quarter.init → (granted x).qFind 0 ⟨false, 0x80001⟩ = some 0 ∧ (((granted x).quarter 0).way 1 0).maskErrs = []) := by
  decide +kernel

theorem wit_QuarterRegistersControlTheCache : ((snoopS .inv (holds { way0 with hold := true })).qFind 0 ⟨false, 0x80001⟩ = some 0
    ∧ (ward.setF (F.QC_STATUS_DRAINING 0) 1).draining 0 = true ∧ (ward.setF (F.QC_STATUS_DRAINING 0) 1).drainEmpty 0 = true
    ∧ (ward.setF (F.QC_CTRL_ENABLE 0) 1).isF (F.QC_CTRL_ENABLE 0) = true ∧ (ward.setF (F.QC_CTRL_ENABLE 0) 0).isF (F.QC_CTRL_ENABLE 0) = false ∧ tileQuarter 15 = 0
    ∧ 40 < ((0x2903#64).extractLsb' 8 6).toNat ∧ (0x2903#64).getLsbD 1 = true ∧ (0x2903#64).getLsbD 0 = true)
    ∧ ward.carries .s none true ∧ (∀ n < 2, (ward.setF (F.QC_CTRL_ENABLE 0) n).carries .s none true) :=
  ⟨by decide +kernel, carries_s, fun n h => .inl (by revert n h; decide +kernel)⟩

/-! ### Homes -/

/-- A request for line `n` of home 0 stands at its stop. -/
def reqAt (r : Req) : Packet :=
  { mkPkt .req r.kind.code (quarterStop 0 (homeStop 2)) (homeStop 2) 0 0 9 false (.request r) r.line with prev := stopN 119, cur := homeStop 2 }
def homeS (r : Req) (h : Home) : State := { ward with net := [reqAt r], homes := ⟨[(2, h)]⟩ }
def line4 : LineAddr := ⟨false, 0x80001⟩
def askQ (k : ReqKind) : Req := Req.make k line4 (.quarter 0 0) (some 0) false
def askE (k : ReqKind) : Req := Req.make k line4 (.engine 68) (some 0) false
def askH (k : ReqKind) : Req := Req.make k line4 .host none false

/-- `asks` and `lineQuiet` as a check. -/
def asksB (s : State) (i h : Nat) (p : Packet) (r : Req) : Bool :=
  decide (s.arrived i = some p ∧ p.payload = .request r ∧ stopHome p.dst = some h ∧ s.fromFenced r = false ∧ p.poison = false
    ∧ r.called = false ∧ s.heldReset r = false ∧ (s.homeN h).txns.length < 1024 ∧ s.dirVictim h r.line.n = none ∧ (h = 16 → s.atomicBufs < 16))
def quietB (s : State) (h : Nat) (l : LineAddr) : Bool := decide (s.lineActive h l = false ∧ ∀ e ∈ (s.homeN h).refused, e.2.line ≠ l)
theorem asks_of {s : State} {i h : Nat} {p : Packet} {r : Req} (k : asksB s i h p r = true) : s.asks i h p r := by
  unfold asksB at k; have h := of_decide_eq_true k; exact h
theorem quiet_of {s : State} {h : Nat} {l : LineAddr} (k : quietB s h l = true) : s.lineQuiet h l := by
  unfold quietB at k; have h := of_decide_eq_true k; exact h

/-- Some part of the home's memory has been written. -/
def homeW : Home := { Home.init with bitmap := ⟨[(regionOf 0x80001, true)]⟩ }

/-- The line's directory entry: one X holder, or two sharers. -/
def entX (q : QuarterId) : DirEntry := ⟨presOf [quarterHolder q], true, false, 0⟩
def entSh : DirEntry := ⟨presOf [quarterHolder 0, quarterHolder 1], false, false, 0⟩
def dirH (d : DirEntry) : Home := { Home.init with dir := ⟨[(0x80001, some d)]⟩ }
/-- A transaction works on the line; a request waits for it. -/
def busyH : Home := { Home.init with txns := [State.Txn.start 3 (askE .rdC) line4] }
def waitH : Home := { Home.init with refused := [(3, { askE .rdC with nacks := 8, refusedAt := some 0, called := true })] }

def quarterKinds : List ReqKind := [.rdS, .rdX, .upg, .own, .fill, .wb, .wbP, .evict]
def engineKinds : List ReqKind := [.rdC, .wrInv, .atP, .atFar]
/-- Requests of every kind at home 2, and what it holds: nothing of the part, a written part, the line in X or shared. -/
def asksAt : List (Req × Home) :=
  [Home.init, homeW, dirH (entX 1), dirH (entX 0), dirH entSh].flatMap (fun h => quarterKinds.map (fun k => (askQ k, h)))
  ++ [homeW, dirH (entX 1)].flatMap (fun h => engineKinds.map (fun k => (askE k, h)))
  ++ [ReqKind.hRd, .hWr].map (fun k => (askH k, homeW))
theorem asksAll : ∀ x ∈ asksAt, asksB (homeS x.1 x.2) 0 2 (reqAt x.1) x.1 = true ∧ quietB (homeS x.1 x.2) 2 x.1.line = true := by decide +kernel

theorem wit_HomesServeRequests : homeOf (0x80001 * 64) = 2
    ∧ (∀ x ∈ asksAt, (homeS x.1 x.2).asks 0 2 (reqAt x.1) x.1 ∧ (homeS x.1 x.2).lineQuiet 2 x.1.line)
    ∧ ((homeS (askQ .rdS) homeW).partInit line4.n = true ∧ (homeS (askQ .rdS) Home.init).partInit line4.n = false ∧ (askQ .upg).holder = some (quarterHolder 0)
      ∧ (askH .hRd).mv = .i ∧ (homeS (askQ .rdS) homeW).dirGet 2 line4.n = none)
    ∧ (∀ d ∈ [entX 1, entX 0, entSh], (homeS (askQ .rdX) (dirH d)).dirGet 2 line4.n = some d ∧ d.poison = false)
    ∧ (askQ .rdS).holder ≠ some (quarterHolder 1) ∧ (ward.quarter 1).fenced = false :=
  ⟨by decide +kernel, fun x h => ⟨asks_of (asksAll x h).1, quiet_of (asksAll x h).2⟩, by decide +kernel, by decide +kernel, by decide +kernel, rfl⟩

/-- A home at which something works on the line, or a request waits for it; quarter 0's slot kept for another line. -/
def busyHomes : List Home := [busyH, waitH, { busyH with refused := [(4, { askQ .rdS with line := ⟨false, 7⟩ })] }]
def busyAt : List (Req × Home) :=
  busyHomes.flatMap (fun h => quarterKinds.map (fun k => (askQ k, h)) ++ engineKinds.map (fun k => (askE k, h)) ++ [ReqKind.hRd, .hWr].map (fun k => (askH k, h)))
  ++ [({ askE .rdC with nacks := 7 }, busyH)]
theorem busyAll : ∀ x ∈ busyAt, asksB (homeS x.1 x.2) 0 2 (reqAt x.1) x.1 = true := by decide +kernel

theorem wit_BusyLinesRefuse :
    (∀ x ∈ busyAt, (homeS x.1 x.2).asks 0 2 (reqAt x.1) x.1)
    ∧ (∀ x ∈ busyAt, ((homeS x.1 x.2).lineActive 2 line4 = true ∨ (homeS x.1 x.2).lineWaited 2 line4 = true) ∧ (homeS x.1 x.2).hostCopyAsked 2 line4 = false)
    ∧ (busyHomes.map (fun h => h.refused.all (fun e => e.2.src.quarter? != (askQ .rdS).src.quarter? || decide (e.2.kind = .atFar) || decide (e.2.line = line4))) = [true, true, false])
    ∧ (((askQ .rdS).src.quarter?).isSome = true ∧ ((askE .rdC).src.quarter?).isSome = false ∧ (askE .rdC).src ≠ .host ∧ (askE .rdC).nacks + 1 < 8
      ∧ (busyH.refused.filter (fun e => decide (8 ≤ e.2.nacks))).length < 16) :=
  ⟨fun x h => asks_of (busyAll x h), by decide +kernel, by decide +kernel, by decide +kernel⟩

/-- `onlyTxn` and `uncachedLine` as checks. -/
def onlyB (s : State) (h : Nat) (t : Txn) : Bool :=
  decide (t ∈ (s.homeN h).txns ∧ t.evictFor = none ∧ t.hostSnoop = none ∧ t.keyLost = false ∧ t.sigDue = false ∧ t.doomed = false ∧ (s.homeN h).initing = []
    ∧ (∀ u ∈ (s.homeN h).txns, u ≠ t → u.xid ≠ t.xid ∧ u.line ≠ t.line ∧ u.evictFor = none)
    ∧ (∀ e ∈ (s.homeN h).refused, e.2.line ≠ t.line ∧ s.lineActive h e.2.line = true) ∧ s.fromFenced t.req = false)
theorem only_of {s : State} {h : Nat} {t : Txn} (k : onlyB s h t = true) : s.onlyTxn h t := by
  unfold onlyB at k; have h := of_decide_eq_true k; exact h
theorem uncached_of {s : State} {h : Nat} {l : LineAddr} (k : ((s.dirGet h l.n).all (fun d => d.pres == 0 && !d.excl)) = true) : s.uncachedLine h l := by
  intro d hd; rw [hd] at k; simpa using k

/-- A transaction of quarter 0 that snoops quarter 1, and another that also snoops quarter 3. -/
def txnN (k : ReqKind) (left : List (Fin 17)) : Txn := { State.Txn.start 9 (askQ k) line4 with phase := .snoop left, holder := some (quarterHolder 1) }
def ansP (k : RspKind) (pl : Payload) : Packet :=
  { mkPkt .rsp k.code (quarterStop 1 (homeStop 2)) (homeStop 2) 0 0 9 false pl line4 with prev := stopN 119, cur := homeStop 2 }
def ansS (p : Packet) (t : Txn) : State := { ward with net := [p], homes := ⟨[(2, { dirH (entX 1) with txns := [t], bitmap := homeW.bitmap })]⟩ }
def answers : List (RspKind × Payload) := [(.ack, .empty false), (.ackS, .empty false), (.snpMask, .mask 3), (.lost, .empty false), (.data, .line ⟨line0, false⟩ none)]
def lefts : List (List (Fin 17)) := [[quarterHolder 1], [quarterHolder 1, quarterHolder 3]]

theorem onlyAns : ∀ r ∈ [ReqKind.rdX, .upg, .own], ∀ left ∈ lefts, ∀ a ∈ answers, onlyB (ansS (ansP a.1 a.2) (txnN r left)) 2 (txnN r left) = true := by decide +kernel
theorem wit_SnoopAnswersReachTheHome :
    (∀ r ∈ [ReqKind.rdX, .upg, .own], ∀ left ∈ lefts, ∀ a ∈ answers, (ansS (ansP a.1 a.2) (txnN r left)).onlyTxn 2 (txnN r left))
    ∧ (∀ r ∈ [ReqKind.rdX, .upg, .own], ∀ left ∈ lefts, ∀ a ∈ answers,
      let p := ansP a.1 a.2
      let s := ansS p (txnN r left)
      s.arrived 0 = some p ∧ stopHome p.dst = some 2 ∧ stopQuarter p.src = some 1 ∧ p.chan = .rsp ∧ p.kind = a.1.code ∧ (txnN r left).phase = .snoop left ∧ quarterHolder 1 ∈ left
        ∧ s.partInit line4.n = true ∧ s.isF (F.HOM_ECC_INJ_ARM 2) = false ∧ s.dirGet 2 line4.n = some (entX 1) ∧ (entX 1).pres = presOf [quarterHolder 1]
        ∧ (askQ r).holder = some (quarterHolder 0) ∧ (quarterHolder 0) ≠ quarterHolder 1 ∧ (askQ r).sealWard = none) :=
  ⟨fun r h l k a j => only_of (onlyAns r h l k a j), by decide +kernel⟩

/-- Transactions of home 2 on the window's line that read memory: a coherent read, quarter 0's reads, the host's read, a far atomic. -/
def readT (r : Req) (far : Bool) : Txn := { State.Txn.start 9 r line4 with far := far }
def memS (t : Txn) : State := { ward with homes := ⟨[(2, { homeW with txns := [t] })]⟩ }
def noErr : DramErr := ⟨[], false, none⟩
def atomic0 : AtReq := ⟨.add, true, 8, 1, 0⟩
def askA : Req := { askE .atFar with at? := some atomic0 }
def readTs : List Txn := [readT (askE .rdC) false, readT (askQ .rdX) false, readT (askQ .rdS) false, readT { askH .hRd with mv := .a } false, readT askA true]

theorem onlyRead : ∀ t ∈ readTs, onlyB (memS t) 2 t = true ∧ (((memS t).dirGet 2 t.line.n).all (fun d => d.pres == 0 && !d.excl)) = true := by decide +kernel
theorem wit_MemoryReadsEndTransactions :
    (∀ t ∈ readTs, (memS t).onlyTxn 2 t ∧ (memS t).uncachedLine 2 t.line)
    ∧ (∀ t ∈ readTs, t.xid = 9 ∧ t.phase = .dram ∧ t.got = none ∧ t.poisoned = false ∧ t.req.line = t.line)
    ∧ (noErr.bitmapBad = false ∧ noErr.keyBad = none ∧ (memS (readT askA true)).partInit line4.n = true ∧ (memS (readT askA true)).isF (F.HOM_ECC_INJ_ARM 2) = false
      ∧ (memS (readT (askQ .rdS) false)).commonsLine line4 = false
      ∧ ({ memS (readT (askQ .rdS) false) with plan := { ward.plan with commonsBase := 0x2000000, commonsSize := 0x1000000 } } : State).commonsLine line4 = true
      ∧ (memS (readT (askE .rdC) false)).dramOutcome line4.n [] = .clean 0
      ∧ (memS (readT (askE .rdC) false)).dramOutcome line4.n [(0, 1), (7, 5)] = .uncorrectable 0x50000001 ∧ homeOf (line4.n * 64) = 2) :=
  ⟨fun t h => ⟨only_of (onlyRead t h).1, uncached_of (onlyRead t h).2⟩, by decide +kernel, by decide +kernel⟩

/-- Write data of XID 9 at home 2. -/
def dataP : Packet :=
  { mkPkt .rsp RspKind.data.code (quarterStop 0 (homeStop 2)) (homeStop 2) 0 0 9 false (.line ⟨line0, false⟩ none) line4 with prev := stopN 119, cur := homeStop 2 }
def wbufS (r : Req) : State := { ward with net := [dataP], homes := ⟨[(2, { homeW with wbufs := [⟨9, r, none⟩] })]⟩ }
def wbT (k : ReqKind) : Txn := { State.Txn.start 9 (askQ k) line4 with phase := .writeData }
def wbS (t : Txn) : State := { ward with net := [dataP], homes := ⟨[(2, { dirH (entX 0) with txns := [t], bitmap := homeW.bitmap })]⟩ }
/-- The first write of the line's part. -/
def firstT : Txn := { State.Txn.start 9 (askE .wrInv) line4 with phase := .initPart, wdata := some ⟨line0, false⟩ }
def firstS : State := { ward with homes := ⟨[(2, { Home.init with txns := [firstT], initing := [regionOf 0x80001] })]⟩ }
def writeReqs : List Req := [askE .wrInv, askH .hWr, { askH .hWr with mv := .a }]

theorem homeOf_lt (a : Nat) : homeOf a < 2 ^ 4 := by
  have b : ∀ i n, n ≤ 4 → bitsN a i n < 2 ^ 4 := fun i n h => by
    unfold bitsN; exact lt_of_lt_of_le (Nat.mod_lt _ (by positivity)) (Nat.pow_le_pow_right (by omega) h)
  have r : List.range 8 = [0, 1, 2, 3, 4, 5, 6, 7] := rfl
  unfold homeOf; rw [r]; simp only [List.foldl]
  repeat' apply Nat.xor_lt_two_pow
  all_goals first | exact b _ _ (by omega) | positivity

theorem uninjected (m : Nat) : firstS.isF (F.HOM_ECC_INJ_ARM (homeOf (m * 64))) = false :=
  (by decide +kernel : ∀ n < 16, firstS.isF (F.HOM_ECC_INJ_ARM n) = false) _ (homeOf_lt _)

theorem onlyWb : ∀ t ∈ [wbT .wb, wbT .wbP], onlyB (wbS t) 2 t = true := by decide +kernel
theorem quietWrite : ∀ r ∈ writeReqs, quietB (wbufS r) 2 line4 = true := by decide +kernel
theorem wit_WriteDataCommits :
    (∀ r ∈ writeReqs, (wbufS r).lineQuiet 2 line4)
    ∧ (∀ r ∈ writeReqs, (wbufS r).arrived 0 = some dataP ∧ (wbufS r).partInit dataP.about.n = true
        ∧ (wbufS r).isF (F.HOM_ECC_INJ_ARM 2) = false ∧ ((wbufS r).homeN 2).txns.length < 1024 ∧ (wbufS r).dirVictim 2 line4.n = none
        ∧ (wbufS r).dirGet 2 line4.n = none ∧ ((wbufS r).homeN 2).wbufs.find? (fun b => b.xid == 9 && decide (b.req.line = line4) && b.data.isNone) = some ⟨9, r, none⟩ ∧ r.mask = fullMask
        ∧ (wbufS r).fromFenced r = false ∧ (wbufS r).entry 9 = none ∧ ((wbufS r).homeN 2).refused = [])
    ∧ (dataP.poison = false ∧ dataP.chan = .rsp ∧ stopHome dataP.dst = some 2 ∧ homeOf (dataP.about.n * 64) = 2)
    ∧ (∀ t ∈ [wbT .wb, wbT .wbP], (wbS t).onlyTxn 2 t)
    ∧ (∀ t ∈ [wbT .wb, wbT .wbP], (wbS t).arrived 0 = some dataP ∧ (wbS t).partInit line4.n = true ∧ (wbS t).dirGet 2 line4.n = some (entX 0) ∧ t.phase = .writeData ∧ t.req.mask = fullMask)
    ∧ ((firstS.homeN 2).initing = [regionOf 0x80001] ∧ (firstS.homeN 2).txns = [firstT] ∧ firstT.phase = .initPart ∧ firstT.doomed = false ∧ firstS.fromFenced firstT.req = false
      ∧ firstS.dirGet 2 line4.n = none ∧ line4.n ∈ partLines 2 (regionOf 0x80001))
    ∧ (∀ m ∈ partLines 2 (regionOf 0x80001), firstS.isF (F.HOM_ECC_INJ_ARM (homeOf (m * 64))) = false) :=
  ⟨fun r h => quiet_of (quietWrite r h), by decide +kernel, by decide +kernel, fun t h => only_of (onlyWb t h), by decide +kernel, by decide +kernel, fun m _ => uninjected m⟩

/-- Home 2 with one transaction that snoops, and nothing refused. -/
def silentT (k : ReqKind) (src : Source) (left : List (Fin 17)) : Txn := { State.Txn.start 9 (Req.make k line4 src (some 0) false) line4 with phase := .snoop left }
def silentS (d : DirEntry) (t : Txn) : State := { ward with homes := ⟨[(2, { dirH d with txns := [t], bitmap := homeW.bitmap })]⟩ }
def entH : DirEntry := ⟨presOf [hostHolder], true, false, 0⟩
def lateS (h : Home) : State := { ward with homes := ⟨[(2, { h with bitmap := homeW.bitmap })]⟩ }
def silentQ : Txn := silentT .rdC (.engine 68) [quarterHolder 1]
def silentH : Txn := silentT .rdC (.engine 68) [hostHolder]
def lateT : Txn := { State.Txn.start 9 (Req.make .wb line4 (.drain 1) (some 0) false) line4 with phase := .writeData }

theorem noRefused (h : Home) (hr : h.refused = []) (s : State) (hs : s.homes = ⟨[(2, h)]⟩) : ∀ j, (s.homeN j).refused = [] := by
  intro j; simp only [State.homeN, hs, Tbl.get, lookupCell]; split
  · exact hr
  · rfl

theorem wit_SilenceIsTimedOut : ward.timersFrozen = false
    ∧ (∀ j, ((silentS (entX 1) silentQ).homeN j).refused = [])
    ∧ ((silentS (entX 1) silentQ).silentTxn 2 9 (quarterHolder 1) = some silentQ ∧ (silentS (entX 1) silentQ).partInit line4.n = true)
    ∧ ((silentS entH silentH).silentTxn 2 9 hostHolder = some silentH ∧ (silentS entH silentH).dirGet 2 line4.n = some entH ∧ entH.pres = presOf [hostHolder])
    ∧ (∀ j, ((silentS entH silentH).homeN j).refused = [])
    ∧ (let s := lateS { Home.init with wbufs := [⟨9, askE .wrInv, none⟩] }
       (s.homeN 2).txns.find? (fun t => t.xid == 9 && decide (t.phase = TxnPhase.writeData)) = none
         ∧ (s.homeN 2).wbufs.find? (fun b => b.xid == 9 && b.data.isNone) = some ⟨9, askE .wrInv, none⟩)
    ∧ (let s := lateS { dirH (entX 1) with txns := [lateT] }
       (s.homeN 2).txns.find? (fun t => t.xid == 9 && decide (t.phase = TxnPhase.writeData)) = some lateT ∧ (s.quarter 1).fenced = false ∧ s.partInit line4.n = true
         ∧ s.dirGet 2 line4.n = some (entX 1)) :=
  ⟨by decide +kernel, noRefused _ rfl _ rfl, by decide +kernel, by decide +kernel, noRefused _ rfl _ rfl, by decide +kernel⟩

/-- A host line at the filter. -/
def lineH : LineAddr := ⟨true, 0x1234⟩
def askF (k : ReqKind) : Req := { Req.make k lineH (.quarter 0 0) (some 0) false with at? := if k = .atFar then some atomic0 else none }
def filtP (r : Req) : Packet := { mkPkt .req r.kind.code (quarterStop 0 hostStop) hostStop 0 0 9 false (.request r) r.line with prev := stopN 118, cur := hostStop }
def filtS (r : Req) : State := { ward with net := [filtP r] }
def filtT (k : ReqKind) (ph : TxnPhase) (wd : Option LineVal) : Txn := { State.Txn.start 9 (askF k) lineH with phase := ph, wdata := wd }
def hostS (t : Txn) : State := { ward with homes := ⟨[(16, { Home.init with txns := [t] })]⟩ }
def farT : Txn := { State.Txn.start 9 (askF .atFar) lineH with far := true, rd := some (.stored ⟨line0, false⟩) }
def dirF (d : DirEntry) : State := { ward with homes := ⟨[(16, { Home.init with dir := ⟨[(0x1234, some d)]⟩ })]⟩ }
def filtKinds : List ReqKind := [.rdS, .rdX, .upg, .own, .fill, .atFar]
def filtTs : List Txn :=
  [filtT .rdS (.host .rdShared) none, filtT .rdX (.host .rdOwn) none, filtT .fill (.host .rdCurr) none, filtT .upg (.host .rdOwnNoData) none, filtT .own (.host .rdOwnNoData) none,
   filtT .wb (.host .dirtyEvict) (some ⟨line0, false⟩)]
/-- The host's dirty copy of a line that home 2 has asked back: H_WR, its data, and the transaction that has it. -/
def hwrR : Req := askH .hWr
def backS (t : Txn) (bufs : List WBuf) (net : List Packet) : State :=
  { ward with net := net, homes := ⟨[(2, { dirH entH with txns := [t], bitmap := homeW.bitmap, wbufs := bufs })]⟩ }
def hostData : Packet := { dataP with src := hostStop, xid := 5 }
def gotT : Txn := { silentH with got := some ⟨fullMask, ⟨line0, false⟩, none⟩ }

theorem asksFilt : ∀ k ∈ filtKinds, asksB (filtS (askF k)) 0 16 (filtP (askF k)) (askF k) = true ∧ quietB (filtS (askF k)) 16 lineH = true := by decide +kernel
theorem onlyFilt : ∀ t ∈ filtTs, onlyB (hostS t) 16 t = true ∧ (((hostS t).dirGet 16 t.line.n).all (fun d => d.pres == 0 && !d.excl)) = true := by decide +kernel
theorem wit_TheFilterSpeaksForTheHost :
    (∀ k ∈ filtKinds, (filtS (askF k)).asks 0 16 (filtP (askF k)) (askF k) ∧ (filtS (askF k)).lineQuiet 16 lineH)
    ∧ (∀ k ∈ filtKinds, (filtS (askF k)).dirGet 16 lineH.n = none)
    ∧ (∀ t ∈ filtTs, (hostS t).onlyTxn 16 t ∧ (hostS t).uncachedLine 16 t.line)
    ∧ (∀ t ∈ filtTs, ((hostS t).homeN 16).txns.find? (fun u => decide (u.line = t.line) && (match u.phase with
          | .host _ => true
          | _ => false)) = some t ∧ t.req.sealed = false ∧ t.got = none ∧ t.rd = none ∧ t.poisoned = false ∧ t.req.holder = some (quarterHolder 0) ∧ t.req.line = t.line)
    ∧ (((hostS farT).homeN 16).txns.find? (fun u => decide (u.line = lineH) && u.far && decide (u.phase = TxnPhase.dram)) = some farT ∧ farT.req.at? = some atomic0
      ∧ (hostS farT).link.viral = false ∧ farT.keyLost = false)
    ∧ ((dirF (entX 1)).dirGet 16 0x1234 = some (entX 1) ∧ (entX 1).excl = true ∧ (entX 1).pres = presOf [quarterHolder 1] ∧ ((dirF (entX 1)).quarter 1).fenced = false
      ∧ entSh.excl = false ∧ (dirF entSh).dirGet 16 0x1234 = some entSh ∧ ((dirF entSh).homeN 16).txns = [] ∧ ward.link.cxlResetBusy = false)
    ∧ ((∀ t ∈ [silentH, gotT], homeOf (t.line.n * 64) = 2 ∧ t.phase = .snoop [hostHolder] ∧ (backS t [] []).partInit t.line.n = true ∧ (backS t [] []).isF (F.HOM_ECC_INJ_ARM 2) = false)
      ∧ (backS silentH [] [reqAt hwrR]).arrived 0 = some (reqAt hwrR) ∧ stopHome (reqAt hwrR).dst = some 2
      ∧ (backS silentH [⟨5, hwrR, none⟩] [hostData]).arrived 0 = some hostData ∧ stopHome hostData.dst = some 2 ∧ hostData.xid ≠ silentH.xid ∧ hwrR.mask = fullMask)
    ∧ (∀ t ∈ [silentH, gotT], (backS t [] []).onlyTxn 2 t) :=
  ⟨fun k h => ⟨asks_of (asksFilt k h).1, quiet_of (asksFilt k h).2⟩, by decide +kernel, fun t h => ⟨only_of (onlyFilt t h).1, uncached_of (onlyFilt t h).2⟩,
    by decide +kernel, by decide +kernel, by decide +kernel, by decide +kernel,
    fun t h => only_of ((by decide +kernel : ∀ t ∈ [silentH, gotT], onlyB (backS t [] []) 2 t = true) t h)⟩

/-- A response at stop 80, the engines' stop of engine 48, with its entry 3. -/
def rspP (k : RspKind) (pl : Payload) (l : LineAddr) : Packet := { mkPkt .rsp k.code (homeStop 2) (stopN 80) 0 0 3 false pl l with prev := stopN 79, cur := stopN 80 }
def rspS (p : Packet) (e : LEntry) : State := { ward with net := [p], ledger := ⟨⟨[(3, some { e with tag := 3 })]⟩, [], none⟩ }
def entE (k : ReqKind) (wd : Option LineVal) : LEntry := { LEntry.make (askE k) (.ward 0) with wdata := wd }
/-- The host's read at its stop. -/
def hostP : Packet := { mkPkt .rsp RspKind.data.code (homeStop 2) hostStop 0 0 3 false (.line ⟨line0, false⟩ none) line4 with prev := stopN 118, cur := hostStop }
/-- Tile 0 waits for a far atomic. -/
def tileF : Tile := { tile0 with mode := .inMemory line4 (.farAtomic atomic0 4 0x10000048#64) }
def entT : LEntry := { LEntry.make (Req.make .atFar line4 (.tile 0) (some 0) false) (.ward 0) with tag := 3 }
def entL : LEntry := { LEntry.make (Req.make .rdC lineH .lantern none false) .reserve with hostMem := true, tag := 3, lantern := true }
def waitE (min ceil : Nat) : State := { (ward.setF (F.LDGW_SHARE_MIN 0) min).setF (F.LDGW_SHARE_CEIL 0) ceil with ledger := ⟨.empty, [entE .rdC none], none⟩ }
def rspCases : List (RspKind × Payload × LEntry) :=
  [(.data, .line ⟨line0, false⟩ none, entE .rdS none), (.wgo, .empty false, entE .wrInv (some ⟨line0, false⟩)), (.done, .empty false, entE .wrInv none),
   (.retry, .request (askE .rdC), entE .rdC none), (.nack, .request (askE .rdC), entE .rdC none), (.go, .request (askE .rdC), entE .rdC none)]
def entHost : LEntry := { LEntry.make (askH .hRd) .reserve with tag := 3 }
def atRes : Packet := rspP .atRes (.oldValue 41 false) line4
def entBack : LEntry := { entE .rdC none with req := { askE .rdC with arrived := true } }

theorem wit_LedgerGrantsAndCloses :
    (∀ x ∈ rspCases,
      let p := rspP x.1 x.2.1 line4
      let s := rspS p x.2.2
      s.arrived 0 = some p ∧ p.chan = .rsp ∧ p.poison = false ∧ s.entry 3 = some { x.2.2 with tag := 3 } ∧ x.2.2.req.line = p.about ∧ x.2.2.aborted = false ∧ x.2.2.forgotten = false
        ∧ x.2.2.bad = false ∧ x.2.2.pend = 1 ∧ s.pktBuf p = none ∧ p.dst = .stop 80 ∧ stopHome p.dst = none ∧ p.kind = x.1.code ∧ s.fencedDst .rsp p.src = false)
    ∧ ((rspS hostP entHost).arrived 0 = some hostP ∧ (rspS hostP entHost).entry 3 = some entHost ∧ stopHome hostP.dst = some 16 ∧ stopQuarter hostP.src = none ∧ entHost.req.mask ≠ 0
      ∧ (rspS hostP entHost).pktBuf hostP = none ∧ hostP.dst = hostStop)
    ∧ (let s : State := { rspS atRes entT with tiles := ⟨[(0, tileF)]⟩ }
       s.arrived 0 = some atRes ∧ s.entry 3 = some entT ∧ (s.tile 0).mode = .inMemory line4 (.farAtomic atomic0 4 0x10000048#64))
    ∧ (rspS pktGo entBack).entry 3 = some { entBack with tag := 3 }
    ∧ (∀ q, (ward.quarter q).bufs = [])
    ∧ ((rspS pktGo entL).entry 3 = some entL ∧ entL.hostMem = true ∧ entL.wdata = none ∧ ward.link.up = true ∧ (List.replicate 64 (1 : Byte)).length = 64 ∧ entL.req.src = .lantern)
    ∧ ((waitE 1 1).ledger.waiting = [entE .rdC none] ∧ (entE .rdC none).hostMem = false ∧ (entE .rdC none).atSource = false ∧ (waitE 1 1).heldBy 0 < (waitE 1 1).ldgMin 0
      ∧ (waitE 0 1).heldBy 0 < (waitE 0 1).ldgCeil 0 ∧ (waitE 0 1).poolUsed < (waitE 0 1).poolSize
      ∧ (waitE 0 0).ldgMin 0 ≤ (waitE 0 0).heldBy 0 ∧ (waitE 0 0).ldgCeil 0 ≤ (waitE 0 0).heldBy 0 ∧ ward.ledger.waiting = []) :=
  ⟨by decide +kernel, by decide +kernel, by decide +kernel, by decide +kernel, fun _ => rfl, by decide +kernel, by decide +kernel⟩

/-- A 64 GiB module of R372. -/
def dimm64 : DimmInfo := ⟨true, true, true, 64, true, false, 1, 1, 5600, true⟩
def cold : State := { live with power := { live.power with trained := false, capGib := 0 } }

theorem wit_MemoryIsTrainedAndSealed : cold.coreRuns = true ∧ cold.power.trained = false ∧ (List.replicate 16 dimm64).length = 16
    ∧ (∀ m ∈ List.replicate 16 dimm64, dimmOk m = true ∧ m.trains = true)
    ∧ (List.replicate 15 dimm64 ++ [noDimm])[15]? = some noDimm ∧ (dimmOk noDimm && noDimm.trains) = false
    ∧ (ward.keyInstall = none ∧ ward.key 0 = none ∧ ward.resettingWard 0 = false ∧ 9 < ((0x28#32).extractLsb' 2 4).toNat)
    ∧ ward.carries .s none true ∧ ({ ward with keyInstall := some (0, 5) } : State).keyInstall = some (0, 5) :=
  ⟨rfl, rfl, rfl, by decide +kernel, rfl, by decide +kernel, by decide +kernel, carries_s, rfl⟩

/-- A scrub of the first region, its homes at their first line, the part written or not. -/
def job0 (wipe aborted : Bool) : ScrubJob := ⟨wipe, 0, 0x200000, 0, 0, 0, 0, 0, 0, none, aborted, none⟩
def scrubS (j : ScrubJob) (bm : Tbl Bool) (t : List Txn) : State :=
  { ward with scrub := some j, homes := ⟨[(2, { Home.init with scrubAt := some 0, bitmap := bm, txns := t })]⟩ }
def doneS (j : ScrubJob) : State := { ward with scrub := some j, homes := ⟨(List.range 16).map (fun h => (h, { Home.init with scrubDone := true }))⟩ }
/-- The DPA line of home 2's first place. -/
def n2 : Nat := dpaOf 2 0 / 64

/-- The scrubber's summary record at DPA 0x200000, its write, and the DONE of it. -/
def sumS (j : ScrubJob) : State := (doneS j).setF F.HOM_SCB_SUM_DPA_VALUE 0x200000
def sumEntry (s : State) (j : ScrubJob) : LEntry :=
  { LEntry.make (Req.make .wrInv ⟨false, 0x8000⟩ .scrub none false) .reserve with wdata := some ⟨lineOfBytes (s.scrubRecord j 1), false⟩ }
def sumDone : Packet := { mkPkt .rsp RspKind.done.code (homeStop 0) (stopN 117) 0 0 3 false (.empty false) ⟨false, 0x8000⟩ with prev := stopN 119, cur := stopN 117 }
def endedS : State :=
  { ward with scrub := some { job0 false false with result := some 1 }, net := [sumDone], ledger := ⟨⟨[(3, some { sumEntry ward (job0 false false) with tag := 3 })]⟩, [], none⟩ }
def jobs : List ScrubJob := [job0 false false, job0 true true, job0 true false]

theorem wit_ScrubberCoversMemory : ward.carries .s none true ∧ ((ward.setF F.HOM_SCB_END_VALUE 0x200000).getF F.HOM_SCB_START_VALUE < (ward.setF F.HOM_SCB_END_VALUE 0x200000).getF F.HOM_SCB_END_VALUE
    ∧ ward.scrub = none ∧ ward.getF F.HOM_SCB_END_VALUE ≤ ward.getF F.HOM_SCB_START_VALUE ∧ ward.power.vauxGood = true)
    ∧ (let s := scrubS (job0 false false) .empty []
       (s.homeN 2).scrubAt = some 0 ∧ (s.homeN 2).scrubDone = false ∧ s.scrubFrozen = false ∧ s.coreActive = true ∧ (s.homeN 2).bitmap.get false 0 = false)
    ∧ (let s := scrubS (job0 false false) ⟨[(0, true)]⟩ []
       (s.homeN 2).bitmap.get false 0 = true ∧ s.lineActive 2 ⟨false, n2⟩ = false ∧ s.dramOutcome n2 [] = .clean 0 ∧ s.dramOutcome n2 [(3, 0xFF)] = .corrected 0 3
         ∧ s.dramOutcome n2 [(0, 1), (7, 5)] = .uncorrectable 0x50000001 ∧ homeOf (n2 * 64) = 2)
    ∧ (scrubS (job0 false false) ⟨[(0, true)]⟩ [State.Txn.start 9 (askE .rdC) ⟨false, n2⟩]).lineActive 2 ⟨false, n2⟩ = true
    ∧ (∀ j ∈ jobs, (∀ h < 16, ((doneS j).homeN h).scrubDone = true) ∧ (doneS j).scrub = some j ∧ (doneS j).coreActive = true ∧ j.result = none)
    ∧ (∀ j ∈ [job0 false false, job0 true true], let n := (sumS j).getF F.HOM_SCB_SUM_DPA_VALUE / 64
        n * 64 < (sumS j).capacity ∧ (sumS j).grantsNow { LEntry.make (Req.make .wrInv ⟨false, n⟩ .scrub none false) .reserve with
            wdata := some ⟨lineOfBytes ((sumS j).scrubRecord j (if j.aborted then 2 else 1)), false⟩ } = true)
    ∧ ((doneS (job0 true false)).rangeBusy 0 0x200000 = false ∧ ((doneS (job0 true false)).wipeCopies 0 0x200000).rangeBusy 0 0x200000 = false)
    ∧ (endedS.arrived 0 = some sumDone ∧ endedS.entry 3 = some { sumEntry ward (job0 false false) with tag := 3 } ∧ (sumEntry ward (job0 false false)).req.line = sumDone.about
      ∧ (sumEntry ward (job0 false false)).req.src = .scrub ∧ (sumEntry ward (job0 false false)).pend = 1 ∧ endedS.pktBuf sumDone = none ∧ sumDone.dst = .stop 117) := by
  exact ⟨carries_s, by decide +kernel⟩

/-! ### The host link -/

/-- Memory Active, and decoder 0 maps the first 512 GiB. -/
def dec0 : HdmDec := ⟨0, 0x8000000000, 0, 0, true, false, true, false, 0⟩
def active : State :=
  let s := ward.setF F.LNK_STATUS_MEM_ACTIVE 1
  { s with link := { s.link with hdm := ⟨[(0, dec0)]⟩, hdmEnable := true } }
def reqH (k : ReqKind) (mask : Mask64) (mv : MetaValue) : Req := { Req.make k ⟨false, 0x80001⟩ .host none false with mask := mask, mv := mv }
def held0 : HostReq := ⟨true, 0x2000040, .a, fullMask, ⟨0, false⟩, 7, false⟩

theorem wit_HostMemoryRequestsAreServed : State.reset.link.up = false
    ∧ ward.link.up = true ∧ ward.link.cxl = true ∧ ward.link.refuseAll = false ∧ ward.power.dimOut = false ∧ ward.hostWaits = true
    ∧ active.hostWaits = false ∧ active.link.viral = false ∧ active.hostDpa 0x8000000000 = none ∧ active.hostDpa 0x2000040 = some 0x2000040 ∧ 0x2000040 < active.capacity
    ∧ ({ active with power := { active.power with capGib := 0 } } : State).capacity ≤ 0x2000040
    ∧ (∀ q ∈ [reqH .hRd fullMask .a, reqH .hRd fullMask .s, reqH .hRd 0 .a, reqH .hWr fullMask .i, reqH .hWr 0xFF .i], active.grantsNow (LEntry.make q .reserve) = true)
    ∧ ({ active with homes := ⟨[(homeOf 0x2000040, dirH entH)]⟩ } : State).dirGet (homeOf 0x2000040) (0x2000040 / 64) = some entH
    ∧ ({ ward with link := Link.down } : State).coreRuns = true
    ∧ ward.power.trained = true ∧ ward.power.capGib ≠ 0 ∧ ward.isF F.LNK_STATUS_MEM_ACTIVE = false ∧ ward.link.held = [] ∧ ward.power.pAt ≠ none
    ∧ ({ ward with link := { ward.link with held := [held0] } } : State).link.held = [held0] ∧ held0.isRead = true ∧ held0.noData = false := by
  decide +kernel

/-- A write TLP of two bytes at the stream's start, and what it makes. -/
def tlp2 : List BulkByte := [⟨1, true⟩, ⟨2, true⟩]
def bulkS (a : Nat) : State := { ward with link := { ward.link with bulk := ⟨[((Func.vf 0).ix, { Bulk.init with rowStart := a, rowLen := 64, rowStride := 64, ptr := a })]⟩ } }
def x2 : Xlat := ⟨false, 0x2000040, false, false, false⟩
def entB : LEntry := { LEntry.make { Req.make .wrInv ⟨false, 0x80001⟩ (.bulk (.vf 0)) (some 0) false with mask := 3 } .reserve with bulk := some (.vf 0), wdata := some ⟨0x0201, false⟩ }
def readS (y : Xlat) : State :=
  { ward with link := { ward.link with
      bulk := ⟨[((Func.vf 0).ix, { Bulk.init with rowStart := 0x10000040, rowLen := 64, rowStride := 64, ptr := 0x10000040, ahead := ⟨[(lineKey ⟨y.host, y.addr / 64⟩ y.sealed, some ⟨line0, false⟩)]⟩ })]⟩ } }

theorem wit_BulkPortsStreamBytes : State.reset.bulkClosed .pf0 = true ∧ ward.bulkClosed (.vf 0) = false ∧ (ward.setF (F.WRD_STATUS_RESETTING 0) 1).bulkResets (.vf 0) = true
    ∧ (ward.setF (F.WRD_STATUS_RESETTING 0) 1).bulkClosed (.vf 0) = false ∧ ward.bulkResets (.vf 0) = false ∧ ward.link.rxq = []
    ∧ tlp2.length ≤ 512 ∧ (bulkS 0x10000040).rxReady (.bulkWrite (.vf 0) tlp2 false) = true
    ∧ ({ bulkS 0x10000040 with ledger := ⟨⟨[(0, some { entB with req := { entB.req with line := line4 } })]⟩, [], none⟩ } : State).rxReady (.bulkWrite (.vf 0) tlp2 false) = false
    ∧ ((bulkS 0x10000040).bulkTlp (.vf 0) tlp2).1 = [(0x400001, 3, 0x0201)]
    ∧ (bulkS 0x10000040).bulkPeek (.vf 0) 0x10000040 2 .write = some x2 ∧ (bulkS 0x10000040).grantsNow entB = true ∧ (bulkS 0x1000).bulkPeek (.vf 0) 0x1000 2 .write = none
    ∧ ((bulkS 0x1000).bulkTlp (.vf 0) tlp2).1 = [(0x40, 3, 0x0201)]
    ∧ (readS x2).bulkOut (.vf 0) = false ∧ ((readS x2).bulkOf (.vf 0)).reads = []
    ∧ (bulkWalk ((readS x2).bulkCount (.vf 0)) ((readS x2).bulkStride (.vf 0)) 4 ((readS x2).bulkOf (.vf 0)) 4).1 = [(0x10000040, 4)]
    ∧ (readS x2).bulkPeek (.vf 0) 0x10000040 4 .read = some x2 ∧ (readS x2).bulkHas (.vf 0) (⟨false, 0x80001⟩, false) = some ⟨line0, false⟩
    ∧ ward.bulkCount (.vf 0) ≤ 64 := by
  decide +kernel

/-- A function's vector 3 with a pending bit. -/
def pendS (cfg : List (Nat × Byte)) (fn : Nat) : State :=
  { ward with link := { ward.link with cfg := ⟨cfg⟩, msix := ⟨[(fn * 1024 + 3, ⟨0xFEE00000, 5, true, true⟩)]⟩ } }
def cfgOn : List (Nat × Byte) := [(0x004, 6), (0x093, 0x80), (0x150, 9), (0x158, 8)]
def req0 : CfgReq := ⟨.pf0, 0, 1, none, 4⟩

theorem wit_LinkControlsAndInterrupts : ward.carries .s none true ∧ ((pendS cfgOn 0).hostHolds .s = false ∧ (pendS cfgOn 0).hostHolds (.w 0) = false ∧ ward.link.up = true ∧ 1 ≤ req0.size ∧ req0.off % 4 + req0.size ≤ 4 ∧ req0.off < 4096
    ∧ ({ ward with power := { ward.power with cfgReady := false } } : State).power.cfgReady = false ∧ ward.power.cfgReady = true
    ∧ ({ live with link := { live.link with cfg := .empty } } : State).vfPresent 0 = false
    ∧ ({ ward with link := { ward.link with disableCaching := true } } : State).link.disableCaching = true ∧ ward.link.disableCaching = false
    ∧ (let s : State := { ward with link := { ward.link with flushing := true } }
       s.link.flushing = true ∧ s.pumpAll = s ∧ s.hostLinesOut = false)
    ∧ (pendS cfgOn 0).fnOpen .pf0 = true ∧ ((pendS cfgOn 0).msixAt 0 3).pending = true ∧ (pendS cfgOn 0).msixFnMask 0 = false ∧ (pendS cfgOn 0).msixEnable 0 = true
    ∧ (pendS [(0x004, 6), (0x093, 0xC0)] 0).msixFnMask 0 = true ∧ ward.msixEnable 0 = false
    ∧ ward.coreRuns = true ∧ ward.aspmL1 = false ∧ ward.linkIdle = true ∧ ward.flit256 = true ∧ (ward.setF F.LNK_PM_L0P_EN 1).isF F.LNK_PM_L0P_EN = true) :=
  ⟨carries_s, by decide +kernel⟩

/-! ### Beacon and log -/

theorem wit_BeaconLatchesAndReacts : ward.carries .s none true ∧ ((ward.setF F.FLT_BEACON_GROUPS (2 ^ 42)).mmioOpen = true ∧ (0x500000000001FF2A#64).getLsbD 16 = true ∧ (0x500000000000FF2A#64).getLsbD 16 = false
    ∧ (ward.getF F.FLT_BEACON_GROUPS).testBit 42 = false ∧ ((ward.setF F.FLT_BEACON_GROUPS (2 ^ 42)).getF F.FLT_BEACON_GROUPS).testBit 42 = true
    ∧ min ((0x3F#64).extractLsb' 0 6).toNat 48 ≠ ((0x3F#64).extractLsb' 0 6).toNat) :=
  ⟨carries_s, by decide +kernel⟩

def ev0 : LogEntry := ⟨⟨42, 2, 15, 255, 1, 5⟩, false, 0, 200000⟩
def logS (slot : Nat) : State := { ward with logQueue := [ev0], logNextSlot := slot }

theorem wit_LogKeepsItsEntries : (∀ s ∈ [ward, ward.setF F.FLT_LOG_CTRL_BUSY 1, ward.setF F.FLT_CTRL_LOCK 1], s.carries .s none true)
    ∧ (∀ k ∈ [0, 127, 128, 2047], (logS k).logQueue = ev0 :: [] ∧ (logS k).power.vauxGood = true ∧ (logS k).isF F.FLT_LOG_CTRL_ERASE = false
      ∧ (logS k).calSaving = false ∧ (logS k).logNextSlot < 2048)
    ∧ (ward.logQueue = [] ∧ (ward.setF F.FLT_LOG_CTRL_BUSY 1).isF F.FLT_LOG_CTRL_BUSY = true ∧ ward.isF F.FLT_LOG_CTRL_BUSY = false
    ∧ (ward.setF F.FLT_CTRL_LOCK 1).isF F.FLT_CTRL_LOCK = true ∧ ward.isF F.FLT_CTRL_LOCK = false ∧ (ward.setF F.FLT_LOG_CTRL_ERASE 1).isF F.FLT_LOG_CTRL_ERASE = true) :=
  ⟨fun s h => .inl ((by decide +kernel : ∀ s ∈ [ward, ward.setF F.FLT_LOG_CTRL_BUSY 1, ward.setF F.FLT_CTRL_LOCK 1],
      Port.s = .s ∧ s.mmioOpen = true ∧ s.hostHolds .s = false) s h), by decide +kernel, by decide +kernel⟩

/-! ### Supply, heat, calibration -/

def dimS (n : Nat) : State := ward.setF F.SUP_DIM_STATE n

theorem wit_SupplyIsWatched : ward.power.vauxGood = true ∧ [700, 800, 850, 1100, 1800, 3300].length = 6 ∧ (List.replicate 18 (400 : Int)).length = 18
    ∧ State.railIn 1 800 = true ∧ State.railIn 1 700 = false ∧ State.railHalf 1 ≤ 700 ∧ ward.coreRuns = true ∧ ward.isF (F.SUP_RAIL_OUT 1) = false ∧ ward.dimmed = false
    ∧ State.railIn 0 569 = false ∧ State.railIn 0 375 = false ∧ State.railIn 3 549 = false ∧ 549 < State.railHalf 3 ∧ (State.railRange 4).2 < 1891 ∧ State.railIn 4 1891 = false
    ∧ ({ ward with power := { ward.power with coreGood := true } } : State).belowWarn 0 = true ∧ ward.power.belowSince = none ∧ ward.power.coreGood = true
    ∧ ward.power.inBand = false ∧ ward.belowWarn 900 = false ∧ ({ ward with power := { ward.power with belowSince := some 5 } } : State).power.belowSince = some 5
    ∧ (dimS 1).dimmed = true ∧ (ward.setF F.SUP_THERM_TRIPPED 1).isF F.SUP_THERM_TRIPPED = true
    ∧ (let s : State := { dimS 1 with power := { ward.power with dimDrain := true } }
       s.getF F.SUP_DIM_STATE = 1 ∧ s.workEnded = true ∧ s.power.dimDrain = true ∧ s.pumpAll = s ∧ s.allDrained = true)
    ∧ (dimS 2).power.dimOut = false ∧ ward.isF F.SUP_PLW_LEVEL = false ∧ ward.power.plwRunning = false
    ∧ (let s : State := { ward with power := { ward.power with plwRunning := true } }
       s.isF F.SUP_PLW_QUIESCED = false ∧ s.drainBuffers = s ∧ (∀ c ∈ s.tiles.cells, c.2.sb = []) ∧ s.pumpAll = s ∧ s.beginDrains = s ∧ s.allDrained = true) := by
  decide +kernel

/-- The calibration store at work for S, before the boot plan step. -/
def calBusy : State := { ward with power := { ward.power with calJob := some (0, 1), bootDone := false } }
theorem wit_HeatAndCalibration : ward.carries .s none true ∧ calBusy.carries .s none true ∧ (ward.power.vauxGood = true ∧ 8 * ward.gradeUpper < ward.tjShown (8 * ward.gradeUpper + 1) ∧ ward.isF F.SUP_THERM_OVER = false
    ∧ 8 * ward.calEff 5 ≤ 8 * ward.calEff 5 ∧ ward.thermtrip = false
    ∧ ((ward.setF F.SUP_THERM_WARN 1).setF F.SUP_THERM_THROTTLE 3).isF F.SUP_THERM_WARN = true ∧ ((ward.setF F.SUP_THERM_WARN 1).setF F.SUP_THERM_THROTTLE 3).isF F.SUP_THERM_THROTTLE = true
    ∧ ward.power.calJob = none ∧ ward.power.bootDone = true ∧ calBusy.power.calJob ≠ none ∧ calBusy.power.bootDone = false
    ∧ (let s : State := { ward with power := { ward.power with calJob := some (1, 1) } }
       s.power.calJob = some (1, 1) ∧ s.mgmt.calWait = none)) :=
  ⟨carries_s, .inl (by decide +kernel), by decide +kernel⟩

/-! ### Fabric events -/

theorem wit_FabricEventsAreContained : (ward.coreRuns = true ∧ ward.power.vauxGood = true) ∧ (0xFFFF : Nat) < 2 ^ 16 ∧ (ward.setF F.SUP_STALL_CTRL_ENABLE 1).isF F.SUP_STALL_CTRL_ENABLE = true
    ∧ (ward.unwatched (.tile 0) = false ∧ ward.unwatched (.home 15) = false ∧ (ward.setF F.SUP_STALL_CTRL_SELFTEST 1).isF F.SUP_STALL_CTRL_SELFTEST = true)
    ∧ (withNet tile0 [pktAt]).net[0]? = some pktAt ∧ UnitId.tile 0 ≠ .gatehouse
    ∧ decode13 (encode13 (((run tile0).tile 0).ls.get 0 0x200).toNat ^^^ (0x3#13).toNat) = .uncorrectable 3 ∧ decode13 (0x3#13).toNat = .uncorrectable 3
    ∧ ((rspS pktGo entBack).entry 3).isSome = true ∧ (silentS (entX 1) silentQ).dirGet 2 line4.n = some (entX 1) := by
  decide +kernel

/-! ### The management port -/

def hdr (len : Nat) : MgmtHdr := ⟨0x21, 1, 1, 0, 0, 0, BitVec.ofNat 16 len, 0⟩
def busyM : State := { ward with mgmt := { Mgmt.idle with response := some [1] } }
def fullM : State := { ward with mgmt := { Mgmt.idle with response := some [1], queue := [[2]] } }

theorem wit_ManagementAnswersItsRequests : mgmtRow (.getSupply (hdr 0)) = some (hdr 0, 0x03, [], true) ∧ State.reset.mgmtAwake = false
    ∧ (ward.mgmtAwake = true ∧ ward.mgmtBusy = false ∧ ward.mgmt.queue = []) ∧ (busyM.mgmtAwake = true ∧ busyM.mgmtBusy = true ∧ busyM.mgmt.queue = [])
    ∧ (fullM.mgmtAwake = true ∧ 2 ≤ bN fullM.mgmtBusy + fullM.mgmt.queue.length)
    ∧ ({ hdr 0 with ver := 2 } : MgmtHdr).ver ≠ 1 ∧ ({ hdr 0 with retry := 1 } : MgmtHdr).retry ≠ 0 ∧ (hdr 1).len.toNat ≠ ([] : List Byte).length
    ∧ (∀ n ∈ [0, 1, 2, 5, 13], (hdr n).ver = 1 ∧ (hdr n).flags = 0 ∧ (hdr n).status = 0 ∧ (hdr n).retry = 0 ∧ (hdr n).len.toNat = n)
    ∧ (2047 < 2048 ∧ ward.isF F.FLT_LOG_CTRL_BUSY = false ∧ ward.calSaving = false ∧ (ward.setF F.FLT_LOG_CTRL_BUSY 1).isF F.FLT_LOG_CTRL_BUSY = true) := by
  decide +kernel

def calS : State := { ward with power := { ward.power with calJob := some (0, 1) } }
def earlyS : State := { ward with power := { ward.power with bootDone := false } }

theorem wit_ManagementCommandsAct : (ward.mgmtAwake = true ∧ ward.mgmtBusy = false ∧ ward.mgmt.queue = [] ∧ ward.power.bootDone = true ∧ ward.power.calJob = none)
    ∧ (earlyS.mgmtAwake = true ∧ earlyS.mgmtBusy = false ∧ earlyS.power.bootDone = false ∧ earlyS.power.pAt = some 0)
    ∧ (calS.mgmtAwake = true ∧ calS.mgmtBusy = false ∧ calS.mgmt.queue = [] ∧ calS.power.calJob ≠ none)
    ∧ State.mgtAt 0x40400 = some 2 ∧ State.mgtAt 0x30000 = some 1 ∧ (0x40404 : Nat) % 8 ≠ 0 ∧ (0x40400 : Nat) % 8 = 0
    ∧ ward.dimmed = false ∧ ward.power.plwRunning = false ∧ (1 : Nat) < 256 ∧ ¬ (1 : Nat) = 0 := by
  decide +kernel

theorem wit_ManagementPortCarriesMessages : State.reset.mgmtAwake = false ∧ ward.mgmtAwake = true ∧ (8 : Byte) ≠ 0 ∧ (8 : Byte) ≠ 255
    ∧ mgmtRow (.alertGet (hdr 1) 1) = some (hdr 1, 0x10, [1], true)
    ∧ (3 < 4 ∧ 7 < 8 ∧ ([0x7E] : List Byte) ≠ [] ∧ (List.replicate 64 (0 : Byte)).length ≤ 64)
    ∧ (ward.mgmt.others = [] ∧ ward.mgmt.response = none)
    ∧ ({ ward with mgmt := { Mgmt.idle with others := [[1], [2]] } } : State).mgmt.others = [1] :: [[2]]
    ∧ (busyM.mgmt.others = [] ∧ busyM.mgmt.response = some [1] ∧ busyM.mgmt.queue = [] ∧ busyM.mgmt.calWait = none ∧ busyM.mgmt.pendingReset = none ∧ busyM.mgmt.retries < 3)
    ∧ 3 ≤ ({ busyM with mgmt := { busyM.mgmt with retries := 3 } } : State).mgmt.retries
    ∧ (∀ k ∈ [1, 2, 3], ({ busyM with mgmt := { busyM.mgmt with pendingReset := some (k, 0) } } : State).mgmt.pendingReset = some (k, 0)) ∧ busyM.coreRuns = true := by
  decide +kernel

/-! ### Lantern -/

def lntS (lock fails : Nat) : State :=
  { ward with lantern := { Lantern.locked with lock := lock, fails := fails }, mgmt := { Mgmt.idle with nonce := some 0x12345678 } }
def lhdr (op r : Nat) : LntHdr := ⟨false, BitVec.ofNat 8 r, parityN (op + 8 * r) 11, true⟩
def ldat (v : W64) : LntData := ⟨v, parityN v.toNat 64⟩

theorem wit_LanternAnswersPackets : (lntS 0 0).lantern.lock = 0 ∧ (lntS 1 2).lantern.lock ≠ 0 ∧ State.reset.lntAwake = false ∧ (lntS 2 0).lntAwake = true
    ∧ (∀ op ∈ [0, 1, 2, 3], ∀ r ∈ [0, 2, 3, 4, 7, 8, 9, 0x0A, 0x0B, 0x20, 0x2E, 0x30, 0x36, 0x38, 0xFF],
        (lhdr op r).start = false ∧ (lhdr op r).stop = true ∧ (lhdr op r).parity = parityN (op + 8 * (lhdr op r).lreg.toNat) 11)
    ∧ (ldat 0x7).parity = parityN (ldat 0x7).d.toNat 64
    ∧ ((ldat 0x7).parity = true ∧ ({ lhdr 0 0 with start := true } : LntHdr).start ≠ false)
    ∧ (lntS 2 0).power.fuseGood = true ∧ ¬ (lntS 2 0).lantern.lock ≠ 2
    ∧ ((lntS 1 0).mgmt.nonce = some 0x12345678 ∧ (0xEDCBA98712345678#64) = ~~~ 0x12345678#32 ++ 0x12345678#32)
    ∧ (0x7#64 ≠ ~~~ 0x12345678#32 ++ 0x12345678#32 ∧ (lntS 1 1).lantern.fails < 2 ∧ (lntS 1 2).lantern.fails = 2)
    ∧ ((lntS 2 0).lantern.accPhase = 0 ∧ (lntS 2 0).lantern.accFault = false) := by
  decide +kernel

/-- The ward has given all three consents. -/
def consentS : State := (((lntS 2 0).setF (F.WRD_DBG_CONSENT_REGS 0) 1).setF (F.WRD_DBG_CONSENT_MEM 0) 1).setF (F.WRD_DBG_CONSENT_RUN 0) 1

theorem wit_LanternWritesItsRegisters : consentS.lntAwake = true ∧ consentS.lantern.lock = 2 ∧ consentS.power.fuseGood = true ∧ consentS.lantern.accPhase = 0
    ∧ ({ consentS with lantern := { consentS.lantern with accPhase := 1 } } : State).lantern.accPhase ≠ 0
    ∧ consentS.coreRuns = true ∧ consentS.isF F.LNK_STATUS_MEM_ACTIVE = false ∧ (0x1000000#64).getLsbD 24 = true
    ∧ consentS.accAllowed 0x1000002 (consentS.getF F.LNT_ACC_ADDR_VALUE) = true ∧ (lntS 2 0).accAllowed 0x1000002 ((lntS 2 0).getF F.LNT_ACC_ADDR_VALUE) = false
    ∧ (7 < 8 ∧ State.scopeGood 0 255 = true ∧ State.scopeGood 2 8 = false ∧ State.scopeGood 2 7 = true)
    ∧ (lntS 2 0).runConsent 0 0 = false ∧ consentS.runConsent 0 0 = true := by
  decide +kernel

/-- An access of the window that GO has started: its kind, direction and address; tile 0 halted. -/
def accS (kind wr wide a : Nat) : State :=
  let s := ((((consentS.setF F.LNT_ACC_CTRL_KIND kind).setF F.LNT_ACC_CTRL_WRITE wr).setF F.LNT_ACC_CTRL_WIDE wide).setF F.LNT_ACC_ADDR_VALUE a)
  { s with lantern := { s.lantern with accPhase := 1 }, tiles := ⟨[(0, { tile0 with halted := true })]⟩ }

theorem wit_LanternReachesTheDevice :
    (∀ k ∈ [0, 1, 2, 3], (accS k 0 1 0).lantern.accPhase = 1 ∧ (accS k 0 1 0).getF F.LNT_ACC_CTRL_KIND = k ∧ (accS k 1 1 0).isF F.LNT_ACC_CTRL_WRITE = true
      ∧ (accS k 0 1 4).getF F.LNT_ACC_ADDR_VALUE % (if (accS k 0 1 4).isF F.LNT_ACC_CTRL_WIDE then 8 else 4) ≠ 0)
    ∧ (accS 1 0 1 0x1000).translate 0 0x1000 8 .read = .inl 1 ∧ (accS 1 0 1 0x10000040).translate 0 0x10000040 8 .read = .inr ⟨false, 0x2000040, false, false, false⟩
    ∧ (0x40000 < 0x40000 + 8 ∧ 0x3FFF8 + 8 ≤ 0x40000)
    ∧ (accS 3 0 1 31).tileCode 0 = 7 ∧ (run { tile0 with mode := .stranded }).tileCode 0 = 8 ∧ (run tile0).tileCode 0 ≠ 7
    ∧ ({ accS 1 0 1 0 with lantern := { consentS.lantern with accPhase := 2 } } : State).accOut = false := by
  decide +kernel

/-- A halt of ward 0's tiles is in force. -/
def haltS (y : Tile) : State := { consentS with lantern := { consentS.lantern with halts := [⟨2, 0⟩] }, tiles := ⟨[(0, y)]⟩ }

/-- No tile is stepping. -/
theorem wit_noStep (t : TileId) : (consentS.tile t).stepping = false := rfl

theorem wit_TilesHaltResumeAndStep : State.reset.lntAwake = false ∧ (consentS.lntAwake = true ∧ consentS.lantern.lock = 2 ∧ consentS.power.fuseGood = true ∧ consentS.coreRuns = true)
    ∧ (lntS 1 0).lantern.lock ≠ 2 ∧ State.scopeGood 1 16 = false ∧ State.scopeGood 1 15 = true ∧ (lntS 2 0).runConsent 1 15 = false ∧ consentS.runConsent 1 15 = true
    ∧ ({ haltS { tile0 with halted := true } with link := ward.link } : State).tileCode 0 = 7
    ∧ (haltS tile0).haltCovers 0 = true ∧ consentS.haltCovers 0 = false ∧ ((haltS tile0).tile 0).mode = .running
    ∧ ((haltS { tile0 with mode := .inRecv 0xFFFFF00000000200#64 4 }).tile 0).mode = .inRecv 0xFFFFF00000000200#64 4
    ∧ ((haltS { tile0 with stepping := true, stepDone := true }).tile 0).stepDone = true := by
  decide +kernel

/-! ### Resets, wards, plans and registers -/

theorem quietQ (q : QuarterId) : (ward.quarter q).bufs = [] ∧ ∀ c ∈ (ward.quarter q).ways.cells, c.2.tagBad = false ∧ c.2.maskErrs = [] ∧ c.2.st ≠ .m ∧ c.2.st ≠ .im ∧ c.2.st ≠ .sm := ⟨rfl, fun c h => by
    have e : (ward.quarter q).ways.cells = [] := rfl
    rw [e] at h; exact absurd h List.not_mem_nil⟩
theorem quietH (h : Nat) : (ward.homeN h).txns = [] ∧ (ward.homeN h).wbufs = [] := ⟨rfl, rfl⟩

def powerS (p : Power) : State := { State.reset with power := p }
def good0 : Power := { Power.off with vauxGood := true, fuseGood := true, coreGood := true }

theorem wit_ResetsKeepTheIsland : State.reset.coreRuns = false ∧ (ward.coreRuns = true ∧ ward.link.up = true ∧ ward.isF F.FLT_LOG_CTRL_ERASE = false ∧ ward.power.cfgReady = true)
    ∧ (∀ q, (ward.quarter q).bufs = [] ∧ ∀ c ∈ (ward.quarter q).ways.cells, c.2.tagBad = false ∧ c.2.maskErrs = [] ∧ c.2.st ≠ .m ∧ c.2.st ≠ .im ∧ c.2.st ≠ .sm) ∧ (∀ h < 17, (ward.homeN h).txns = [] ∧ (ward.homeN h).wbufs = [])
    ∧ (ward.power.coreUp = true ∧ ward.power.coreGood = true ∧ (powerS good0).power.coreUp = false ∧ State.reset.power.vauxGood = false ∧ ward.power.vauxGood = true ∧ ward.calSaving = false)
    ∧ (State.reset.logQueue.length < 15 ∧ State.reset.calCurrent = none
      ∧ (powerS { Power.off with coreGood := true, perst := false }).power.coreGood = true ∧ (powerS { Power.off with coreGood := true, perst := false }).power.perst = false
      ∧ (powerS { Power.off with coreGood := true, perst := false }).power.pAt = none)
    ∧ ((powerS { good0 with perst := false }).power.fuseGood = true ∧ (powerS { good0 with perst := false }).power.pAt = none ∧ (powerS good0).power.perst = true)
    ∧ ((powerS good0).power.vauxGood && (powerS good0).power.fuseGood && (powerS good0).power.coreGood) = true
    ∧ (powerS { good0 with coreUp := true }).coreRuns = true ∧ (powerS { good0 with coreUp := true }).power.cfgReady = false :=
  ⟨rfl, by decide +kernel, quietQ, fun h _ => quietH h, by decide +kernel, by decide +kernel, by decide +kernel, rfl, by decide +kernel, rfl⟩

def resetW (step : Nat) : State := { ward.setF (F.WRD_STATUS_RESETTING 0) 1 with wardStep := ⟨[(0, step)]⟩ }
def cxlS : State := { ward with link := { ward.link with cxlResetBusy := true, cxlResetMemClr := true } }

def flrS : State := { ward with ledger := ⟨⟨[(3, some entB)]⟩, [entB], none⟩ }

theorem noBulkLines (e : LEntry) : (∀ c ∈ ward.ledger.entries.cells, c.2 = some e → e.bulk = some (.vf 0) → e.wdata.isSome = true) ∧ (e ∈ ward.ledger.waiting → e.bulk = some (.vf 0) → e.wdata.isSome = true) :=
  ⟨fun _ h => (nomatch h), fun h => (nomatch h)⟩

theorem wit_WardResetsAndConsent : ((ward.carries (.w 0) (State.ownVf (.w 0) 0 0x1000) true ∧ ward.carries .s (State.ownVf .s 0 0x1000) true)
      ∧ ward.carries (.w 0) (some 0x1010) true ∧ consentS.carries .s none true)
    ∧ (ward.coreRuns = true ∧ ward.resettingWard 0 = false ∧ (resetW 3).resettingWard 0 = true ∧ (resetW 3).coreRuns = true)
    ∧ (State.reset.power.cfgReady = false ∧ ward.power.cfgReady = true ∧ ward.link.cxlResetBusy = false ∧ ward.bulkPending 0 = false)
    ∧ (flrS.power.cfgReady = true ∧ flrS.bulkPending 0 = true ∧ entB.bulk = some (.vf 0) ∧ entB.wdata.isSome = true ∧ flrS.ledger.waiting = [entB])
    ∧ ((resetW 3).wardStep.get 0 0 = 3 ∧ (resetW 3).link.cxlResetBusy = false ∧ (resetW 3).ledgerClear 0 = true ∧ (resetW 3).regionBusy 0 = false ∧ (resetW 3).bulkOut (.vf 0) = false)
    ∧ ((resetW 5).wardStep.get 0 0 = 5 ∧ (resetW 5).ledgerClear 0 = true)
    ∧ (consentS.consentRun 0 = true ∧ ward.consentRun 0 = false ∧ (4#3).getLsbD 2 = true ∧ (3#3).getLsbD 2 = false)
    ∧ (cxlS.link.cxlResetBusy = true ∧ cxlS.pumpAll = cxlS ∧ cxlS.cxlQuiet = true ∧ cxlS.link.held = [] ∧ cxlS.link.cxlResetMemClr = true ∧ cxlS.power.cfgReady = true) :=
  ⟨⟨⟨carries_w (by decide +kernel), carries_s⟩, carries_w (by decide +kernel), .inl (by decide +kernel)⟩, by decide +kernel⟩

/-- No line of ward 0 is held: by the host, or in a way. -/
theorem wit_WardWipeFindsNoLine : (∀ h < 16, ∀ c ∈ ((resetW 3).homeN h).dir.cells, ∀ d, c.2 = some d → d.pres.getLsbD 16 = true → (resetW 3).wardLine 0 ⟨false, c.1⟩ = false)
    ∧ (∀ q, ∀ c ∈ ((resetW 3).quarter q).ways.cells, c.2.held = true → c.2.ward ≠ 0) :=
  ⟨fun h _ c k => by have e : ((resetW 3).homeN h).dir.cells = [] := rfl
                     rw [e] at k; exact absurd k List.not_mem_nil,
   fun q c k => by have e : ((resetW 3).quarter q).ways.cells = [] := rfl
                   rw [e] at k; exact absurd k List.not_mem_nil⟩

/-- The shortest full image, one SUPERVISOR section, and the shortest image for ward 0 with one empty record, each with its
SHA-256 (made by hand from 02 R58 and 20 R516, R517). -/
def imgFull : List Byte := leBytes 1296 (0x1000004a0000000500000000100000000000000000000000000000000000000000000000000000000000000000000000000000040000000000000000000000001000005100002000159565a44
  + 0x323b0dfd4a7c32533044c56ca6b60a7dd17b4901d58dbcba1363a3d9f1f5e32c * 2 ^ (8 * 1264))
def imgWard : List Byte := leBytes 120 0x46a032b6d827f749ddfabbea21e8e761c57fbb8a91a9061d9f61babffd3c3c3500000000000000000000000100000008000000500000000500000000000000000000000000000000000000000000000000000000000000000000000000000040000000000000000000000001000000780102000159565a44
/-- Line `k` of an image, and the loader after it has read the lines before the last; an image whose last line is poisoned. -/
def imgLine (b : List Byte) (k : Nat) : LineVal := ⟨BitVec.ofNat 512 (ofLe ((b.drop (64 * k)).take 64)), false⟩
def loadE (k : Nat) : LEntry := { LEntry.make (Req.make .rdC ⟨false, k⟩ .loader none false) .reserve with tag := 3 }
def loadP (v : LineVal) (k : Nat) : Packet := { mkPkt .rsp RspKind.data.code (homeStop 2) gateStop 0 0 3 false (.line v none) ⟨false, k⟩ with prev := stopN 119, cur := gateStop }
def loadS (sw : Option WardId) (b : List Byte) (k : Nat) (bad : Bool) : State :=
  { ward with job := .read sw 0 b.length ((List.range k).reverse.map (imgLine b)), net := [loadP { imgLine b k with poison := bad } k], ledger := ⟨⟨[(3, some (loadE k))]⟩, [], none⟩ }
def loadCases : List (Option WardId × List Byte × Nat × Bool) :=
  [(none, imgFull, 0, false), (none, imgFull, 20, false), (none, imgFull, 20, true), (some 0, imgWard, 0, false), (some 0, imgWard, 1, false), (some 0, imgFull, 20, false)]

/-- A line of the image that arrives: with more to come, the last of a good image, of a poisoned one, and of one for no ward. -/
theorem wit_ImageLinesArrive :
    (∀ x ∈ loadCases,
      let s := loadS x.1 x.2.1 x.2.2.1 x.2.2.2
      let p := loadP { imgLine x.2.1 x.2.2.1 with poison := x.2.2.2 } x.2.2.1
      let e := loadE x.2.2.1
      s.arrived 0 = some p ∧ p.chan = .rsp ∧ p.poison = false ∧ stopHome p.dst = none ∧ s.entry p.xid = some e ∧ e.req.line = p.about ∧ e.aborted = false ∧ e.forgotten = false
        ∧ e.bad = false ∧ e.pend = 1 ∧ e.req.kind = .rdC ∧ e.req.src = .loader ∧ e.req.line = ⟨false, 0 / 64 + x.2.2.1⟩ ∧ x.2.2.1 * 64 < max x.2.1.length 64 ∧ s.coreRuns = true)
    ∧ (1 * 64 < max imgFull.length 64 ∧ max imgFull.length 64 ≤ 21 * 64 ∧ max imgWard.length 64 ≤ 2 * 64 ∧ (0 / 64 + 0 + 1) * 64 < ward.capacity) := by
  decide +kernel

def gotOf (b : List Byte) (n : Nat) : List LineVal := (List.range n).reverse.map (imgLine b)
theorem wit_ImagesAreChecked : rejectCode (State.gotImage (gotOf imgFull 21)) imgFull.length false none = 0 ∧ rejectCode (State.gotImage (gotOf imgFull 21)) imgFull.length true none = 8
    ∧ rejectCode (State.gotImage (gotOf imgWard 2)) imgWard.length false (some 0) = 0 ∧ rejectCode (State.gotImage (gotOf imgFull 21)) imgFull.length false (some 0) = 4 := by
  decide +kernel

def swapJ : LoadJob := .swap 0 sec0 0 0 200000
def bootJ : LoadJob := .boot none true 3

def waitL : State := { (resetW 3) with job := .load imgFull }

theorem noWayHeld (q : QuarterId) : ∀ c ∈ (ward.quarter q).ways.cells, c.2.held = false := fun c k => by
  have e : (ward.quarter q).ways.cells = [] := rfl
  rw [e] at k; exact absurd k List.not_mem_nil

theorem wit_PlansAreCheckedAndInstalled : (ward.carries .s none true ∧ ∀ s ∈ [ward.setF F.PLN_STATUS_BUSY 1, ward.setF F.PLN_STATUS_SEALED 1, resetW 3], s.carries .s none true)
    ∧ (ward.planBusy = false ∧ ward.isF F.PLN_STATUS_SEALED = false ∧ ward.resettingWard 0 = false ∧ ward.getF F.PLN_IMG_DPA_DPA < ward.capacity
      ∧ ward.grantsNow { loadE 0 with tag := 0 } = true)
    ∧ ((ward.setF F.PLN_STATUS_BUSY 1).planBusy = true ∧ (ward.setF F.PLN_STATUS_SEALED 1).isF F.PLN_STATUS_SEALED = true ∧ (ward.setF F.PLN_STATUS_SEALED 1).planBusy = false
      ∧ (resetW 3).resettingWard 0 = true ∧ (resetW 3).planBusy = false)
    ∧ (({ ward with job := .load imgFull } : State).job = .load imgFull ∧ ward.loadQuiet = true ∧ waitL.job = .load imgFull ∧ waitL.resettingWard 0 = true)
    ∧ (({ ward with job := swapJ } : State).job = swapJ ∧ (ward.lampw 0).running = [] ∧ ward.job = .idle
      ∧ (({ ward with lamp := ⟨[(0, { LampWard.init with running := [⟨item0, true, 0⟩] })]⟩, job := swapJ } : State).lampw 0).running ≠ [])
    ∧ (earlyS.power.coreUp = true ∧ earlyS.power.bootDone = false ∧ earlyS.job = .idle)
    ∧ (({ earlyS with job := bootJ } : State).job = bootJ ∧ earlyS.power.trained = true ∧ cold.power.trained = false
      ∧ ({ earlyS with job := .boot (some imgFull) false 0 } : State).job = .boot (some imgFull) false 0) :=
  ⟨⟨carries_s, fun s h => .inl ((by decide +kernel : ∀ s ∈ [ward.setF F.PLN_STATUS_BUSY 1, ward.setF F.PLN_STATUS_SEALED 1, resetW 3], Port.s = .s ∧ s.mmioOpen = true ∧ s.hostHolds .s = false) s h)⟩,
    by decide +kernel⟩

/-- A Bulk line of ward 0 is out, and one of S. -/
def bulkOutS : State := { ward with ledger := ⟨⟨[(3, some { entB with bulk := some .pf0 })]⟩, [], none⟩ }
def armedL : State := { consentS with power := { consentS.power with fuseGood := true } }
theorem noBulk (f : Func) : ward.bulkOut f = false := rfl

theorem wit_RegistersReadAndWrite : State.reset.mmioOpen = false ∧ State.reset.fnOpen (.vf 0) = false
    ∧ (let s := ward.setF (F.WRD_STATUS_RESETTING 0) 1
       s.fnOpen (.vf 0) = true ∧ s.resettingWard 0 = true ∧ s.link.rxq = [] ∧ s.bulkOut (.vf 0) = false)
    ∧ (ward.mayWrite .m 0x30000 = false ∧ ward.power.bootDone = true ∧ earlyS.power.bootDone = false ∧ ward.mayRead .m 0x1100000 = false)
    ∧ (State.reset.coreRuns = false ∧ ward.lantern.lock ≠ 2 ∧ armedL.coreRuns = true ∧ armedL.lantern.lock = 2 ∧ armedL.consentRegs 0 = true)
    ∧ (({ ward with link := { ward.link with rxq := [.regRead .s 0 4] } } : State).link.rxq ≠ [] ∧ bulkOutS.bulkOut .pf0 = true ∧ bulkOutS.mmioOpen = true)
    ∧ ward.carries .s none true ∧ (∀ f, ward.bulkOut f = false)
    ∧ (ward.viewSpan .s 0xFFFFF0 = none ∧ ward.viewSpan .s 0x50000 = some (0x50000, 4, 0) ∧ (2 : Nat) ≠ 4)
    ∧ (ward.tileWard 0 = some 0 ∧ ward.carries (.w 0) (some (0x40008 + 0x400 * 0)) true)
    ∧ ((0x80000003#32).toNat % 32768 = 3 ∧ (0x80000003#32).getLsbD 31 = true ∧ (ward.setF F.LMP_TICK_CLAMPED 1).getF F.LMP_TICK_CLAMPED = 1)
    ∧ (ward.dimmed = false ∧ (dimS 1).dimmed = true ∧ (dimS 1).getF F.SUP_DIM_CAUSE < 8 ∧ (dimS 1).power.plwRunning = false ∧ (dimS 1).link.held = [] ∧ (dimS 1).link.rxq = []) :=
  ⟨rfl, rfl, by decide +kernel, by decide +kernel, by decide +kernel, by decide +kernel, carries_s, noBulk, by decide +kernel, ⟨by decide +kernel, carries_w (by decide +kernel)⟩,
    by decide +kernel, by decide +kernel⟩

theorem wit_StorageStaysCanonical : storageKept State.reset ∧ step State.reset = .next State.reset := ⟨⟨rfl, rfl, rfl⟩, rfl⟩

theorem wit_EmptyQueuePassesTime : State.reset.pending = [] ∧ State.reset.power.vauxGood = false ∧ (powerS good0).power.coreUp = false ∧ (powerS good0).pending = []
    ∧ ward.pending = [] ∧ ward.power.vauxGood = true ∧ ward.power.coreUp = true ∧ (∀ w, (ward.lampw w).traceQ = []) :=
  ⟨rfl, rfl, rfl, rfl, rfl, rfl, rfl, fun _ => rfl⟩

/-- Words of every field kind; a word of an opcode that no table lists. -/
def roundTrip : List Instr :=
  [.add 0 ⟨1, 2, 3, 0⟩, .sub 5 ⟨31, 30, 29, 31⟩, .addi 0 ⟨1, 2, 0xFFFF⟩, .sd 255 ⟨1, 2, 0x7FFF⟩, .beq 0 ⟨1, 2, 0xFFFF⟩, .j 0 0x3FFFFFF, .fmaddS 0 ⟨1, 2, 3, 4, 7, 63⟩, .faddS 0 ⟨1, 2, 3, 7, 3⟩,
   .atomicAdd 0 ⟨1, 2, 3, 1, 3, 15⟩, .send 0 ⟨1, 2, 3, 64⟩, .fenceCAcquire 0 ⟨1, 2, 3, 127⟩, .mfcr 0 ⟨1, 2, 0xFFFF⟩]
theorem wit_WordsAndInstructionsAgree : (∀ c ∈ roundTrip, (tileWord c).isSome = true) ∧ decodeTile 5 0x04221800 = some (.add 5 ⟨1, 2, 3, 0⟩)
    ∧ ((0x28000000#32).extractLsb' 26 6).toNat = 0x0A := by
  decide +kernel

/-! ### Small tests: one step on a small state, the result taken from the rule that the test names -/

/-! ### Words written out bit by bit from the formats and opcode tables of spec 05 -/

/-- 05 R149 and the opcode tables. -/
theorem test_words_integer : [0b00000100100010110110000000000000#32, 0b00000100100010110110000000010100#32, 0b00001000100010111111111111111111#32, 0b00011100100010110000000000001001#32, 0b00100000100010110000000001000010#32, 0b00100100100000111011111011101111#32].map (decodeTile 7)
    = [some (.add 7 ⟨4, 11, 12, 0⟩), some (.maxu 7 ⟨4, 11, 12, 0⟩), some (.addi 7 ⟨4, 11, 0xFFFF⟩), some (.sltiu 7 ⟨4, 11, 9⟩), some (.shi 7 ⟨4, 11, 0x42⟩), some (.insh 7 ⟨4, 3, 0xBEEF⟩)] := by decide +kernel
/-- 05 R149 and the opcode tables. -/
theorem test_words_memory : [0b01000000100000010000000000001000#32, 0b01011000100000011111111111111000#32, 0b01100000100000010000000000000010#32, 0b01100100100000010000000000000000#32, 0b01101000101000010000000000000011#32, 0b01111100101000010000000000000110#32].map (decodeTile 7)
    = [some (.lb 7 ⟨4, 1, 8⟩), some (.ld 7 ⟨4, 1, 0xFFF8⟩), some (.flh 7 ⟨4, 1, 2⟩), some (.ptest 7 ⟨4, 1, 0⟩), some (.sb 7 ⟨5, 1, 3⟩), some (.fsh 7 ⟨5, 1, 6⟩)] := by decide +kernel
/-- 05 R149 and the opcode tables. -/
theorem test_words_control : [0b10000000001001011111111111111111#32, 0b10010100001001010000000000000100#32, 0b10011011111111111111111111111111#32, 0b10011100000000000000000000010000#32, 0b10100000000000010000000000000000#32, 0b10100000000000010000000000000001#32].map (decodeTile 7)
    = [some (.beq 7 ⟨1, 5, 0xFFFF⟩), some (.bgeu 7 ⟨1, 5, 4⟩), some (.j 7 0x3FFFFFF), some (.jal 7 16), some (.jr 7 ⟨0, 1, 0, 0⟩), some (.jalr 7 ⟨0, 1, 0, 0⟩)] := by decide +kernel
/-- 05 R149 and the opcode tables. -/
theorem test_words_floating : [0b11000000100010110110000011001000#32, 0b11000000100010110000001100111000#32, 0b11000000100010110110010100000000#32, 0b11000000100010110110010101000000#32, 0b11001000100010110110001101010000#32, 0b11010000100010110110001101000000#32].map (decodeTile 7)
    = [some (.fdivS 7 ⟨4, 11, 12, 1, 0⟩), some (.fcvtLS 7 ⟨4, 11, 0, 7, 0⟩), some (.fmulB 7 ⟨4, 11, 12, 0, 0⟩), some (.fsubB 7 ⟨4, 11, 12, 0, 0⟩), some (.fmsubS 7 ⟨4, 11, 12, 13, 2, 0⟩), some (.fmaddB 7 ⟨4, 11, 12, 13, 0, 0⟩)] := by decide +kernel
/-- 05 R149 and the opcode tables. -/
theorem test_words_atomic_message : [0b11011000100000010010100001010010#32, 0b11011000100000010010100000001001#32, 0b11100000000001010000110000000000#32, 0b11100000100000010000000000000001#32, 0b11100000000000010000000000000100#32].map (decodeTile 7)
    = [some (.atomicAdd 7 ⟨4, 1, 5, 1, 2, 0⟩), some (.atomicMaxu 7 ⟨4, 1, 5, 0, 0, 0⟩), some (.send 7 ⟨0, 5, 1, 64⟩), some (.recv 7 ⟨4, 1, 0, 0⟩), some (.pset 7 ⟨0, 1, 0, 0⟩)] := by decide +kernel
/-- 05 R149 and the opcode tables. -/
theorem test_words_fence_system : [0b11110000000000000000000000000100#32, 0b11110000000000000000000000001001#32, 0b11110000000000000000000000001110#32, 0b11111000100000000000000000000101#32, 0b11111000000000000010000000000000#32, 0b11111000000000000011000000001001#32, 0b11111000000000000110000000000000#32].map (decodeTile 7)
    = [some (.fenceCAcquire 7 ⟨0, 0, 0, 0⟩), some (.fenceQRelease 7 ⟨0, 0, 0, 0⟩), some (.fenceSReleaseAcquire 7 ⟨0, 0, 0, 0⟩), some (.mfcr 7 ⟨4, 0, 5⟩), some (.eret 7 ⟨0, 0, 0⟩), some (.trap 7 ⟨0, 0, 9⟩), some (.syncI 7 ⟨0, 0, 0⟩)] := by decide +kernel
/-- 05 R150: a word whose opcode or sub-opcode no table lists is no instruction. -/
theorem test_words_unlisted : [0b00000000000000000000000000000000#32, 0b11111111111111111111111111111111#32, 0b00000100100010110110000000010101#32, 0b00101000000000000000000000000000#32, 0b10100000000000010000000000000010#32, 0b11000000100010110110010110000000#32, 0b11011000100000010010100000001010#32, 0b11100000000000010000000000000101#32, 0b11110000000000000000000000000011#32, 0b11110000000000000000000000000111#32, 0b11111000000000000111000000000000#32].map (decodeTile 7) = List.replicate 11 none := by decide +kernel

/-! ### Single instructions and commands -/

/-- Register 4 of tile 0 after an instruction, with registers 11 and 12 given. -/
def r4 (c : Instr) (a b : W64) : W64 := ((after c (run ((tile0.wg 11 a).wg 12 b))).tile 0).rg 4
def rf : RForm := ⟨4, 11, 12, 0⟩
/-- f register 4, and the sticky flags, with f registers 11 to 13 given. -/
def f4 (c : Instr) (a b d : W32) : W32 × BitVec 5 :=
  let y := (after c (run (((tile0.wf 11 a).wf 12 b).wf 13 d))).tile 0
  (y.rf 4, y.fflags)
def ff (rm : BitVec 3) : FpForm := ⟨4, 11, 12, rm, 0⟩
def ff1 (rm : BitVec 3) : FpForm := ⟨4, 11, 0, rm, 0⟩

/-- 05 R152: addition wraps, subtraction borrows round. -/
theorem test_add_sub_wrap : r4 (.add 0 rf) 0xFFFFFFFFFFFFFFFF 2 = 1 ∧ r4 (.sub 0 rf) 0 1 = 0xFFFFFFFFFFFFFFFF := by decide +kernel
theorem test_and_or_xor : r4 (.and 0 rf) 12 10 = 8 ∧ r4 (.or 0 rf) 12 10 = 14 ∧ r4 (.xor 0 rf) 12 10 = 6 := by decide +kernel
/-- 05 R152: a shift takes rb[5:0]. -/
theorem test_shifts_take_six_bits : r4 (.sll 0 rf) 1 65 = 2 ∧ r4 (.srl 0 rf) 0x8000000000000000 63 = 1 ∧ r4 (.sra 0 rf) 0x8000000000000000 63 = 0xFFFFFFFFFFFFFFFF := by decide +kernel
theorem test_set_less : r4 (.slt 0 rf) 0xFFFFFFFFFFFFFFFF 0 = 1 ∧ r4 (.sltu 0 rf) 0xFFFFFFFFFFFFFFFF 0 = 0 := by decide +kernel
theorem test_mul_high : r4 (.mul 0 rf) 0xFFFFFFFFFFFFFFFF 3 = 0xFFFFFFFFFFFFFFFD ∧ r4 (.mulh 0 rf) 0xFFFFFFFFFFFFFFFF 3 = 0xFFFFFFFFFFFFFFFF
    ∧ r4 (.mulhu 0 rf) 0xFFFFFFFFFFFFFFFF 3 = 2 := by decide +kernel
/-- 05 R153: division by 0 and the overflow of the most negative number. -/
theorem test_div_corners : r4 (.div 0 rf) 7 0 = 0xFFFFFFFFFFFFFFFF ∧ r4 (.rem 0 rf) 7 0 = 7 ∧ r4 (.div 0 rf) 0x8000000000000000 0xFFFFFFFFFFFFFFFF = 0x8000000000000000
    ∧ r4 (.rem 0 rf) 0x8000000000000000 0xFFFFFFFFFFFFFFFF = 0 := by decide +kernel
theorem test_div_toward_zero : r4 (.div 0 rf) 0xFFFFFFFFFFFFFFF9 2 = 0xFFFFFFFFFFFFFFFD ∧ r4 (.rem 0 rf) 0xFFFFFFFFFFFFFFF9 2 = 0xFFFFFFFFFFFFFFFF
    ∧ r4 (.divu 0 rf) 7 0 = 0xFFFFFFFFFFFFFFFF ∧ r4 (.remu 0 rf) 7 4 = 3 := by decide +kernel
theorem test_min_max : r4 (.min 0 rf) 0xFFFFFFFFFFFFFFFF 1 = 0xFFFFFFFFFFFFFFFF ∧ r4 (.max 0 rf) 0xFFFFFFFFFFFFFFFF 1 = 1 ∧ r4 (.minu 0 rf) 0xFFFFFFFFFFFFFFFF 1 = 1
    ∧ r4 (.maxu 0 rf) 0xFFFFFFFFFFFFFFFF 1 = 0xFFFFFFFFFFFFFFFF := by decide +kernel
/-- 05 R154: ADDI and SLTI sign-extend, ANDI, ORI and XORI zero-extend. -/
theorem test_immediates : r4 (.addi 0 ⟨4, 11, 0xFFFF⟩) 5 0 = 4 ∧ r4 (.andi 0 ⟨4, 11, 0xFFFF⟩) 0xFFFFFFFFFFFFFFFF 0 = 0xFFFF ∧ r4 (.ori 0 ⟨4, 11, 0x8000⟩) 1 0 = 0x8001
    ∧ r4 (.xori 0 ⟨4, 11, 0x8000⟩) 0 0 = 0x8000 ∧ r4 (.slti 0 ⟨4, 11, 0xFFFF⟩) 0 0 = 0 ∧ r4 (.sltiu 0 ⟨4, 11, 0xFFFF⟩) 0 0 = 1 := by decide +kernel
/-- 05 R154: SHI by kind and amount; INSH replaces 16 bits of rd. -/
theorem test_shi_insh : r4 (.shi 0 ⟨4, 11, 0x004⟩) 1 0 = 16 ∧ r4 (.shi 0 ⟨4, 11, 0x044⟩) 0x10 0 = 1 ∧ r4 (.shi 0 ⟨4, 11, 0x0BF⟩) 0x8000000000000000 0 = 0xFFFFFFFFFFFFFFFF
    ∧ r4 (.insh 0 ⟨4, 3, 0xBEEF⟩) 0 0 = 0xBEEF000000000000 := by decide +kernel
/-- 04 R117: a write to g0 is discarded. -/
theorem test_g0_discards : ((after (.add 0 ⟨0, 5, 5, 0⟩) (run tile0)).tile 0).rg 0 = 0 ∧ ((after (.add 0 ⟨0, 5, 5, 0⟩) (run tile0)).tile 0).pc = 0xFFFFF00000000104 := by decide +kernel
/-- 05 R150: a reserved bit makes the word ILLEGAL, code 1, at the handler VBASE + 16. -/
theorem test_illegal_word : ((after (.add 0 ⟨4, 11, 12, 1⟩) (run tile0)).tile 0).cause = 1 ∧ ((after (.add 0 ⟨4, 11, 12, 1⟩) (run tile0)).tile 0).pc = 0xFFFFF00000000010
    ∧ ((after (.add 0 ⟨4, 11, 12, 1⟩) (run tile0)).tile 0).epc = 0xFFFFF00000000100 := by decide +kernel

/-- Local store at 0x200 holds F8 91 A2 B3 C4 D5 E6 77. -/
def tileD : Tile := { tile0 with ls := ⟨[(0x200, 0xF8), (0x201, 0x91), (0x202, 0xA2), (0x203, 0xB3), (0x204, 0xC4), (0x205, 0xD5), (0x206, 0xE6), (0x207, 0x77)]⟩ }
def d4 (c : Instr) : W64 := ((after c (run tileD)).tile 0).rg 4
/-- 05 R155, 00 R7: little-endian loads, sign- or zero-extended. -/
theorem test_loads_extend : d4 (.lb 0 ⟨4, 1, 0⟩) = 0xFFFFFFFFFFFFFFF8 ∧ d4 (.lbu 0 ⟨4, 1, 0⟩) = 0xF8 ∧ d4 (.lh 0 ⟨4, 1, 0⟩) = 0xFFFFFFFFFFFF91F8 ∧ d4 (.lhu 0 ⟨4, 1, 2⟩) = 0xB3A2
    ∧ d4 (.lw 0 ⟨4, 1, 0⟩) = 0xFFFFFFFFB3A291F8 ∧ d4 (.lwu 0 ⟨4, 1, 0⟩) = 0xB3A291F8 ∧ d4 (.ld 0 ⟨4, 1, 0⟩) = 0x77E6D5C4B3A291F8 := by decide +kernel
theorem test_float_loads : ((after (.flw 0 ⟨4, 1, 4⟩) (run tileD)).tile 0).rf 4 = 0x77E6D5C4 ∧ ((after (.flh 0 ⟨4, 1, 6⟩) (run tileD)).tile 0).rf 4 = 0x77E60000 := by decide +kernel
/-- 04 R122: a misaligned access raises MISALIGN with its address. -/
theorem test_misaligned : ((after (.lw 0 ⟨4, 1, 2⟩) (run tileD)).tile 0).cause = 3 ∧ ((after (.lw 0 ⟨4, 1, 2⟩) (run tileD)).tile 0).badaddr = 0xFFFFF00000000202 := by decide +kernel
def lsAfter (c : Instr) (y : Tile) (o n : Nat) : Nat := ((after c (run y)).tile 0).lsRead o n
theorem test_stores_low_bytes : lsAfter (.sb 0 ⟨5, 1, 1⟩) tileD 0x200 8 = 0x77E6D5C4B3A205F8 ∧ lsAfter (.sh 0 ⟨5, 1, 2⟩) tileD 0x200 8 = 0x77E6D5C4000591F8
    ∧ lsAfter (.sw 0 ⟨5, 1, 4⟩) tileD 0x200 8 = 0x00000005B3A291F8 ∧ lsAfter (.sd 0 ⟨5, 1, 0⟩) tileD 0x200 8 = 5 := by decide +kernel
theorem test_float_stores : lsAfter (.fsw 0 ⟨4, 1, 0⟩) (tileD.wf 4 0x3F801234) 0x200 4 = 0x3F801234 ∧ lsAfter (.fsh 0 ⟨4, 1, 0⟩) (tileD.wf 4 0x3F801234) 0x200 4 = 0xB3A23F80 := by decide +kernel
/-- 05 R156; 04 R122: PTEST tells a mark, a load of it raises POISON_DATA, an 8-byte store clears it, a narrower one does not. -/
theorem test_marks : ((after (.ptest 0 ⟨4, 1, 0⟩) (run tileP)).tile 0).rg 4 = 1 ∧ ((after (.ld 0 ⟨4, 1, 0⟩) (run tileP)).tile 0).cause = 7
    ∧ ((after (.sd 0 ⟨5, 1, 0⟩) (run tileP)).tile 0).lsPoison.get false 0x40 = false ∧ ((after (.sw 0 ⟨5, 1, 0⟩) (run tileP)).tile 0).lsPoison.get false 0x40 = true := by decide +kernel
theorem test_pset_marks : ((after (.pset 0 ⟨0, 1, 0, 0⟩) (run tile0)).tile 0).lsPoison.get false 0x40 = true := by decide +kernel

/-- 05 R157: a branch goes to PC + 4 × off, a jump likewise; bits [1:0] of a target are cleared. -/
theorem test_targets : branchTarget 0xFFFFF00000000100 0xFFFF = 0xFFFFF000000000FC ∧ jumpTarget 0xFFFFF00000000100 4 = 0xFFFFF00000000110 ∧ target 0xFFFFF00000000303 = 0xFFFFF00000000300 := by
  decide +kernel

/-- 05 R158, R159: 1 + 2 = 3; 1 / 3 rounds to nearest and is inexact; 1 / 0 is infinite; infinity minus infinity is invalid. -/
theorem test_fadd_fdiv : f4 (.faddS 0 (ff 0)) 0x3F800000 0x40000000 0 = (0x40400000, 0) ∧ f4 (.fdivS 0 (ff 0)) 0x3F800000 0x40400000 0 = (0x3EAAAAAB, 16)
    ∧ (f4 (.fdivS 0 (ff 0)) 0x3F800000 0 0).1 = 0x7F800000 ∧ (f4 (.fsubS 0 (ff 0)) 0x7F800000 0x7F800000 0).1 = 0x7FC00000 := by decide +kernel
theorem test_fmul_fsqrt : f4 (.fmulS 0 (ff 0)) 0x40000000 0x40400000 0 = (0x40C00000, 0) ∧ f4 (.fsqrtS 0 (ff1 0)) 0x41100000 0 0 = (0x40400000, 0)
    ∧ (f4 (.fsqrtS 0 (ff1 0)) 0xBF800000 0 0).1 = 0x7FC00000 := by decide +kernel
/-- 05 R160: FMIN.S and FMAX.S give the operand that is no NaN; FNEG.S and FABS.S change the sign bit alone. -/
theorem test_fmin_fneg : (f4 (.fminS 0 (ff 0)) 0x3F800000 0x7FC00000 0).1 = 0x3F800000 ∧ (f4 (.fmaxS 0 (ff 0)) 0x3F800000 0x40000000 0).1 = 0x40000000
    ∧ f4 (.fnegS 0 (ff1 0)) 0x7F800001 0 0 = (0xFF800001, 0) ∧ f4 (.fabsS 0 (ff1 0)) 0xFF800001 0 0 = (0x7F800001, 0) := by decide +kernel
def g4f (c : Instr) (a b : W32) : W64 := ((after c (run ((tile0.wf 11 a).wf 12 b))).tile 0).rg 4
theorem test_fcompare : g4f (.feqS 0 (ff 0)) 0 0x80000000 = 1 ∧ g4f (.fltS 0 (ff 0)) 0x3F800000 0x40000000 = 1 ∧ g4f (.fleS 0 (ff 0)) 0x7FC00000 0 = 0 := by decide +kernel
/-- 05 R160: conversions round by the mode, and saturate with invalid. -/
theorem test_fcvt : g4f (.fcvtLS 0 (ff1 1)) 0xC0200000 0 = 0xFFFFFFFFFFFFFFFE ∧ g4f (.fcvtLuS 0 (ff1 0)) 0x40200000 0 = 2
    ∧ ((after (.fcvtSL 0 ⟨4, 5, 0, 0, 0⟩) (run tile0)).tile 0).rf 4 = 0x40A00000 ∧ ((after (.fcvtSLu 0 ⟨4, 5, 0, 0, 0⟩) (run tile0)).tile 0).rf 4 = 0x40A00000
    ∧ (f4 (.fcvtBfS 0 (ff1 0)) 0x3F808001 0 0).1 = 0x3F810000 := by decide +kernel
theorem test_fmoves : g4f (.fmvGF 0 (ff1 0)) 0xBF800000 0 = 0xBF800000 ∧ ((after (.fmvFG 0 ⟨4, 5, 0, 0, 0⟩) (run tile0)).tile 0).rf 4 = 5 := by decide +kernel
theorem test_bf16 : (f4 (.faddB 0 (ff 0)) 0x3F800000 0x40000000 0).1 = 0x40400000 ∧ (f4 (.fsubB 0 (ff 0)) 0x3F800000 0x40000000 0).1 = 0xBF800000
    ∧ (f4 (.fmulB 0 (ff 0)) 0x40000000 0x40400000 0).1 = 0x40C00000 := by decide +kernel
/-- 05 R161: the fused forms; FNMADD.S of 1 × 1 and -1 is an exact zero sum, +0 but when rounding down. -/
theorem test_fused : (f4 (.fmaddS 0 ⟨4, 11, 12, 13, 0, 0⟩) 0x40000000 0x40400000 0x3F800000).1 = 0x40E00000 ∧ (f4 (.fmsubS 0 ⟨4, 11, 12, 13, 0, 0⟩) 0x40000000 0x40400000 0x3F800000).1 = 0x40A00000
    ∧ (f4 (.fnmaddS 0 ⟨4, 11, 12, 13, 0, 0⟩) 0x3F800000 0x3F800000 0xBF800000).1 = 0 ∧ (f4 (.fmaddB 0 ⟨4, 11, 12, 13, 0, 0⟩) 0x40000000 0x40400000 0x3F800000).1 = 0x40E00000 := by decide +kernel

/-- The old value and the new word of an atomic on local store, where the word holds 7 and rb 5, rd given. -/
def at4 (c : Instr) (rd : W64) : W64 × Nat :=
  let s := after c (run ({ tile0 with ls := ⟨[(0x200, 7)]⟩ }.wg 4 rd))
  ((s.tile 0).rg 4, (s.tile 0).lsRead 0x200 8)
def af : AtForm := ⟨4, 1, 5, 1, 0, 0⟩
theorem test_atomics : at4 (.atomicSwap 0 af) 0 = (7, 5) ∧ at4 (.atomicCas 0 af) 7 = (7, 5) ∧ at4 (.atomicCas 0 af) 6 = (7, 7) ∧ at4 (.atomicAdd 0 af) 0 = (7, 12)
    ∧ at4 (.atomicAnd 0 af) 0 = (7, 5) ∧ at4 (.atomicOr 0 af) 0 = (7, 7) ∧ at4 (.atomicXor 0 af) 0 = (7, 2) := by decide +kernel
theorem test_atomic_orders : at4 (.atomicMin 0 af) 0 = (7, 5) ∧ at4 (.atomicMax 0 af) 0 = (7, 7) ∧ at4 (.atomicMinu 0 af) 0 = (7, 5) ∧ at4 (.atomicMaxu 0 af) 0 = (7, 7) := by decide +kernel

/-- 05 R168: MFCR, MTCR and the traps; at level T, MTCR raises PRIV, code 2, and so does ERET,
but with an invalid stack pointer, which is ILLEGAL, code 1 (04 R128). -/
theorem test_control_registers : ((after (.mfcr 0 ⟨4, 0, 4⟩) (run tile0)).tile 0).rg 4 = 0xFFFFF00000000000 ∧ ((after (.mtcr 0 ⟨0, 5, 5⟩) (run tile0)).tile 0).timecmp = 5
    ∧ ((after (.mtcr 0 ⟨0, 5, 5⟩) (run tileT)).tile 0).cause = 2 ∧ ((after (.eret 0 ⟨0, 0, 0⟩) (run tileV)).tile 0).cause = 2 ∧ ((after (.eret 0 ⟨0, 0, 0⟩) (run tileT)).tile 0).cause = 1 := by decide +kernel
theorem test_traps : ((after (.trap 0 ⟨0, 0, 9⟩) (run tile0)).tile 0).cause = 0x9000A ∧ ((after (.brk 0 ⟨0, 0, 0⟩) (run tile0)).tile 0).cause = 0x0B
    ∧ ((after (.brk 0 ⟨0, 0, 0⟩) (run tile0)).tile 0).rg 2 = 0xFFFFF0000003FFC0 ∧ ((after (.brk 0 ⟨0, 0, 0⟩) (run tileS)).tile 0).mode = .stranded := by decide +kernel
/-- 04 R130, R131: an entry and the return from it come back to the next word's place. -/
theorem test_eret_returns : ((after (.eret 0 ⟨0, 0, 0⟩) (after (.brk 0 ⟨0, 0, 0⟩) (run tile0))).tile 0).pc = 0xFFFFF00000000100
    ∧ ((after (.eret 0 ⟨0, 0, 0⟩) (after (.brk 0 ⟨0, 0, 0⟩) (run tile0))).tile 0).rg 2 = 0xFFFFF00000040000 := by decide +kernel
theorem test_interrupt_order : ((after (.interruptTake 0) (run (tileI [⟨5, 0, false, 0, false, []⟩] 0 true))).tile 0).cause = 0x20
    ∧ ((after (.interruptTake 0) (run (tileI [] 0 true))).tile 0).cause = 0x21 ∧ ((after (.interruptTake 0) (run (tileI [] 200001 true))).tile 0).cause = 0x22 := by decide +kernel
/-- 05 R164, R166: SEND makes a packet; RECV returns the header word LEN, POISON, SRC, WARD. -/
theorem test_send_recv : (after (.send 0 ⟨0, 5, 1, 8⟩) (run tile0)).net.length = 1 ∧ ((after (.recv 0 ⟨4, 1, 0, 0⟩) (run tileR)).tile 0).rg 4 = 0x583
    ∧ lsAfter (.recv 0 ⟨4, 1, 0, 0⟩) tileR 0x200 8 = 0x030201 ∧ ((after (.recv 0 ⟨4, 1, 0, 0⟩) (run tile0)).tile 0).mode = .inRecv 0xFFFFF00000000200#64 4 := by decide +kernel
theorem test_getwork_puttok : ((after (.getwork 0 ⟨4, 1, 0, 0⟩) (run tileN)).tile 0).rg 4 = 0 ∧ (after (.getwork 0 ⟨4, 1, 0, 0⟩) (run tile0)).gwQueue = [0]
    ∧ ((after (.puttok 0 ⟨0, 1, 0, 0⟩) (run tile0)).tile 0).mode = .inPuttok 0xFFFFF00000000200#64 := by decide +kernel
theorem test_fences_wait : ((after (.fenceCAcquire 0 ⟨0, 0, 0, 0⟩) (run tile0)).tile 0).pc = 0xFFFFF00000000104
    ∧ ((after (.fenceQRelease 0 ⟨0, 0, 0, 0⟩) (run tile0)).tile 0).mode = .inFence .q .release []
    ∧ ((after (.fenceComplete 0) (run { tileL with mode := .inFence .q .acquire [] })).tile 0).l1d = [] := by decide +kernel
theorem test_wait_sync : ((after (.wait 0 ⟨0, 0, 0⟩) (run tile0)).tile 0).mode = .inWait ∧ ((after (.syncI 0 ⟨0, 0, 0⟩) (run tile0)).tile 0).l1i = []
    ∧ ((after (.timecmpReached 0) (run { tile0 with im := 2, timecmp := 5, mode := .inWait })).tile 0).mode = .running
    ∧ ((after (.doorbell .s 0) (run tile0)).tile 0).ipDoorbell = true := by decide +kernel
/-- 10 R272: two stores of one line share an entry; it drains to the way that holds the line. -/
theorem test_store_buffer : ((after (.sd 0 ⟨5, 6, 8⟩) (run tileB)).tile 0).sb.length = 1 ∧ ((after (.storeBufferDrain 0 0) drainE).tile 0).sb = []
    ∧ (((after (.storeBufferDrain 0 0) drainE).quarter 0).way 1 0).data = 5 := by decide +kernel

/-- 06 R173: along the quarter first. -/
theorem test_one_hop : nextHop (.tile 0x23) (.tile 0x51) (.tile 0x23) = .tile 0x22 ∧ nextHop (.tile 0x23) (.tile 0x51) (.tile 0x21) = .tile 0x31
    ∧ ((after (.packetAdvance 0) (withNet tile0 [pktGo])).net.map (·.cur)) = [.tile 4] := by decide +kernel
theorem test_message_delivered : ((after (.msgDeliver 0) (withNet tile0 [pktAt])).tile 0).inbox = [msg0] ∧ (after (.msgDeliver 0) (withNet tile0 [pktAt])).net = [] := by decide +kernel
theorem test_gate_passes : ((after (.gateEnter 0 0) (gateS [])).gateBuf 0).length = 1 ∧ ((after (.gateDeliver 0) (gateS [{ pktG with dst := .tile 0 }])).tile 0).inbox = [msgG] := by decide +kernel
/-- 07 R199, R200: a token waits for its partner with rule ALL and fires at once with ANY. -/
theorem test_tokens : ((after (.tokenArrive 0) (got ward tok0)).lampw 0).tokens.length = 1 ∧ ((after (.tokenArrive 0) (got anyWard tok0)).lampw 0).ready.length = 1
    ∧ (after (.tokenArrive 0) (got ward { tok0 with node := 0x56 })).getF (F.LMPW_DISCARD_NO_NODE 0) = 1 := by decide +kernel
theorem test_dispatch : (after (.workDispatchTile 0 3) handS).net.length = 2 ∧ ((after (.workDispatchTile 0 3) handS).lampw 0).ready = [] := by decide +kernel
theorem test_tick_counts : (after .tick ward).tickCount = 1 ∧ (after .tick State.reset).tickCount = 0 := by decide +kernel
theorem test_pin_edge : ((after (.evtEdge 2 true) ward).pin 2).cand = some (true, 200000) ∧ ((after (.evtDeliver 2) (pinS { EvtPin.init with level := true, edge := some (200000, 1, true, true) })).lampw 0).tokens.length = 1 := by
  decide +kernel

/-- 09 R267: COPY moves the bytes; its line leaves as one write of the transaction Ledger. -/
theorem test_copy : ((after (.copy 68) copyS).ledger.entries.cells.map (fun c => (c.2.bind (·.wdata)).map (·.data))) = [some 0x03020100] ∧ ((after (.copy 68) copyS).engine 68).run.isSome = true := by
  decide +kernel
/-- 09 R270: CRC-64/XZ of the nine digits is 995DC9BBDF1939FA, and SHA-256 of nothing begins E3 B0 C4 42. -/
theorem test_digests : crc64Xz 0 ((List.range 9).map (fun i => BitVec.ofNat 8 (0x31 + i))) = 0x995DC9BBDF1939FA ∧ (sha256Bytes []).take 4 = [0xE3, 0xB0, 0xC4, 0x42] := by decide +kernel
theorem test_wrong_op_ends : ((after (.engineComplete 68) (engS { desc0 0x60 0 0 4 0 with path := .feed } Engine.init)).engine 68).lastRec = BitVec.ofNat 128 (1 + 68 * 256 + 0x10000 + 0x60000000) := by decide +kernel

/-- 11 R328: a line in M answers SNP_INV with its data and leaves; one in S drops at INV. -/
theorem test_snoops : ((after (.snpInv 0) (snoopS .snpInv (holds way0))).quarter 0).way 1 0 = CWay.free ∧ (after (.snpInv 0) (snoopS .snpInv (holds way0))).net.length = 1
    ∧ (((after (.inv 0) (snoopS .inv (holds { way0 with st := .s }))).quarter 0).way 1 0).st = .i := by decide +kernel
theorem test_grant_installs : ((((after (.gntE 0) (grantS 2 (entryQ .rdX (some ⟨line0, false⟩)) Quarter.init)).quarter 0).way 1 0).st, (((after (.gntE 0) (grantS 2 (entryQ .rdX (some ⟨line0, false⟩)) Quarter.init)).quarter 0).way 1 0).data)
    = (.e, line0) := by decide +kernel
/-- 12 R324: RD_S of a line that another quarter holds in X is snooped with SNP_S; a read of a part never written gives zeros. -/
theorem test_home_snoops : (after (.rdS 0) (homeS (askQ .rdS) (dirH (entX 1)))).net.map (·.kind) = [SnpKind.snpS.code]
    ∧ (after (.rdC 0) (homeS (askE .rdC) Home.init)).net.map (·.payload) = [.line ⟨0, false⟩ none] := by decide +kernel
theorem test_busy_line_refused : (after (.rdX 0) (homeS (askQ .rdX) busyH)).net.map (·.kind) = [RspKind.retry.code] ∧ (after (.rdC 0) (homeS (askE .rdC) busyH)).net.map (·.kind) = [RspKind.nack.code] := by
  decide +kernel
theorem test_write_commits : (after (.writeDataArrive 0) (wbufS (askE .wrInv))).dramLine 0x80001 = line0 ∧ (after (.writeDataArrive 0) (wbufS (askE .wrInv))).net.map (·.kind) = [RspKind.done.code] := by
  decide +kernel
/-- 14 R381: one bad device is corrected, two bad devices are not. -/
theorem test_ecc : (scrubS (job0 false false) .empty []).dramOutcome n2 [(9, 0xFFFF)] = .corrected 0 9
    ∧ ((after (.scrubLine 2 ⟨[(9, 0xFFFF)], false, none⟩) (scrubS (job0 false false) ⟨[(0, true)]⟩ [])).scrub.map (·.corrected)) = some 1 := by decide +kernel
/-- 14 R373: the lowest common capacity; 64 GiB on each channel makes 1,024 GiB. -/
theorem test_training : (after (.ddrTrainingDone (List.replicate 16 dimm64)) cold).power.capGib = 1024 ∧ (after (.ddrTrainingDone (List.replicate 15 dimm64 ++ [noDimm])) cold).power.trained = false := by
  decide +kernel
/-- 15 R410, R411: a read that no decoder takes is answered with poison and counted. -/
theorem test_host_nomap : (after (.memRdData 0x8000000000 7) active).getF F.LNK_MEM_ERR_NOMAP = 1 ∧ (after (.memRdData 0x2000040 7) active).net.length = 1 := by decide +kernel
theorem test_bulk_write : (after (.bulkWrite (.vf 0) tlp2 false) (bulkS 0x10000040)).getF (F.BLK_DONE_VALUE 1) = 2 ∧ (after (.bulkWrite (.vf 0) tlp2 false) (bulkS 0x10000040)).net.length = 1 := by decide +kernel
theorem test_vector_sent : (after (.msixUnmask .pf0 (.vector 3)) (pendS cfgOn 0)).out = [.msix .pf0 0xFEE00000 5] := by decide +kernel
/-- 15 R402, R406: the vendor and device numbers. -/
theorem test_config_read : (after (.configRequest ⟨.pf0, 0, 4, none, 4⟩) ward).out = [.cfgData 4 0x8640C9A5] := by decide +kernel
/-- 16 R439: an injected event is latched in its group. -/
theorem test_inject : (after (.fltInject .s 0x5000000100AA#64) ward).getF F.FLT_BEACON_GROUPS = 2 ^ 42 ∧ (after (.fltInject .s 0x5000000100AA#64) ward).getF (F.FLT_RCOUNT_U 42) = 1 := by decide +kernel
/-- 17 R453: below half its low bound, a core rail is lost. -/
theorem test_rails : (after (.railOutOfRange 0 374) ward).power.coreUp = false ∧ (after (.railOutOfRange 1 400) ward).getF F.SUP_DIM_STATE = 1 ∧ after (.railOutOfRange 1 776) ward = ward := by decide +kernel
theorem test_offset_clamped : (after (.calUserWrite .s 0 127) ward).calUser 0 = (calRange 0).2 := by decide +kernel
/-- 18 R485: GET_IDENTITY answers the vendor, the device and revision 2 to the requester, with the request's TAG. -/
theorem test_identity : ((after (.getIdentity (hdr 0)) ward).mgmt.response.map (fun r => (r.drop 12).take 5)) = some ((mgmtRsp (hdr 0) 1 0 0 (leBytes 2 0xC9A5 ++ leBytes 2 0x8640 ++ [2])).drop 12 |>.take 5) := by decide +kernel
/-- 19 R496, R498: LOCKED while the port is locked; the key of the nonce opens it; a bad parity is PARERR. -/
theorem test_lantern_lock : (after (.read (lhdr 1 2)) (lntS 0 0)).out = [.lantern 4 none] ∧ (after (.unlock (lhdr 3 0) (ldat 0xEDCBA98712345678)) (lntS 1 0)).lantern.lock = 2
    ∧ (after (.read { lhdr 1 2 with parity := !(lhdr 1 2).parity }) (lntS 2 0)).out = [.lantern 6 none] := by decide +kernel
/-- The same state with one tile in ward 0. -/
def small (s : State) : State := { s with plan := { s.plan with own := ⟨[(0, { own0 with tiles := 1 })]⟩ } }
theorem test_halt_and_step : ((after (.tileHalt 0) (small (haltS tile0))).tile 0).halted = true
    ∧ ((after (.step 0 0) (small (haltS { tile0 with halted := true }))).tile 0).stepping = true := by decide +kernel
theorem test_access_ls : (after .lntAccessLs (accS 2 0 1 0x3FFF8)).lantern.accPhase = 3 ∧ (after .lntAccessLs (accS 2 0 1 0x40000)).lantern.accFault = true := by decide +kernel
def memD : State := { ward with dram := ⟨[(5, 7)]⟩ }
/-- 00 R3, R4: a warm reset keeps memory and the island; the loss of VAUX keeps the flash alone. -/
theorem test_resets : (after .hotReset memD).dram = memD.dram ∧ (after .hotReset ward).plan = Plan.none ∧ (after .vauxLoss memD).dram = .empty := by decide +kernel
theorem test_ward_reset_ends : (after (.wardResetDone 0) (small (resetW 5))).resettingWard 0 = false ∧ (after (.wardResetWipe 0) (small (resetW 3))).wardStep.get 0 0 = 5 := by decide +kernel
/-- 02 R79, R85: the last line of a good image starts a SWAP; a bad magic is RESULT 3. -/
theorem test_plans : (after (.data 0) (loadS (some 0) imgWard 1 false)).swapping 0 = true ∧ rejectCode (List.replicate 64 0) 64 false none = 3
    ∧ (after (.data 0) (loadS none imgFull 20 true)).getF F.PLN_STATUS_RESULT = 8 := by decide +kernel
/-- 00 R8, R10: a value below a field's range is raised to it and reported; an offset without a register is counted. -/
theorem test_register_space : (after (.registerWrite .s 0x50000 4 2) ward).getF F.LMP_TICK_PERIOD = 3 ∧ (after (.registerWrite .s 0x50000 4 2) ward).getF F.LMP_TICK_CLAMPED = 1
    ∧ (after (.rcFieldRead .s 0xFFFFF0 4) ward).getF F.GBL_ACCESS_ERR_OFFSET = 0xFFFFF0 := by decide +kernel
theorem test_step_takes_the_front : step { ward with pending := [.tick, .scrub] } = exec .tick { ward with pending := [.scrub] } := rfl

/-! ### WellFormed refuses an ill-formed term for each of its checks -/

theorem test_wf_registers : [Instr.registerWrite .s 0 0 0, .registerWrite .s 0 513 0, .registerWrite .s 0 1 256, .rcFieldRead .s 0 0, .rcFieldRead .s 0 4097].map wellFormed
    = [false, false, false, false, false] := by decide +kernel
theorem test_wf_tails : [Instr.traceTailWrite .s 0 (2 ^ 64), .ringTailWrite .s 0 (2 ^ 64), .blkAddrWrite .pf0 (2 ^ 64), .blkShapeWrite .pf0 true (2 ^ 64)].map wellFormed = [false, false, false, false] := by
  decide +kernel
theorem test_wf_lines : [Instr.memRd 1 .a 0, .memRdData 63 0, .memInv 1 .i 0, .memInvNt 1 .i 0, .memClnEvct 1 0, .memSpecRd 1 0, .memWr 1 .i ⟨0, false⟩ 0, .memWrPtl 1 .i 0 ⟨0, false⟩ 0,
    .biConflict 1 0].map wellFormed = List.replicate 9 false := by decide +kernel
theorem test_wf_link : [Instr.linkTrained 0 16 true, .linkTrained 7 16 true, .linkTrained 6 3 true, .l0pPartnerRequest 5, .configRequest ⟨.pf0, 0, 0, none, 0⟩, .configRequest ⟨.pf0, 2, 4, none, 0⟩,
    .configRequest ⟨.pf0, 4096, 1, none, 0⟩, .bulkWrite .pf0 [] false, .bulkRead .pf0 0 0, .bulkRead .pf0 4097 0, .cxlIoCompletion 0 [] false].map wellFormed = List.replicate 11 false := by decide +kernel
theorem test_wf_supply : [Instr.ddrTrainingDone [], .railSample [] [], .calUserWrite .s 0 128, .calUserWrite .s 0 (-129), .logCtrlRead 65536].map wellFormed = List.replicate 5 false := by decide +kernel
theorem test_wf_management : [Instr.mctpPacket (List.replicate 257 0) true, .readReg (hdr 5) (2 ^ 32) 4, .readReg (hdr 5) 0 256, .writeReg (hdr 13) (2 ^ 32) 4 0, .writeReg (hdr 13) 0 256 0,
    .writeReg (hdr 13) 0 4 (2 ^ 64), .logRead (hdr 2) 65536 true, .calSet (hdr 2) 256 0, .throttle (hdr 1) 256, .resetReq (hdr 2) 256 0, .resetReq (hdr 2) 0 256, .alertGet (hdr 1) 256,
    .lanternCtrl (hdr 2) 256 0, .lanternCtrl (hdr 2) 0 256].map wellFormed = List.replicate 14 false := by decide +kernel
theorem test_wf_lantern : [Instr.halt 4 0, .halt 0 256, .resume 4 0, .step 0 256, .lntComparatorWrite true 8 0, .lntComparatorWrite false 4 0].map wellFormed = List.replicate 6 false := by decide +kernel
theorem test_wf_accepts : [Instr.tick, .registerWrite .s 0x50000 4 25, .configRequest req0, .memRd 0x40 .a 0, .halt 0 255, .linkTrained 6 16 true].map wellFormed = List.replicate 6 true := by decide +kernel
/-- No row of the table has bits. -/
theorem test_no_word_decodes : decodeTableWord 32 0 = none ∧ State.withFetchWord ward 32 0 = ward := ⟨rfl, rfl⟩

end Sys2Proof.Tests
end

/-! ## Proofs -/

namespace Sys2Proof.Machine

/-! ### The cold device (00 R1, R3, R4) -/

/-- At reset a register of a tile reads 0, but g2, which holds the end of local store (04 R117). -/
theorem Tile.rg_init (r : BitVec 5) : Tile.init.rg r = if r = 2 then 0xFFFFF00000040000 else 0 := by
  revert r
  decide

/-- No ward resets in the cold device. -/
theorem State.resettingWard_reset (w : WardId) : State.reset.resettingWard w = false := by
  revert w
  decide

/-- Settles O57: each field of the reset state has its value by definition; what is left is g2 and the wards' RESETTING. -/
theorem resetLeavesTheColdDevice : Obligations.ResetLeavesTheColdDevice := by
  unfold Obligations.ResetLeavesTheColdDevice
  exact ⟨rfl, rfl, rfl, rfl, rfl, rfl, rfl, rfl, fun _ => rfl, by decide, by decide, by decide,
    fun w => ⟨rfl, rfl, State.resettingWard_reset w, rfl⟩, fun _ => ⟨rfl, rfl, rfl, rfl, Tile.rg_init, fun _ => rfl⟩,
    fun _ => ⟨rfl, rfl⟩, fun _ _ => ⟨rfl, rfl⟩, rfl, rfl, rfl, rfl, storageKept_reset⟩

end Sys2Proof.Machine

/-! ### Storage stays canonical in every step (00 R4, log 6)

`storageKept` speaks of the register fields, memory and the boot flash. Each function of the model that gives a state
keeps it, and its lemma `<function>_kept` follows the branches of the function: the state of a branch is reached from the
given one through functions that keep the form. A field that `storageKept` does not speak of may take any value. -/

namespace Sys2Proof.Machine

namespace State
variable {s : State}

/-! #### States within pairs, and the fields that the form does not speak of -/

theorem kept_fst {α : Type} {p : State × α} {u : State} {a : α} (e : p = (u, a)) (h : storageKept p.1) : storageKept u := by
  subst e
  exact h

theorem kept_snd {α : Type} {p : α × State} {a : α} {u : State} (e : p = (a, u)) (h : storageKept p.2) : storageKept u := by
  subst e
  exact h

theorem kept_snd2 {α β : Type} {p : α × β × State} {a : α} {b : β} {u : State} (e : p = (a, b, u)) (h : storageKept p.2.2) : storageKept u := by
  subst e
  exact h

theorem storageKept_ite_snd {α : Type} {p : Prop} [Decidable p] {a b : α × State} (ha : storageKept a.2) (hb : storageKept b.2) :
    storageKept (if p then a else b).2 := by
  split_ifs <;> assumption

theorem storageKept_foldl_fst {α β : Type} (g : State × β → α → State × β) (hg : ∀ a x, storageKept a.1 → storageKept (g a x).1) (l : List α)
    (a : State × β) (h : storageKept a.1) : storageKept (l.foldl g a).1 :=
  List.foldlRecOn (motive := fun a => storageKept a.1) l g h (fun a ha x _ => hg a x ha)

theorem storageKept_foldl_snd {α β : Type} (g : β × State → α → β × State) (hg : ∀ a x, storageKept a.2 → storageKept (g a x).2) (l : List α)
    (a : β × State) (h : storageKept a.2) : storageKept (l.foldl g a).2 :=
  List.foldlRecOn (motive := fun a => storageKept a.2) l g h (fun a ha x _ => hg a x ha)

theorem with_power_kept {x : Power} (h : storageKept s) : storageKept { s with power := x } := h
theorem with_wake_kept {x : Bool} (h : storageKept s) : storageKept { s with wake := x } := h
theorem with_job_kept {x : LoadJob} (h : storageKept s) : storageKept { s with job := x } := h
theorem with_swapRpt_kept {x : Tbl Byte} (h : storageKept s) : storageKept { s with swapRpt := x } := h
theorem with_keyInstall_kept {x : Option (WardId × BitVec 512)} (h : storageKept s) : storageKept { s with keyInstall := x } := h
theorem with_wardStep_kept {x : Tbl Nat} (h : storageKept s) : storageKept { s with wardStep := x } := h
theorem with_gwQueue_kept {x : List TileId} (h : storageKept s) : storageKept { s with gwQueue := x } := h
theorem with_symErrs_kept {x : Tbl (List (Nat × W64))} (h : storageKept s) : storageKept { s with symErrs := x } := h
theorem with_ages_kept {x : Tbl Nat} (h : storageKept s) : storageKept { s with ages := x } := h
theorem with_scrub_kept {x : Option ScrubJob} (h : storageKept s) : storageKept { s with scrub := x } := h
theorem with_ledger_kept {x : Ledger} (h : storageKept s) : storageKept { s with ledger := x } := h
theorem with_link_kept {x : Link} (h : storageKept s) : storageKept { s with link := x } := h
theorem with_logNextSlot_kept {x : Nat} (h : storageKept s) : storageKept { s with logNextSlot := x } := h
theorem with_mgmt_kept {x : Mgmt} (h : storageKept s) : storageKept { s with mgmt := x } := h
theorem with_lantern_kept {x : Lantern} (h : storageKept s) : storageKept { s with lantern := x } := h

/-! #### Shared operations -/

theorem dpaErr_kept {dpa : Nat} (h : storageKept s) : storageKept (s.dpaErr dpa) := setF_kept _ _ (setF_kept _ _ (bumpF_kept _ _ h))
theorem setLampw_kept {w : WardId} {v : LampWard} (h : storageKept s) : storageKept (s.setLampw w v) := h
theorem setEngine_kept {e : EngId} {v : Engine} (h : storageKept s) : storageKept (s.setEngine e v) := h
theorem setQuarter_kept {q : QuarterId} {v : Quarter} (h : storageKept s) : storageKept (s.setQuarter q v) := h
theorem setHomeN_kept {h0 : Nat} {v : Home} (h : storageKept s) : storageKept (s.setHomeN h0 v) := h
theorem setPin_kept {p : Fin 8} {v : EvtPin} (h : storageKept s) : storageKept (s.setPin p v) := h
theorem setGateBuf_kept {g : Nat} {v : List Packet} (h : storageKept s) : storageKept (s.setGateBuf g v) := h
theorem free_kept (h : storageKept s) : storageKept s.free.2 := h

theorem countAccess_kept {p : Port} {off : Nat} (h : storageKept s) : storageKept (s.countAccess p off) := by
  unfold countAccess
  split
  · exact setF_kept _ _ (bumpF_kept _ _ h)
  · exact setF_kept _ _ (setF_kept _ _ (bumpF_kept _ _ h))

theorem setCfgBit_kept {fn off bit : Nat} {b : Bool} (h : storageKept s) : storageKept (s.setCfgBit fn off bit b) := setCfgByte_kept _ _ _ h

theorem logHeader_kept {fn : Func} {bit : Nat} (h : storageKept s) : storageKept (s.logHeader fn bit) :=
  storageKept_ite h (storageKept_foldl _ (fun _ _ hu => setCfgByte_kept _ _ _ hu) _ _ (setCfgByte_kept _ _ _ (free_kept h)))

theorem reportTlp_kept {fn : Func} {bit : Nat} {what : String} (h : storageKept s) : storageKept (s.reportTlp fn bit what) :=
  reportAer_kept _ _ _ _ (logHeader_kept h)

theorem setRas_kept {i v : Nat} (h : storageKept s) : storageKept (s.setRas i v) := h
theorem unsupportedReq_kept {f : Func} (h : storageKept s) : storageKept (s.unsupportedReq f) := storageKept_ite (reportTlp_kept h) h

theorem turnedAway_kept {p : Port} (h : storageKept s) : storageKept (s.turnedAway p) := by
  unfold turnedAway
  split
  · exact unsupportedReq_kept h
  · exact unsupportedReq_kept h
  · exact h

theorem emitOuts_kept {w : WardId} {nodeKey tag : BitVec 32} {poison : Bool} {payload : BitVec 128} {src : TokSrc} (h : storageKept s) :
    storageKept (s.emitOuts w nodeKey tag poison payload src) := by
  unfold emitOuts
  split
  · exact h
  next x _ _ =>
    refine storageKept_foldl _ (fun u x hu => ?_) _ _ h
    exact storageKept_ite hu (storageKept_ite (raiseMsix_kept _ _ hu) hu)

theorem pushTrace_kept {it : Item} {kind dest waited : Nat} (h : storageKept s) : storageKept (s.pushTrace it kind dest waited) :=
  storageKept_ite (setLampw_kept h) h

theorem failNotice_kept {it : Item} {reason : Nat} (h : storageKept s) : storageKept (s.failNotice it reason) :=
  storageKept_ite h (pushTrace_kept (setF_kept _ _ (bumpF_kept _ _ (emitOuts_kept h))))

theorem failItem_kept {it : Item} {reason : Nat} (h : storageKept s) : storageKept (s.failItem it reason) := failNotice_kept (setLampw_kept h)

theorem failHeld_kept {t : TileId} {reason : Nat} (h : storageKept s) : storageKept (s.failHeld t reason) := by
  unfold failHeld
  split
  · exact h
  · exact failItem_kept (updTile_kept _ _ h)

theorem recordTileFault_kept {t : TileId} {code wc : Nat} {bad : W64} (h : storageKept s) : storageKept (s.recordTileFault t code wc bad) := by
  unfold recordTileFault
  refine storageKept_ite ?_ h
  split
  · exact h
  · exact winFault_kept _ _ _ h

theorem lsErrorEvent_kept {t : TileId} {a : W64} (h : storageKept s) : storageKept (s.lsErrorEvent t a) := event_kept _ h

theorem lsCorrect_kept {t : TileId} {o n : Nat} (h : storageKept s) : storageKept (s.lsCorrect t o n) :=
  storageKept_foldl _ (fun _ _ hu => event_kept _ (updTile_kept _ _ hu)) _ _ h

theorem strand_kept {t : TileId} {why second : Nat} {frame : Vector W64 8} (h : storageKept s) : storageKept (s.strand t why second frame) :=
  event_kept _ (failHeld_kept (updTile_kept _ _ h))

theorem deliveryFault_kept {t : TileId} {code wc : Nat} {bad : W64} {frame : Vector W64 8} (h : storageKept s) :
    storageKept (s.deliveryFault t code wc bad frame) :=
  strand_kept (recordTileFault_kept (storageKept_ite (lsErrorEvent_kept h) h))

theorem takeException_kept {t : TileId} {code wc tn : Nat} {bad epc : W64} (h : storageKept s) :
    storageKept (s.takeException t code wc tn bad epc) := by
  unfold takeException
  extract_lets s1 tl tl2 s2 cause fr g s3 o tl3 tl4 tl5 tl6 s4
  have ks2 : storageKept s2 := setTile_kept _ _ (recordTileFault_kept h)
  have ks3 : storageKept s3 := storageKept_ite (lsErrorEvent_kept ks2) ks2
  refine storageKept_ite (storageKept_ite (deliveryFault_kept ks3) ?_) (strand_kept ks3)
  split
  · exact setTile_kept _ _ ks3
  · exact deliveryFault_kept (setTile_kept _ _ ks3)

theorem returnException_kept {t : TileId} (h : storageKept s) : storageKept (s.returnException t) := setTile_kept _ _ h

/-! #### Counters -/

theorem countTile_kept {t : TileId} {ev k : Nat} (h : storageKept s) : storageKept (s.countTile t ev k) := updTile_kept _ _ h

/-! #### Avenues -/

theorem dropPkt_kept {i : Nat} (h : storageKept s) : storageKept (s.dropPkt i) := h
theorem sendPkt_kept {p : Packet} (h : storageKept s) : storageKept (s.sendPkt p) := storageKept_ite h h

theorem advance_kept {i : Nat} (h : storageKept s) : storageKept (s.advance i) := by
  unfold advance
  split
  · exact h
  · exact storageKept_ite h (storageKept_ite h h)

/-! #### Memory -/

theorem clearRegion_kept {r : Nat} (h : storageKept s) : storageKept (s.clearRegion r) :=
  with_ages_kept (storageKept_foldl _ (fun _ _ hu => setPart_kept _ _ _ hu) _ _ h)

theorem bitmapFault_kept {h0 n : Nat} (h : storageKept s) : storageKept (s.bitmapFault h0 n) := by
  unfold bitmapFault
  extract_lets r0 s1
  have ks1 : storageKept s1 := storageKept_foldl _ (fun _ _ hu => storageKept_ite hu (with_symErrs_kept (setPart_kept _ _ _ hu))) _ _ h
  exact eccEvent_kept _ _ _ _ _ (eccLast_kept _ _ _ _ _ (bumpF_kept _ _ ks1))

theorem keyFault_kept {h0 n : Nat} {w : WardId} (h : storageKept s) : storageKept (s.keyFault h0 n w) :=
  eccEvent_kept _ _ _ _ _ (eccLast_kept _ _ _ _ _ (bumpF_kept _ _ h))

/-! #### The Transaction Ledger -/

theorem holdPosted_kept {c : Posted} (h : storageKept s) : storageKept (s.holdPosted c) := h

theorem hostWrite_kept {p : Port} {off : Nat} {vf : Option Nat} {v : Nat} {own : Bool} {f : State → State}
    (hf : ∀ u, storageKept u → storageKept (f u)) (h : storageKept s) :
    storageKept (s.hostWrite p off vf v own f) := by
  unfold hostWrite
  split
  · exact storageKept_ite (turnedAway_kept h) (storageKept_ite (holdPosted_kept h) (hf _ h))
  · refine storageKept_ite (turnedAway_kept h) ?_
    split
    · exact storageKept_ite h (countAccess_kept (free_kept h))
    · exact storageKept_ite (holdPosted_kept h) (storageKept_ite h (storageKept_ite (hf _ h) (countAccess_kept h)))
  · exact h
  · exact h

theorem unanswered_kept {p : Port} {off : Nat} (h : storageKept s) : storageKept (s.unanswered p off) :=
  storageKept_ite (emit_kept _ (turnedAway_kept h)) h

theorem hostRead_kept {p : Port} {off vf : Nat} {own : Bool} {f : State → Nat × State}
    (hf : ∀ u, storageKept u → storageKept (f u).2) (h : storageKept s) :
    storageKept (s.hostRead p off vf own f) := by
  have give : ∀ a, storageKept ((f s).2.emit (.readData p a (f s).1)) := fun _ => emit_kept _ (hf _ h)
  unfold hostRead
  split
  · exact storageKept_ite (unanswered_kept h) (storageKept_ite (holdPosted_kept h) (give _))
  · exact storageKept_ite (unanswered_kept h) (storageKept_ite (holdPosted_kept h) (storageKept_ite (emit_kept _ h)
      (storageKept_ite (give _) (emit_kept _ (countAccess_kept h)))))
  · exact h
  · exact h

theorem setEntry_kept {x : Nat} {e : Option LEntry} (h : storageKept s) : storageKept (s.setEntry x e) := h

theorem updEntry_kept {x : Nat} {f : LEntry → LEntry} (h : storageKept s) : storageKept (s.updEntry x f) := by
  unfold updEntry
  split
  · exact h
  · exact setEntry_kept h

theorem sendReq_kept {x : Nat} {r : Req} (h : storageKept s) : storageKept (s.sendReq x r) := sendPkt_kept h

theorem openEntry_kept {e : LEntry} (h : storageKept s) : storageKept (s.openEntry e).2 := by
  unfold openEntry
  extract_lets x s1
  split
  · exact highF_kept _ _ (setEntry_kept h)
  · exact setEntry_kept h

theorem takeEntry_kept {e : LEntry} (h : storageKept s) : storageKept (s.takeEntry e) := by
  unfold takeEntry
  refine storageKept_ite ?_ (sendReq_kept (openEntry_kept h))
  split
  · refine emit_kept _ ?_
    split
    · exact highF_kept _ _ (setEntry_kept h)
    · exact setEntry_kept h
  · refine setEntry_kept (storageKept_ite ?_ (emit_kept _ ?_))
    · split
      · exact highF_kept _ _ (setEntry_kept h)
      · exact setEntry_kept h
    · split
      · exact highF_kept _ _ (setEntry_kept h)
      · exact setEntry_kept h

theorem issue_kept {e : LEntry} (h : storageKept s) : storageKept (s.issue e) := storageKept_ite (takeEntry_kept h) h

theorem countAbort_kept {e : LEntry} (h : storageKept s) : storageKept (s.countAbort e) := by
  unfold countAbort
  split
  · exact bumpF_kept _ _ h
  · exact bumpF_kept _ _ h
  · exact h

theorem closeEntry_kept {x : Nat} (h : storageKept s) : storageKept (s.closeEntry x) := by
  unfold closeEntry
  split
  · exact h
  · exact storageKept_ite (setEntry_kept h) (storageKept_ite (countAbort_kept (setEntry_kept h)) (setEntry_kept h))

theorem unwait_kept {e : LEntry} (h : storageKept s) : storageKept (s.unwait e) := h
theorem waitAtSource_kept {e : LEntry} (h : storageKept s) : storageKept (s.waitAtSource e) := storageKept_ite h h

/-! #### Quarter caches -/

theorem updQuarter_kept {q : QuarterId} {f : Quarter → Quarter} (h : storageKept s) : storageKept (s.updQuarter q f) := setQuarter_kept h
theorem qcCount_kept {q : QuarterId} {n : Nat} (h : storageKept s) : storageKept (s.qcCount q n) := bumpF_kept _ _ h

theorem qcEvent_kept {q : QuarterId} {cls errKind kind set w : Nat} {ward : Option WardId} (h : storageKept s) :
    storageKept (s.qcEvent q cls errKind kind set w ward) := by
  unfold qcEvent
  extract_lets s1 s2 s3
  have ks1 : storageKept s1 := storageKept_ite (bumpF_kept _ _ h) (bumpF_kept _ _ h)
  have ks2 : storageKept s2 := storageKept_ite (bumpF_kept _ _ ks1) ks1
  have ks3 : storageKept s3 := setF_kept _ _ (setF_kept _ _ (setF_kept _ _ ks2))
  exact event_kept _ ks3

theorem injects_kept {q : QuarterId} {tagArray : Bool} {set w : Nat} (h : storageKept s) : storageKept (s.injects q tagArray set w).2 :=
  storageKept_ite_snd (setF_kept _ _ (setF_kept _ _ (setF_kept _ _ h))) h

theorem writeWay_kept {q : QuarterId} {set w : Nat} {c : CWay} {written : Mask64} (h : storageKept s) :
    storageKept (s.writeWay q set w c written) := by
  unfold writeWay
  extract_lets old c2 tagWrite
  split
  next e =>
    have ku := kept_snd e (storageKept_ite_snd (injects_kept h) h)
    exact updQuarter_kept (storageKept_ite_snd ku (injects_kept ku))

theorem touchWay_kept {q : QuarterId} {set w : Nat} (h : storageKept s) : storageKept (s.touchWay q set w) := updQuarter_kept h

theorem staleCopies_kept {q : QuarterId} {l : LineAddr} {self : Option TileId} (h : storageKept s) : storageKept (s.staleCopies q l self) :=
  storageKept_foldl _ (fun _ _ hu => storageKept_ite (setTile_kept _ _ hu) hu) _ _ h

theorem putWay_kept {q : QuarterId} {set w : Nat} {c : CWay} (h : storageKept s) : storageKept (s.putWay q set w c) := writeWay_kept h

theorem clearWay_kept {q : QuarterId} {set w : Nat} (h : storageKept s) : storageKept (s.clearWay q set w) :=
  storageKept_ite (staleCopies_kept (putWay_kept h)) (putWay_kept h)

theorem tagScan_kept {q : QuarterId} {set : Nat} (h : storageKept s) : storageKept (s.tagScan q set) :=
  storageKept_foldl _ (fun _ _ hu =>
    storageKept_ite (qcEvent_kept (storageKept_ite (updQuarter_kept (clearWay_kept hu)) (clearWay_kept hu))) hu) _ _ h

theorem checkMask_kept {q : QuarterId} {set w : Nat} (h : storageKept s) : storageKept (s.checkMask q set w) := by
  unfold checkMask
  refine storageKept_foldl _ (fun u x hu => storageKept_ite hu ?_) _ _ h
  extract_lets rest
  split
  · exact putWay_kept hu
  · exact qcEvent_kept (putWay_kept hu)
  · exact qcEvent_kept (putWay_kept hu)

theorem qLook_kept {q : QuarterId} {l : LineAddr} (h : storageKept s) : storageKept (s.qLook q l).2 := by
  unfold qLook
  extract_lets s1
  have ks1 : storageKept s1 := tagScan_kept h
  clear_value s1
  split
  · exact ks1
  · exact checkMask_kept ks1

theorem checkBytes_kept {q : QuarterId} {set w : Nat} {need : Mask64} (h : storageKept s) : storageKept (s.checkBytes q set w need).2 := by
  unfold checkBytes
  extract_lets c
  refine storageKept_foldl_snd _ (fun a x ha => ?_) _ _ h
  split
  · extract_lets c2 put
    refine storageKept_ite_snd ha ?_
    split
    · exact writeWay_kept ha
    · exact qcEvent_kept (writeWay_kept ha)
    · exact storageKept_ite_snd (qcEvent_kept (clearWay_kept ha)) (qcEvent_kept (putWay_kept ha))

theorem qProbe_kept {q : QuarterId} {l : LineAddr} {need : Mask64} (h : storageKept s) : storageKept (s.qProbe q l need).2 := by
  unfold qProbe
  extract_lets set
  split
  next e =>
    exact kept_snd e (qLook_kept h)
  next e =>
    split
    next e2 =>
      have ku2 := kept_snd e2 (checkBytes_kept (kept_snd e (qLook_kept h)))
      extract_lets c
      exact storageKept_ite_snd ku2 (storageKept_ite_snd ku2 ku2)

theorem addBuf_kept {q : QuarterId} {b : QBuf} (h : storageKept s) : storageKept (s.addBuf q b) := updQuarter_kept h

theorem leaveWay_kept {q : QuarterId} {set w x : Nat} {src : Source} (h : storageKept s) : storageKept (s.leaveWay q set w x src) := by
  unfold leaveWay
  extract_lets s1 s2 s3 c kind s4 x2 r s5 s6 s7
  have ks2 : storageKept s2 := storageKept_ite (checkMask_kept (tagScan_kept h)) (tagScan_kept h)
  have ks3 : storageKept s3 := storageKept_ite (checkBytes_kept ks2) ks2
  have ks5 : storageKept s5 := addBuf_kept (clearWay_kept ks3)
  have ks6 : storageKept s6 := storageKept_ite ks5 (qcCount_kept ks5)
  have ks7 : storageKept s7 := storageKept_ite (qcCount_kept ks6) ks6
  exact storageKept_ite ks3 (sendReq_kept ks7)

theorem allocWay_kept {q : QuarterId} {wd : WardId} {l : LineAddr} {x : Nat} (h : storageKept s) {w : Nat} {u : State}
    (e : s.allocWay q wd l x = some (w, u)) :
    storageKept u := by
  unfold allocWay at e
  extract_lets set s1 src at e
  split at e
  · cases e
  · split at e
    · cases e
      exact leaveWay_kept (updEntry_kept h)
    · cases e
      exact h

theorem quarterReq_kept {k : ReqKind} {t : TileId} {wd : WardId} {sl : Bool} {l : LineAddr} (h : storageKept s) :
    storageKept (s.quarterReq k t wd sl l) :=
  issue_kept h

theorem scratchTag_kept {q : QuarterId} {wd : Option WardId} {ln : Nat} (h : storageKept s) : storageKept (s.scratchTag q wd ln) :=
  storageKept_ite (qcEvent_kept (updQuarter_kept h)) h

theorem scratchWrite_kept {q : QuarterId} {wd : Option WardId} {ln : Nat} {mask : Mask64} {d : Line512} (h : storageKept s) :
    storageKept (s.scratchWrite q wd ln mask d) := by
  unfold scratchWrite
  extract_lets s1 marks tagWrite s2
  have ks2 : storageKept s2 := updQuarter_kept (scratchTag_kept h)
  split
  next e =>
    have ku := kept_snd e (storageKept_ite_snd (injects_kept ks2) ks2)
    extract_lets s3
    have ks3 : storageKept s3 := storageKept_ite (updQuarter_kept ku) ku
    exact storageKept_ite (updQuarter_kept (injects_kept ks3)) (injects_kept ks3)

theorem scratchMark_kept {q : QuarterId} {ln : Nat} {mask : Mask64} (h : storageKept s) : storageKept (s.scratchMark q ln mask) := updQuarter_kept h

theorem scratchRead_kept {q : QuarterId} {wd : Option WardId} {p n : Nat} (h : storageKept s) : storageKept (s.scratchRead q wd p n).2.2 := by
  unfold scratchRead
  extract_lets s1 s2
  have ks2 : storageKept s2 := by
    refine storageKept_foldl _ (fun u x hu => storageKept_ite hu ?_) _ _ (scratchTag_kept h)
    extract_lets d fix
    split
    · exact updQuarter_kept hu
    · exact qcEvent_kept (updQuarter_kept hu)
    · exact qcEvent_kept (updQuarter_kept hu)
  clear_value s2
  exact ks2

theorem storeCopies_kept {q : QuarterId} {t : TileId} {e : SbEntry} (h : storageKept s) : storageKept (s.storeCopies q t e) :=
  staleCopies_kept (updTile_kept _ _ h)

theorem storeWay_kept {q : QuarterId} {set w : Nat} {t : TileId} {e : SbEntry} {st : CState} {upg : Mask64} (h : storageKept s) :
    storageKept (s.storeWay q set w t e st upg) :=
  storeCopies_kept (touchWay_kept (writeWay_kept h))

theorem drainEntryBy_kept {called : Bool} {t : TileId} {e : SbEntry} (h : storageKept s) : storageKept (s.drainEntryBy called t e).2 := by
  unfold drainEntryBy
  extract_lets q set gone
  have left : ∀ {u}, storageKept u → storageKept (gone u) := fun hu => updTile_kept _ _ hu
  clear_value gone
  refine storageKept_ite_snd ?_ (storageKept_ite_snd h (storageKept_ite_snd ?_ ?_))
  · exact left (storageKept_ite (scratchMark_kept (scratchWrite_kept h)) (scratchWrite_kept h))
  · exact storageKept_ite_snd h (storageKept_ite_snd (takeEntry_kept (left h)) (waitAtSource_kept h))
  · split
    next found u e2 =>
      have ku := kept_snd e2 (qLook_kept h)
      extract_lets full ttOn
      split
      next ts run _ =>
        extract_lets tt
        rename_i fill
        have track : ∀ {v}, storageKept v → storageKept (tt v) := fun hv => updQuarter_kept hv
        clear_value tt
        refine storageKept_ite_snd ku ?_
        split
        · exact storageKept_ite_snd (storageKept_ite_snd ku (storageKept_ite_snd (left (qcCount_kept (takeEntry_kept (storeWay_kept (track ku)))))
            (waitAtSource_kept ku)))
            (left (qcCount_kept (storeWay_kept (track ku))))
        · refine storageKept_ite_snd (storageKept_ite_snd ku (storageKept_ite_snd
            (left (storeCopies_kept (qcCount_kept (takeEntry_kept (addBuf_kept (track ku)))))) (waitAtSource_kept ku))) ?_
          have filled : ∀ {v x}, storageKept v → storageKept (fill v x).2 := by
            intro v x hv
            simp only [fill]
            split
            · exact hv
            next e3 => exact left (qcCount_kept (storeWay_kept (track (updQuarter_kept (allocWay_kept hv e3)))))
          clear_value fill
          split
          · exact filled ku
          · exact storageKept_ite_snd ku (storageKept_ite_snd ku
              (storageKept_ite_snd (filled (countTile_kept (takeEntry_kept ku))) (waitAtSource_kept ku)))

theorem drainEntry_kept {t : TileId} {e : SbEntry} (h : storageKept s) : storageKept (s.drainEntry t e).2 := drainEntryBy_kept h

theorem drainWhere_kept {t : TileId} {p : SbEntry → Bool} (h : storageKept s) : storageKept (s.drainWhere t p).2 := by
  unfold drainWhere
  refine storageKept_foldl_snd _ (fun a x ha => ?_) _ _ h
  split
  next e =>
    have ku := kept_snd e (drainEntry_kept ha)
    exact ku

/-! #### Tiles: fetch and retirement -/

theorem addHalt_kept {scope target : Nat} (h : storageKept s) : storageKept (s.addHalt scope target) := h

theorem debugEvent_kept {kind idx : Nat} {t : TileId} {pc addr : W64} (h : storageKept s) : storageKept (s.debugEvent kind idx t pc addr) :=
  with_lantern_kept (setF_kept _ _ (setF_kept _ _ (bumpF_kept _ _ (setF_kept _ _ (setF_kept _ _ (setF_kept _ _ h))))))

theorem compAction_kept {t : TileId} {action : Nat} (h : storageKept s) : storageKept (s.compAction t action) := by
  unfold compAction
  refine storageKept_ite ?_ (storageKept_ite (addHalt_kept (updTile_kept _ _ h)) (addHalt_kept (updTile_kept _ _ h)))
  split <;> exact addHalt_kept (updTile_kept _ _ h)

theorem breakHit_kept {t : TileId} (h : storageKept s) {u : State} (e : s.breakHit t = some u) : storageKept u := by
  unfold breakHit at e
  split at e
  · cases e
  · split at e
    · cases e
    · cases e
      exact debugEvent_kept (storageKept_foldl _ (fun _ _ hu => storageKept_ite (setF_kept _ _ (compAction_kept hu)) (compAction_kept hu)) _ _ h)

theorem watch_kept {t : TileId} {load store : Bool} {a : W64} {n : Nat} (h : storageKept s) : storageKept (s.watch t load store a n) := by
  unfold watch
  split
  · exact h
  · exact debugEvent_kept (storageKept_foldl _ (fun _ _ hu => storageKept_ite (setF_kept _ _ (compAction_kept hu)) (compAction_kept hu)) _ _ h)

theorem lineRead_kept {t : TileId} {wd : WardId} {x : Xlat} {need : Mask64} (h : storageKept s) : storageKept (s.lineRead t wd x need).2 := by
  unfold lineRead
  extract_lets q l x2
  refine storageKept_ite_snd ?_ (storageKept_ite_snd h (issue_kept h))
  split
  · exact h
  · split
    next e2 =>
      extract_lets s1 s2
      have ks1 : storageKept s1 := touchWay_kept (storageKept_ite (qcCount_kept (kept_snd e2 (qProbe_kept h))) (kept_snd e2 (qProbe_kept h)))
      have ks2 : storageKept s2 := storageKept_ite (putWay_kept ks1) ks1
      exact ks2
    next e2 =>
      exact storageKept_ite_snd (kept_snd e2 (qProbe_kept h))
        (quarterReq_kept (countTile_kept (qcCount_kept (qcCount_kept (kept_snd e2 (qProbe_kept h))))))
    next e2 =>
      exact storageKept_ite_snd (kept_snd e2 (qProbe_kept h)) (quarterReq_kept (countTile_kept (qcCount_kept (kept_snd e2 (qProbe_kept h)))))

theorem pushL1i_kept {t : TileId} {x : L1Line} (h : storageKept s) : storageKept (s.pushL1i t x) := updTile_kept _ _ h

theorem l1iRead_kept {t : TileId} {l : LineAddr} {need : Mask64} (h : storageKept s) : storageKept (s.l1iRead t l need).2 := by
  unfold l1iRead
  split
  · exact h
  · refine storageKept_ite_snd ?_ h
    split
    next e2 =>
      exact storageKept_ite_snd (kept_snd e2 (free_kept h)) (updTile_kept _ _ (kept_snd e2 (free_kept h)))

theorem fetchExcept_kept {t : TileId} {c wc : Nat} (h : storageKept s) : storageKept (s.fetchExcept t c wc) := by
  unfold fetchExcept
  split
  · exact deliveryFault_kept h
  · exact takeException_kept h

theorem wrongFill_kept {t : TileId} {a n : Nat} (h : storageKept s) : storageKept (s.wrongFill t a n) := by
  induction n generalizing s a with
  | zero => exact h
  | succ n ih =>
    dsimp only [wrongFill]
    split
    · exact h
    · split
      · exact h
      · refine storageKept_ite h ?_
        split
        next e =>
          exact storageKept_ite (touchWay_kept (qcCount_kept (kept_snd e (qProbe_kept h))))
            (ih (updTile_kept _ _ (touchWay_kept (qcCount_kept (kept_snd e (qProbe_kept h))))))
        next e => exact kept_snd e (qProbe_kept h)

theorem mispredict_kept {t : TileId} {wrong : W64} (h : storageKept s) : storageKept (s.mispredict t wrong) :=
  storageKept_ite (free_kept h) (wrongFill_kept (countTile_kept (free_kept h)))

theorem retireAs_kept {t : TileId} {alone : Bool} {next : W64} (h : storageKept s) : storageKept (s.retireAs t alone next) := by
  unfold retireAs
  extract_lets tl may
  split
  next e =>
    have ku := kept_snd e (storageKept_ite_snd (free_kept h) h)
    exact updTile_kept _ _ (storageKept_ite (countTile_kept ku) ku)

theorem retire_kept {t : TileId} {next : W64} (h : storageKept s) : storageKept (s.retire t next) := retireAs_kept h
theorem retireNext_kept {t : TileId} (h : storageKept s) : storageKept (s.retireNext t) := retire_kept h
theorem retireAlone_kept {t : TileId} (h : storageKept s) : storageKept (s.retireAlone t) := retireAs_kept h
theorem except_kept {t : TileId} {code : Nat} {bad : W64} (h : storageKept s) : storageKept (s.except t code bad) := takeException_kept h

/-- A fetch leaves the form, however it ends. -/
def fetchKept : Fetch → Prop
  | .ok u _ => storageKept u
  | .fault _ _ u => storageKept u
  | .wait u => storageKept u

theorem fetchKept_ite {p : Prop} [Decidable p] {a b : Fetch} (ha : fetchKept a) (hb : fetchKept b) : fetchKept (if p then a else b) := by
  split_ifs <;> assumption

theorem fetched_fetchKept {t : TileId} {w : W32} (h : storageKept s) : fetchKept (s.fetched t w) := storageKept_ite (updTile_kept _ _ h) h

theorem fetchLs_fetchKept {t : TileId} {o : Nat} (h : storageKept s) : fetchKept (s.fetchLs t o) := by
  unfold fetchLs
  extract_lets s1 line fresh
  have k1 : storageKept s1 := lsCorrect_kept h
  clear_value s1
  have renew : ∀ {u}, storageKept u → fetchKept (fresh u) := fun hu => fetched_fetchKept (updTile_kept _ _ hu)
  clear_value fresh
  split
  · exact renew k1
  · exact fetchKept_ite (renew k1) (fetchKept_ite (fetched_fetchKept k1) (fetchKept_ite (fetched_fetchKept (free_kept k1)) (renew (free_kept k1))))

theorem fetch_fetchKept {t : TileId} (h : storageKept s) : fetchKept (s.fetch t) := by
  unfold fetch
  extract_lets pc
  split
  · exact h
  · refine fetchKept_ite (fetchLs_fetchKept h) ?_
    split
    · exact h
    · split
      · exact h
      · extract_lets l need
        split
        next e => exact fetchKept_ite (kept_snd e (l1iRead_kept h)) (fetched_fetchKept (updTile_kept _ _ (kept_snd e (l1iRead_kept h))))
        next u e =>
          extract_lets s1
          have k1 : storageKept s1 := countTile_kept (kept_snd e (l1iRead_kept h))
          clear_value s1
          split
          next e2 =>
            exact fetchKept_ite (pushL1i_kept (kept_snd e2 (lineRead_kept k1))) (fetched_fetchKept (pushL1i_kept (kept_snd e2 (lineRead_kept k1))))
          next e2 => exact updTile_kept _ _ (kept_snd e2 (lineRead_kept k1))

theorem tileOp_kept {c : Instr} {t : TileId} {bad priv : Bool} {body : State → State}
    (hb : ∀ u, storageKept u → storageKept (body u)) (h : storageKept s) :
    storageKept (s.tileOp c t bad priv body) := by
  unfold tileOp
  refine storageKept_ite h ?_
  split
  next e => exact breakHit_kept h e
  · have k := fetch_fetchKept (t := t) h
    split
    next e => exact (e ▸ k : fetchKept (.wait _))
    next e => exact fetchExcept_kept (e ▸ k : fetchKept (.fault _ _ _))
    next u _ e =>
      have ku : storageKept u := (e ▸ k : fetchKept (.ok _ _))
      split
      · exact except_kept ku
      · exact storageKept_ite h (storageKept_ite (except_kept ku) (storageKept_ite (except_kept ku) (hb _ ku)))

theorem regOp_kept {c : Instr} {t : TileId} {bad : Bool} {f : Tile → Tile} (h : storageKept s) : storageKept (s.regOp c t bad f) :=
  tileOp_kept (fun _ hu => retireAs_kept (updTile_kept _ _ hu)) h

/-! #### Tiles: memory accesses -/

theorem dataExcept_kept {t : TileId} {f : Nat × Nat} {a : W64} (h : storageKept s) : storageKept (s.dataExcept t f a) := takeException_kept h

theorem l1dRead_kept {t : TileId} {l : LineAddr} {need : Mask64} (h : storageKept s) : storageKept (s.l1dRead t l need).2 := by
  unfold l1dRead
  split
  · exact h
  · refine storageKept_ite_snd ?_ h
    split
    next e2 =>
      exact storageKept_ite_snd (kept_snd e2 (free_kept h)) (updTile_kept _ _ (kept_snd e2 (free_kept h)))

theorem wardRead_kept {t : TileId} {wd : WardId} {x : Xlat} {n : Nat} (h : storageKept s) : storageKept (s.wardRead t wd x n).2 := by
  unfold wardRead
  extract_lets l o e need value bad
  refine storageKept_ite_snd h ?_
  split
  next e2 =>
    exact kept_snd e2 (l1dRead_kept h)
  next e2 =>
    extract_lets s1
    have ks1 : storageKept s1 := storageKept_ite (countTile_kept (kept_snd e2 (l1dRead_kept h))) (kept_snd e2 (l1dRead_kept h))
    refine storageKept_ite_snd ks1 ?_
    split
    next e3 =>
      exact kept_snd e3 (lineRead_kept ks1)
    next e3 =>
      extract_lets s2
      have ks2 : storageKept s2 := updTile_kept _ _ (kept_snd e3 (lineRead_kept ks1))
      exact ks2

theorem waitFor_kept {t : TileId} {l : LineAddr} {what : MemWait} (h : storageKept s) : storageKept (s.waitFor t l what) := updTile_kept _ _ h

theorem finishLoad_kept {t : TileId} {op : Nat} {rd : BitVec 5} {a : W64} {v : Nat} {poison : Bool} (h : storageKept s) :
    storageKept (s.finishLoad t op rd a v poison) :=
  storageKept_ite (except_kept h) (retireNext_kept (updTile_kept _ _ (watch_kept h)))

theorem doLoad_kept {t : TileId} {op : Nat} {rd : BitVec 5} {a : W64} (h : storageKept s) : storageKept (s.doLoad t op rd a) := by
  unfold doLoad
  extract_lets n tl q wd
  split
  · exact storageKept_ite (except_kept (lsCorrect_kept h)) (storageKept_ite (except_kept (lsCorrect_kept h)) (finishLoad_kept (lsCorrect_kept h)))
  · exact finishLoad_kept h
  · exact storageKept_ite (finishLoad_kept h) (finishLoad_kept (scratchRead_kept h))
  · split
    · split
      next e3 =>
        exact finishLoad_kept (kept_snd e3 (wardRead_kept h))
      next e3 =>
        exact waitFor_kept (kept_snd e3 (wardRead_kept h))
  · exact h

theorem loadOp_kept {c : Instr} {t : TileId} {f : IForm} {op : Nat} (h : storageKept s) : storageKept (s.loadOp c t f op) := by
  unfold loadOp
  refine tileOp_kept (fun u hu => ?_) h
  extract_lets a
  split
  · exact dataExcept_kept hu
  · exact doLoad_kept hu

theorem finishPtest_kept {t : TileId} {rd : BitVec 5} {a : W64} {p : Bool} (h : storageKept s) : storageKept (s.finishPtest t rd a p) :=
  retireNext_kept (updTile_kept _ _ (watch_kept h))

theorem doPtest_kept {t : TileId} {rd : BitVec 5} {a : W64} (h : storageKept s) : storageKept (s.doPtest t rd a) := by
  unfold doPtest
  split
  · exact storageKept_ite (finishPtest_kept (lsErrorEvent_kept (lsCorrect_kept h))) (finishPtest_kept (lsCorrect_kept h))
  · refine storageKept_ite (finishPtest_kept h) ?_
    split
    next e => exact finishPtest_kept (kept_snd2 e (scratchRead_kept h))
  · split
    split
    next e => exact finishPtest_kept (kept_snd e (wardRead_kept h))
    next e => exact waitFor_kept (kept_snd e (wardRead_kept h))
  · exact h

theorem sbRoom_kept {t : TileId} {scr : Bool} {l : LineAddr} (h : storageKept s) : storageKept (s.sbRoom t scr l).2 := by
  unfold sbRoom
  refine storageKept_ite_snd h ?_
  split
  · exact h
  · exact drainEntry_kept (storageKept_ite (countTile_kept h) h)

theorem sbPut_kept {t : TileId} {scr : Bool} {l : LineAddr} {wd : WardId} {x : Xlat} {o n v : Nat} (h : storageKept s) :
    storageKept (s.sbPut t scr l wd x o n v) := by
  unfold sbPut
  extract_lets m d
  split <;> exact updTile_kept _ _ h

theorem drainFull_kept {t : TileId} {scr : Bool} {l : LineAddr} (h : storageKept s) : storageKept (s.drainFull t scr l) := by
  unfold drainFull
  split
  · exact h
  · exact storageKept_ite (drainEntry_kept h) h

theorem doStore_kept {t : TileId} {op v : Nat} {a : W64} (h : storageKept s) : storageKept (s.doStore t op v a) := by
  unfold doStore
  extract_lets n s1 wd
  have ks1 : storageKept s1 := retireNext_kept (watch_kept h)
  clear_value s1
  split
  · exact retireNext_kept (updTile_kept _ _ (watch_kept h))
  · exact updTile_kept _ _ ks1
  · exact storageKept_ite (waitFor_kept (sbRoom_kept h)) (drainFull_kept (retireNext_kept (watch_kept (sbPut_kept (sbRoom_kept h)))))
  · exact storageKept_ite (waitFor_kept (sbRoom_kept h)) (drainFull_kept (retireNext_kept (watch_kept (sbPut_kept (sbRoom_kept h)))))
  · exact h

theorem storeOp_kept {c : Instr} {t : TileId} {f : SForm} {op : Nat} (h : storageKept s) : storageKept (s.storeOp c t f op) := by
  unfold storeOp
  refine tileOp_kept (fun u hu => ?_) h
  extract_lets a
  split
  · exact dataExcept_kept hu
  · exact doStore_kept hu

theorem finishAtomic_kept {t : TileId} {a : AtReq} {rd : BitVec 5} {addr : W64} {old ev : Nat} (h : storageKept s) :
    storageKept (s.finishAtomic t a rd addr old ev) :=
  retireAlone_kept (updTile_kept _ _ (storageKept_ite (watch_kept h) (countTile_kept (watch_kept h))))

theorem nearAtomicAt_kept {t : TileId} {w : Nat} {c : CWay} {a : AtReq} {rd : BitVec 5} {addr : W64} (h : storageKept s) :
    storageKept (s.nearAtomicAt t w c a rd addr) :=
  storageKept_ite (except_kept h) (finishAtomic_kept (storeWay_kept (storageKept_ite (qcCount_kept h) h)))

theorem wardAtomic_kept {t : TileId} {wd : WardId} {x : Xlat} {mode : Nat} {a : AtReq} {rd : BitVec 5} {addr : W64} (h : storageKept s) :
    storageKept (s.wardAtomic t wd x mode a rd addr) := by
  unfold wardAtomic
  extract_lets q l a2 near far send
  have kNear : ∀ {u}, storageKept u → storageKept (near u) := fun hu => waitFor_kept hu
  have kFar : ∀ {u}, storageKept u → storageKept (far u) := fun hu => waitFor_kept hu
  have kSend : ∀ {k src u}, storageKept u → storageKept (send k src u) := fun hu => issue_kept hu
  clear_value near far send
  split
  next u e =>
    have ku := kept_snd e (drainWhere_kept h)
    refine storageKept_ite (kNear ku) (storageKept_ite (storageKept_ite (kNear ku) (kFar (kSend ku))) ?_)
    split
    next v e2 =>
      have kv := kept_snd e2 (qProbe_kept ku)
      extract_lets own asking shared
      clear_value own asking shared
      refine storageKept_ite (kNear kv) (storageKept_ite (kFar (kSend kv)) ?_)
      split
      · exact nearAtomicAt_kept kv
      · exact kNear (quarterReq_kept (countTile_kept (qcCount_kept (qcCount_kept kv))))
      · refine storageKept_ite (kFar (kSend kv)) ?_
        split
        · exact kNear (kSend (writeWay_kept kv))
        · exact storageKept_ite (kNear kv) (kNear (quarterReq_kept (countTile_kept (qcCount_kept kv))))

theorem doAtomic_kept {t : TileId} {hint : Nat} {a : AtReq} {rd : BitVec 5} {addr : W64} (h : storageKept s) :
    storageKept (s.doAtomic t hint a rd addr) := by
  unfold doAtomic
  extract_lets n tl q wd
  split
  · exact storageKept_ite (except_kept (lsCorrect_kept h)) (storageKept_ite (except_kept (lsCorrect_kept h))
      (finishAtomic_kept (updTile_kept _ _ (lsCorrect_kept h))))
  · exact storageKept_ite (except_kept (scratchRead_kept (drainWhere_kept h)))
      (finishAtomic_kept (scratchWrite_kept (scratchRead_kept (drainWhere_kept h))))
  · exact wardAtomic_kept h
  · exact h

theorem atomicOp_kept {c : Instr} {t : TileId} {f : AtForm} {op : AtOp} (h : storageKept s) : storageKept (s.atomicOp c t f op) := by
  unfold atomicOp
  refine tileOp_kept (fun u hu => ?_) h
  extract_lets tl addr a
  split
  · exact dataExcept_kept hu
  · exact doAtomic_kept hu

theorem farResult_kept {t : TileId} {v : W64} {poison : Bool} (h : storageKept s) : storageKept (s.farResult t v poison) := by
  unfold farResult
  split
  · exact storageKept_ite (except_kept (updTile_kept _ _ h)) (finishAtomic_kept (updTile_kept _ _ h))
  · exact h

theorem wakeTile_kept {t : TileId} (h : storageKept s) : storageKept (s.wakeTile t) := by
  unfold wakeTile
  split
  · split
    · exact h
    · split
      · exact updTile_kept _ _ h
      · split
        next e4 =>
          exact updTile_kept _ _ (pushL1i_kept (kept_snd e4 (lineRead_kept h)))
        next e4 =>
          exact kept_snd e4 (lineRead_kept h)
  · exact doLoad_kept h
  · exact doPtest_kept h
  · exact doStore_kept h
  · exact wardAtomic_kept h
  · refine storageKept_ite h ?_
    extract_lets again
    split
    next e2 =>
      exact storageKept_ite (nearAtomicAt_kept (kept_snd e2 (qProbe_kept h))) (wardAtomic_kept (kept_snd e2 (qProbe_kept h)))
    next e3 =>
      exact wardAtomic_kept (kept_snd e3 (qProbe_kept h))
  · exact h

theorem wakeQuarter_kept {q : QuarterId} (h : storageKept s) : storageKept (s.wakeQuarter q) :=
  storageKept_foldl _ (fun _ _ hu => wakeTile_kept hu) _ _ h

theorem uncachedDone_kept {t : TileId} {l : LineAddr} {v : LineVal} (h : storageKept s) : storageKept (s.uncachedDone t l v) := by
  unfold uncachedDone
  split
  · refine storageKept_ite h ?_
    extract_lets e2 bytes
    split
    · exact storageKept_ite (fetchExcept_kept h) (updTile_kept _ _ h)
    · exact finishLoad_kept h
    · exact finishPtest_kept h
    · exact h
  · exact h

/-! #### Tiles: messages and work -/

theorem doSend_kept {t : TileId} {a : W64} {n : Nat} {d : TileId} (h : storageKept s) : storageKept (s.doSend t a n d) := by
  unfold doSend
  split
  · exact h
  · split
    · exact except_kept h
    · exact storageKept_ite (retireAlone_kept (countTile_kept (sendPkt_kept (lsCorrect_kept h)))) (updTile_kept _ _ h)

theorem sendOp_kept {c : Instr} {t : TileId} {f : MsgForm} (h : storageKept s) : storageKept (s.sendOp c t f) := by
  unfold sendOp
  refine tileOp_kept (fun u hu => ?_) h
  extract_lets tl a d n
  split
  · exact except_kept hu
  · exact storageKept_ite (except_kept hu) (storageKept_ite (except_kept hu) (doSend_kept hu))

theorem doRecv_kept {t : TileId} {a : W64} {rd : BitVec 5} (h : storageKept s) : storageKept (s.doRecv t a rd) := by
  unfold doRecv
  split
  · exact updTile_kept _ _ h
  · exact retireAlone_kept (countTile_kept (updTile_kept _ _ h))

theorem recvOp_kept {c : Instr} {t : TileId} {f : MsgForm} (h : storageKept s) : storageKept (s.recvOp c t f) := by
  unfold recvOp
  refine tileOp_kept (fun u hu => ?_) h
  extract_lets a
  split
  · exact except_kept hu
  · exact doRecv_kept hu

theorem endItem_kept {t : TileId} (h : storageKept s) : storageKept (s.endItem t) := by
  unfold endItem
  split
  · exact h
  · extract_lets s1 lw s2
    have ks2 : storageKept s2 := setLampw_kept (updTile_kept _ _ h)
    split
    · exact ks2
    · exact storageKept_ite (emitOuts_kept ks2) ks2

theorem getworkOp_kept {c : Instr} {t : TileId} {f : MsgForm} (h : storageKept s) : storageKept (s.getworkOp c t f) := by
  unfold getworkOp
  refine tileOp_kept (fun u hu => ?_) h
  extract_lets a s1 s2
  have ks1 : storageKept s1 := endItem_kept hu
  clear_value s1
  have ks2 : storageKept s2 := with_gwQueue_kept ks1
  clear_value s2
  split
  · exact except_kept hu
  · exact storageKept_ite (retireAlone_kept (updTile_kept _ _ ks1)) (updTile_kept _ _ ks2)

theorem finishGetwork_kept {t : TileId} (h : storageKept s) : storageKept (s.finishGetwork t) := by
  unfold finishGetwork
  split
  · exact retireAlone_kept (countTile_kept (with_gwQueue_kept (updTile_kept _ _ h)))
  · exact h

theorem doPuttok_kept {t : TileId} {a : W64} (h : storageKept s) : storageKept (s.doPuttok t a) := by
  unfold doPuttok
  split
  · exact h
  · exact storageKept_ite (updTile_kept _ _ h) (sendPkt_kept (lsCorrect_kept (updTile_kept _ _ h)))

theorem puttokOp_kept {c : Instr} {t : TileId} {f : MsgForm} (h : storageKept s) : storageKept (s.puttokOp c t f) := by
  unfold puttokOp
  refine tileOp_kept (fun u hu => ?_) h
  extract_lets tl a
  split
  · exact except_kept hu
  · refine storageKept_ite (except_kept hu) ?_
    split
    · exact hu
    · exact storageKept_ite (except_kept hu) (doPuttok_kept hu)

theorem puttokDone_kept {t : TileId} (h : storageKept s) : storageKept (s.puttokDone t) := by
  unfold puttokDone
  split
  · exact retireAlone_kept h
  · exact h

theorem retrySender_kept {n : Node} (h : storageKept s) : storageKept (s.retrySender n) := by
  unfold retrySender
  split
  · exact h
  · refine storageKept_ite h ?_
    split
    · exact doSend_kept h
    · exact doPuttok_kept h
    · exact h

theorem takePkt_kept {i : Nat} (h : storageKept s) : storageKept (s.takePkt i) := by
  unfold takePkt
  split
  · exact h
  · exact storageKept_ite (retrySender_kept (dropPkt_kept h)) (dropPkt_kept h)

theorem killPackets_kept {p : Packet → Bool} (h : storageKept s) : storageKept (s.killPackets p) := h

theorem dropPuttok_kept {t : TileId} (h : storageKept s) : storageKept (s.dropPuttok t) :=
  storageKept_foldl _ (fun _ _ hu => storageKept_ite (setLampw_kept hu) hu) _ _ (killPackets_kept h)

theorem abandon_kept {t : TileId} (h : storageKept s) : storageKept (s.abandon t).2 := by
  unfold abandon
  extract_lets go
  have run : ∀ {u}, storageKept u → storageKept (go u) := fun hu => updTile_kept _ _ hu
  split
  · exact h
  · exact run h
  · exact run h
  · exact run h
  · exact storageKept_ite_snd h (run (with_gwQueue_kept h))
  · exact run (dropPuttok_kept h)
  · exact h

theorem orderedLine_kept {q : QuarterId} {l : LineAddr} (h : storageKept s) : storageKept (s.orderedLine q l) := by
  unfold orderedLine
  refine storageKept_foldl _ (fun u x hu => ?_) _ _ h
  split
  · exact storageKept_ite (updTile_kept _ _ hu) hu
  · exact hu

theorem acquireEnd_kept {t : TileId} (h : storageKept s) : storageKept (s.acquireEnd t) := retireAlone_kept (updTile_kept _ _ h)

theorem fenceOp_kept {c : Instr} {t : TileId} {f : FenceForm} {sc : FScope} {fm : FForm} (h : storageKept s) :
    storageKept (s.fenceOp c t f sc fm) := by
  unfold fenceOp
  refine tileOp_kept (fun u hu => ?_) h
  split
  · exact retireAlone_kept hu
  · exact updTile_kept _ _ (storageKept_ite hu (drainWhere_kept hu))

theorem fenceStep_kept {t : TileId} (h : storageKept s) : storageKept (s.fenceStep t) := by
  unfold fenceStep
  split
  · exact storageKept_ite (acquireEnd_kept h) h
  · exact storageKept_ite (retireAlone_kept h) h
  · exact storageKept_ite (storageKept_ite (acquireEnd_kept h) (updTile_kept _ _ h)) h
  · exact h

/-! #### Tiles: control registers and resets -/

theorem endWait_kept {t : TileId} (h : storageKept s) : storageKept (s.endWait t) := storageKept_ite (retireAlone_kept h) h

theorem takeInterrupt_kept {t : TileId} (h : storageKept s) : storageKept (s.takeInterrupt t) := by
  unfold takeInterrupt
  refine storageKept_ite ?_ (endWait_kept h)
  split
  · exact endWait_kept h
  · split
    next e2 =>
      exact kept_snd e2 (abandon_kept (endWait_kept h))
    next e2 =>
      exact takeException_kept (kept_snd e2 (abandon_kept (endWait_kept h)))

theorem discardInbox_kept {t : TileId} (h : storageKept s) : storageKept (s.discardInbox t) := bumpF_kept _ _ h
theorem liftTileHalts_kept {t : TileId} (h : storageKept s) : storageKept (s.liftTileHalts t) := h

theorem failAll_kept {t : TileId} {reason : Nat} (h : storageKept s) : storageKept (s.failAll t reason) := by
  unfold failAll
  extract_lets s1 s2
  have ks2 : storageKept s2 := killPackets_kept (updTile_kept _ _ (failHeld_kept h))
  split
  · exact failHeld_kept h
  · exact failItem_kept ks2

theorem forgetAccesses_kept {t : TileId} (h : storageKept s) : storageKept (s.forgetAccesses t) := h

theorem resetTile_kept {t : TileId} {wardReset : Bool} (h : storageKept s) : storageKept (s.resetTile t wardReset) := by
  unfold resetTile
  extract_lets s1 s2 s3 s4 s5 s6 entry s7 s8
  have ks1 : storageKept s1 := failAll_kept h
  clear_value s1
  have ks2 : storageKept s2 := dropPuttok_kept ks1
  clear_value s2
  have ks3 : storageKept s3 := discardInbox_kept ks2
  clear_value s3
  have ks4 : storageKept s4 := forgetAccesses_kept (with_gwQueue_kept ks3)
  clear_value s4
  have ks5 : storageKept s5 := liftTileHalts_kept ks4
  clear_value s5
  have ks6 : storageKept s6 := storageKept_ite (setF_kept _ _ ks5) ks5
  clear_value s6
  have ks7 : storageKept s7 := updTile_kept _ _ ks6
  clear_value s7
  have ks8 : storageKept s8 := storageKept_ite (updTile_kept _ _ ks7) ks7
  clear_value s8
  exact updTile_kept _ _ ks8

theorem setRun_kept {t : TileId} {run : Bool} (h : storageKept s) : storageKept (s.setRun t run) :=
  storageKept_ite (updTile_kept _ _ (setB_kept _ _ h)) (setB_kept _ _ h)

theorem doorbell_kept {t : TileId} (h : storageKept s) : storageKept (s.doorbell t) := storageKept_ite h (endWait_kept (updTile_kept _ _ h))
theorem ctrlReset_kept {t : TileId} (h : storageKept s) : storageKept (s.ctrlReset t) := storageKept_ite h (resetTile_kept h)

/-! #### Lamplighter -/

theorem queueItem_kept {it : Item} (h : storageKept s) : storageKept (s.queueItem it) := storageKept_ite (failNotice_kept h) (setLampw_kept h)

theorem fireAll_kept {w : WardId} {nd : PlanNode} {n : Nat} (h : storageKept s) : storageKept (s.fireAll w nd n) := by
  induction n generalizing s with
  | zero => exact h
  | succ n ih =>
    rw [fireAll]
    split
    · exact h
    · exact ih (queueItem_kept (setLampw_kept h))

theorem storeToken_kept {w : WardId} {nd : PlanNode} {tk : Token} (h : storageKept s) : storageKept (s.storeToken w nd tk) :=
  storageKept_ite (storageKept_ite (setLampw_kept h) (queueItem_kept h)) (fireAll_kept (setLampw_kept h))

theorem offerTok_kept {w : WardId} {tk : Token} {viaGate : Option Nat} (h : storageKept s) : storageKept (s.offerTok w tk viaGate).2 := by
  unfold offerTok
  split
  · exact bumpF_kept _ _ h
  · extract_lets lw e2
    exact storageKept_ite_snd (storageKept_ite_snd (setLampw_kept h) h) (storageKept_ite_snd (storeToken_kept h) h)

theorem tokDone_kept {src : TokSrc} (h : storageKept s) : storageKept (s.tokDone src) := by
  unfold tokDone
  split
  · exact puttokDone_kept h
  · exact h

theorem arriveTok_kept {w : WardId} {tk : Token} {src : TokSrc} (h : storageKept s) : storageKept (s.arriveTok w tk src) := by
  unfold arriveTok
  extract_lets busy
  split
  next e =>
    exact tokDone_kept (kept_snd e (storageKept_ite_snd h (offerTok_kept h)))
  next e =>
    exact setLampw_kept (kept_snd e (storageKept_ite_snd h (offerTok_kept h)))

theorem fireFirst_kept {w : WardId} {l : List DelayEntry} {held : List Nat} (h : storageKept s) : storageKept (s.fireFirst w l held).2 := by
  induction l generalizing s held with
  | nil => exact h
  | cons e l ih =>
    rw [fireFirst]
    refine storageKept_ite_snd (ih h) ?_
    split
    next e2 =>
      exact setLampw_kept (kept_snd e2 (offerTok_kept h))
    next e2 =>
      extract_lets lw
      exact ih (setLampw_kept (kept_snd e2 (offerTok_kept h)))

theorem fireOne_kept {w : WardId} (h : storageKept s) : storageKept (s.fireOne w).2 := storageKept_ite_snd h (fireFirst_kept h)

theorem fireRipe_kept  {n : Nat} (h : storageKept s) : storageKept (s.fireRipe n) := by
  induction n generalizing s with
  | zero => exact h
  | succ n ih =>
    rw [fireRipe]
    split
    · exact storageKept_foldl _ (fun _ _ hu => fireOne_kept hu) _ _ h
    · exact ih (fireOne_kept h)

theorem fireDue_kept (h : storageKept s) : storageKept s.fireDue := fireRipe_kept h
theorem ripen_kept {w : WardId} (h : storageKept s) : storageKept (s.ripen w) := storageKept_ite h (setLampw_kept h)

theorem admitWaiting_go_kept {w : WardId} (h : storageKept s) {l : List (Token × TokSrc)} {u : State} (e : admitWaiting.go s w l = some u) :
    storageKept u := by
  induction l with
  | nil => cases e
  | cons x r ih =>
    rw [admitWaiting.go] at e
    split at e
    next e2 =>
      cases e
      exact tokDone_kept (setLampw_kept (kept_snd e2 (offerTok_kept h)))
    · exact ih e

theorem admitWaiting_kept {w : WardId} (h : storageKept s) : storageKept (s.admitWaiting w) := by
  unfold admitWaiting
  split
  next e =>
    exact admitWaiting_go_kept h e
  · exact fireOne_kept h

theorem traceSend_kept {w : WardId} (h : storageKept s) : storageKept (s.traceSend w) := by
  unfold traceSend
  extract_lets lw a
  split
  · exact h
  · refine storageKept_ite h ?_
    split
    · exact setF_kept _ _ (setF_kept _ _ (setLampw_kept (winFault_kept _ _ _ h)))
    · exact issue_kept (setLampw_kept h)

theorem traceCommit_kept {w : WardId} (h : storageKept s) : storageKept (s.traceCommit w) :=
  storageKept_ite h (setF_kept _ _ (storageKept_ite (bumpF_kept _ _ (setLampw_kept h)) (setLampw_kept h)))

theorem traceRun_kept {w : WardId} {n : Nat} (h : storageKept s) : storageKept (s.traceRun w n) := by
  induction n generalizing s with
  | zero => exact h
  | succ n ih =>
    rw [traceRun]
    exact storageKept_ite (ih (traceCommit_kept (traceSend_kept h))) (traceSend_kept h)

theorem tracePump_kept {w : WardId} (h : storageKept s) : storageKept (s.tracePump w) := traceRun_kept h
theorem traceDone_kept {w : WardId} (h : storageKept s) : storageKept (s.traceDone w) := tracePump_kept (traceCommit_kept h)
theorem traceAgain_kept {w : WardId} (h : storageKept s) : storageKept (s.traceAgain w) := tracePump_kept (setLampw_kept h)
theorem tracePumpAll_kept (h : storageKept s) : storageKept s.tracePumpAll := storageKept_foldl _ (fun _ _ hu => tracePump_kept hu) _ _ h

theorem takeItem_kept {it : Item} {onTile : Bool} {who : Nat} (h : storageKept s) : storageKept (s.takeItem it onTile who).2 := by
  unfold takeItem
  extract_lets w lw waited it2 tokens b s1
  exact tracePump_kept (pushTrace_kept (setLampw_kept h))

theorem dispatchTile_kept {w : WardId} {pool : Fin 16} (h : storageKept s) : storageKept (s.dispatchTile w pool) := by
  unfold dispatchTile
  refine storageKept_ite h ?_
  split
  · exact sendPkt_kept (sendPkt_kept (updTile_kept _ _ (takeItem_kept h)))
  · exact h

theorem flushDelays_kept {w : WardId} {mask : Nat} (h : storageKept s) : storageKept (s.flushDelays w mask) := bumpF_kept _ _ (setLampw_kept h)
theorem clearObs_kept {w : WardId} (h : storageKept s) : storageKept (s.clearObs w) := setLampw_kept h
theorem newRing_kept {w : WardId} (h : storageKept s) : storageKept (s.newRing w) := setLampw_kept h

theorem writeTraceTail_kept {w : WardId} {val : Nat} (h : storageKept s) : storageKept (s.writeTraceTail w val) :=
  tracePump_kept (storageKept_ite (setF_kept _ _ h) (setF_kept _ _ (setF_kept _ _ h)))

theorem edgePassed_kept {p : Fin 8} {level : Bool} (h : storageKept s) : storageKept (s.edgePassed p level) := by
  unfold edgePassed
  extract_lets x s1
  have k1 : storageKept s1 := setPin_kept h
  clear_value s1
  split
  · split
    · exact bumpF_kept _ _ k1
    · exact storageKept_ite (bumpF_kept _ _ (with_wake_kept k1)) k1
  · exact storageKept_ite (bumpF_kept _ _ (setPin_kept k1)) k1

theorem pinEdge_kept {p : Fin 8} {level : Bool} (h : storageKept s) : storageKept (s.pinEdge p level) :=
  storageKept_ite h (storageKept_ite (edgePassed_kept (setPin_kept h)) (setPin_kept h))

theorem deliverEdge_kept {p : Fin 8} (h : storageKept s) : storageKept (s.deliverEdge p) := by
  unfold deliverEdge
  split
  · refine storageKept_ite h (storageKept_ite (setPin_kept (raiseMsix_kept _ _ h)) ?_)
    extract_lets tk
    split
    next e4 =>
      exact setPin_kept (kept_snd e4 (offerTok_kept h))
    next e4 =>
      exact kept_snd e4 (offerTok_kept h)
  · exact h

theorem takeGateItem_kept {i : Nat} (h : storageKept s) : storageKept (s.takeGateItem i) := storageKept_ite (takePkt_kept h) h

theorem gateSrcDone_kept {src : Option TokSrc} (h : storageKept s) : storageKept (s.gateSrcDone src) := by
  unfold gateSrcDone
  split
  · exact h
  · exact tokDone_kept h

theorem enterGate_kept {g : GateId} {i : Nat} (h : storageKept s) : storageKept (s.enterGate g i) := by
  unfold enterGate
  split
  · exact h
  · split
    · exact gateSrcDone_kept (bumpF_kept _ _ (takeGateItem_kept h))
    · exact storageKept_ite (gateSrcDone_kept (bumpF_kept _ _ (takeGateItem_kept h)))
        (storageKept_ite (gateSrcDone_kept (setGateBuf_kept (takeGateItem_kept h))) h)

theorem inboxPut_kept {t : TileId} {m : Msg} (h : storageKept s) : storageKept (s.inboxPut t m) := by
  unfold inboxPut
  refine storageKept_ite (updTile_kept _ _ h) ?_
  split
  · exact doRecv_kept (updTile_kept _ _ h)
  · exact endWait_kept (updTile_kept _ _ h)

theorem leaveGate_kept {g : GateId} (h : storageKept s) : storageKept (s.leaveGate g) := by
  unfold leaveGate
  split
  · extract_lets gone
    split
    · exact storageKept_ite (inboxPut_kept (bumpF_kept _ _ (bumpF_kept _ _ (setGateBuf_kept h)))) h
    · split
      next e4 =>
        exact bumpF_kept _ _ (setGateBuf_kept (kept_snd e4 (offerTok_kept h)))
      next e4 =>
        exact kept_snd e4 (offerTok_kept h)
    · exact h
  · exact h

/-! #### Packets in flight -/

theorem deliverMsg_kept {i : Nat} (h : storageKept s) : storageKept (s.deliverMsg i) := by
  unfold deliverMsg
  split
  · exact h
  · split
    · exact storageKept_ite h (storageKept_ite (bumpF_kept _ _ (takePkt_kept h)) (storageKept_ite (inboxPut_kept (takePkt_kept h)) h))
    · exact storageKept_ite (takePkt_kept h) (storageKept_ite (finishGetwork_kept (updTile_kept _ _ (takePkt_kept h)))
        (updTile_kept _ _ (takePkt_kept h)))
    · exact h

theorem sendProbe_kept {t : TileId} {val : BitVec 64} (h : storageKept s) : storageKept (s.sendProbe t val) := by
  unfold sendProbe
  extract_lets v s1 s2 s3
  have ks1 : storageKept s1 := setF_kept _ _ (setF_kept _ _ h)
  have ks2 : storageKept s2 := setF_kept _ _ (setF_kept _ _ (setF_kept _ _ (setF_kept _ _ (setF_kept _ _ ks1))))
  exact storageKept_ite ks1 (sendPkt_kept (updTile_kept _ _ ks2))

theorem probeArrives_kept {i : Nat} (h : storageKept s) : storageKept (s.probeArrives i) := by
  unfold probeArrives
  split
  · exact h
  · split
    · exact storageKept_ite (storageKept_ite (sendPkt_kept (takePkt_kept h)) h) (bumpF_kept _ _ (takePkt_kept h))
    · exact h

theorem probeReturns_kept {i : Nat} (h : storageKept s) : storageKept (s.probeReturns i) := by
  unfold probeReturns
  split
  · exact h
  · split
    · exact storageKept_ite (setB_kept _ _ (setB_kept _ _ (setF_kept _ _ (setF_kept _ _ (setF_kept _ _ (updTile_kept _ _ (takePkt_kept h)))))))
        (takePkt_kept h)
    · exact h

theorem advanceAll_kept {i : Nat} (h : storageKept s) : storageKept (s.advanceAll i) := by
  unfold advanceAll
  split
  · exact h
  · exact storageKept_ite (retrySender_kept (advance_kept h)) (advance_kept h)

/-! #### Homes -/

theorem updHome_kept {h0 : Nat} {f : Home → Home} (h : storageKept s) : storageKept (s.updHome h0 f) := setHomeN_kept h
theorem dirPut_kept {h0 n : Nat} {d : Option DirEntry} (h : storageKept s) : storageKept (s.dirPut h0 n d) := updHome_kept h
theorem dirCount_kept {h0 k : Nat} (h : storageKept s) : storageKept (s.dirCount h0 k) := storageKept_ite (bumpF_kept _ _ h) h
theorem hlfCount_kept {k : Nat} (h : storageKept s) : storageKept (s.hlfCount k) := bumpF_kept _ _ h
theorem dropTxn_kept {h0 x : Nat} {l : LineAddr} (h : storageKept s) : storageKept (s.dropTxn h0 x l) := updHome_kept h
theorem setTxn_kept {h0 : Nat} {t : Txn} (h : storageKept s) : storageKept (s.setTxn h0 t) := updHome_kept h
theorem addTxn_kept {h0 : Nat} {t : Txn} (h : storageKept s) : storageKept (s.addTxn h0 t) := updHome_kept h

theorem reply_kept {h0 x : Nat} {r : Req} {k : RspKind} {pl : Payload} {poison : Bool} (h : storageKept s) :
    storageKept (s.reply h0 x r k pl poison) :=
  storageKept_ite h (sendPkt_kept h)

theorem sendSnoop_kept {h0 x : Nat} {l : LineAddr} {k : SnpKind} {to_ : Fin 17} (h : storageKept s) : storageKept (s.sendSnoop h0 x l k to_) :=
  storageKept_ite (dirCount_kept (emit_kept _ h)) (sendPkt_kept h)

theorem poisonReply_kept {h0 x : Nat} {r : Req} (h : storageKept s) : storageKept (s.poisonReply h0 x r) := by
  unfold poisonReply
  extract_lets junk s1
  split
  · exact reply_kept (reply_kept (free_kept h))
  · exact reply_kept (reply_kept (free_kept h))
  · exact reply_kept (free_kept h)
  · exact reply_kept (free_kept h)
  · exact reply_kept (free_kept h)
  · exact reply_kept (free_kept h)
  · exact reply_kept (free_kept h)
  · exact reply_kept (free_kept h)
  · exact reply_kept (free_kept h)
  · exact reply_kept (free_kept h)

theorem answer_kept {h0 : Nat} {t : Txn} (h : storageKept s) : storageKept (s.answer h0 t) := by
  unfold answer
  extract_lets r x v data free k a
  split
  · exact reply_kept (reply_kept h)
  · exact reply_kept (reply_kept h)
  · exact reply_kept h
  · exact reply_kept h
  · exact reply_kept h
  · exact reply_kept h
  · exact reply_kept h
  · exact storageKept_ite (reply_kept h) (reply_kept (reply_kept h))
  · exact reply_kept h
  · exact reply_kept h

theorem askHost_kept {t : Txn} {op : D2HOp} {v : Option LineVal} (h : storageKept s) : storageKept (s.askHost t op v) :=
  storageKept_ite (setTxn_kept h) (hlfCount_kept (emit_kept _ (setTxn_kept h)))

theorem answerHost_kept {t : Txn} {k : SnpKind} {lost : Bool} (h : storageKept s) : storageKept (s.answerHost t k lost) := by
  unfold answerHost
  extract_lets v dirty v2
  split <;> exact emit_kept _ h

theorem callWaiting_kept {h0 : Nat} {l : LineAddr} (h : storageKept s) : storageKept (s.callWaiting h0 l) :=
  storageKept_foldl _ (fun _ _ hu => storageKept_ite (reply_kept (updHome_kept hu)) hu) _ _ h

theorem nextUse_kept {h0 : Nat} (h : storageKept s) : storageKept (s.nextUse h0) := updHome_kept h

theorem finishWrite_kept {h0 : Nat} {t : Txn} (h : storageKept s) : storageKept (s.finishWrite h0 t).2 := by
  unfold finishWrite
  split
  · exact h
  · exact storageKept_ite_snd h (storageKept_ite_snd (writeDram_kept _ _ _ h) h)

theorem takeDir_kept {h0 : Nat} {r : Req} (h : storageKept s) : storageKept (s.takeDir h0 r) := by
  unfold takeDir
  extract_lets use
  split
  · exact dirPut_kept h
  · exact storageKept_ite (dirPut_kept h) h

theorem lostLine_kept (h : storageKept s) : storageKept s.lostLine.2 := by
  unfold lostLine
  split
  next e =>
    exact kept_snd e (free_kept h)

theorem poisonEnd_kept {h0 : Nat} {t : Txn} (h : storageKept s) : storageKept (s.poisonEnd h0 t) := dropTxn_kept (dirPut_kept (poisonReply_kept h))

/-- The stages of a transaction, with fuel for `n` of them, keep the form. -/
structure StagesKept (n : Nat) : Prop where
  admitTxn : ∀ {s : State} {h0 x : Nat} {r : Req} {wd : Option LineVal}, storageKept s → storageKept (s.admitTxn h0 x r wd n)
  goNext : ∀ {s : State} {h0 : Nat} {t : Txn}, storageKept s → storageKept (s.next h0 t n)
  finish : ∀ {s : State} {h0 : Nat} {t : Txn}, storageKept s → storageKept (s.finish h0 t n)
  conclude : ∀ {s : State} {h0 : Nat} {t : Txn}, storageKept s → storageKept (s.conclude h0 t n)
  pump : ∀ {s : State} {h0 : Nat} {l : LineAddr}, storageKept s → storageKept (s.pump h0 l n)
  enter : ∀ {s : State} {h0 x : Nat} {r : Req} {wd : Option LineVal}, storageKept s → storageKept (s.enter h0 x r wd n)

theorem admitTxn_succ {h0 x : Nat} {r : Req} {wd : Option LineVal} {n : Nat} (ih : StagesKept n) (h : storageKept s) :
    storageKept (s.admitTxn h0 x r wd (n + 1)) := by
  rw [State.admitTxn]
  generalize hu : takeDir _ h0 r = u
  have ku : storageKept u := by
    have k1 : storageKept ((s.dirCount h0 0).nextUse h0) := nextUse_kept (dirCount_kept h)
    rw [← hu]
    exact takeDir_kept (storageKept_ite (dirCount_kept (storageKept_ite (updHome_kept k1) k1)) (storageKept_ite (updHome_kept k1) k1))
  refine storageKept_ite (ih.finish (addTxn_kept ku)) ?_
  split
  · exact storageKept_foldl _ (fun _ _ hv => sendSnoop_kept hv) _ _ (addTxn_kept ku)
  · exact ih.goNext (addTxn_kept ku)

theorem next_succ {h0 : Nat} {t : Txn} {n : Nat} (ih : StagesKept n) (h : storageKept s) : storageKept (s.next h0 t (n + 1)) := by
  rw [State.next]
  refine storageKept_ite (reply_kept (setTxn_kept h)) (storageKept_ite
    (storageKept_ite (storageKept_ite (ih.finish (setTxn_kept (free_kept h))) (storageKept_ite (ih.finish (setTxn_kept h)) (setTxn_kept h)))
    (ih.finish h)) (storageKept_ite (askHost_kept h) (storageKept_ite (askHost_kept h)
    (storageKept_ite (ih.finish h) (storageKept_ite (storageKept_ite (askHost_kept h) (askHost_kept h))
    (storageKept_ite (storageKept_ite (ih.finish h) (storageKept_ite (askHost_kept h) (askHost_kept h))) ?_))))))
  split
  · exact storageKept_ite (askHost_kept h) (setTxn_kept h)
  · exact storageKept_ite (askHost_kept h) (ih.finish h)
  · refine storageKept_ite (askHost_kept h) (storageKept_ite (ih.finish h) ?_)
    split
    · exact askHost_kept h
    · exact askHost_kept h
    · exact askHost_kept h
    · exact askHost_kept h
    · exact storageKept_ite (ih.finish h) (askHost_kept h)
    · exact ih.finish h

theorem finish_succ {h0 : Nat} {t : Txn} {n : Nat} (ih : StagesKept n) (h : storageKept s) : storageKept (s.finish h0 t (n + 1)) := by
  rw [State.finish]
  split
  next e =>
    extract_lets s1
    have ks1 : storageKept s1 := setTxn_kept (kept_snd e (finishWrite_kept h))
    exact storageKept_ite (updHome_kept ks1) ks1
  next e =>
    exact ih.conclude (kept_snd e (finishWrite_kept h))

theorem conclude_succ {h0 : Nat} {t : Txn} {n : Nat} (ih : StagesKept n) (h : storageKept s) : storageKept (s.conclude h0 t (n + 1)) := by
  rw [State.conclude]
  split
  · refine ih.pump (dropTxn_kept (storageKept_ite (dirPut_kept (answerHost_kept h)) ?_))
    split
    · exact answerHost_kept h
    · split
      · exact dirPut_kept (answerHost_kept h)
      · exact answerHost_kept h
    · exact dirPut_kept (answerHost_kept h)
  · split
    · exact ih.pump (ih.admitTxn (dropTxn_kept (dirPut_kept h)))
    · exact storageKept_ite (ih.pump (dropTxn_kept (dirPut_kept h)))
        (storageKept_ite (ih.pump (poisonEnd_kept h)) (ih.pump (dropTxn_kept (dirPut_kept (answer_kept h)))))

theorem pump_succ {h0 : Nat} {l : LineAddr} {n : Nat} (ih : StagesKept n) (h : storageKept s) : storageKept (s.pump h0 l (n + 1)) := by
  rw [State.pump]
  refine storageKept_ite (callWaiting_kept h) ?_
  split
  · exact callWaiting_kept h
  · exact storageKept_ite (ih.enter (updHome_kept (callWaiting_kept h))) (callWaiting_kept h)

theorem enter_succ {h0 x : Nat} {r : Req} {wd : Option LineVal} {n : Nat} (ih : StagesKept n) (h : storageKept s) :
    storageKept (s.enter h0 x r wd (n + 1)) := by
  rw [State.enter]
  split
  · split
    · exact ih.admitTxn h
    · extract_lets l s1 s2 hs x4 x5 t
      have ks2 : storageKept s2 := storageKept_ite (hlfCount_kept (dirCount_kept h)) (dirCount_kept h)
      split
      next u e3 =>
        have ku : storageKept u := kept_snd e3 (by
          refine storageKept_ite_snd ?_ ks2
          split
          next e4 =>
            exact kept_snd e4 (lostLine_kept ks2))
        exact storageKept_ite (ih.goNext (addTxn_kept ku)) (storageKept_foldl _ (fun _ _ hu => sendSnoop_kept hu) _ _ (addTxn_kept ku))
  · exact ih.admitTxn h

theorem stagesKept (n : Nat) : StagesKept n := by
  induction n with
  | zero => exact ⟨fun h => h, fun h => h, fun h => h, fun h => h, fun h => h, fun h => h⟩
  | succ n ih => exact ⟨admitTxn_succ ih, next_succ ih, finish_succ ih, conclude_succ ih, pump_succ ih, enter_succ ih⟩

theorem next_kept {h0 : Nat} {t : Txn} {n : Nat} (h : storageKept s) : storageKept (s.next h0 t n) := (stagesKept n).goNext h
theorem finish_kept {h0 : Nat} {t : Txn} {n : Nat} (h : storageKept s) : storageKept (s.finish h0 t n) := (stagesKept n).finish h
theorem conclude_kept {h0 : Nat} {t : Txn} {n : Nat} (h : storageKept s) : storageKept (s.conclude h0 t n) := (stagesKept n).conclude h
theorem pump_kept {h0 : Nat} {l : LineAddr} {n : Nat} (h : storageKept s) : storageKept (s.pump h0 l n) := (stagesKept n).pump h

theorem enter_kept {h0 x : Nat} {r : Req} {wd : Option LineVal} {n : Nat} (h : storageKept s) : storageKept (s.enter h0 x r wd n) :=
  (stagesKept n).enter h

theorem sweep_kept {h0 : Nat} (h : storageKept s) : storageKept (s.sweep h0) :=
  storageKept_foldl _ (fun _ _ hu => storageKept_ite hu (pump_kept hu)) _ _ h

theorem goOn_kept {h0 : Nat} {t : Txn} (h : storageKept s) : storageKept (s.goOn h0 t) := sweep_kept (next_kept h)
theorem wrapUp_kept {h0 : Nat} {t : Txn} (h : storageKept s) : storageKept (s.wrapUp h0 t) := sweep_kept (finish_kept h)
theorem doom_kept {h0 : Nat} {t : Txn} (h : storageKept s) : storageKept (s.doom h0 t) := wrapUp_kept (setTxn_kept h)
theorem serve_kept {h0 : Nat} {l : LineAddr} (h : storageKept s) : storageKept (s.serve h0 l) := storageKept_ite h (pump_kept h)

/-! #### Answers to the homes -/

theorem reqNode_kept {h0 x : Nat} {r : Req} {k : RspKind} {r2 : Req} (h : storageKept s) : storageKept (s.reqNode h0 x r k r2) := reply_kept h

theorem refuse_kept {i h0 x : Nat} {r : Req} (h : storageKept s) : storageKept (s.refuse i h0 x r) := by
  unfold refuse
  refine storageKept_ite (storageKept_ite (reply_kept (updHome_kept (updHome_kept (takePkt_kept (nextUse_kept h)))))
    (updHome_kept (takePkt_kept (nextUse_kept h)))) (storageKept_ite ?_
    (storageKept_ite (reqNode_kept (dirCount_kept (takePkt_kept (nextUse_kept h))))
    (storageKept_ite (reqNode_kept (updHome_kept (dirCount_kept (dirCount_kept (takePkt_kept (nextUse_kept h)))))) h)))
  extract_lets s1 slot
  have ks1 : storageKept s1 := storageKept_ite (hlfCount_kept (nextUse_kept h)) (dirCount_kept (nextUse_kept h))
  exact storageKept_ite (reqNode_kept (updHome_kept (takePkt_kept ks1))) (reqNode_kept (takePkt_kept ks1))

theorem holdReset_kept {h0 x : Nat} {r : Req} (h : storageKept s) : storageKept (s.holdReset h0 x r) := by
  unfold holdReset
  extract_lets st r2 s1
  have ks1 : storageKept s1 := updHome_kept (nextUse_kept h)
  exact storageKept_ite (reply_kept (updHome_kept ks1)) ks1

theorem takeRequest_kept {i : Nat} {k : ReqKind} (h : storageKept s) : storageKept (s.takeRequest i k) := by
  unfold takeRequest
  split
  · exact h
  · split
    · exact storageKept_ite h (storageKept_ite (poisonReply_kept (takePkt_kept h))
        (storageKept_ite (serve_kept (poisonReply_kept (updHome_kept (takePkt_kept h))))
        (storageKept_ite (reply_kept (updHome_kept (takePkt_kept h)))
        (storageKept_ite (storageKept_ite (reply_kept (updHome_kept (takePkt_kept h)))
        (storageKept_ite h (serve_kept (updHome_kept (takePkt_kept h)))))
        (storageKept_ite (holdReset_kept (takePkt_kept h)) (storageKept_ite h
        (storageKept_ite (refuse_kept h) (storageKept_ite (reply_kept (updHome_kept (takePkt_kept h))) (enter_kept (takePkt_kept h))))))))))
    · exact h

theorem dropWbuf_kept {h0 x : Nat} {l : LineAddr} (h : storageKept s) : storageKept (s.dropWbuf h0 x l) := updHome_kept h
theorem hostData_kept {h0 : Nat} {l : LineAddr} {m : Mask64} {v : LineVal} (h : storageKept s) : storageKept (s.hostData h0 l m v) := updHome_kept h

theorem takeWriteData_kept {i : Nat} (h : storageKept s) : storageKept (s.takeWriteData i) := by
  unfold takeWriteData
  split
  · exact h
  · split
    · refine storageKept_ite h ?_
      split
      · exact goOn_kept (setTxn_kept (takePkt_kept h))
      · split
        · exact storageKept_ite h (takePkt_kept h)
        · exact storageKept_ite (serve_kept (reply_kept (dropWbuf_kept (takePkt_kept h))))
            (storageKept_ite (reply_kept (hostData_kept (dropWbuf_kept (takePkt_kept h))))
            (storageKept_ite (serve_kept (updHome_kept (updHome_kept (takePkt_kept h))))
            (storageKept_ite (updHome_kept (nextUse_kept (updHome_kept (takePkt_kept h))))
            (sweep_kept (enter_kept (updHome_kept (updHome_kept (takePkt_kept h))))))))
    · exact h

theorem snoopAnswer_kept {h0 : Nat} {t : Txn} {q : Fin 17} {a : SnpAns} (h : storageKept s) : storageKept (s.snoopAnswer h0 t q a) := by
  unfold snoopAnswer
  split
  · extract_lets done go m excl s1
    have ks1 : storageKept s1 := storageKept_ite (dirPut_kept h) h
    clear_value s1
    split
    · exact storageKept_ite (goOn_kept (setTxn_kept h)) (setTxn_kept h)
    · exact storageKept_ite (goOn_kept (setTxn_kept h)) (setTxn_kept h)
    · exact setTxn_kept h
    · exact storageKept_ite (goOn_kept (setTxn_kept h)) (setTxn_kept h)
    · exact storageKept_ite (storageKept_ite (goOn_kept (setTxn_kept ks1)) (setTxn_kept ks1))
        (storageKept_ite (goOn_kept (setTxn_kept h)) (setTxn_kept h))
  · exact h

theorem takeAnswer_kept {i : Nat} {kind : RspKind} (h : storageKept s) : storageKept (s.takeAnswer i kind) := by
  have k := takePkt_kept (i := i) h
  unfold takeAnswer
  split
  · exact h
  · split
    · refine storageKept_ite h ?_
      extract_lets x qh found
      clear_value found
      split
      · exact storageKept_ite h k
      · split
        · exact snoopAnswer_kept k
        · exact snoopAnswer_kept k
        · split <;> exact snoopAnswer_kept k
    · exact h

theorem dramDone_kept {h0 : HomeId} {x : Nat} {err : DramErr} (h : storageKept s) : storageKept (s.dramDone h0 x err) := by
  unfold dramDone
  split
  · exact h
  · refine wrapUp_kept (setTxn_kept (readDram_kept _ _ _ _ ?_))
    split
    · exact keyFault_kept (storageKept_ite (bitmapFault_kept h) h)
    · exact storageKept_ite (bitmapFault_kept h) h

theorem startInits_kept {h0 : Nat} (h : storageKept s) : storageKept (s.startInits h0) :=
  storageKept_foldl _ (fun _ _ hu => storageKept_ite (updHome_kept hu) hu) _ _ h

theorem pumpRegion_kept {h0 r : Nat} (h : storageKept s) : storageKept (s.pumpRegion h0 r) :=
  storageKept_foldl _ (fun _ _ hu => storageKept_ite (pump_kept hu) hu) _ _ h

theorem initDone_kept {h0 : HomeId} {r : Nat} (h : storageKept s) : storageKept (s.initDone h0 r) := by
  unfold initDone
  refine storageKept_ite h ?_
  extract_lets s1
  have ks1 : storageKept s1 := updHome_kept h
  clear_value s1
  split
  · exact startInits_kept ks1
  · refine sweep_kept (startInits_kept (pumpRegion_kept (storageKept_foldl _ (fun _ _ hu => finish_kept hu) _ _ ?_)))
    split
    · exact conclude_kept ks1
    · exact conclude_kept (initPart_kept _ _ _ _ _ ks1)

theorem toutRec_kept {h0 n kind who : Nat} (h : storageKept s) : storageKept (s.toutRec h0 n kind who) :=
  storageKept_ite (setF_kept _ _ (setF_kept _ _ (setF_kept _ _ (bumpF_kept _ _ h)))) (hlfCount_kept h)

theorem toutEvent_kept {h0 : Nat} {w : Option WardId} (h : storageKept s) : storageKept (s.toutEvent h0 w) :=
  storageKept_ite (event_kept _ h) (event_kept _ h)

theorem fenceQuarter_kept {q : QuarterId} (h : storageKept s) : storageKept (s.fenceQuarter q) :=
  storageKept_foldl _ (fun _ _ hu => storageKept_foldl _ (fun _ _ hu1 =>
    pump_kept hu1) _ _ (storageKept_foldl _ (fun _ _ hu1 => poisonReply_kept hu1) _ _ (storageKept_foldl _ (fun _ _ hu1 =>
    poisonReply_kept hu1) _ _ (updHome_kept (updHome_kept hu))))) _ _ (updQuarter_kept h)

theorem snoopSilent_kept {h0 x : Nat} {q : QuarterId} (h : storageKept s) : storageKept (s.snoopSilent h0 x q) := by
  unfold snoopSilent
  split
  · exact h
  · exact doom_kept (storageKept_ite (event_kept _ (fenceQuarter_kept (toutRec_kept h)))
      (toutEvent_kept (event_kept _ (fenceQuarter_kept (toutRec_kept h)))))

theorem biSilent_kept {h0 x : Nat} (h : storageKept s) : storageKept (s.biSilent h0 x) := by
  unfold biSilent
  split
  · exact h
  · refine doom_kept (storageKept_ite (event_kept _ ?_) ?_)
    · split
      · exact toutRec_kept h
      · exact dirPut_kept (toutRec_kept h)
    · split
      · refine toutEvent_kept (event_kept _ ?_)
        split
        · exact toutRec_kept h
        · exact dirPut_kept (toutRec_kept h)
      · refine event_kept _ ?_
        split
        · exact toutRec_kept h
        · exact dirPut_kept (toutRec_kept h)

theorem dataSilent_kept {h0 x : Nat} (h : storageKept s) : storageKept (s.dataSilent h0 x) := by
  unfold dataSilent
  split
  next t _ =>
    extract_lets n s1 s2
    have k2 : storageKept s2 := by
      have k1 : storageKept s1 := toutRec_kept h
      clear_value s1
      simp only [s2]
      split
      · exact qcEvent_kept k1
      · exact k1
    clear_value s2
    exact storageKept_ite (sweep_kept (serve_kept (dropTxn_kept (dirPut_kept (poisonReply_kept (emit_kept _ (lostLine_kept k2))))))) (doom_kept k2)
  · split
    · exact h
    · exact sweep_kept (serve_kept (toutEvent_kept (poisonReply_kept (dropWbuf_kept (toutRec_kept h)))))

theorem hostAnswer_kept {l : LineAddr} {r : HostGrant} (h : storageKept s) : storageKept (s.hostAnswer l r) := by
  unfold hostAnswer
  split
  · exact h
  · extract_lets s1 take t3
    have ks1 : storageKept s1 := storageKept_ite (reportRas_kept _ _ _ h) h
    clear_value s1
    split
    · exact goOn_kept (setTxn_kept ks1)
    · exact goOn_kept (setTxn_kept ks1)
    · exact goOn_kept (setTxn_kept ks1)
    · exact wrapUp_kept ks1
    · exact storageKept_ite (wrapUp_kept ks1) (goOn_kept (setTxn_kept ks1))
    · exact wrapUp_kept ks1
    · exact ks1

theorem filterApply_kept {l : LineAddr} (h : storageKept s) : storageKept (s.filterApply l) := by
  unfold filterApply
  split
  · exact h
  · exact storageKept_ite (askHost_kept h) (askHost_kept h)

theorem hostSnoops_kept {l : LineAddr} {k : SnpKind} (h : storageKept s) : storageKept (s.hostSnoops l k) := by
  unfold hostSnoops
  refine storageKept_ite h ?_
  split
  · exact storageKept_ite (hlfCount_kept (hlfCount_kept (emit_kept _ h))) h
  · extract_lets s1 x2
    split
    · exact hlfCount_kept (emit_kept _ (hlfCount_kept h))
    · exact storageKept_ite (hlfCount_kept (emit_kept _ (hlfCount_kept h)))
        (storageKept_ite (dirPut_kept (answerHost_kept (hlfCount_kept h)))
        (storageKept_foldl _ (fun _ _ hu => sendSnoop_kept hu) _ _ (addTxn_kept (hlfCount_kept h))))

theorem biAnswer_kept {l : LineAddr} {kept : Bool} (h : storageKept s) : storageKept (s.biAnswer l kept) := by
  unfold biAnswer
  extract_lets h2
  split
  · exact h
  · exact snoopAnswer_kept h

/-! #### Grants and drains -/

theorem quarterRsp_kept {q : QuarterId} {h0 x : Nat} {l : LineAddr} {k : RspKind} {pl : Payload} {poison : Bool} (h : storageKept s) :
    storageKept (s.quarterRsp q h0 x l k pl poison) :=
  sendPkt_kept h

theorem drainLine_kept {q : QuarterId} {set w : Nat} {called : Bool} (h : storageKept s) : storageKept (s.drainLine q set w called) := by
  unfold drainLine
  extract_lets s1 s2 c k e
  have k2 : storageKept s2 := storageKept_ite (checkMask_kept (tagScan_kept h)) (tagScan_kept h)
  clear_value s2
  exact storageKept_ite k2 (storageKept_ite (storageKept_ite k2 (qcCount_kept (issue_kept k2)))
    (storageKept_ite (leaveWay_kept (openEntry_kept (e := e) k2)) (waitAtSource_kept k2)))

theorem drainPump_kept {q : QuarterId} (h : storageKept s) : storageKept (s.drainPump q) := by
  unfold drainPump
  refine storageKept_ite (storageKept_ite h ?_) h
  extract_lets s1
  have ks1 : storageKept s1 := storageKept_foldl _ (fun _ _ hu => drainLine_kept hu) _ _ h
  clear_value s1
  exact storageKept_ite ks1 (storageKept_foldl _ (fun _ _ hu => drainLine_kept hu) _ _ ks1)

theorem dropL1_kept {q : QuarterId} (h : storageKept s) : storageKept (s.dropL1 q) := storageKept_foldl _ (fun _ _ hu => updTile_kept _ _ hu) _ _ h

theorem startDrain_kept {q : QuarterId} (h : storageKept s) : storageKept (s.startDrain q) :=
  storageKept_ite (drainPump_kept (dropL1_kept (setF_kept _ _ (setF_kept _ _ h)))) h

theorem stopDrain_kept {q : QuarterId} (h : storageKept s) : storageKept (s.stopDrain q) :=
  storageKept_ite (setF_kept _ _ (drainPump_kept h)) (drainPump_kept h)

theorem enableCache_kept {q : QuarterId} (h : storageKept s) : storageKept (s.enableCache q) := storageKept_ite (setF_kept _ _ h) (setF_kept _ _ h)

theorem sendLine_kept {q : QuarterId} {h0 x : Nat} {l : LineAddr} {m : Mask64} {v : LineVal} {w : Option WardId} (h : storageKept s) :
    storageKept (s.sendLine q h0 x l m v w) :=
  quarterRsp_kept (storageKept_ite h (quarterRsp_kept h))

theorem found_kept {q : QuarterId} {l : LineAddr} (h : storageKept s) : storageKept (s.found q l) := updQuarter_kept h

theorem answerSnoop_kept {q : QuarterId} {h0 x : Nat} {l : LineAddr} {k : SnpKind} (h : storageKept s) :
    storageKept (s.answerSnoop q h0 x l k) := by
  unfold answerSnoop
  refine storageKept_ite (quarterRsp_kept (found_kept (tagScan_kept h))) ?_
  split
  · split
    · exact storageKept_ite (quarterRsp_kept (tagScan_kept h)) (sendLine_kept (tagScan_kept h))
    · exact quarterRsp_kept (tagScan_kept h)
  · extract_lets c s1 s2 c2 s3
    have ks1 : storageKept s1 := checkMask_kept (tagScan_kept h)
    have ks3 : storageKept s3 := storageKept_ite (checkBytes_kept ks1) (qcCount_kept (checkBytes_kept ks1))
    split
    · exact quarterRsp_kept (clearWay_kept (tagScan_kept h))
    · exact quarterRsp_kept (putWay_kept (tagScan_kept h))
    · exact quarterRsp_kept (clearWay_kept (tagScan_kept h))
    · exact quarterRsp_kept (tagScan_kept h)
    · exact quarterRsp_kept (tagScan_kept h)
    · refine sendLine_kept ?_
      split
      · exact storageKept_ite (putWay_kept ks3) (clearWay_kept ks3)
      · exact clearWay_kept ks3
      · exact ks3
    · exact quarterRsp_kept (staleCopies_kept (putWay_kept (tagScan_kept h)))
    · exact quarterRsp_kept (tagScan_kept h)

theorem takeSnoop_kept {i : Nat} {k : SnpKind} (h : storageKept s) : storageKept (s.takeSnoop i k) := by
  unfold takeSnoop
  split
  · exact h
  · split
    · exact storageKept_ite h (wakeQuarter_kept (answerSnoop_kept (takePkt_kept h)))
    · exact h

/-- The state of an answer that may be none keeps the form. -/
inductive OptKept : Option State → Prop where
  | none : OptKept none
  | some {u : State} (h : storageKept u) : OptKept (some u)

theorem OptKept.get {o : Option State} {u : State} (k : OptKept o) (e : o = .some u) : storageKept u := by
  subst e
  cases k
  assumption

theorem OptKept.getD {o : Option State} (k : OptKept o) (h : storageKept s) : storageKept (o.getD s) := by
  cases k with
  | none => exact h
  | some hu => exact hu

theorem installLine_optKept {q : QuarterId} {x : Nat} {e : LEntry} {v : LineVal} {excl : Bool} (h : storageKept s) :
    OptKept (s.installLine q x e v excl) := by
  unfold installLine
  extract_lets l set wd
  split
  next w u e2 =>
    extract_lets c fresh st c2 s1
    have k : storageKept s1 := closeEntry_kept (found_kept (touchWay_kept (writeWay_kept (kept_snd e2 (qLook_kept h)))))
    clear_value s1
    split
    · split
      · exact .some (quarterReq_kept k)
      · exact .some (issue_kept k)
    · exact .some (orderedLine_kept k)
  next e2 =>
    split
    · exact .none
    next e3 => exact .some (closeEntry_kept (found_kept (touchWay_kept (writeWay_kept (allocWay_kept (kept_snd e2 (qLook_kept h)) e3)))))

theorem ownLine_optKept {q : QuarterId} {x : Nat} {e : LEntry} {poison : Bool} (h : storageKept s) : OptKept (s.ownLine q x e poison) := by
  unfold ownLine
  extract_lets l set
  split
  next e2 => exact .some (orderedLine_kept (closeEntry_kept (found_kept (putWay_kept (kept_snd e2 (qLook_kept h))))))
  next e2 =>
    split
    · exact .none
    next e3 => exact .some (closeEntry_kept (found_kept (touchWay_kept (writeWay_kept (allocWay_kept (kept_snd e2 (qLook_kept h)) e3)))))

theorem useGrant_optKept {q : QuarterId} {x : Nat} {e : LEntry} (h : storageKept s) : OptKept (s.useGrant q x e) := by
  unfold useGrant
  split
  · exact ownLine_optKept h
  · exact installLine_optKept h
  · exact .none

theorem settle_kept {q : QuarterId} (h : storageKept s) : storageKept (s.settle q) := by
  refine drainPump_kept (wakeQuarter_kept (storageKept_foldl _ (fun u c hu => ?_) _ _ h))
  split
  · exact storageKept_ite ((useGrant_optKept hu).getD hu) hu
  · exact hu

theorem takeGrant_kept {i : Nat} {k : RspKind} (h : storageKept s) : storageKept (s.takeGrant i k) := by
  unfold takeGrant
  split
  · exact h
  · refine storageKept_ite h ?_
    split
    · exact takePkt_kept h
    · exact settle_kept (setEntry_kept (takePkt_kept h))

theorem fillLine_kept {q : QuarterId} {x : Nat} {e : LEntry} {v : LineVal} (h : storageKept s) : storageKept (s.fillLine q x e v) := by
  unfold fillLine
  extract_lets l set
  split
  next e2 =>
    exact settle_kept (kept_snd e2 (qLook_kept (closeEntry_kept h)))
  next e2 =>
    exact settle_kept (touchWay_kept (writeWay_kept (kept_snd e2 (qLook_kept (closeEntry_kept h)))))

theorem callSource_kept {e : LEntry} (h : storageKept s) : storageKept (s.callSource e) := by
  unfold callSource
  extract_lets l drainOf
  have drained : ∀ t, storageKept (drainOf t) := by
    intro t
    simp only [drainOf]
    split
    · exact h
    · exact wakeTile_kept (drainEntryBy_kept h)
  clear_value drainOf
  split
  · split
    · exact h
    · exact storageKept_ite (drainLine_kept h) h
  · exact drained _
  · exact drained _
  · exact h

theorem resetQuarter_kept {q : QuarterId} (h : storageKept s) : storageKept (s.resetQuarter q) :=
  storageKept_foldl _ (fun _ _ hu => resetTile_kept hu) _ _ h

theorem armCache_kept {q : QuarterId} {v : Nat} (h : storageKept s) : storageKept (s.armCache q v) := by
  unfold armCache
  extract_lets n tag b b2 s1 s2 s3
  have ks1 : storageKept s1 := setF_kept _ _ (setF_kept _ _ (setF_kept _ _ (setB_kept _ _ h)))
  have ks2 : storageKept s2 := storageKept_ite ks1 (setF_kept _ _ ks1)
  have ks3 : storageKept s3 := storageKept_ite (setF_kept _ _ ks2) ks2
  exact storageKept_ite (setF_kept _ _ ks3) ks3

/-! #### Aborts -/

theorem closeAborted_kept {x : Nat} (h : storageKept s) : storageKept (s.closeAborted x) := closeEntry_kept (updEntry_kept h)
theorem giveUp_kept {x : Nat} {l : LineAddr} (h : storageKept s) : storageKept (s.giveUp x l) := serve_kept (closeAborted_kept (updHome_kept h))

theorem abortEntry_kept {x : Nat} {e : LEntry} (h : storageKept s) : storageKept (s.abortEntry x e) :=
  storageKept_ite (giveUp_kept (updEntry_kept h)) (updEntry_kept h)

theorem abortWhere_kept {p : LEntry → Bool} (h : storageKept s) : storageKept (s.abortWhere p) := by
  unfold abortWhere
  refine storageKept_foldl _ (fun u x hu => ?_) _ _ h
  split
  · exact storageKept_ite (abortEntry_kept hu) hu
  · exact hu

/-! #### Engines -/

theorem askLine_kept {e : EngId} {role : Nat} {x : Xlat} (h : storageKept s) : storageKept (s.askLine e role x) := storageKept_ite h (issue_kept h)

theorem engFault_kept {e : EngId} {a cause : Nat} (h : storageKept s) : storageKept (s.engFault e a cause) := by
  unfold engFault
  split
  · exact winFault_kept _ _ _ h
  · exact h

theorem fetchAll_optKept {e : EngId} {l : List Extent} (h : storageKept s) : OptKept (s.fetchAll e l) := by
  unfold fetchAll
  split
  · exact .none
  · exact .some (storageKept_foldl _ (fun _ _ hu => askLine_kept hu) _ _ h)

theorem writeOut_kept {e : EngId} {o : OutLine} (h : storageKept s) : storageKept (s.writeOut e o) := storageKept_ite (dpaErr_kept h) (issue_kept h)

theorem endDesc_kept {e : EngId} {status cflags : Nat} {detail : W64} {outs : List OutLine} {rflags : Nat} (h : storageKept s) :
    storageKept (s.endDesc e status cflags detail outs rflags) :=
  storageKept_foldl _ (fun _ _ hu => writeOut_kept hu) _ _ (setEngine_kept h)

theorem noteBeyond_kept {e : EngId} {l : List Extent} (h : storageKept s) : storageKept (s.noteBeyond e l) :=
  storageKept_foldl _ (fun _ _ hu => dpaErr_kept hu) _ _ h

/-- A read of a descriptor's body that waits leaves the form. -/
def bodyKept : BodyRead → Prop
  | .wait u => storageKept u
  | _ => True

theorem bodyOf_bodyKept {e : EngId} {d : Desc} {n : Nat} (h : storageKept s) : bodyKept (s.bodyOf e d n) := by
  unfold bodyOf
  split
  · trivial
  · split
    · split
      · trivial
      · split
        · exact h
        · extract_lets vals
          split <;> trivial
    · extract_lets x v
      split
      · trivial
      · split
        next e2 => exact (fetchAll_optKept h).get e2
        · split <;> trivial

theorem runOp_kept {e : EngId} {d : Desc} (h : storageKept s) : storageKept (s.runOp e d) := by
  unfold runOp
  extract_lets plan
  clear_value plan
  refine storageKept_ite (endDesc_kept h) (storageKept_ite (endDesc_kept h) (storageKept_ite (endDesc_kept h) ?_))
  have k := bodyOf_bodyKept (e := e) (d := d) (n := plan.body) h
  split
  next eu => exact (eu ▸ k : bodyKept (.wait _))
  · exact endDesc_kept (storageKept_ite h (engFault_kept h))
  · exact endDesc_kept (noteBeyond_kept h)
  · refine storageKept_ite (endDesc_kept (noteBeyond_kept h)) ?_
    extract_lets ext o
    split
    · exact endDesc_kept (engFault_kept (noteBeyond_kept h))
    · split
      next e2 => exact (fetchAll_optKept h).get e2
      · split
        extract_lets reads outs s1 bad s2
        split
        next e2 => exact (fetchAll_optKept h).get e2
        · have k1 : storageKept s1 := noteBeyond_kept h
          clear_value s1
          have k2 : storageKept s2 := storageKept_ite (free_kept (bumpF_kept _ _ k1)) k1
          clear_value s2
          split
          · exact endDesc_kept (engFault_kept k2)
          · refine storageKept_ite (endDesc_kept k2) ?_
            split <;> exact endDesc_kept k2

theorem opCmd_kept {e : EngId} {op : Nat} (h : storageKept s) : storageKept (s.opCmd e op) := by
  unfold opCmd
  split
  · exact h
  · exact storageKept_ite (runOp_kept h) h

theorem acceptDesc_kept {e : EngId} {d : Desc} (h : storageKept s) : storageKept (s.acceptDesc e d) := by
  unfold acceptDesc
  refine storageKept_ite (setEngine_kept h) ?_
  split
  · exact setEngine_kept (engFault_kept h)
  · exact storageKept_foldl _ (fun _ _ hu => storageKept_ite (dpaErr_kept hu) (askLine_kept hu)) _ _ (setEngine_kept h)

theorem takeLamp_kept {e : EngId} (h : storageKept s) : storageKept (s.takeLamp e) := by
  unfold takeLamp
  split
  · refine storageKept_ite h ?_
    split
    next e4 =>
      have ku := kept_snd e4 (takeItem_kept h)
      split
      · exact ku
      · exact acceptDesc_kept ku
  · exact h

theorem takeFeed_kept {e : EngId} (h : storageKept s) : storageKept (s.takeFeed e) := by
  unfold takeFeed
  split
  · exact h
  · exact acceptDesc_kept (updTile_kept _ _ h)

theorem takeRing_kept {e : EngId} (h : storageKept s) : storageKept (s.takeRing e) := by
  unfold takeRing
  extract_lets a i x x2
  split
  · exact setF_kept _ _ (engFault_kept h)
  · exact storageKept_ite (acceptDesc_kept (dpaErr_kept (setF_kept _ _ h))) (askLine_kept (setEngine_kept h))

theorem ringArrive_kept {e : EngId} {v : LineVal} (h : storageKept s) : storageKept (s.ringArrive e v) := acceptDesc_kept (setF_kept _ _ h)

theorem takePath_kept {e : EngId} {x2 : SubPath} (h : storageKept s) : storageKept (s.takePath e x2) := by
  unfold takePath
  split
  · exact takeLamp_kept h
  · exact takeFeed_kept h
  · exact takeRing_kept h

theorem engineData_kept {e : EngId} {x : LEntry} {v : LineVal} (h : storageKept s) : storageKept (s.engineData e x v) :=
  storageKept_ite (setEngine_kept h) (storageKept_ite (ringArrive_kept h) (setEngine_kept h))

theorem countDone_kept {e : EngId} {d : Desc} {r : EngRun} (h : storageKept s) : storageKept (s.countDone e d r) :=
  setEngine_kept (storageKept_ite (bumpF_kept _ _ (bumpF_kept _ _ (bumpF_kept _ _ h))) (bumpF_kept _ _ (bumpF_kept _ _ h)))

theorem engIrq_kept {e : EngId} {d : Desc} (h : storageKept s) : storageKept (s.engIrq e d) := by
  unfold engIrq
  refine storageKept_ite ?_ h
  split <;> exact raiseMsix_kept _ _ h

theorem endEngineItem_kept {e : EngId} {d : Desc} {r : EngRun} {it : Item} (h : storageKept s) : storageKept (s.endEngineItem e d r it) :=
  setLampw_kept (countDone_kept h)

theorem emitDone_kept {e : EngId} {d : Desc} {r : EngRun} (h : storageKept s) : storageKept (s.emitDone e d r) := by
  unfold emitDone
  refine storageKept_ite h ?_
  split
  · split
    · exact countDone_kept h
    · refine storageKept_ite ?_ (endEngineItem_kept h)
      extract_lets x3 s1
      have ks1 : storageKept s1 := emitOuts_kept (setEngine_kept h)
      exact storageKept_ite ks1 (endEngineItem_kept ks1)
  · refine storageKept_ite ?_ (engIrq_kept (countDone_kept h))
    split
    · exact storageKept_ite (engIrq_kept (sendPkt_kept (countDone_kept h))) h
    · exact engIrq_kept (countDone_kept h)
  · refine storageKept_ite ?_ (storageKept_ite h (engIrq_kept (setF_kept _ _ (countDone_kept h))))
    extract_lets a x2 s1
    split
    · exact engIrq_kept (setF_kept _ _ (countDone_kept (engFault_kept h)))
    · exact storageKept_ite (engIrq_kept (setF_kept _ _ (countDone_kept (dpaErr_kept h)))) (issue_kept (setEngine_kept h))

theorem completeDesc_kept {e : EngId} (h : storageKept s) : storageKept (s.completeDesc e) := by
  unfold completeDesc
  split
  · exact h
  · split
    · exact storageKept_ite (emitDone_kept h) h
    · extract_lets outcome
      clear_value outcome
      split
      · exact h
      · extract_lets s1
        have k1 : storageKept s1 := endDesc_kept h
        clear_value s1
        split
        · exact emitDone_kept k1
        · exact k1

theorem resetEngine_kept {e : EngId} {silent : Bool} (h : storageKept s) : storageKept (s.resetEngine e silent) :=
  abortWhere_kept (setEngine_kept h)

theorem faultEngine_kept {e : EngId} (h : storageKept s) : storageKept (s.faultEngine e) := by
  unfold faultEngine
  split
  · exact h
  · exact storageKept_ite h (endDesc_kept (abortWhere_kept h))

theorem engineUnwritten_kept {e : EngId} {x : LEntry} (h : storageKept s) : storageKept (s.engineUnwritten e x) := by
  unfold engineUnwritten
  extract_lets en
  split
  · exact storageKept_ite (setEngine_kept h) h
  · exact h

theorem feedGone_kept {t : TileId} (h : storageKept s) : storageKept (s.feedGone t) := by
  unfold feedGone
  refine storageKept_ite h ?_
  split
  · exact storageKept_ite h (doRecv_kept h)
  · exact retrySender_kept h

theorem setFeed_kept {e : EngId} {en : Bool} {tile : TileId} (h : storageKept s) : storageKept (s.setFeed e en tile) := by
  unfold setFeed
  extract_lets ok old s1
  have ks1 : storageKept s1 := feedGone_kept (setB_kept _ _ (setF_kept _ _ h))
  exact storageKept_ite (setF_kept _ _ ks1) ks1

theorem captureLast_kept {e : EngId} (h : storageKept s) : storageKept (s.captureLast e) := setEngine_kept h

theorem writeTail_kept {e : EngId} {val : Nat} (h : storageKept s) : storageKept (s.writeTail e val) :=
  storageKept_ite (setF_kept _ _ h) (setF_kept _ _ (setF_kept _ _ h))

/-! #### Ward resets -/

theorem swapReport_kept {w : WardId} {result : Nat} {oldId newId : W64} {startTick clamps : Nat} {c : SwapCounts} {entries : List (List Byte)}
    (h : storageKept s) : storageKept (s.swapReport w result oldId newId startTick clamps c entries) := with_swapRpt_kept h

theorem abandonSwap_kept {result : Nat} (h : storageKept s) : storageKept (s.abandonSwap result) := by
  unfold abandonSwap
  split
  · exact setF_kept _ _ (with_job_kept (setF_kept _ _ (setF_kept _ _ (swapReport_kept h))))
  · exact setF_kept _ _ (with_job_kept (setF_kept _ _ (swapReport_kept (free_kept (free_kept h)))))
  · exact h

theorem liftHalts_kept {p : LHalt → Bool} (h : storageKept s) : storageKept (s.liftHalts p) :=
  fireDue_kept (storageKept_foldl _ (fun _ _ hu => storageKept_ite (updTile_kept _ _ hu) hu) _ _ h)

theorem revokeRun_kept {w : WardId} (h : storageKept s) : storageKept (s.revokeRun w) :=
  liftHalts_kept (storageKept_foldl _ (fun _ _ hu => storageKept_ite (setF_kept _ _ hu) hu) _ _ (storageKept_foldl _ (fun _ _ hu =>
    storageKept_ite (setF_kept _ _ hu) hu) _ _ h))

theorem emptyGate_kept {g : Nat} (h : storageKept s) : storageKept (s.emptyGate g) := by
  unfold emptyGate
  extract_lets full s1 s2
  have ks1 : storageKept s1 := setGateBuf_kept (bumpF_kept _ _ h)
  have ks2 : storageKept s2 := storageKept_ite (storageKept_foldl _
    (fun _ _ hu => storageKept_ite (retireAlone_kept (bumpF_kept _ _ hu)) hu) _ _ ks1) ks1
  clear_value s2
  refine storageKept_foldl _ (fun u x hu => ?_) _ _ ks2
  split
  · exact hu
  · exact gateSrcDone_kept (bumpF_kept _ _ (takeGateItem_kept hu))

theorem emptyGates_kept {w : WardId} (h : storageKept s) : storageKept (s.emptyGates w) := by
  unfold emptyGates
  refine storageKept_foldl _ (fun u x hu => ?_) _ _ h
  split
  · exact hu
  · exact storageKept_ite (emptyGate_kept hu) hu

theorem startWardReset_kept {w : WardId} (h : storageKept s) : storageKept (s.startWardReset w) := by
  unfold startWardReset
  refine storageKept_ite h ?_
  extract_lets s1 s2 s3 s4 s5 s6
  have k1 : storageKept s1 := by
    simp only [s1]
    split
    · exact storageKept_ite (abandonSwap_kept h) h
    · exact storageKept_ite (abandonSwap_kept h) h
    · exact h
  clear_value s1
  have k2 : storageKept s2 := setLampw_kept (emptyGates_kept (setF_kept _ _ k1))
  clear_value s2
  have k3 : storageKept s3 := k2
  have k4 : storageKept s4 := killPackets_kept k3
  have k5 : storageKept s5 := storageKept_foldl _ (fun _ _ hu => resetTile_kept hu) _ _ k4
  exact abortWhere_kept (storageKept_foldl _ (fun _ _ hu => resetEngine_kept hu) _ _ k5)

theorem dirRemove_kept {h0 n : Nat} {q : Fin 17} (h : storageKept s) : storageKept (s.dirRemove h0 n q) := by
  unfold dirRemove
  split
  · exact h
  · exact dirPut_kept h

theorem discardWay_kept {q : QuarterId} {set w : Nat} (h : storageKept s) : storageKept (s.discardWay q set w) :=
  storageKept_ite h (dirRemove_kept (staleCopies_kept (storageKept_ite (putWay_kept h) (putWay_kept h))))

theorem discardWays_kept {p : QuarterId → CWay → Bool} (h : storageKept s) : storageKept (s.discardWays p) :=
  storageKept_foldl _ (fun _ _ hu => storageKept_foldl _ (fun _ _ hu1 => storageKept_ite (discardWay_kept hu1) hu1) _ _ hu) _ _ h

theorem backInvalidate_kept {p : LineAddr → Bool} (h : storageKept s) : storageKept (s.backInvalidate p) := by
  unfold backInvalidate
  refine storageKept_foldl _ (fun u x hu => storageKept_foldl _ (fun u x hu1 => ?_) _ _ hu) _ _ h
  split
  · exact storageKept_ite (sendSnoop_kept (addTxn_kept hu1)) hu1
  · exact hu1

theorem leaveHostLines_kept {w : WardId} (h : storageKept s) : storageKept (s.leaveHostLines w) :=
  storageKept_foldl _ (fun _ _ hu => storageKept_foldl _ (fun _ _ hu1 => storageKept_ite (drainLine_kept hu1) hu1) _ _ hu) _ _ h

theorem zeroWays_kept {mask : QuarterId → BitVec 16} (h : storageKept s) : storageKept (s.zeroWays mask) :=
  storageKept_foldl _ (fun _ _ hu => updQuarter_kept hu) _ _ h

theorem zeroScratch_kept {w : WardId} (h : storageKept s) : storageKept (s.zeroScratch w) := zeroWays_kept h

theorem pumpHeld_kept (h : storageKept s) : storageKept s.pumpHeld :=
  storageKept_foldl _ (fun _ _ hu => storageKept_foldl _ (fun _ _ hu1 => pump_kept hu1) _ _ hu) _ _ h

theorem forgetRegions_kept {w : WardId} (h : storageKept s) : storageKept (s.forgetRegions w) :=
  storageKept_congr rfl rfl rfl (storageKept_foldl _ (fun _ _ hu => clearRegion_kept hu) _ _ h)

theorem wipeWard_kept {w : WardId} (h : storageKept s) : storageKept (s.wipeWard w) := by
  unfold wipeWard
  refine storageKept_ite h ?_
  extract_lets s1 s2 s3
  have ks1 : storageKept s1 := leaveHostLines_kept (discardWays_kept h)
  clear_value s1
  have ks2 : storageKept s2 := zeroScratch_kept (backInvalidate_kept ks1)
  clear_value s2
  have ks3 : storageKept s3 := forgetRegions_kept ks2
  clear_value s3
  exact storageKept_ite ks2 (storageKept_ite ks2 (pumpHeld_kept (with_wardStep_kept ks3)))

theorem clearWardRegs_kept {w : WardId} (h : storageKept s) : storageKept (s.clearWardRegs w) :=
  storageKept_fld (s := s) (fldKept_drop _ _ h.1) rfl rfl h

theorem resetVfMsix_kept {w : WardId} (h : storageKept s) : storageKept (s.resetVfMsix w) := h

theorem clearWardEngines_kept {w : WardId} (h : storageKept s) : storageKept (s.clearWardEngines w) :=
  storageKept_foldl _ (fun _ _ hu => setEngine_kept hu) _ _ h

theorem endWardReset_kept {w : WardId} (h : storageKept s) : storageKept (s.endWardReset w) :=
  with_wardStep_kept (setF_kept _ _ (setF_kept _ _ (setLampw_kept
    (with_link_kept (clearWardEngines_kept (resetVfMsix_kept (clearWardRegs_kept (revokeRun_kept h))))))))

theorem wardResetDone_kept {w : WardId} (h : storageKept s) : storageKept (s.wardResetDone w) := storageKept_ite (endWardReset_kept h) h

theorem writeConsent_kept {w : WardId} {byWard : Bool} {v : Nat} (h : storageKept s) : storageKept (s.writeConsent w byWard v) := by
  unfold writeConsent
  extract_lets had new r m u s1
  have ks1 : storageKept s1 := setB_kept _ _ (setB_kept _ _ (setB_kept _ _ h))
  exact storageKept_ite (revokeRun_kept ks1) ks1

/-! #### The loader -/

theorem updReady_kept (h : storageKept s) : storageKept s.updReady := h
theorem refusePlan_kept (h : storageKept s) : storageKept s.refusePlan := setF_kept _ _ h
theorem clampReport_kept {recs : List ClampRec} (h : storageKept s) : storageKept (s.clampReport recs) := setB_kept _ _ (setF_kept _ _ h)
theorem planResult_kept {n : Nat} (h : storageKept s) : storageKept (s.planResult n) := setF_kept _ _ h

theorem injectInits_kept {w : WardId} (h : storageKept s) : storageKept (s.injectInits w) :=
  storageKept_foldl _ (fun _ _ hu => arriveTok_kept hu) _ _ h

theorem installPlan_kept {img : List Byte} (h : storageKept s) : storageKept (s.installPlan img) := by
  unfold installPlan
  split
  next x _ _ _ _ =>
    extract_lets s1 s2 s3 s4 s5 s6 s7 s8 s9
    have ks2 : storageKept s2 := storageKept_foldl _ (fun _ _ hu => resetTile_kept hu) _ _ h
    clear_value s2
    have ks3 : storageKept s3 := storageKept_foldl _ (fun _ _ hu => setF_kept _ _ (setF_kept _ _ (setF_kept _ _ hu))) _ _ ks2
    clear_value s3
    have ks4 : storageKept s4 := by
      refine storageKept_foldl _ (fun u x hu => ?_) _ _ ks3
      extract_lets o s10
      have ks10 : storageKept s10 := setF_kept _ _ (setF_kept _ _ (setLampw_kept hu))
      clear_value s10
      exact storageKept_ite (setF_kept _ _ ks10) ks10
    clear_value s4
    have ks5 : storageKept s5 := storageKept_foldl _ (fun _ _ hu => setPin_kept hu) _ _ ks4
    clear_value s5
    have ks6 : storageKept s6 := clampReport_kept (setF_kept _ _ ks5)
    clear_value s6
    have ks7 : storageKept s7 := setF_kept _ _ (setF_kept _ _ ks6)
    clear_value s7
    have ks8 : storageKept s8 := setF_kept _ _ (planResult_kept ks7)
    clear_value s8
    have ks9 : storageKept s9 := storageKept_ite (setF_kept _ _ ks8) ks8
    clear_value s9
    exact storageKept_foldl _ (fun _ _ hu => injectInits_kept hu) _ _ (with_job_kept ks9)

theorem finishPlan_kept (h : storageKept s) : storageKept s.finishPlan := by
  unfold finishPlan
  split
  · refine storageKept_ite (storageKept_foldl _ (fun _ _ hu => resetTile_kept hu) _ _ h) ?_
    extract_lets own s1
    have ks1 : storageKept s1 := storageKept_foldl _ (fun _ _ hu =>
      storageKept_foldl _ (fun _ _ hu1 => storageKept_ite (drainLine_kept hu1) hu1) _ _ hu) _ _ (storageKept_foldl _ (fun _ _ hu =>
      resetTile_kept hu) _ _ h)
    clear_value s1
    exact storageKept_ite ks1 (installPlan_kept (zeroWays_kept ks1))
  · exact h

theorem beginSwap_kept {w : WardId} {img : List Byte} (h : storageKept s) : storageKept (s.beginSwap w img) :=
  with_job_kept (setF_kept _ _ (clampReport_kept h))

theorem beginLoad_kept {img : List Byte} (h : storageKept s) : storageKept (s.beginLoad img) :=
  storageKept_foldl _ (fun _ _ hu => resetEngine_kept hu) _ _ (storageKept_foldl _ (fun _ _ hu => startWardReset_kept hu) _ _ h)

theorem checkStaged_kept {swap : Option WardId} {len : Nat} {got : List LineVal} (h : storageKept s) :
    storageKept (s.checkStaged swap len got) := by
  unfold checkStaged
  extract_lets img
  split
  · split
    · exact beginLoad_kept h
    · exact beginSwap_kept h
  · exact setF_kept _ _ (planResult_kept h)

theorem askNext_kept  {n : Nat} (h : storageKept s) : storageKept (s.askNext n) := by
  induction n generalizing s with
  | zero => exact h
  | succ n ih =>
    rw [askNext]
    split
    · exact storageKept_ite (checkStaged_kept h) (storageKept_ite (ih (with_job_kept (dpaErr_kept h))) (issue_kept h))
    · exact h

theorem loaderLine_kept {l : LineAddr} {v : LineVal} (h : storageKept s) : storageKept (s.loaderLine l v) := by
  unfold loaderLine
  split
  · exact storageKept_ite h (askNext_kept h)
  · exact h

theorem loaderRetry_kept (h : storageKept s) : storageKept s.loaderRetry := storageKept_ite h (askNext_kept h)
theorem startRead_kept {swap : Option WardId} (h : storageKept s) : storageKept (s.startRead swap) := askNext_kept (with_job_kept (setF_kept _ _ h))

theorem startLoad_kept (h : storageKept s) : storageKept s.startLoad :=
  storageKept_ite (refusePlan_kept h) (storageKept_ite (planResult_kept h) (startRead_kept h))

theorem startSwap_kept {w : WardId} (h : storageKept s) : storageKept (s.startSwap w) := storageKept_ite (refusePlan_kept h) (startRead_kept h)

theorem carryTokens_kept {w : WardId} {old new : WardSec} (h : storageKept s) : storageKept (s.carryTokens w old new).1 := by
  unfold carryTokens
  extract_lets lw node ready toks s1 s2
  have ks2 : storageKept s2 := storageKept_foldl _ (fun _ _ hu => storeToken_kept hu) _ _ (setLampw_kept h)
  clear_value s2
  exact ks2

theorem carryDelays_kept {w : WardId} {new : WardSec} (h : storageKept s) : storageKept (s.carryDelays w new).1 := by
  unfold carryDelays
  extract_lets lw stay gone
  exact setLampw_kept h

theorem unclaimedEdge_kept {old : WardSec} {p : Fin 8} (h : storageKept s) : storageKept (s.unclaimedEdge old p).1 := by
  unfold unclaimedEdge
  extract_lets x entry l
  exact storageKept_foldl _ (fun _ _ hu => bumpF_kept _ _ hu) _ _ (setPin_kept h)

theorem finishSwap_kept (h : storageKept s) : storageKept s.finishSwap := by
  unfold finishSwap
  split
  · refine storageKept_ite h ?_
    extract_lets old held plan s1
    have k1 : storageKept s1 := h
    clear_value s1
    split
    next e =>
      extract_lets s2
      have k2 : storageKept s2 := bumpF_kept _ _ (kept_fst e (carryTokens_kept k1))
      clear_value s2
      split
      next e2 =>
        extract_lets s3
        have k3 : storageKept s3 := setF_kept _ _ (kept_fst e2 (carryDelays_kept k2))
        clear_value s3
        split
        next u _ _ e3 =>
          have k4 : storageKept u := by
            refine kept_fst e3 (storageKept_foldl_fst _ (fun a p ha => ?_) _ _ k3)
            split
            · exact deliverEdge_kept ha
            · exact unclaimedEdge_kept ha
          exact setF_kept _ _ (with_job_kept (setF_kept _ _ (planResult_kept (swapReport_kept (fireDue_kept (injectInits_kept k4))))))
  · exact h

theorem overrunSwap_kept (h : storageKept s) : storageKept s.overrunSwap := by
  unfold overrunSwap
  split
  · exact storageKept_ite h (fireDue_kept (abandonSwap_kept h))
  · exact h

theorem bootLoad_kept (h : storageKept s) : storageKept s.bootLoad := by
  unfold bootLoad
  refine storageKept_ite h (setF_kept _ _ (storageKept_ite h ?_))
  split <;> exact h

theorem bootInstall_kept (h : storageKept s) : storageKept s.bootInstall := by
  unfold bootInstall
  split
  · refine storageKept_ite h (updReady_kept ?_)
    split
    · exact setB_kept _ _ (installPlan_kept (with_power_kept (setF_kept _ _ h)))
    · exact event_kept _ (with_job_kept (setF_kept _ _ (setF_kept _ _ (planResult_kept (with_power_kept (setF_kept _ _ h))))))
  · exact h

theorem sealPlan_kept (h : storageKept s) : storageKept s.sealPlan := storageKept_ite (refusePlan_kept h) (planResult_kept (setF_kept _ _ h))

/-! #### The Beacon and its log -/

theorem logScan_kept (h : storageKept s) : storageKept s.logScan := by
  unfold logScan
  extract_lets best
  clear_value best
  split <;> exact h

theorem logWriteOne_kept {ok eraseOk : Bool} (h : storageKept s) : storageKept (s.logWriteOne ok eraseOk) := by
  unfold logWriteOne
  split
  · exact h
  · exact storageKept_ite h (logProgram_kept _ _ _ h)

theorem fltRefuse_kept (h : storageKept s) : storageKept s.fltRefuse := setF_kept _ _ h

theorem startLogRead_kept {slot : Nat} (h : storageKept s) : storageKept (s.startLogRead slot) :=
  storageKept_ite (fltRefuse_kept (setF_kept _ _ h)) (setF_kept _ _ (setF_kept _ _ (setF_kept _ _ (setF_kept _ _ h))))

theorem endLogRead_kept (h : storageKept s) : storageKept s.endLogRead :=
  storageKept_ite (setF_kept _ _ (setF_kept _ _ (setB_kept _ _ (storageKept_foldl _ (fun _ _ hu => setF_kept _ _ hu) _ _ h)))) h

theorem startLogErase_kept (h : storageKept s) : storageKept s.startLogErase := storageKept_ite (fltRefuse_kept h) (setF_kept _ _ (setF_kept _ _ h))

theorem endLogErase_kept (h : storageKept s) : storageKept s.endLogErase :=
  storageKept_ite (setF_kept _ _ (setF_kept _ _ (logProgram_kept _ _ _ (with_logNextSlot_kept (flashErase_kept _ _ h))))) h

theorem injectEvent_kept {v : Nat} (h : storageKept s) : storageKept (s.injectEvent v) := by
  unfold injectEvent
  extract_lets g c g2 c2 s1 s2
  have ks1 : storageKept s1 := setF_kept _ _ (setF_kept _ _ (setF_kept _ _ (setF_kept _ _ h)))
  have ks2 : storageKept s2 := storageKept_ite ks1 (setF_kept _ _ ks1)
  exact storageKept_ite (event_kept _ ks2) ks2

theorem clearBeacon_kept {view : Option WardId} {m : Nat} (h : storageKept s) : storageKept (s.clearBeacon view m) := setF_kept _ _ h

/-! #### The host link -/

theorem setHdm_kept {n : Nat} {d : HdmDec} (h : storageKept s) : storageKept (s.setHdm n d) := h

theorem commitHdm_kept {n : Nat} (h : storageKept s) : storageKept (s.commitHdm n) :=
  storageKept_ite h (storageKept_ite (setHdm_kept h) (setHdm_kept h))

theorem refuseHost_kept {r : HostReq} (h : storageKept s) : storageKept (s.refuseHost r) :=
  storageKept_ite (storageKept_ite (emit_kept _ h) (emit_kept _ (free_kept h))) (emit_kept _ h)

theorem serveHost_kept {r : HostReq} (h : storageKept s) : storageKept (s.serveHost r) := by
  unfold serveHost
  refine storageKept_ite (refuseHost_kept h) ?_
  extract_lets dpa
  clear_value dpa
  split
  · exact refuseHost_kept (bumpF_kept _ _ h)
  · exact storageKept_ite (issue_kept h) (storageKept_ite (emit_kept _ (storageKept_ite h (dirRemove_kept h)))
      (issue_kept (storageKept_ite (reportRas_kept _ _ _ h) h)))

theorem hostRequest_kept {r : HostReq} (h : storageKept s) : storageKept (s.hostRequest r) :=
  storageKept_ite (refuseHost_kept h) (storageKept_ite h (serveHost_kept h))

theorem wakeLink_kept (h : storageKept s) : storageKept s.wakeLink := h

theorem fromHost_kept {f : State → State} (hf : ∀ u, storageKept u → storageKept (f u)) (h : storageKept s) : storageKept (s.fromHost f) :=
  storageKept_ite (hf _ (wakeLink_kept h)) h

theorem releaseHeld_kept (h : storageKept s) : storageKept s.releaseHeld := storageKept_foldl _ (fun _ _ hu => hostRequest_kept hu) _ _ h

theorem setDisable_kept {b : Bool} (h : storageKept s) : storageKept (s.setDisable b) :=
  storageKept_ite (with_link_kept (setCfgBit_kept h)) (setCfgBit_kept (with_link_kept (setCfgBit_kept h)))

theorem pumpAll_kept (h : storageKept s) : storageKept s.pumpAll := storageKept_foldl _ (fun _ _ hu => drainPump_kept hu) _ _ h
theorem startFlush_kept (h : storageKept s) : storageKept s.startFlush := storageKept_ite (pumpAll_kept h) h

theorem endFlush_kept (h : storageKept s) : storageKept s.endFlush :=
  storageKept_ite h (storageKept_ite (pumpAll_kept h) (setCfgBit_kept (with_link_kept (pumpAll_kept h))))

theorem beginDrain_kept {q : QuarterId} (h : storageKept s) : storageKept (s.beginDrain q) :=
  storageKept_ite h (drainPump_kept (dropL1_kept (setF_kept _ _ h)))

theorem beginDrains_kept (h : storageKept s) : storageKept s.beginDrains := storageKept_foldl _ (fun _ _ hu => beginDrain_kept hu) _ _ h
theorem endDrains_kept (h : storageKept s) : storageKept s.endDrains := storageKept_foldl _ (fun _ _ hu => setF_kept _ _ hu) _ _ h

theorem startCxlReset_kept {memClr : Bool} (h : storageKept s) : storageKept (s.startCxlReset memClr) :=
  storageKept_ite h (beginDrains_kept (storageKept_foldl _ (fun _ _ hu =>
    updEntry_kept hu) _ _ (abortWhere_kept (storageKept_foldl _ (fun _ _ hu => startWardReset_kept hu) _ _ (setCfgBit_kept h)))))

theorem forgetHost_kept (h : storageKept s) : storageKept s.forgetHost :=
  storageKept_foldl _ (fun _ _ hu => storageKept_foldl _ (fun _ _ hu1 => dirRemove_kept hu1) _ _ hu) _ _ h

theorem clearBitmaps_kept (h : storageKept s) : storageKept s.clearBitmaps :=
  with_ages_kept (storageKept_foldl _ (fun _ _ hu => updHome_kept hu) _ _ h)

theorem eraseKeys_kept (h : storageKept s) : storageKept s.eraseKeys := h

theorem endCxlReset_kept (h : storageKept s) : storageKept s.endCxlReset := by
  unfold endCxlReset
  refine storageKept_ite h (storageKept_ite (pumpAll_kept h) ?_)
  extract_lets s1 s2 s3 s4 x s5 l s6
  have ks1 : storageKept s1 := forgetHost_kept (endDrains_kept (pumpAll_kept h))
  clear_value s1
  have ks2 : storageKept s2 := storageKept_ite (clearBitmaps_kept ks1)
    (storageKept_foldl _ (fun _ _ hu => storageKept_ite (forgetRegions_kept hu) hu) _ _ ks1)
  clear_value s2
  have ks3 : storageKept s3 := storageKept_foldl _ (fun _ _ hu => endWardReset_kept hu) _ _ (eraseKeys_kept ks2)
  clear_value s3
  have ks4 : storageKept s4 := storageKept_foldl _ (fun _ _ hu => setHdm_kept hu) _ _ ks3
  clear_value s4
  have ks5 : storageKept s5 := storageKept_ite (setCfgBit_kept (with_link_kept ks4)) ks4
  clear_value s5
  have ks6 : storageKept s6 := with_link_kept ks5
  clear_value s6
  exact loaderRetry_kept (releaseHeld_kept (setCfgBit_kept ks6))

theorem msixFlush_kept {fn : Func} (h : storageKept s) : storageKept (s.msixFlush fn) :=
  storageKept_ite h (storageKept_foldl _ (fun _ _ hu => storageKept_ite (emit_kept _ (setMsix_kept _ _ _ hu)) hu) _ _ h)

theorem msixUnmask_kept {fn : Func} {t : MaskTarget} (h : storageKept s) : storageKept (s.msixUnmask fn t) := by
  unfold msixUnmask
  split
  · exact msixFlush_kept (setMsix_kept _ _ _ h)
  · exact msixFlush_kept (setCfgBit_kept h)

theorem setMsixEnable_kept {en : Bool} (h : storageKept s) : storageKept (s.setMsixEnable en) :=
  storageKept_ite h (storageKept_ite (msixFlush_kept (updIntx_kept
    (storageKept_foldl _ (fun _ _ hu => setF_kept _ _ hu) _ _ (storageKept_foldl _ (fun _ _ hu =>
    storageKept_ite (setMsix_kept _ _ _ hu) hu) _ _ (setCfgBit_kept h)))))
    (updIntx_kept (storageKept_foldl _ (fun _ _ hu => storageKept_ite (setMsix_kept _ _ _ (setF_kept _ _ hu)) hu) _ _ (setCfgBit_kept h))))

theorem enterD3hot_kept (h : storageKept s) : storageKept s.enterD3hot := storageKept_ite h h

theorem leaveD3hot_kept (h : storageKept s) : storageKept s.leaveD3hot :=
  storageKept_ite (storageKept_foldl _ (fun _ _ hu => msixFlush_kept hu) _ _ (msixFlush_kept h)) h

theorem requestL1_kept (h : storageKept s) : storageKept s.requestL1 := storageKept_ite h h
theorem setLanes_kept {n : Nat} (h : storageKept s) : storageKept (s.setLanes n) := h
theorem flrReset_kept {w : WardId} (h : storageKept s) : storageKept (s.flrReset w) := startWardReset_kept h

theorem vfFlr_kept {w : WardId} (h : storageKept s) : storageKept (s.vfFlr w) :=
  storageKept_ite h (storageKept_ite (holdPosted_kept (abortWhere_kept h)) (flrReset_kept (abortWhere_kept h)))

/-! #### Bulk Ports -/

theorem setBulk_kept {f : Func} {b : Bulk} (h : storageKept s) : storageKept (s.setBulk f b) := h

theorem bulkFault_kept {f : Func} {a n : Nat} {k : AccKind} (h : storageKept s) : storageKept (s.bulkFault f a n k) := by
  unfold bulkFault
  extract_lets s1
  split
  · exact dpaErr_kept (bumpF_kept _ _ h)
  · split
    · exact winFault_kept _ _ _ (bumpF_kept _ _ h)
    · exact bumpF_kept _ _ h

theorem dropAhead_kept {f : Func} (h : storageKept s) : storageKept (s.dropAhead f) := setBulk_kept h

theorem bulkLine_kept {f : Func} {ep : Bool} {x : Nat × Mask64 × Line512} (h : storageKept s) : storageKept (s.bulkLine f ep x) := by
  unfold bulkLine
  extract_lets a n
  split
  · exact bulkFault_kept h
  · exact issue_kept h

theorem bulkEnter_kept {f : Func} {tlp : List BulkByte} {ep : Bool} (h : storageKept s) : storageKept (s.bulkEnter f tlp ep) :=
  storageKept_foldl _ (fun _ _ hu => bulkLine_kept hu) _ _ (dropAhead_kept (setF_kept _ _ (setBulk_kept (storageKept_ite (reportTlp_kept h) h))))

theorem bulkAsk_kept {f : Func} {l : LineAddr × Bool} (h : storageKept s) : storageKept (s.bulkAsk f l) := storageKept_ite h (issue_kept h)

theorem pumpReads_kept {f : Func} {n : Nat} (h : storageKept s) : storageKept (s.pumpReads f n) := by
  induction n generalizing s with
  | zero => exact h
  | succ n ih =>
    rw [pumpReads]
    split
    · exact h
    · refine storageKept_ite ?_ (storageKept_foldl _ (fun _ _ hu => bulkAsk_kept hu) _ _ h)
      split
      · extract_lets x3 s1 ahead b keys
        have ks1 : storageKept s1 := emit_kept _ (setBulk_kept h)
        exact storageKept_ite (storageKept_foldl _ (fun _ _ hu => bulkAsk_kept hu) _ _ (setBulk_kept ks1)) (ih ks1)

theorem pumpBulk_kept {f : Func} (h : storageKept s) : storageKept (s.pumpBulk f) := pumpReads_kept h

theorem bulkReadTake_kept {f : Func} {n tag : Nat} (h : storageKept s) : storageKept (s.bulkReadTake f n tag) :=
  pumpBulk_kept (setBulk_kept (setF_kept _ _ (storageKept_foldl _ (fun _ _ hu => storageKept_ite hu (bulkFault_kept hu)) _ _ h)))

theorem bulkArrive_kept {f : Func} {e : LEntry} {v : LineVal} (h : storageKept s) : storageKept (s.bulkArrive f e v) :=
  storageKept_ite (pumpBulk_kept (setBulk_kept h)) h

theorem clampMark_kept {f : Func} {b : Bool} (h : storageKept s) : storageKept (s.clampMark f b) := storageKept_ite (setF_kept _ _ h) h

theorem bulkAddr_kept {f : Func} {val : Nat} (h : storageKept s) : storageKept (s.bulkAddr f val) :=
  pumpBulk_kept (dropAhead_kept (setBulk_kept (setF_kept _ _ (clampMark_kept (setF_kept _ _ h)))))

theorem bulkShape_kept {f : Func} {count : Bool} {val : Nat} (h : storageKept s) : storageKept (s.bulkShape f count val) := by
  unfold bulkShape
  refine pumpBulk_kept (dropAhead_kept (storageKept_ite ?_ (clampMark_kept (setF_kept _ _ h))))
  extract_lets v c s1
  have ks1 : storageKept s1 := clampMark_kept (setF_kept _ _ h)
  exact storageKept_ite (setF_kept _ _ ks1) ks1

theorem bulkEffect_kept {x1 : Posted} (h : storageKept s) : storageKept (s.bulkEffect x1) := by
  unfold bulkEffect
  split
  · exact storageKept_ite h (bulkEnter_kept h)
  · exact storageKept_ite (emit_kept _ (unsupportedReq_kept h)) (storageKept_ite (emit_kept _ h) (bulkReadTake_kept h))
  · exact storageKept_ite h (bulkAddr_kept h)
  · exact storageKept_ite h (bulkShape_kept h)
  · exact flrReset_kept h
  · exact h

theorem rxArrive_kept {c : Posted} (h : storageKept s) : storageKept (s.rxArrive c) := storageKept_ite (bulkEffect_kept h) (holdPosted_kept h)

/-! #### Memory channels, keys and scrubbing -/

theorem trainChannel_kept {h0 : Nat} {m : DimmInfo} {speed c : Nat} (h : storageKept s) : storageKept (s.trainChannel h0 m speed c) := by
  unfold trainChannel
  extract_lets ok s1 s2 s3
  have ks1 : storageKept s1 := setB_kept _ _ (setB_kept _ _ (setF_kept _ _ h))
  have ks2 : storageKept s2 := setB_kept _ _ (setB_kept _ _ (setB_kept _ _ ks1))
  have ks3 : storageKept s3 := setB_kept _ _ (setF_kept _ _ (setB_kept _ _ ks2))
  exact storageKept_ite ks3 (event_kept _ ks3)

theorem trainAll_kept {mods : List DimmInfo} (h : storageKept s) : storageKept (s.trainAll mods) := by
  unfold trainAll
  refine storageKept_ite h ?_
  extract_lets l speed c s1 s2 x
  have ks1 : storageKept s1 := storageKept_foldl _ (fun _ _ hu => trainChannel_kept hu) _ _ h
  clear_value s1
  have ks2 : storageKept s2 := setF_kept _ _ ks1
  clear_value s2
  exact storageKept_ite (setF_kept _ _ (with_power_kept ks2)) ks2

theorem loadKey_kept {w : WardId} (h : storageKept s) : storageKept (s.loadKey w) := by
  unfold loadKey
  extract_lets k s1
  have ks1 : storageKept s1 := storageKept_foldl _ (fun _ _ hu => setF_kept _ _ hu) _ _ h
  clear_value s1
  exact storageKept_ite (setF_kept _ _ ks1) (with_keyInstall_kept ks1)

theorem installKey_kept (h : storageKept s) : storageKept s.installKey := by
  unfold installKey
  split <;> exact h

theorem startScrub_kept {wipe : Bool} (h : storageKept s) : storageKept (s.startScrub wipe) :=
  storageKept_ite (setF_kept _ _ h) (setF_kept _ _ (setB_kept _ _ (setF_kept _ _ (storageKept_foldl _ (fun _ _ hu => updHome_kept hu) _ _ h))))

theorem abortScrub_kept (h : storageKept s) : storageKept s.abortScrub := by
  unfold abortScrub
  split
  · exact h
  · exact storageKept_ite h (storageKept_foldl _ (fun _ _ hu => updHome_kept hu) _ _ h)

theorem coverRegion_kept {r : Nat} (h : storageKept s) : storageKept (s.coverRegion r) := storageKept_ite h h

theorem scrubTo_kept {h0 p : Nat} {j : ScrubJob} (h : storageKept s) : storageKept (s.scrubTo h0 p j) :=
  storageKept_ite (coverRegion_kept (updHome_kept h)) (updHome_kept h)

theorem scrubStep_kept {h0 : HomeId} {err : DramErr} (h : storageKept s) : storageKept (s.scrubStep h0 err) := by
  unfold scrubStep
  split
  · exact storageKept_ite h (storageKept_ite (scrubTo_kept h)
      (storageKept_ite h (scrubTo_kept (with_scrub_kept (readDram_kept _ _ _ _ (storageKept_ite (bitmapFault_kept h) h))))))
  · exact h

theorem wipeCopies_kept {a b : Nat} (h : storageKept s) : storageKept (s.wipeCopies a b) := backInvalidate_kept (discardWays_kept h)

theorem forgetRange_kept {a b : Nat} (h : storageKept s) : storageKept (s.forgetRange a b) :=
  storageKept_foldl _ (fun _ _ hu => storageKept_foldl _ (fun _ _ hu1 => storageKept_ite (dirPut_kept hu1) hu1) _ _ hu) _ _ h

theorem wipeStep_kept {a b : Nat} (h : storageKept s) : storageKept (s.wipeStep a b).2 := by
  unfold wipeStep
  refine storageKept_ite_snd h ?_
  extract_lets s1
  have ks1 : storageKept s1 := wipeCopies_kept h
  clear_value s1
  exact storageKept_ite_snd ks1 (storageKept_foldl _ (fun _ _ hu => clearRegion_kept hu) _ _ (forgetRange_kept ks1))

theorem scrubOver_kept (h : storageKept s) : storageKept s.scrubOver := by
  unfold scrubOver
  split
  · exact h
  · extract_lets s1 s2
    have ks1 : storageKept s1 := storageKept_foldl _ (fun _ _ hu => updHome_kept hu) _ _ h
    clear_value s1
    have ks2 : storageKept s2 := setF_kept _ _ (setF_kept _ _ ks1)
    exact storageKept_ite (raiseMsix_kept _ _ ks2) ks2

theorem writeRecord_kept {j : ScrubJob} (h : storageKept s) : storageKept (s.writeRecord j) :=
  storageKept_ite (scrubOver_kept (dpaErr_kept h)) (issue_kept h)

theorem endScrub_kept (h : storageKept s) : storageKept s.endScrub := by
  unfold endScrub
  split
  · exact h
  · refine storageKept_ite h ?_
    split
    next e2 =>
      have ku := kept_snd e2 (storageKept_ite_snd (wipeStep_kept h) h)
      exact storageKept_ite ku (writeRecord_kept ku)

theorem recordRetry_kept (h : storageKept s) : storageKept s.recordRetry := by
  unfold recordRetry
  extract_lets mine
  split
  · exact h
  · exact storageKept_ite h (writeRecord_kept h)

theorem ageRegions_kept (h : storageKept s) : storageKept s.ageRegions := h

theorem armInjection_kept {h0 v : Nat} (h : storageKept s) : storageKept (s.armInjection h0 v) := by
  unfold armInjection
  extract_lets a b a2 b2 s1 s2 s3 s4
  have ks1 : storageKept s1 := setF_kept _ _ (setF_kept _ _ (setB_kept _ _ h))
  have ks2 : storageKept s2 := storageKept_ite (setF_kept _ _ ks1) ks1
  have ks3 : storageKept s3 := storageKept_ite (setF_kept _ _ ks2) ks2
  have ks4 : storageKept s4 := storageKept_ite ks3 (setF_kept _ _ ks3)
  exact storageKept_ite (setF_kept _ _ ks4) ks4

/-! #### Resets -/

theorem setUser_kept {n : Nat} {v : ℤ} (h : storageKept s) : storageKept (s.setUser n v) :=
  storageKept_ite (setF_kept _ _ h) (setF_kept _ _ (setF_kept _ _ h))

theorem calLoad_kept (h : storageKept s) : storageKept s.calLoad := by
  unfold calLoad
  split
  · exact setF_kept _ _ (setF_kept _ _ (storageKept_foldl _ (fun _ _ hu => setF_kept _ _ hu) _ _ h))
  · exact setF_kept _ _ (setF_kept _ _ (storageKept_foldl _ (fun _ _ hu => setUser_kept hu) _ _ h))

theorem calSave_kept {ok : Bool} (h : storageKept s) : storageKept (s.calSave ok) :=
  storageKept_ite (setF_kept _ _ (setF_kept _ _ (flashWrite_kept _ _ _ (flashErase_kept _ _ h)))) (setF_kept _ _ (flashSpoil_kept _ _ h))

theorem storeMerged_kept {n : Nat} {w : Option WardId} {m : Mask64} {v : LineVal} (h : storageKept s) : storageKept (s.storeMerged n w m v) := by
  unfold storeMerged
  split
  next u e =>
    have ku : storageKept u := kept_snd e (by
      refine storageKept_ite_snd h (storageKept_ite_snd ?_ h)
      split
      next e2 =>
        exact kept_snd e2 (readDram_kept _ _ _ _ h))
    exact storageKept_ite (writeDram_kept _ _ _ ku) (initPart_kept _ _ _ _ _ ku)

theorem flushHostLine_kept {l : LineAddr} {m : Mask64} {v : LineVal} {owned : Bool} (h : storageKept s) :
    storageKept (s.flushHostLine l m v owned) :=
  storageKept_ite h (storageKept_ite (emit_kept _ h) (emit_kept _ (emit_kept _ (free_kept h))))

theorem flushBytes_kept {linkUp : Bool} {l : LineAddr} {w : Option WardId} {m : Mask64} {v : LineVal} {owned : Bool} (h : storageKept s) :
    storageKept (s.flushBytes linkUp l w m v owned) :=
  storageKept_ite h (storageKept_ite (storageKept_ite (flushHostLine_kept h) h) (storeMerged_kept h))

theorem flushWay_kept {linkUp : Bool} {q : QuarterId} {c : CWay} {m : Mask64} {owned : Bool} (h : storageKept s) :
    storageKept (s.flushWay linkUp q c m owned) := by
  unfold flushWay
  split
  next e => exact setEntry_kept (flushBytes_kept (kept_snd e (openEntry_kept h)))

theorem scanQuarter_kept {q : QuarterId} (h : storageKept s) : storageKept (s.scanQuarter q) := by
  unfold scanQuarter
  refine storageKept_foldl _ (fun u x hu => ?_) _ _ (storageKept_foldl _ (fun _ _ hu => tagScan_kept hu) _ _ h)
  extract_lets s1
  have ks1 : storageKept s1 := storageKept_ite (checkMask_kept hu) hu
  split
  · exact checkBytes_kept ks1
  · exact checkBytes_kept ks1
  · exact checkBytes_kept ks1
  · exact ks1

theorem flushOwned_kept {linkUp : Bool} {q : QuarterId} (h : storageKept s) : storageKept (s.flushOwned linkUp q) :=
  storageKept_foldl _ (fun _ _ hu => storageKept_ite (flushWay_kept hu) hu) _ _ (storageKept_foldl _ (fun _ _ hu =>
    storageKept_ite (flushBytes_kept hu) hu) _ _ h)

theorem flushEarly_kept {linkUp : Bool} {q : QuarterId} (h : storageKept s) : storageKept (s.flushEarly linkUp q) := by
  unfold flushEarly
  refine storageKept_foldl _ (fun _ _ hu => storageKept_ite (flushBytes_kept hu) hu) _ _ (storageKept_foldl _ (fun u x hu => ?_) _ _ h)
  split
  · exact flushWay_kept hu
  · exact flushWay_kept hu
  · exact hu

theorem flushHome_kept {linkUp : Bool} {h0 : Nat} (h : storageKept s) : storageKept (s.flushHome linkUp h0) := by
  unfold flushHome
  refine storageKept_foldl _ (fun u x hu => ?_) _ _ (storageKept_foldl _ (fun u x hu => storageKept_ite ?_ ?_) _ _ h)
  · split
    · exact hu
    · exact flushBytes_kept hu
  · split
    · split
      · split
        · exact hu
        · exact storageKept_ite hu (flushBytes_kept hu)
      · refine storageKept_ite ?_ (flushBytes_kept ?_)
        · split
          · exact hu
          · exact storageKept_ite hu (flushBytes_kept hu)
        · split
          · exact hu
          · exact storageKept_ite hu (flushBytes_kept hu)
    · split
      next u2 e2 =>
        have ku2 : storageKept u2 := kept_snd e2 (by
          refine storageKept_ite_snd (readDram_kept _ _ _ _ ?_) ?_
          · split
            · split
              · exact hu
              · exact storageKept_ite hu (flushBytes_kept hu)
            · refine storageKept_ite ?_ (flushBytes_kept ?_)
              · split
                · exact hu
                · exact storageKept_ite hu (flushBytes_kept hu)
              · split
                · exact hu
                · exact storageKept_ite hu (flushBytes_kept hu)
          · split
            · split
              · exact hu
              · exact storageKept_ite hu (flushBytes_kept hu)
            · refine storageKept_ite ?_ (flushBytes_kept ?_)
              · split
                · exact hu
                · exact storageKept_ite hu (flushBytes_kept hu)
              · split
                · exact hu
                · exact storageKept_ite hu (flushBytes_kept hu))
        exact storageKept_ite ku2 (storeMerged_kept ku2)
  · split
    · split
      · exact hu
      · exact storageKept_ite hu (flushBytes_kept hu)
    · refine storageKept_ite ?_ (flushBytes_kept ?_)
      · split
        · exact hu
        · exact storageKept_ite hu (flushBytes_kept hu)
      · split
        · exact hu
        · exact storageKept_ite hu (flushBytes_kept hu)

theorem flushAll_kept {linkUp : Bool} (h : storageKept s) : storageKept (s.flushAll linkUp) :=
  storageKept_foldl _ (fun _ _ hu => flushEarly_kept hu) _ _ (storageKept_foldl _ (fun _ _ hu =>
    flushHome_kept hu) _ _ (storageKept_foldl _ (fun _ _ hu =>
    flushOwned_kept hu) _ _ (storageKept_foldl _ (fun _ _ hu => scanQuarter_kept hu) _ _ h)))

theorem resetFld_kept {cold : Bool} (h : storageKept s) : fldKept (s.resetFld cold) = true := fldKept_put _ _ _ (fldKept_drop _ _ h.1)

theorem coreReset_kept {cold : Bool} (h : storageKept s) : storageKept (s.coreReset cold) := by
  refine ⟨resetFld_kept h, ?_, h.2.2⟩
  cases cold
  · exact h.2.1
  · exact Tbl.wf_empty 0

theorem keepTrip_kept {s old : State} (h : storageKept s) : storageKept (s.keepTrip old) :=
  storageKept_ite (setF_kept _ _ (setF_kept _ _ (setF_kept _ _ h))) h

theorem leaveReset_kept (h : storageKept s) : storageKept s.leaveReset := storageKept_ite (setF_kept _ _ (setF_kept _ _ h)) h

theorem warmReset_kept {cause : Nat} {keepLink : Bool} (h : storageKept s) : storageKept (s.warmReset cause keepLink) := by
  unfold warmReset
  extract_lets s1 l s2 x s3
  have ks1 : storageKept s1 := storageKept_ite (endLogErase_kept h) h
  clear_value s1
  have ks2 : storageKept s2 := coreReset_kept (flushAll_kept ks1)
  clear_value s2
  have ks3 : storageKept s3 := storageKept_ite (with_link_kept ks2) ks2
  clear_value s3
  exact leaveReset_kept (bumpF_kept _ _ (setF_kept _ _ (keepTrip_kept ks3)))

theorem coldCore_kept (h : storageKept s) : storageKept s.coldCore :=
  leaveReset_kept (bumpF_kept _ _ (setF_kept _ _ (keepTrip_kept (coreReset_kept (storageKept_ite (endLogErase_kept h) h)))))

theorem vauxLost_kept (h : storageKept s) : storageKept s.vauxLost := by
  unfold vauxLost
  extract_lets s1 s2
  have k1 : storageKept s1 := storageKept_ite (flashSpoil_kept _ _ h) h
  clear_value s1
  have k2 : storageKept s2 := storageKept_ite (calSave_kept k1) k1
  clear_value s2
  exact ⟨rfl, rfl, k2.2.2⟩

theorem vauxUp_kept {ok : Bool} {fz : Fuses} (h : storageKept s) : storageKept (s.vauxUp ok fz) := by
  unfold vauxUp
  refine storageKept_ite h ?_
  extract_lets x s1 s2 s3 s4
  have ks2 : storageKept s2 := logScan_kept (calLoad_kept h)
  clear_value s2
  have ks3 : storageKept s3 := queueLog_kept _ ks2
  clear_value s3
  have ks4 : storageKept s4 := storageKept_ite ks3 (event_kept _ ks3)
  clear_value s4
  exact leaveReset_kept ks4

theorem railsLost_kept (h : storageKept s) : storageKept s.railsLost := storageKept_ite h (with_power_kept (coldCore_kept h))

/-! #### Supply, temperature and calibration -/

theorem recordFabric_kept {u : UnitId} {kind : Nat} (h : storageKept s) : storageKept (s.recordFabric u kind) := by
  unfold recordFabric
  extract_lets s1
  have ks1 : storageKept s1 := setF_kept _ _ (bumpF_kept _ _ h)
  exact storageKept_ite ks1 (setF_kept _ _ ks1)

theorem holdTile_kept {t : TileId} (h : storageKept s) : storageKept (s.holdTile t) :=
  storageKept_ite (failAll_kept h) (with_gwQueue_kept (updTile_kept _ _ (failAll_kept h)))

theorem stopUnit_kept {u : UnitId} {kind : Nat} (h : storageKept s) : storageKept (s.stopUnit u kind) := by
  unfold stopUnit
  extract_lets s1 g ev
  have ks1 : storageKept s1 := recordFabric_kept h
  clear_value s1
  split
  · exact holdTile_kept (event_kept _ ks1)
  · split
    · exact faultEngine_kept (event_kept _ ks1)
    · exact event_kept _ ks1
  · exact event_kept _ ks1

theorem stickAt_kept {n : Node} (h : storageKept s) : storageKept (s.stickAt n) := by
  unfold stickAt
  split <;> exact h

theorem illegalCode_kept {u : UnitId} (h : storageKept s) : storageKept (s.illegalCode u) := by
  unfold illegalCode
  split
  · exact h
  · exact stopUnit_kept (stickAt_kept h)
  · exact stopUnit_kept (stickAt_kept h)
  · exact stopUnit_kept h

theorem samplePace_kept {p : Nat} (h : storageKept s) : storageKept (s.samplePace p) := by
  unfold samplePace
  extract_lets s1 s2 s3
  have ks2 : storageKept s2 := storageKept_ite (setF_kept _ _ (setF_kept _ _ h)) (setF_kept _ _ h)
  have ks3 : storageKept s3 := storageKept_ite (setF_kept _ _ ks2) ks2
  exact storageKept_ite (setF_kept _ _ ks3) ks3

theorem droopLowest_kept {mv : Nat} (h : storageKept s) : storageKept (s.droopLowest mv) := lowF_kept _ _ h

theorem sampleRail_kept {n mv : Nat} (h : storageKept s) : storageKept (s.sampleRail n mv) := by
  unfold sampleRail
  extract_lets s1 s2
  have ks1 : storageKept s1 := storageKept_ite (droopLowest_kept h) h
  have ks2 : storageKept s2 := highF_kept _ _ (lowF_kept _ _ (setF_kept _ _ ks1))
  exact storageKept_ite (setF_kept _ _ ks2) ks2

theorem sampleSensor_kept {n : Nat} {t : ℤ} (h : storageKept s) : storageKept (s.sampleSensor n t) := setF_kept _ _ h

theorem sampleRails_kept {mv : List Nat} {tj : List ℤ} (h : storageKept s) : storageKept (s.sampleRails mv tj) := by
  unfold sampleRails
  extract_lets s1 s2
  have ks1 : storageKept s1 := storageKept_foldl _ (fun _ _ hu => sampleRail_kept hu) _ _ h
  clear_value s1
  have ks2 : storageKept s2 := storageKept_foldl _ (fun _ _ hu => sampleSensor_kept hu) _ _ ks1
  clear_value s2
  split
  · exact ks2
  · exact setF_kept _ _ (setF_kept _ _ ks2)

theorem enterDim_kept {cause : Nat} (h : storageKept s) : storageKept (s.enterDim cause) :=
  storageKept_ite h (updReady_kept (bumpF_kept _ _ (setF_kept _ _ (setF_kept _ _ h))))

theorem dimRail_kept {rail mv : Nat} (h : storageKept s) : storageKept (s.dimRail rail mv) :=
  enterDim_kept (event_kept _ (storageKept_ite (droopLowest_kept h) (setF_kept _ _ h)))

theorem railOut_kept {n mv : Nat} (h : storageKept s) : storageKept (s.railOut n mv) :=
  storageKept_ite h (storageKept_ite (storageKept_ite (vauxLost_kept (setF_kept _ _ h))
    (storageKept_ite (setF_kept _ _ h) (event_kept _ (setF_kept _ _ h))))
    (storageKept_ite (railsLost_kept (setF_kept _ _ h)) (storageKept_ite (storageKept_ite (dimRail_kept (setF_kept _ _ h)) (setF_kept _ _ h))
    (storageKept_ite (dimRail_kept (setF_kept _ _ h)) (setF_kept _ _ h)))))

theorem droopFall_kept {mv : Nat} (h : storageKept s) : storageKept (s.droopFall mv) :=
  storageKept_ite h (with_power_kept (droopLowest_kept (bumpF_kept _ _ h)))

theorem bandEntry_kept {mv : Nat} (h : storageKept s) : storageKept (s.bandEntry mv) :=
  storageKept_ite h (event_kept _ (with_power_kept (droopLowest_kept (bumpF_kept _ _ h))))

theorem vcoreRise_kept {mv : Nat} (h : storageKept s) : storageKept (s.vcoreRise mv) := by
  unfold vcoreRise
  refine storageKept_ite (storageKept_ite h h) ?_
  split
  · exact storageKept_ite h h
  · exact with_power_kept (highF_kept _ _ (storageKept_ite h h))

theorem dimDeeper_kept (h : storageKept s) : storageKept s.dimDeeper := by
  unfold dimDeeper
  refine storageKept_ite h ?_
  extract_lets x s1
  have ks1 : storageKept s1 := storageKept_ite (pumpAll_kept h) (beginDrains_kept h)
  clear_value s1
  exact storageKept_ite (setF_kept _ _ (endDrains_kept ks1)) ks1

theorem dimTimeout_kept (h : storageKept s) : storageKept s.dimTimeout :=
  storageKept_ite h (releaseHeld_kept (with_power_kept (event_kept _ (setF_kept _ _ h))))

theorem drainBuffers_kept (h : storageKept s) : storageKept s.drainBuffers := storageKept_foldl _ (fun _ _ hu => drainWhere_kept hu) _ _ h

theorem plwBegin_kept (h : storageKept s) : storageKept s.plwBegin := by
  unfold plwBegin
  extract_lets s1 x s2 s3
  have ks1 : storageKept s1 := event_kept _ (setF_kept _ _ h)
  clear_value s1
  have ks2 : storageKept s2 := with_power_kept ks1
  clear_value s2
  have ks3 : storageKept s3 := storageKept_foldl _ (fun _ _ hu => resetEngine_kept hu) _ _ ks2
  clear_value s3
  exact storageKept_ite ks1 (drainBuffers_kept ks3)

theorem plwStep_kept (h : storageKept s) : storageKept s.plwStep := by
  unfold plwStep
  refine storageKept_ite h (storageKept_ite (drainBuffers_kept h) ?_)
  extract_lets s1
  have ks1 : storageKept s1 := beginDrains_kept (pumpAll_kept (drainBuffers_kept h))
  clear_value s1
  exact storageKept_ite (setF_kept _ _ (endDrains_kept ks1)) ks1

theorem tripNow_kept {t : ℤ} {n : Nat} (h : storageKept s) : storageKept (s.tripNow t n) := by
  unfold tripNow
  refine storageKept_ite h ?_
  extract_lets s1
  have ks1 : storageKept s1 := event_kept _ (setF_kept _ _ h)
  exact storageKept_ite (setF_kept _ _ ks1) (enterDim_kept ks1)

theorem rearm_kept {t0 : ℤ} (h : storageKept s) : storageKept (s.rearm t0) := by
  unfold rearm
  extract_lets t s1 x s2 s3
  have ks1 : storageKept s1 := setF_kept _ _ h
  clear_value s1
  have ks2 : storageKept s2 := storageKept_ite (with_power_kept ks1) h
  clear_value s2
  have ks3 : storageKept s3 := storageKept_ite (setF_kept _ _ ks2) ks2
  clear_value s3
  exact storageKept_ite (setF_kept _ _ ks3) ks3

theorem calHold_kept {byM : Bool} {what : Nat} (h : storageKept s) : storageKept (s.calHold byM what) := setF_kept _ _ (setF_kept _ _ h)
theorem calFree_kept (h : storageKept s) : storageKept s.calFree := setF_kept _ _ (setF_kept _ _ h)
theorem calRefuse_kept (h : storageKept s) : storageKept s.calRefuse := setF_kept _ _ h
theorem calUserWrite_kept {byM : Bool} {n : Nat} {v : ℤ} (h : storageKept s) : storageKept (s.calUserWrite byM n v) := calHold_kept (setUser_kept h)

theorem calZeroAll_kept {byM : Bool} (h : storageKept s) : storageKept (s.calZeroAll byM) :=
  calHold_kept (storageKept_foldl _ (fun _ _ hu => setF_kept _ _ hu) _ _ h)

theorem calUserS_kept {n : Nat} {v : ℤ} (h : storageKept s) : storageKept (s.calUserS n v) :=
  storageKept_ite (calRefuse_kept h) (calUserWrite_kept h)

theorem calSaveS_kept (h : storageKept s) : storageKept s.calSaveS := storageKept_ite (calRefuse_kept h) (calHold_kept h)
theorem calReloadS_kept (h : storageKept s) : storageKept s.calReloadS := storageKept_ite (calRefuse_kept h) (calHold_kept h)
theorem calZeroS_kept (h : storageKept s) : storageKept s.calZeroS := storageKept_ite (calRefuse_kept h) (calZeroAll_kept h)
theorem tileTime_kept {t : TileId} (h : storageKept s) : storageKept (s.tileTime t) := setTile_kept _ _ h

theorem wardTime_kept {w : WardId} (h : storageKept s) : storageKept (s.wardTime w) := by
  unfold wardTime
  extract_lets lw busyT busyE lw2 st dl mine s1 s2 s3
  have ks2 : storageKept s2 := storageKept_ite (bumpF_kept _ _ (setLampw_kept h)) (setLampw_kept h)
  have ks3 : storageKept s3 := storageKept_ite (bumpF_kept _ _ ks2) ks2
  exact storageKept_ite (storageKept_ite (bumpF_kept _ _ ks3) (storageKept_ite (bumpF_kept _ _ ks3) ks3)) ks3

theorem passTime_kept (h : storageKept s) : storageKept s.passTime := by
  unfold passTime
  refine storageKept_ite h (storageKept_ite h ?_)
  extract_lets s1 s2 s3 s4
  have ks1 : storageKept s1 := storageKept_foldl _ (fun _ _ hu => tileTime_kept hu) _ _ h
  clear_value s1
  have ks2 : storageKept s2 := storageKept_foldl _ (fun _ _ hu => wardTime_kept hu) _ _ ks1
  clear_value s2
  have ks3 : storageKept s3 := storageKept_ite (bumpF_kept _ _ ks2) ks2
  have ks4 : storageKept s4 := storageKept_ite (bumpF_kept _ _ ks3) ks3
  exact tracePumpAll_kept ks4

/-! #### Stored bytes with errors -/

theorem poisonHome_kept {h0 : Fin 17} {x : Nat} (h : storageKept s) : storageKept (s.poisonHome h0 x).2 := by
  unfold poisonHome
  extract_lets bad hm w
  exact updHome_kept h

theorem poisonEngineIn_kept {e : EngId} {l : LineAddr} (h : storageKept s) : storageKept (s.poisonEngineIn e l) := setEngine_kept h

theorem poisonEngineOut_kept {e : EngId} {i : Nat} (h : storageKept s) : storageKept (s.poisonEngineOut e i) := by
  unfold poisonEngineOut
  split
  · exact h
  · exact with_ledger_kept (storageKept_foldl _ (fun _ _ hu => updEntry_kept hu) _ _ (setEngine_kept h))

theorem parityHit_kept {u : UnitId} {residue : Bool} {site : PoisonSite} (h : storageKept s) : storageKept (s.parityHit u residue site) := by
  unfold parityHit
  refine storageKept_ite (event_kept _ h) (event_kept _ ?_)
  split
  · refine bumpF_kept _ _ (recordFabric_kept ?_)
    split
    · exact updTile_kept _ _ h
    · split <;> exact h
    · split
      · exact h
      · extract_lets c
        exact putWay_kept h
    · exact updTile_kept _ _ h
    · exact updTile_kept _ _ h
    · exact poisonHome_kept h
    · exact poisonEngineIn_kept h
    · exact poisonEngineOut_kept h
    · split <;> exact h
  · refine recordFabric_kept ?_
    split
    · exact updTile_kept _ _ h
    · split <;> exact h
    · split
      · exact h
      · extract_lets c
        exact putWay_kept h
    · exact updTile_kept _ _ h
    · exact updTile_kept _ _ h
    · exact poisonHome_kept h
    · exact poisonEngineIn_kept h
    · exact poisonEngineOut_kept h
    · exact h

theorem flipLs_kept {t : TileId} {o : Nat} {flips : BitVec 13} (h : storageKept s) : storageKept (s.flipLs t o flips) := updTile_kept _ _ h

theorem flipMask_kept {q : QuarterId} {l : LineAddr} {k : Nat} {flips : BitVec 13} (h : storageKept s) : storageKept (s.flipMask q l k flips) := by
  unfold flipMask
  split
  · exact h
  · exact updQuarter_kept h

theorem checkEntryByte_kept {x : Nat} {flips : BitVec 13} (h : storageKept s) : storageKept (s.checkEntryByte x flips) := by
  unfold checkEntryByte
  split
  · exact h
  · split
    · exact h
    · exact event_kept _ h
    · exact event_kept _ (setEntry_kept h)

theorem checkDirByte_kept {h0 : Fin 17} {l : LineAddr} {flips : BitVec 13} (h : storageKept s) : storageKept (s.checkDirByte h0 l flips) := by
  unfold checkDirByte
  extract_lets tell
  split
  · exact h
  · split
    · exact h
    · exact storageKept_ite (eccEvent_kept _ _ _ _ _ h) (event_kept _ h)
    · exact storageKept_ite (eccEvent_kept _ _ _ _ _ (dirPut_kept h)) (event_kept _ (dirPut_kept h))

theorem checkHit_kept {u : UnitId} {residue : Bool} {site : PoisonSite} (h : storageKept s) : storageKept (s.checkHit u residue site) := by
  unfold checkHit
  split
  · exact flipLs_kept h
  · exact flipMask_kept h
  · exact checkEntryByte_kept h
  · exact checkDirByte_kept h
  · exact parityHit_kept h

/-! #### Register space -/

theorem clearRead_kept {x : Nat × Nat × Nat} (h : storageKept s) : storageKept (s.clearRead x) := by
  unfold clearRead
  split
  · split
    · extract_lets s1
      have ks1 : storageKept s1 := storageKept_foldl _ (fun _ _ hu => storageKept_ite (setF_kept _ _ hu) hu) _ _ h
      clear_value s1
      exact storageKept_ite (captureLast_kept ks1) ks1
    · exact h

theorem readBy_kept {p : Port} {may clear : Nat → Bool} {off len : Nat} (h : storageKept s) : storageKept (s.readBy p may clear off len).2 := by
  unfold readBy
  extract_lets v s1
  have ks1 : storageKept s1 := storageKept_foldl _ (fun _ _ hu => storageKept_ite (clearRead_kept hu) hu) _ _ h
  clear_value s1
  exact storageKept_ite (countAccess_kept ks1) ks1

theorem readReg_kept {p : Port} {off len : Nat} (h : storageKept s) : storageKept (s.readReg p off len).2 := readBy_kept h

theorem portRead_kept {p : Port} {off len : Nat} (h : storageKept s) : storageKept (s.portRead p off len).2 :=
  storageKept_ite_snd h (readReg_kept h)

theorem mark_kept {f : Option Fld} {b : Bool} (h : storageKept s) : storageKept (s.mark f b) := by
  unfold mark
  split
  · exact storageKept_ite (setF_kept _ _ h) h
  · exact h

theorem putClamped_kept {flag : Option Fld} {f : Fld} {x e : Nat} (h : storageKept s) : storageKept (s.putClamped flag f x e) :=
  mark_kept (setF_kept _ _ h)

theorem clearFields_kept {r : Nat} {d : RegDesc} {v : Nat} (h : storageKept s) : storageKept (s.clearFields r d v) :=
  storageKept_foldl _ (fun _ _ hu => storageKept_ite (setF_kept _ _ hu) hu) _ _ h

theorem putFields_kept {flag : Option Fld} {r : Nat} {d : RegDesc} {v : Nat} (h : storageKept s) : storageKept (s.putFields flag r d v) := by
  unfold putFields
  refine storageKept_foldl _ (fun u x hu => ?_) _ _ h
  extract_lets x2 g
  split
  · exact setF_kept _ _ hu
  · exact setF_kept _ _ hu
  · exact setF_kept _ _ hu
  · split
    · exact putClamped_kept hu
    · exact hu
  · exact hu

theorem putReg_kept {flag : Option Fld} {r : Nat} {d : RegDesc} {v : Nat} (h : storageKept s) : storageKept (s.putReg flag r d v) :=
  putFields_kept (clearFields_kept h)

theorem planCmd_kept {v : Nat} (h : storageKept s) : storageKept (s.planCmd v) :=
  storageKept_ite (startLoad_kept h) (storageKept_ite (startSwap_kept h)
    (storageKept_ite (sealPlan_kept h) (storageKept_ite h (refusePlan_kept h))))

theorem calCmd_kept {byM : Bool} {v : Nat} (h : storageKept s) : storageKept (s.calCmd byM v) := by
  unfold calCmd
  extract_lets s1 s2
  have ks1 : storageKept s1 := storageKept_ite (storageKept_ite (calRefuse_kept h) (calHold_kept h)) h
  have ks2 : storageKept s2 := storageKept_ite (storageKept_ite (calRefuse_kept ks1) (calHold_kept ks1)) ks1
  exact storageKept_ite (storageKept_ite (calRefuse_kept ks2) (calZeroAll_kept ks2)) ks2

theorem writeEffect_kept {p : Port} {r v : Nat} (h : storageKept s) : storageKept (s.writeEffect p r v) := by
  unfold writeEffect
  split
  · extract_lets l flag put w s1 s2 x3 w2 s3 s4 q s5 s6 t s7 s8 s9 s10 e3 s11 f
    have ks1 : storageKept s1 := setF_kept _ _ h
    clear_value s1
    have ks2 : storageKept s2 := storageKept_ite (startLogRead_kept ks1) ks1
    clear_value s2
    have ks3 : storageKept s3 := putReg_kept h
    clear_value s3
    have ks4 : storageKept s4 := storageKept_ite (clearObs_kept ks3) ks3
    clear_value s4
    have ks5 : storageKept s5 := putReg_kept h
    clear_value s5
    have ks6 : storageKept s6 := storageKept_ite (enableCache_kept ks5) (startDrain_kept ks5)
    clear_value s6
    have ks7 : storageKept s7 := setRun_kept h
    clear_value s7
    have ks8 : storageKept s8 := storageKept_ite (ctrlReset_kept ks7) ks7
    clear_value s8
    have ks9 : storageKept s9 := storageKept_ite (startScrub_kept ks3) ks3
    clear_value s9
    have ks10 : storageKept s10 := storageKept_ite (startScrub_kept ks9) ks9
    clear_value s10
    have ks11 : storageKept s11 := setFeed_kept (putReg_kept h)
    clear_value s11
    split
    · exact storageKept_ite (planCmd_kept h) (storageKept_ite (putClamped_kept h) (putReg_kept h))
    · refine storageKept_ite (storageKept_ite (startWardReset_kept (putReg_kept h)) (putReg_kept h)) (storageKept_ite ?_ (putReg_kept h))
      split
      · exact writeConsent_kept h
      · exact writeConsent_kept h
      · exact h
    · exact storageKept_ite (clearBeacon_kept h) (storageKept_ite (injectEvent_kept h)
        (storageKept_ite (storageKept_ite (startLogErase_kept ks2) ks2) (storageKept_ite (fltRefuse_kept h) (putReg_kept h))))
    · exact storageKept_ite (clearBeacon_kept h) h
    · exact storageKept_ite (putClamped_kept (putReg_kept h))
        (storageKept_ite (storageKept_ite (calRefuse_kept (putReg_kept h)) (calUserWrite_kept (putReg_kept h)))
        (storageKept_ite (calCmd_kept h) (putReg_kept h)))
    · exact storageKept_ite (tracePump_kept (flushDelays_kept ks4))
        (storageKept_ite (writeTraceTail_kept h) (storageKept_ite (newRing_kept (putReg_kept h)) (putReg_kept h)))
    · exact storageKept_ite (storageKept_ite (resetQuarter_kept ks6) ks6) (storageKept_ite (armCache_kept h) (putReg_kept h))
    · exact storageKept_ite (storageKept_ite (doorbell_kept ks8) ks8) (storageKept_ite (sendProbe_kept h) (putReg_kept h))
    · exact storageKept_ite (armInjection_kept h) (storageKept_ite (putClamped_kept h)
        (storageKept_ite (putClamped_kept h) (storageKept_ite (putClamped_kept h)
        (storageKept_ite (storageKept_ite (abortScrub_kept ks10) ks10) (storageKept_ite (storageKept_ite (loadKey_kept h) h) (putReg_kept h))))))
    · exact storageKept_ite (storageKept_ite (resetEngine_kept ks11) ks11) (storageKept_ite (writeTail_kept h) (putReg_kept h))
    · exact storageKept_ite (updIntx_kept (putReg_kept h)) (putReg_kept h)
    · exact storageKept_ite (bulkAddr_kept h) (storageKept_ite (bulkShape_kept h) (storageKept_ite (bulkShape_kept h) (putReg_kept h)))
    · exact putReg_kept h
  · exact h

theorem writeRas_kept {i v : Nat} (h : storageKept s) : storageKept (s.writeRas i v) := storageKept_ite (setRas_kept h) (setRas_kept h)

theorem writeHdm_kept {i v : Nat} (h : storageKept s) : storageKept (s.writeHdm i v) :=
  storageKept_ite h (storageKept_ite h (storageKept_ite (storageKept_ite (storageKept_ite h (setHdm_kept h))
    (storageKept_ite (commitHdm_kept (setHdm_kept h)) (setHdm_kept h)))
    (storageKept_ite h (storageKept_ite (setHdm_kept h) (storageKept_ite (setHdm_kept h)
    (storageKept_ite (setHdm_kept h) (storageKept_ite (setHdm_kept h) (storageKept_ite (setHdm_kept h) (storageKept_ite (setHdm_kept h) h)))))))))

theorem writeMsix_kept {fn : Func} {o v : Nat} (h : storageKept s) : storageKept (s.writeMsix fn o v) :=
  storageKept_ite h (storageKept_ite (setMsix_kept _ _ _ h) (storageKept_ite (setMsix_kept _ _ _ h)
    (storageKept_ite (setMsix_kept _ _ _ h) (storageKept_ite (setMsix_kept _ _ _ h) (msixUnmask_kept h)))))

theorem writeBy_kept {p : Port} {may : Nat → Bool} {off len v : Nat} (h : storageKept s) : storageKept (s.writeBy p may off len v) := by
  unfold writeBy
  split
  · exact countAccess_kept h
  · exact storageKept_ite (countAccess_kept h) (storageKept_ite (writeMsix_kept h)
      (storageKept_ite (writeRas_kept h) (storageKept_ite h (storageKept_ite (writeHdm_kept h) (writeEffect_kept h)))))

theorem writeReg_kept {p : Port} {off len v : Nat} (h : storageKept s) : storageKept (s.writeReg p off len v) := writeBy_kept h

theorem portWrite_kept {p : Port} {off len v : Nat} (h : storageKept s) : storageKept (s.portWrite p off len v) := by
  unfold portWrite
  refine storageKept_ite h ?_
  split
  · exact storageKept_ite (storageKept_ite (writeMsix_kept h) (countAccess_kept h)) (writeReg_kept h)
  · exact writeReg_kept h

theorem answerRead_kept {p : Port} {off len : Nat} (h : storageKept s) : storageKept (s.answerRead p off len) := by
  unfold answerRead
  split
  · exact storageKept_ite (emit_kept _ h) (emit_kept _ (portRead_kept h))
  · exact emit_kept _ (portRead_kept h)

theorem rxEffect_kept {c : Posted} (h : storageKept s) : storageKept (s.rxEffect c) := by
  unfold rxEffect
  split
  · exact portWrite_kept h
  · exact answerRead_kept h
  · exact bulkEffect_kept h

theorem pumpRxN_kept  {n : Nat} (h : storageKept s) : storageKept (s.pumpRxN n) := by
  induction n generalizing s with
  | zero => exact h
  | succ n ih =>
    rw [pumpRxN]
    split
    · exact h
    · exact storageKept_ite (ih (rxEffect_kept h)) h

theorem pumpRx_kept (h : storageKept s) : storageKept s.pumpRx := pumpRxN_kept h

theorem leaveDim_kept (h : storageKept s) : storageKept s.leaveDim :=
  storageKept_ite h (updReady_kept (pumpRx_kept (fireDue_kept (releaseHeld_kept (endDrains_kept (setF_kept _ _ h))))))

/-! #### Responses -/

theorem dropBuf_kept {q : QuarterId} {x : Nat} {l : LineAddr} (h : storageKept s) : storageKept (s.dropBuf q x l) := updQuarter_kept h

theorem putBufReq_kept {q : QuarterId} {x : Nat} {l : LineAddr} {r : Req} (h : storageKept s) : storageKept (s.putBufReq q x l r) :=
  updQuarter_kept h

theorem lanternLine_kept {v : LineVal} (h : storageKept s) : storageKept (s.lanternLine v) := h

theorem deliverLine_kept {x : Nat} {e : LEntry} {v : LineVal} (h : storageKept s) : storageKept (s.deliverLine x e v) := by
  unfold deliverLine
  extract_lets s1 v2
  have k1 : storageKept s1 := closeEntry_kept h
  clear_value s1 v2
  refine storageKept_ite (storageKept_ite (loaderRetry_kept k1) k1) ?_
  cases e.req.src with
  | loader => exact loaderLine_kept k1
  | engine en => exact engineData_kept k1
  | bulk f => exact bulkArrive_kept k1
  | tile t => exact uncachedDone_kept k1
  | host => exact storageKept_ite (emit_kept _ k1) (emit_kept _ k1)
  | lantern => exact lanternLine_kept k1
  | quarter | drain | trace | scrub => exact k1

theorem takeLine_kept {i : Nat} {p : Packet} (h : storageKept s) : storageKept (s.takeLine i p) := by
  unfold takeLine
  extract_lets s1
  have ks1 : storageKept s1 := takePkt_kept h
  clear_value s1
  split
  · refine storageKept_ite ks1 ?_
    split
    · exact setEntry_kept ks1
    · exact setEntry_kept ks1
    · exact setEntry_kept ks1
    · split
      · exact fillLine_kept ks1
      · exact closeEntry_kept ks1
    · exact deliverLine_kept ks1
  · exact ks1

theorem takeData_kept {i : Nat} (h : storageKept s) : storageKept (s.takeData i) := by
  unfold takeData
  split
  · exact h
  · split
    · exact takeLine_kept h
    · exact storageKept_ite (takeAnswer_kept h) (takeLine_kept h)

theorem takeWgo_kept {i : Nat} (h : storageKept s) : storageKept (s.takeWgo i) := by
  unfold takeWgo
  split
  · exact h
  · extract_lets s1 send
    have ks1 : storageKept s1 := takePkt_kept h
    clear_value s1
    split
    · exact sendPkt_kept ks1
    · split
      · exact ks1
      · refine storageKept_ite ks1 (storageKept_ite (giveUp_kept ks1) ?_)
        split
        · exact sendPkt_kept ks1
        · exact ks1

theorem writeDone_kept {e : LEntry} {poison : Bool} (h : storageKept s) : storageKept (s.writeDone e poison) := by
  unfold writeDone
  refine storageKept_ite ?_ ?_
  · split
    · exact pumpRx_kept h
    · exact storageKept_ite (recordRetry_kept h) h
  · cases e.req.src with
    | scrub => exact scrubOver_kept h
    | bulk f => exact pumpRx_kept (pumpBulk_kept h)
    | tile t => exact wakeTile_kept h
    | host => exact emit_kept _ h
    | trace w => exact storageKept_ite (traceAgain_kept h) (traceDone_kept h)
    | engine en => exact storageKept_ite (engineUnwritten_kept h) h
    | lantern => exact with_lantern_kept h
    | quarter | drain | loader => exact h

theorem takeDone_kept {i : Nat} (h : storageKept s) : storageKept (s.takeDone i) := by
  unfold takeDone
  split
  · exact h
  · extract_lets s1
    have ks1 : storageKept s1 := takePkt_kept h
    clear_value s1
    split
    · extract_lets s2
      have ks2 : storageKept s2 := closeEntry_kept (dropBuf_kept ks1)
      clear_value s2
      exact settle_kept (storageKept_ite (orderedLine_kept ks2) ks2)
    · split
      · exact ks1
      · exact storageKept_ite ks1 (writeDone_kept (closeEntry_kept ks1))

theorem takeRefusal_kept {i : Nat} {k : RspKind} (h : storageKept s) : storageKept (s.takeRefusal i k) := by
  unfold takeRefusal
  split
  · exact h
  · extract_lets s1
    have ks1 : storageKept s1 := takePkt_kept h
    clear_value s1
    split
    · split
      · exact putBufReq_kept ks1
      · split
        · exact ks1
        · exact storageKept_ite ks1 (storageKept_ite (giveUp_kept ks1) (setEntry_kept ks1))
    · exact ks1

theorem takeGo_kept {i : Nat} (h : storageKept s) : storageKept (s.takeGo i) := by
  unfold takeGo
  split
  · exact h
  · extract_lets s1
    have ks1 : storageKept s1 := takePkt_kept h
    clear_value s1
    split
    · split
      · exact sendReq_kept (putBufReq_kept ks1)
      · split
        · exact ks1
        · exact storageKept_ite ks1 (storageKept_ite (giveUp_kept ks1) (sendReq_kept (setEntry_kept ks1)))
    · exact ks1

theorem resend_kept {x : Nat} (h : storageKept s) : storageKept (s.resend x) := by
  unfold resend
  refine storageKept_foldl _ (fun _ _ hu => storageKept_foldl _ (fun _ _ hu1 =>
    storageKept_ite (sendReq_kept (putBufReq_kept hu1)) hu1) _ _ hu) _ _ ?_
  split
  · exact h
  · exact storageKept_ite (sendReq_kept (setEntry_kept h)) h

theorem takeAtRes_kept {i : Nat} (h : storageKept s) : storageKept (s.takeAtRes i) := by
  unfold takeAtRes
  split
  · exact h
  · extract_lets s1 s2
    have ks1 : storageKept s1 := takePkt_kept h
    clear_value s1
    have ks2 : storageKept s2 := closeEntry_kept ks1
    clear_value s2
    split
    · refine storageKept_ite ks1 (storageKept_ite ks2 ?_)
      split
      · exact settle_kept (farResult_kept ks2)
      · exact farResult_kept ks2
      · exact ks2
    · exact ks1

theorem ioCompletion_kept {tag : Nat} {d : List Byte} {poison : Bool} (h : storageKept s) : storageKept (s.ioCompletion tag d poison) := by
  unfold ioCompletion
  split
  · exact h
  · exact storageKept_ite h (deliverLine_kept (wakeLink_kept h))

theorem grantNext_kept (h : storageKept s) : storageKept s.grantNext := by
  unfold grantNext
  split
  · exact h
  · exact storageKept_ite (callSource_kept (unwait_kept h)) (storageKept_ite (writeDone_kept (takeEntry_kept (unwait_kept h)))
      (takeEntry_kept (unwait_kept h)))

/-! #### Configuration space -/

theorem cfgEffect_kept {fn : Func} {off v : Nat} (h : storageKept s) : storageKept (s.cfgEffect fn off v) := by
  unfold cfgEffect
  split
  · refine storageKept_ite (updIntx_kept h) (storageKept_ite (storageKept_ite (warmReset_kept h) h)
      (storageKept_ite (storageKept_ite (enterD3hot_kept h) (storageKept_ite (leaveD3hot_kept h) h))
      (storageKept_ite (storageKept_ite (setCfgBit_kept h) h) (storageKept_ite (msixFlush_kept (setMsixEnable_kept h)) (storageKept_ite ?_ h)))))
    extract_lets s1 s2
    have ks1 : storageKept s1 := storageKept_ite h (setDisable_kept h)
    clear_value s1
    have ks2 : storageKept s2 := storageKept_ite (startFlush_kept ks1) ks1
    clear_value s2
    exact storageKept_ite (startCxlReset_kept ks2) ks2
  · exact storageKept_ite (storageKept_ite (vfFlr_kept h) h) (storageKept_ite (msixFlush_kept h) h)

theorem cfgWrite_kept {fn : Func} {off v : Nat} (h : storageKept s) : storageKept (s.cfgWrite fn off v) :=
  storageKept_ite (setCfgByte_kept _ _ _ h) (cfgEffect_kept (storageKept_ite h (setCfgByte_kept _ _ _ h)))

theorem cfgRequest_kept {q : CfgReq} (h : storageKept s) : storageKept (s.cfgRequest q) := by
  unfold cfgRequest
  refine storageKept_ite h (storageKept_ite (emit_kept _ (wakeLink_kept h)) (storageKept_ite (emit_kept _ (wakeLink_kept h)) ?_))
  split
  · exact emit_kept _ (wakeLink_kept h)
  · exact storageKept_foldl _ (fun _ _ hu => cfgWrite_kept hu) _ _ (emit_kept _ (wakeLink_kept h))

/-! #### Lantern: packets and accesses -/

theorem lntAck_kept {a : Nat} (h : storageKept s) : storageKept (s.lntAck a) := emit_kept _ h
theorem lntData_kept {v : Nat} (h : storageKept s) : storageKept (s.lntData v) := emit_kept _ h

theorem lntPacket_kept {good : Bool} {f : State → State} (hf : ∀ u, storageKept u → storageKept (f u)) (h : storageKept s) :
    storageKept (s.lntPacket good f) :=
  storageKept_ite h (storageKept_ite (hf _ h) (lntAck_kept h))

theorem lntOpen_kept {f : State → State} (hf : ∀ u, storageKept u → storageKept (f u)) (h : storageKept s) : storageKept (s.lntOpen f) :=
  storageKept_ite (hf _ h) (lntAck_kept h)

theorem readEvent_kept (h : storageKept s) : storageKept s.readEvent := lntData_kept (setF_kept _ _ h)

theorem readOutcome_kept {v : Nat} (h : storageKept s) : storageKept (s.readOutcome v) :=
  storageKept_ite (lntAck_kept h) (storageKept_ite (lntAck_kept h) (lntData_kept h))

theorem lntRead_kept {r : Nat} (h : storageKept s) : storageKept (s.lntRead r) := by
  unfold lntRead
  refine storageKept_ite (lntData_kept h) (storageKept_ite (lntData_kept h)
    (storageKept_ite (readOutcome_kept h) (storageKept_ite (readOutcome_kept h)
    (storageKept_ite (lntData_kept h) (storageKept_ite (lntData_kept h)
    (storageKept_ite (readEvent_kept h) (storageKept_ite (lntData_kept h) (storageKept_ite (lntData_kept h) ?_))))))))
  split <;> exact lntData_kept h

theorem writeComp_kept {bp : Bool} {n v : Nat} (h : storageKept s) : storageKept (s.writeComp bp n v) :=
  storageKept_ite (lntAck_kept h) (storageKept_ite (lntAck_kept h)
    (storageKept_ite (lntAck_kept h) (lntAck_kept (setF_kept _ _
    (setF_kept _ _ (setF_kept _ _ (setF_kept _ _ (setF_kept _ _ (setF_kept _ _ (setF_kept _ _ (setF_kept _ _ h)))))))))))

theorem writeFreeze_kept {v : Nat} (h : storageKept s) : storageKept (s.writeFreeze v) := lntAck_kept (setF_kept _ _ h)

theorem putCtrl_kept {v : Nat} (h : storageKept s) : storageKept (s.putCtrl v) :=
  setF_kept _ _ (setF_kept _ _ (setF_kept _ _ (setF_kept _ _ (setF_kept _ _ (setF_kept _ _ (setF_kept _ _ h))))))

theorem writeCtrl_kept {v : Nat} (h : storageKept s) : storageKept (s.writeCtrl v) :=
  storageKept_ite (lntAck_kept h) (storageKept_ite (lntAck_kept (putCtrl_kept h))
    (storageKept_ite (lntAck_kept h) (storageKept_ite (lntAck_kept h) (lntAck_kept (with_lantern_kept (putCtrl_kept h))))))

theorem accEnd_kept {fault poison : Bool} {data : Option Nat} (h : storageKept s) : storageKept (s.accEnd fault poison data) := h
theorem accFaults_kept (h : storageKept s) : storageKept s.accFaults := accEnd_kept h

theorem accessReg_kept (h : storageKept s) : storageKept s.accessReg :=
  storageKept_ite h (storageKept_ite (accFaults_kept h) (storageKept_ite (accEnd_kept (writeBy_kept h)) (accEnd_kept (readBy_kept h))))

theorem accessMem_kept (h : storageKept s) : storageKept s.accessMem := by
  unfold accessMem
  refine storageKept_ite h (storageKept_ite (accFaults_kept h) ?_)
  split
  · exact accFaults_kept (winFault_kept _ _ _ h)
  · exact issue_kept h

theorem accessLs_kept (h : storageKept s) : storageKept s.accessLs :=
  storageKept_ite h (storageKept_ite (accFaults_kept h) (storageKept_ite (accEnd_kept (updTile_kept _ _ h))
    (accEnd_kept (storageKept_ite (lsErrorEvent_kept (lsCorrect_kept h)) (lsCorrect_kept h)))))

theorem accessCore_kept (h : storageKept s) : storageKept s.accessCore := by
  unfold accessCore
  refine storageKept_ite h (storageKept_ite (accFaults_kept h) ?_)
  split
  · exact accFaults_kept h
  · exact storageKept_ite (storageKept_ite (accFaults_kept h) (accEnd_kept (updTile_kept _ _ h))) (accEnd_kept h)

theorem accDone_kept (h : storageKept s) : storageKept s.accDone := storageKept_ite (storageKept_ite (setF_kept _ _ h) h) h

theorem tryUnlock_kept {d : W64} (h : storageKept s) : storageKept (s.tryUnlock d) :=
  storageKept_ite (lntAck_kept h) (storageKept_ite (lntAck_kept h)
    (storageKept_ite (lntAck_kept h) (storageKept_ite (lntAck_kept h) (lntAck_kept h))))

theorem relock_kept (h : storageKept s) : storageKept s.relock := liftHalts_kept h

/-! #### Lantern: run control -/

theorem stopStep_kept {t : TileId} (h : storageKept s) : storageKept (s.stopStep t) := by
  unfold stopStep
  refine storageKept_ite h ?_
  split
  next e =>
    exact kept_snd e (abandon_kept h)
  next e =>
    exact debugEvent_kept (updTile_kept _ _ (kept_snd e (abandon_kept h)))

theorem haltScope_kept {scope target : Nat} (h : storageKept s) : storageKept (s.haltScope scope target) :=
  storageKept_foldl _ (fun _ _ hu => storageKept_ite (stopStep_kept hu) hu) _ _ (addHalt_kept h)

theorem haltTile_kept {t : TileId} (h : storageKept s) : storageKept (s.haltTile t) := by
  unfold haltTile
  refine storageKept_ite h (storageKept_ite (storageKept_ite (retireAlone_kept (takeInterrupt_kept h)) (takeInterrupt_kept h)) ?_)
  split
  next e =>
    exact kept_snd e (abandon_kept (storageKept_ite (retireAlone_kept (takeInterrupt_kept h)) (takeInterrupt_kept h)))
  next e =>
    exact debugEvent_kept
      (updTile_kept _ _ (kept_snd e (abandon_kept (storageKept_ite (retireAlone_kept (takeInterrupt_kept h)) (takeInterrupt_kept h)))))

theorem resumeScope_kept {scope target : Nat} (h : storageKept s) : storageKept (s.resumeScope scope target) := liftHalts_kept h
theorem stepTile_kept {t : TileId} (h : storageKept s) : storageKept (s.stepTile t) := updTile_kept _ _ h
theorem endStep_kept {t : TileId} (h : storageKept s) : storageKept (s.endStep t) := storageKept_ite (debugEvent_kept (updTile_kept _ _ h)) h

theorem runCmd_kept {cmd scope target : Nat} (h : storageKept s) : storageKept (s.runCmd cmd scope target) :=
  storageKept_ite (lntAck_kept h) (storageKept_ite (lntAck_kept h)
    (storageKept_ite (lntAck_kept h) (storageKept_ite (lntAck_kept (haltScope_kept h))
    (storageKept_ite (lntAck_kept (resumeScope_kept h)) (storageKept_ite (lntAck_kept (stepTile_kept h)) (lntAck_kept h))))))

theorem lntWrite_kept {r v : Nat} (h : storageKept s) : storageKept (s.lntWrite r v) := by
  unfold lntWrite
  refine storageKept_ite (lntAck_kept h) (storageKept_ite (lntAck_kept (setF_kept _ _ h))
    (storageKept_ite (writeCtrl_kept h) (storageKept_ite (lntAck_kept h)
    (storageKept_ite (runCmd_kept h) (storageKept_ite (writeFreeze_kept h) (storageKept_ite (lntAck_kept h) ?_))))))
  split
  · exact storageKept_ite (writeComp_kept h) (lntAck_kept (setF_kept _ _ h))
  · exact lntAck_kept h

/-! #### The management port -/

theorem bootHint_kept (h : storageKept s) : storageKept s.bootHint.2 := by
  unfold bootHint
  split
  · split
    next e2 =>
      exact kept_snd e2 (free_kept h)
  · exact h

theorem readRegM_kept {off width : Nat} (h : storageKept s) : storageKept (s.readRegM off width).2 := by
  unfold readRegM
  refine storageKept_ite_snd h (storageKept_ite_snd h ?_)
  extract_lets x
  exact portRead_kept h

theorem writeRegM_kept {off width val : Nat} (h : storageKept s) : storageKept (s.writeRegM off width val).2 := by
  unfold writeRegM
  refine storageKept_ite_snd h (storageKept_ite_snd h (storageKept_ite_snd h ?_))
  extract_lets f s1 back
  have ks1 : storageKept s1 := portWrite_kept h
  clear_value s1
  exact ks1

theorem readLogM_kept {slot : Nat} {flashOk : Bool} (h : storageKept s) : storageKept (s.readLogM slot flashOk).2 := by
  unfold readLogM
  refine storageKept_ite_snd h (storageKept_ite_snd ?_ (storageKept_ite_snd h ?_))
  · split
    next e =>
      exact kept_snd e (free_kept h)
  · extract_lets b
    exact h

theorem calSetM_kept {item : Nat} {v : ℤ} (h : storageKept s) : storageKept (s.calSetM item v).2 := by
  unfold calSetM
  refine storageKept_ite_snd h (storageKept_ite_snd h ?_)
  extract_lets s1 p
  exact calUserWrite_kept h

theorem throttleM_kept {v : Nat} (h : storageKept s) : storageKept (s.throttleM v).2 := by
  unfold throttleM
  refine storageKept_ite_snd h (storageKept_ite_snd h ?_)
  extract_lets s1
  exact setF_kept _ _ h

theorem askReset_kept {kind ward : Nat} (h : storageKept s) : storageKept (s.askReset kind ward).2 := h

theorem resetReqM_kept {kind ward : Nat} (h : storageKept s) : storageKept (s.resetReqM kind ward).2 :=
  storageKept_ite_snd (storageKept_ite_snd (askReset_kept h) h)
    (storageKept_ite_snd h (storageKept_ite_snd h (storageKept_ite_snd h (storageKept_ite_snd h (askReset_kept h)))))

theorem alertGetM_kept {ack : Nat} (h : storageKept s) : storageKept (s.alertGetM ack).2 := by
  unfold alertGetM
  extract_lets m x
  exact storageKept_ite_snd h (storageKept_ite_snd h h)

theorem lanternCtrlM_kept {op minutes : Nat} (h : storageKept s) : storageKept (s.lanternCtrlM op minutes).2 :=
  storageKept_ite_snd (relock_kept h) (storageKept_ite_snd h (storageKept_congr (s := s.free.2) rfl rfl rfl (free_kept h)))

theorem calJobM_kept {q : MgmtHdr} {cmd what : Nat} (h : storageKept s) : storageKept (s.calJobM q cmd what).2 := by
  unfold calJobM
  refine storageKept_ite_snd h ?_
  split
  · split
    next e2 =>
      have ku := kept_snd e2 (bootHint_kept h)
      exact ku
  · extract_lets s1 x
    have ks1 : storageKept s1 := calHold_kept h
    clear_value s1
    exact with_mgmt_kept ks1

theorem mgmtBody_kept {q : MgmtHdr} {cmd : Nat} {p : List Byte} {flashOk : Bool} (h : storageKept s) :
    storageKept (s.mgmtBody q cmd p flashOk).2 := by
  have core : ∀ x : MgmtAns × State, storageKept x.2 →
      storageKept (if s.power.bootDone then (some x.1, x.2) else (some (ansNotReady s.notReadyHint), s)).2 := fun x k => storageKept_ite_snd k h
  unfold mgmtBody
  exact storageKept_ite_snd h (storageKept_ite_snd h (storageKept_ite_snd h (storageKept_ite_snd h
    (storageKept_ite_snd (core _ (readRegM_kept h)) (storageKept_ite_snd (core _ (writeRegM_kept h)) (storageKept_ite_snd h
    (storageKept_ite_snd (readLogM_kept h) (storageKept_ite_snd h (storageKept_ite_snd (calSetM_kept h)
    (storageKept_ite_snd (calJobM_kept h) (storageKept_ite_snd (calJobM_kept h) (storageKept_ite_snd (storageKept_ite_snd h (calZeroAll_kept h))
    (storageKept_ite_snd (throttleM_kept h) (storageKept_ite_snd (resetReqM_kept h)
      (storageKept_ite_snd (alertGetM_kept h) (lanternCtrlM_kept h))))))))))))))))

theorem setRsp_kept {q : MgmtHdr} {cmd : Nat} {a : MgmtAns} (h : storageKept s) : storageKept (s.setRsp q cmd a) := h

theorem mgmtPump_kept (h : storageKept s) : storageKept s.mgmtPump := by
  unfold mgmtPump
  refine storageKept_ite h ?_
  split
  · exact h
  · extract_lets x2 s1 q
    split
    · exact setRsp_kept h
    · split
      next e3 =>
        exact setRsp_kept (kept_snd e3 (mgmtBody_kept h))
      next e3 =>
        exact kept_snd e3 (mgmtBody_kept h)

theorem mgmtArrive_kept {m : List Byte} (h : storageKept s) : storageKept (s.mgmtArrive m) :=
  storageKept_ite h (storageKept_ite h (mgmtPump_kept h))

theorem ctlRsp_kept {requester tag inst cmd code : Nat} {data : List Byte} (h : storageKept s) :
    storageKept (s.ctlRsp requester tag inst cmd code data) :=
  h

theorem setEid_kept {rq tag inst : Nat} {eid : Byte} (h : storageKept s) : storageKept (s.setEid rq tag inst eid) :=
  storageKept_ite (ctlRsp_kept h) (ctlRsp_kept h)

theorem getEid_kept {rq tag inst : Nat} (h : storageKept s) : storageKept (s.getEid rq tag inst) := ctlRsp_kept h
theorem getVersions_kept {rq tag inst : Nat} (h : storageKept s) : storageKept (s.getVersions rq tag inst) := ctlRsp_kept h
theorem getTypes_kept {rq tag inst : Nat} (h : storageKept s) : storageKept (s.getTypes rq tag inst) := ctlRsp_kept h
theorem getVendors_kept {rq tag inst : Nat} (h : storageKept s) : storageKept (s.getVendors rq tag inst) := ctlRsp_kept h

theorem ctlMessage_kept {src tag : Nat} {m : List Byte} (h : storageKept s) : storageKept (s.ctlMessage src tag m) :=
  storageKept_ite h (storageKept_ite (setEid_kept h) (storageKept_ite (getEid_kept h)
    (storageKept_ite (getVersions_kept h) (storageKept_ite (getTypes_kept h) (storageKept_ite (getVendors_kept h) (ctlRsp_kept h))))))

theorem takeMessage_kept {dst src tag : Nat} {m : List Byte} (h : storageKept s) : storageKept (s.takeMessage dst src tag m) :=
  storageKept_ite (ctlMessage_kept h) (storageKept_ite (mgmtArrive_kept h) h)

theorem setPartial_kept {l : List Byte} (h : storageKept s) : storageKept (s.setPartial l) := h

theorem takePacket_kept {b : List Byte} {pecOk : Bool} (h : storageKept s) : storageKept (s.takePacket b pecOk) :=
  storageKept_ite h (storageKept_ite (setPartial_kept h) (storageKept_ite (takeMessage_kept (setPartial_kept h)) (setPartial_kept h)))

theorem beginReset_kept {kind ward : Nat} (h : storageKept s) : storageKept (s.beginReset kind ward) :=
  storageKept_ite (storageKept_ite (warmReset_kept h) h) (storageKept_ite (storageKept_ite (coldCore_kept h) h)
    (storageKept_ite (startWardReset_kept h) h))

theorem rspGone_kept (h : storageKept s) : storageKept s.rspGone := by
  unfold rspGone
  split
  · exact h
  · refine mgmtPump_kept ?_
    split
    · exact h
    · exact beginReset_kept h

theorem sendRsp_kept {sent : Bool} (h : storageKept s) : storageKept (s.sendRsp sent) := by
  unfold sendRsp
  split
  · exact h
  · exact storageKept_ite (rspGone_kept (emit_kept _ h)) (storageKept_ite (rspGone_kept h) h)

theorem calFlashEnd_kept {ok : Bool} (h : storageKept s) : storageKept (s.calFlashEnd ok) := by
  unfold calFlashEnd
  split
  · exact h
  · exact h
  · extract_lets s1 x2 s2
    have ks1 : storageKept s1 := calFree_kept (storageKept_ite (calSave_kept h) (storageKept_ite (calLoad_kept h) h))
    clear_value s1
    have ks2 : storageKept s2 := with_mgmt_kept ks1
    clear_value s2
    split
    · exact ks1
    · exact setRsp_kept ks2

theorem request_kept {q : MgmtHdr} {cmd : Nat} {p : List Byte} (h : storageKept s) : storageKept (s.request q cmd p) := mgmtArrive_kept h

theorem ctlRow_kept {f : State → State} (hf : ∀ u, storageKept u → storageKept (f u)) (h : storageKept s) : storageKept (s.ctlRow f) :=
  storageKept_ite (hf _ h) h

/-! #### TileFp -/

theorem fpS_kept {c : Instr} {t : TileId} {f : FpForm} {op : Nat → Num → Num → FpRes} (h : storageKept s) : storageKept (s.fpS c t f op) :=
  regOp_kept h

theorem fpB_kept {c : Instr} {t : TileId} {f : FpForm} {op : Nat → Num → Num → FpRes} (h : storageKept s) : storageKept (s.fpB c t f op) :=
  regOp_kept h

theorem fpCmp_kept {c : Instr} {t : TileId} {f : FpForm} {quiet : Bool} {op : ℤ → Bool} (h : storageKept s) :
    storageKept (s.fpCmp c t f quiet op) :=
  regOp_kept h

theorem fpToInt_kept {c : Instr} {t : TileId} {f : FpForm} {signed : Bool} (h : storageKept s) : storageKept (s.fpToInt c t f signed) :=
  regOp_kept h

theorem fpMadd_kept {c : Instr} {t : TileId} {f : R4Form} {negProd negC : Bool} (h : storageKept s) : storageKept (s.fpMadd c t f negProd negC) :=
  regOp_kept h

/-! #### TileInt -/

theorem aluOp_kept {c : Instr} {t : TileId} {f : RForm} {op : W64 → W64 → W64} (h : storageKept s) : storageKept (s.aluOp c t f op) := regOp_kept h

theorem immOp_kept {c : Instr} {t : TileId} {f : IForm} {bad : Bool} {op : W64 → BitVec 16 → W64} (h : storageKept s) :
    storageKept (s.immOp c t f bad op) :=
  regOp_kept h

theorem branchOp_kept {c : Instr} {t : TileId} {f : BForm} {cond : W64 → W64 → Bool} (h : storageKept s) : storageKept (s.branchOp c t f cond) :=
  tileOp_kept (fun _ hu => storageKept_ite (retire_kept (mispredict_kept hu)) (retire_kept (mispredict_kept hu))) h

theorem jumpOp_kept {c : Instr} {t : TileId} {bad link : Bool} {tgt : Tile → W64} (h : storageKept s) : storageKept (s.jumpOp c t bad link tgt) :=
  tileOp_kept (fun _ hu => retire_kept (storageKept_ite (updTile_kept _ _ (mispredict_kept hu)) (mispredict_kept hu))) h

/-! #### What a step leads to -/

/-- The next state of a result, where it has one, keeps the form. -/
inductive ResultKept : Result → Prop
  | next {u : State} (h : storageKept u) : ResultKept (.next u)

theorem execRegisterWrite_kept {p : Port} {off : Nat} {len : Nat} {val : Nat} (h : storageKept s) :
    ResultKept (execRegisterWrite p off len val s) := by
  unfold execRegisterWrite
  refine .next ?_
  split
  · exact storageKept_ite (storageKept_ite (holdPosted_kept h) (portWrite_kept h)) (turnedAway_kept h)
  · exact storageKept_ite (storageKept_ite (holdPosted_kept h) (portWrite_kept h)) (turnedAway_kept h)
  · exact storageKept_ite (portWrite_kept h) h
  · exact storageKept_ite (portWrite_kept h) h

theorem execRcFieldRead_kept {p : Port} {off : Nat} {len : Nat} (h : storageKept s) : ResultKept (execRcFieldRead p off len s) := by
  unfold execRcFieldRead
  refine .next ?_
  split
  · exact storageKept_ite (storageKept_ite (holdPosted_kept h) (answerRead_kept h)) (unanswered_kept h)
  · exact storageKept_ite (storageKept_ite (holdPosted_kept h) (answerRead_kept h)) (unanswered_kept h)
  · exact storageKept_ite (answerRead_kept h) h
  · exact storageKept_ite (answerRead_kept h) h

theorem execPtest_kept {t : TileId} {f : IForm} (h : storageKept s) : ResultKept (execPtest t f s) := by
  unfold execPtest
  refine .next (tileOp_kept (fun u hu => ?_) h)
  extract_lets a
  split
  · exact dataExcept_kept hu
  · exact doPtest_kept hu

theorem execPset_kept {t : TileId} {f : MsgForm} (h : storageKept s) : ResultKept (execPset t f s) := by
  unfold execPset
  refine .next (tileOp_kept (fun u hu => ?_) h)
  extract_lets a
  split
  · exact except_kept hu
  · exact retireAlone_kept (updTile_kept _ _ hu)

theorem execTokenArrive_kept {i : Nat} (h : storageKept s) : ResultKept (execTokenArrive i s) := by
  unfold execTokenArrive
  refine .next ?_
  split
  · split
    · exact h
    · split
      · exact storageKept_ite (takePkt_kept h) (storageKept_ite h (arriveTok_kept (takePkt_kept h)))
      · exact h
  · split
    · exact h
    · exact storageKept_ite h (arriveTok_kept h)

theorem execWorkDispatchEngine_kept {w : WardId} {ty : EngType} (h : storageKept s) : ResultKept (execWorkDispatchEngine w ty s) := by
  unfold execWorkDispatchEngine
  refine .next ?_
  split
  · exact h
  · exact storageKept_ite (takeLamp_kept h) h

theorem execTick_kept (h : storageKept s) : ResultKept (execTick s) := by
  unfold execTick
  refine .next (storageKept_ite ?_ h)
  extract_lets s1 s2
  have ks2 : storageKept s2 := storageKept_foldl _ (fun _ _ hu => ripen_kept hu) _ _ h
  clear_value s2
  exact storageKept_ite (tracePumpAll_kept (fireDue_kept ks2)) ks2

theorem execEvtFilterPass_kept {pin : Fin 8} (h : storageKept s) : ResultKept (execEvtFilterPass pin s) := by
  unfold execEvtFilterPass
  refine .next ?_
  split
  · exact h
  · exact edgePassed_kept h

theorem execEngineAccept_kept {e : EngId} (h : storageKept s) : ResultKept (execEngineAccept e s) := by
  unfold execEngineAccept
  refine .next ?_
  split
  · exact h
  · exact takePath_kept h

theorem execFeedMessage_kept {t : TileId} (h : storageKept s) : ResultKept (execFeedMessage t s) := by
  unfold execFeedMessage
  refine .next (storageKept_ite h ?_)
  split
  · exact h
  · exact takeFeed_kept h
  · exact bumpF_kept _ _ (updTile_kept _ _ h)

theorem execHoldExpire_kept {q : QuarterId} {line : LineAddr} (h : storageKept s) : ResultKept (execHoldExpire q line s) := by
  unfold execHoldExpire
  refine .next ?_
  split
  · exact h
  · exact putWay_kept h

theorem execMsixUnmask_kept {fn : Func} {target : MaskTarget} (h : storageKept s) : ResultKept (execMsixUnmask fn target s) := by
  unfold execMsixUnmask
  refine .next (storageKept_ite (unsupportedReq_kept h) ?_)
  split
  · exact storageKept_ite (holdPosted_kept h) (msixUnmask_kept h)
  · exact storageKept_ite (holdPosted_kept h) (msixUnmask_kept h)
  · exact msixUnmask_kept h

theorem execFlitCrcFail_kept {fec : Nat} {failsInRow : Nat} (h : storageKept s) : ResultKept (execFlitCrcFail fec failsInRow s) := by
  unfold execFlitCrcFail
  refine .next (storageKept_ite h ?_)
  extract_lets s1 s2
  have ks1 : storageKept s1 := storageKept_ite (bumpF_kept _ _ h) h
  clear_value s1
  have ks2 : storageKept s2 := event_kept _ (bumpF_kept _ _ ks1)
  clear_value s2
  exact storageKept_ite (event_kept _ (bumpF_kept _ _ ks2)) ks2

theorem execIdeIntegrityFail_kept {stream : IdeStream} (h : storageKept s) : ResultKept (execIdeIntegrityFail stream s) := by
  unfold execIdeIntegrityFail
  refine .next ?_
  split
  · exact event_kept _ (bumpF_kept _ _ h)
  · exact event_kept _ h

theorem execIdeKmKeyProgram_kept {stream : IdeStream} (h : storageKept s) : ResultKept (execIdeKmKeyProgram stream s) := by
  unfold execIdeKmKeyProgram
  refine .next ?_
  split <;> exact h

theorem execFltBeaconClear_kept {p : Port} {view : Option WardId} {mask : BitVec 64} (h : storageKept s) :
    ResultKept (execFltBeaconClear p view mask s) := by
  unfold execFltBeaconClear
  refine .next ?_
  split <;> exact hostWrite_kept (fun _ hu => clearBeacon_kept hu) h

theorem execCalUserHoldEnd_kept (h : storageKept s) : ResultKept (execCalUserHoldEnd s) := by
  unfold execCalUserHoldEnd
  refine .next ?_
  split
  · exact calFree_kept h
  · exact h

theorem execMfcr_kept {t : TileId} {f : SysForm} (h : storageKept s) : ResultKept (execMfcr t f s) :=
  .next (tileOp_kept (fun _ hu => retireAlone_kept (updTile_kept _ _ hu)) h)

theorem execMtcr_kept {t : TileId} {f : SysForm} (h : storageKept s) : ResultKept (execMtcr t f s) :=
  .next (tileOp_kept (fun _ hu => updTile_kept _ _ (retireAlone_kept hu)) h)

theorem execStoreBufferDrain_kept {t : TileId} {i : Nat} (h : storageKept s) : ResultKept (execStoreBufferDrain t i s) := by
  unfold execStoreBufferDrain
  split
  · exact .next h
  · exact .next (wakeTile_kept (drainEntry_kept h))

/-- What every command keeps: the meaning of each is put together from operations that keep the form. -/
theorem exec_kept (c : Instr) (h : storageKept s) : ResultKept (exec c s) :=
  match c with
  | .registerWrite .. => execRegisterWrite_kept h
  | .rcFieldRead .. => execRcFieldRead_kept h
  | .vauxLoss => .next (vauxLost_kept h)
  | .vauxGood .. => .next (vauxUp_kept h)
  | .coreGood => .next (storageKept_ite (leaveReset_kept h) h)
  | .coreRailLoss => .next (railsLost_kept h)
  | .perstNAssert => .next (storageKept_ite (warmReset_kept h) h)
  | .perstNDeassert => .next (leaveReset_kept h)
  | .hotReset | .linkDown | .pf0Flr => .next (storageKept_ite (warmReset_kept h) h)
  | .vfFlr .. => .next (vfFlr_kept h)
  | .wardReset .. => .next (hostWrite_kept (fun _ hu => startWardReset_kept hu) h)
  | .wardResetWipe .. => .next (wipeWard_kept h)
  | .wardResetDone .. => .next (wardResetDone_kept h)
  | .cxlReset .. => .next (storageKept_ite (startCxlReset_kept h) h)
  | .cxlResetComplete => .next (recordRetry_kept (endCxlReset_kept h))
  | .tileReset .. => .next (hostWrite_kept (fun _ hu => ctrlReset_kept hu) h)
  | .tilRunWrite .. => .next (hostWrite_kept (fun _ hu => setRun_kept hu) h)
  | .doorbell .. => .next (hostWrite_kept (fun _ hu => doorbell_kept hu) h)
  | .dbgConsentWrite .. => .next (hostWrite_kept (fun _ hu => writeConsent_kept hu) h)
  | .plnLoad => .next (hostWrite_kept (fun _ hu => startLoad_kept hu) h)
  | .loadInstall => .next (updReady_kept (finishPlan_kept h))
  | .plnSwap .. => .next (hostWrite_kept (fun _ hu => startSwap_kept hu) h)
  | .swapInstall => .next (finishSwap_kept h)
  | .swapAbandon => .next (overrunSwap_kept h)
  | .plnSeal => .next (hostWrite_kept (fun _ hu => sealPlan_kept hu) h)
  | .bootPlanLoad => .next (bootLoad_kept h)
  | .bootPlanInstall => .next (bootInstall_kept h)
  | .paceSample .. => .next (storageKept_ite (samplePace_kept h) h)
  | .stallEvent .. => .next (storageKept_ite (stopUnit_kept h) h)
  | .stallSelftest .. => .next (storageKept_ite (event_kept _ (setF_kept _ _ (setF_kept _ _ (bumpF_kept _ _ h)))) h)
  | .illegalCodeDetect .. => .next (storageKept_ite (illegalCode_kept h) h)
  | .parityError .. => .next (storageKept_ite (checkHit_kept h) h)
  | .add .. | .sub .. | .and .. | .or .. | .xor .. | .sll .. | .srl .. | .sra .. | .slt .. | .sltu .. | .mul .. | .mulh .. | .mulhu ..
  | .div .. | .divu .. | .rem .. | .remu .. | .min .. | .max .. | .minu .. | .maxu .. => .next (aluOp_kept h)
  | .addi .. | .andi .. | .ori .. | .xori .. | .slti .. | .sltiu .. | .shi .. => .next (immOp_kept h)
  | .insh .. => .next (regOp_kept h)
  | .lb .. | .lbu .. | .lh .. | .lhu .. | .lw .. | .lwu .. | .ld .. | .flw .. | .flh .. => .next (loadOp_kept h)
  | .ptest .. => execPtest_kept h
  | .sb .. | .sh .. | .sw .. | .sd .. | .fsw .. | .fsh .. => .next (storeOp_kept h)
  | .beq .. | .bne .. | .blt .. | .bge .. | .bltu .. | .bgeu .. => .next (branchOp_kept h)
  | .j .. | .jal .. | .jr .. | .jalr .. => .next (jumpOp_kept h)
  | .faddS .. | .fsubS .. | .fmulS .. | .fdivS .. => .next (fpS_kept h)
  | .fsqrtS .. | .fminS .. | .fmaxS .. | .fnegS .. | .fabsS .. => .next (regOp_kept h)
  | .feqS .. | .fltS .. | .fleS .. => .next (fpCmp_kept h)
  | .fcvtLS .. | .fcvtLuS .. => .next (fpToInt_kept h)
  | .fcvtSL .. | .fcvtSLu .. | .fcvtBfS .. | .fmvGF .. | .fmvFG .. => .next (regOp_kept h)
  | .faddB .. | .fmulB .. | .fsubB .. => .next (fpB_kept h)
  | .fmaddS .. | .fmsubS .. | .fnmaddS .. => .next (fpMadd_kept h)
  | .fmaddB .. => .next (regOp_kept h)
  | .atomicSwap .. | .atomicCas .. | .atomicAdd .. | .atomicAnd .. | .atomicOr .. | .atomicXor .. | .atomicMin .. | .atomicMax ..
  | .atomicMinu .. | .atomicMaxu .. => .next (atomicOp_kept h)
  | .send .. => .next (sendOp_kept h)
  | .recv .. => .next (recvOp_kept h)
  | .getwork .. => .next (getworkOp_kept h)
  | .puttok .. => .next (puttokOp_kept h)
  | .pset .. => execPset_kept h
  | .fenceCAcquire .. | .fenceCRelease .. | .fenceCReleaseAcquire .. | .fenceQAcquire .. | .fenceQRelease .. | .fenceQReleaseAcquire ..
  | .fenceSAcquire .. | .fenceSRelease .. | .fenceSReleaseAcquire .. => .next (fenceOp_kept h)
  | .fenceComplete .. => .next (fenceStep_kept h)
  | .mfcr .. => execMfcr_kept h
  | .mtcr .. => execMtcr_kept h
  | .eret .. =>
      .next (tileOp_kept (fun _ hu =>
        storageKept_ite (except_kept (lsCorrect_kept hu)) (returnException_kept (retireAlone_kept (lsCorrect_kept hu)))) h)
  | .trap .. => .next (tileOp_kept (fun _ hu => takeException_kept hu) h)
  | .brk .. => .next (tileOp_kept (fun _ hu => except_kept hu) h)
  | .wait .. => .next (tileOp_kept (fun _ hu => storageKept_ite (retireAlone_kept hu) (updTile_kept _ _ hu)) h)
  | .syncI .. => .next (tileOp_kept (fun _ hu => retireAlone_kept (updTile_kept _ _ hu)) h)
  | .timecmpReached .. => .next (storageKept_ite (endWait_kept h) h)
  | .interruptTake .. => .next (takeInterrupt_kept h)
  | .storeBufferDrain .. => execStoreBufferDrain_kept h
  | .packetAdvance .. => .next (advanceAll_kept h)
  | .msgDeliver .. => .next (deliverMsg_kept h)
  | .gateEnter .. => .next (enterGate_kept h)
  | .gateDeliver .. => .next (leaveGate_kept h)
  | .probeGo .. => .next (hostWrite_kept (fun _ hu => sendProbe_kept hu) h)
  | .probeArrive .. => .next (probeArrives_kept h)
  | .probeReturn .. => .next (probeReturns_kept h)
  | .tokenArrive .. => execTokenArrive_kept h
  | .matchStoreAdmit .. => .next (admitWaiting_kept h)
  | .workDispatchTile .. => .next (storageKept_ite (dispatchTile_kept (tracePumpAll_kept h)) (tracePumpAll_kept h))
  | .workDispatchEngine .. => execWorkDispatchEngine_kept h
  | .tick => execTick_kept h
  | .dlyFlush .. => .next (hostWrite_kept (fun _ hu => flushDelays_kept hu) h)
  | .obsClear .. => .next (hostWrite_kept (fun _ hu => clearObs_kept hu) h)
  | .traceTailWrite .. => .next (hostWrite_kept (fun _ hu => writeTraceTail_kept hu) h)
  | .evtEdge .. => .next (pinEdge_kept h)
  | .evtFilterPass .. => execEvtFilterPass_kept h
  | .evtDeliver .. => .next (deliverEdge_kept h)
  | .engineAccept .. => execEngineAccept_kept h
  | .feedMessage .. => execFeedMessage_kept h
  | .ringFetch .. => .next (storageKept_ite (takeRing_kept h) h)
  | .ringTailWrite .. => .next (hostWrite_kept (fun _ hu => writeTail_kept hu) h)
  | .ringFaultClear .. => .next (hostWrite_kept (fun _ hu => setF_kept _ _ hu) h)
  | .feedEnWrite .. => .next (hostWrite_kept (fun _ hu => setFeed_kept hu) h)
  | .engineReset .. => .next (hostWrite_kept (fun _ hu => resetEngine_kept hu) h)
  | .engLast0Read .. => .next (hostRead_kept (fun _ hu => captureLast_kept hu) h)
  | .gemm .. | .eweAdd .. | .eweMul .. | .axpby .. | .unary .. | .convert .. | .rownorm .. | .softmax .. | .adamw .. | .sgdm ..
  | .factored .. | .gather .. | .scatter .. | .scatterAdd .. | .pack .. | .sum .. | .allreduce .. | .copy .. | .bmeFill .. | .strided ..
  | .sha256 .. | .crc64 .. => .next (opCmd_kept h)
  | .engineComplete .. => .next (storageKept_ite (completeDesc_kept h) h)
  | .holdExpire .. => execHoldExpire_kept h
  | .qcDisable .. => .next (hostWrite_kept (fun _ hu => startDrain_kept hu) h)
  | .qcDrainDone .. => .next (stopDrain_kept h)
  | .qcEnable .. => .next (hostWrite_kept (fun _ hu => enableCache_kept hu) h)
  | .qreset .. => .next (hostWrite_kept (fun _ hu => resetQuarter_kept hu) h)
  | .qcInjArm .. => .next (hostWrite_kept (fun _ hu => armCache_kept hu) h)
  | .rdS .. | .rdX .. | .upg .. | .own .. | .fill .. | .wb .. | .wbP .. | .evict .. | .rdC .. | .wrInv .. | .atP .. | .atFar .. | .hRd ..
  | .hWr .. => .next (takeRequest_kept h)
  | .data .. => .next (takeData_kept h)
  | .gntS .. | .gntE .. | .gntX .. => .next (takeGrant_kept h)
  | .wgo .. => .next (takeWgo_kept h)
  | .done .. => .next (takeDone_kept h)
  | .retry .. | .nack .. => .next (takeRefusal_kept h)
  | .go .. => .next (takeGo_kept h)
  | .atRes .. => .next (takeAtRes_kept h)
  | .requestResend .. => .next (resend_kept h)
  | .inv .. | .snpS .. | .snpInv .. | .snpCur .. => .next (takeSnoop_kept h)
  | .ack .. | .ackS .. | .snpMask .. | .lost .. => .next (takeAnswer_kept h)
  | .dramReadComplete .. => .next (dramDone_kept h)
  | .writeDataArrive .. => .next (takeWriteData_kept h)
  | .snoopTimeout .. => .next (storageKept_ite h (snoopSilent_kept h))
  | .biSnoopTimeout .. => .next (storageKept_ite h (biSilent_kept h))
  | .writeDataTimeout .. => .next (storageKept_ite h (dataSilent_kept h))
  | .lazyInitDone .. => .next (initDone_kept h)
  | .hostCacheResponse .. => .next (hostAnswer_kept h)
  | .hostSnpData .. | .hostSnpInv .. | .hostSnpCur .. => .next (hostSnoops_kept h)
  | .biRsp .. => .next (biAnswer_kept h)
  | .ledgerGrant => .next (grantNext_kept h)
  | .ddrTrainingDone .. => .next (trainAll_kept h)
  | .sealLoad .. => .next (hostWrite_kept (fun _ hu => loadKey_kept hu) h)
  | .sealKeyInstalled => .next (installKey_kept h)
  | .scrub | .wipe => .next (hostWrite_kept (fun _ hu => startScrub_kept hu) h)
  | .scrubAbort => .next (hostWrite_kept (fun _ hu => abortScrub_kept hu) h)
  | .scrubLine .. => .next (scrubStep_kept h)
  | .scrubPassEnd => .next (endScrub_kept h)
  | .coverageAgeTick => .next (storageKept_ite (ageRegions_kept h) h)
  | .eccInjArm .. => .next (hostWrite_kept (fun _ hu => armInjection_kept hu) h)
  | .linkTrained .. => .next (storageKept_ite h (storageKept_ite (event_kept _ h) h))
  | .configSpaceReady => .next (storageKept_ite (setF_kept _ _ h) h)
  | .configRequest .. => .next (cfgRequest_kept h)
  | .memoryActive => .next (storageKept_ite (updReady_kept (releaseHeld_kept (setF_kept _ _ (setF_kept _ _ h)))) h)
  | .memoryActiveTimeout => .next (storageKept_ite (event_kept _ (releaseHeld_kept h)) h)
  | .hdmCommit .. => .next (hostWrite_kept (fun _ hu => commitHdm_kept hu) h)
  | .memRd .. | .memRdData .. | .memInv .. | .memInvNt .. | .memClnEvct .. => .next (fromHost_kept (fun _ hu => hostRequest_kept hu) h)
  | .memSpecRd .. => .next (fromHost_kept (fun _ hu => hu) h)
  | .memWr .. | .memWrPtl .. => .next (fromHost_kept (fun _ hu => hostRequest_kept hu) h)
  | .biConflict .. => .next (fromHost_kept (fun _ hu => emit_kept _ hu) h)
  | .memBadOpcode .. => .next (fromHost_kept (fun _ hu => refuseHost_kept (bumpF_kept _ _ hu)) h)
  | .disableCaching => .next (storageKept_ite (setDisable_kept h) h)
  | .cacheWriteBackAndInvalidation => .next (startFlush_kept h)
  | .cacheInvalidSet => .next (endFlush_kept h)
  | .filterAtomic .. => .next (filterApply_kept h)
  | .bulkWrite .. => .next (storageKept_ite (unsupportedReq_kept h) (storageKept_ite h (rxArrive_kept h)))
  | .bulkRead .. => .next (storageKept_ite h (storageKept_ite (emit_kept _ (unsupportedReq_kept h))
      (storageKept_ite (emit_kept _ h) (rxArrive_kept h))))
  | .blkAddrWrite .. | .blkShapeWrite .. => .next (storageKept_ite (unsupportedReq_kept h) (storageKept_ite h (rxArrive_kept h)))
  | .msixUnmask .. => execMsixUnmask_kept h
  | .msixEnableChange .. => .next (storageKept_ite (setMsixEnable_kept h) h)
  | .intxUpdate => .next (updIntx_kept h)
  | .d3hotEntry => .next (storageKept_ite (enterD3hot_kept h) h)
  | .d0Return => .next (leaveD3hot_kept h)
  | .l1Request => .next (requestL1_kept h)
  | .l0pNarrow | .l0pWiden => .next (storageKept_ite (setLanes_kept h) h)
  | .flitCrcFail .. => execFlitCrcFail_kept h
  | .ideIntegrityFail .. => execIdeIntegrityFail_kept h
  | .ideKmKeyProgram .. => execIdeKmKeyProgram_kept h
  | .doeRequest .. => .next (storageKept_ite h (emit_kept _ h))
  | .fltBeaconClear .. => execFltBeaconClear_kept h
  | .faultnClear | .fltLock => .next (hostWrite_kept (fun _ hu => setF_kept _ _ hu) h)
  | .fltInject .. => .next (hostWrite_kept (fun _ hu => injectEvent_kept hu) h)
  | .logWrite .. => .next (logWriteOne_kept h)
  | .logCtrlRead .. => .next (hostWrite_kept (fun _ hu => startLogRead_kept hu) h)
  | .logCtrlErase => .next (hostWrite_kept (fun _ hu => startLogErase_kept hu) h)
  | .logEraseDone => .next (endLogErase_kept h)
  | .railSample .. => .next (storageKept_ite (sampleRails_kept h) h)
  | .railOutOfRange .. => .next (railOut_kept h)
  | .droopWarnFall .. => .next (droopFall_kept h)
  | .vcoreBandEntry .. => .next (bandEntry_kept h)
  | .dimEnter .. => .next (storageKept_ite h (storageKept_ite (dimRail_kept h) (storageKept_ite (enterDim_kept h) h)))
  | .dimSelfRefresh => .next (dimDeeper_kept h)
  | .dimExit => .next (leaveDim_kept h)
  | .dimLimit => .next (dimTimeout_kept h)
  | .plwNAssert => .next (storageKept_ite (plwBegin_kept h) h)
  | .plwQuiesced => .next (plwStep_kept h)
  | .thermWarn .. => .next (storageKept_ite (setF_kept _ _ h) h)
  | .thermOver .. => .next (storageKept_ite (event_kept _ (setF_kept _ _ h)) h)
  | .thermCold .. => .next (storageKept_ite (setF_kept _ _ h) h)
  | .thermalTrip .. => .next (tripNow_kept h)
  | .throttleHold => .next (storageKept_ite h h)
  | .calUserWrite .. => .next (hostWrite_kept (fun _ hu => calUserS_kept hu) h)
  | .calCmdSave => .next (hostWrite_kept (fun _ hu => calSaveS_kept hu) h)
  | .calCmdReload => .next (hostWrite_kept (fun _ hu => calReloadS_kept hu) h)
  | .calCmdZero => .next (hostWrite_kept (fun _ hu => calZeroS_kept hu) h)
  | .calFlashDone .. => .next (calFlashEnd_kept h)
  | .mctpPacket .. => .next (takePacket_kept h)
  | .mgmtResponseSend .. => .next (sendRsp_kept h)
  | .setEndpointId .. => .next (ctlRow_kept (fun _ hu => setEid_kept hu) h)
  | .getEndpointId => .next (ctlRow_kept (fun _ hu => getEid_kept hu) h)
  | .getMctpVersionSupport => .next (ctlRow_kept (fun _ hu => getVersions_kept hu) h)
  | .getMessageTypeSupport => .next (ctlRow_kept (fun _ hu => getTypes_kept hu) h)
  | .getVendorDefinedMessageSupport => .next (ctlRow_kept (fun _ hu => getVendors_kept hu) h)
  | .getIdentity .. | .getHealth .. | .getSupply .. | .getThermal .. | .readReg .. | .writeReg .. | .logHead .. => .next (request_kept h)
  | .logRead .. => .next (mgmtArrive_kept h)
  | .calGet .. | .calSet .. | .calSave .. | .calReload .. | .calZero .. | .throttle .. | .resetReq .. | .alertGet .. => .next (request_kept h)
  | .alertResponseAddress => .next (storageKept_ite (emit_kept _ h) h)
  | .lanternCtrl .. => .next (request_kept h)
  | .lanternArmExpire => .next (storageKept_ite h (relock_kept h))
  | .lineReset => .next h
  | .status .. => .next (lntPacket_kept (fun _ hu => lntData_kept hu) h)
  | .read .. => .next (lntPacket_kept (fun _ hu => lntOpen_kept (fun _ hu1 => lntRead_kept hu1) hu) h)
  | .write .. => .next (lntPacket_kept (fun _ hu => lntOpen_kept (fun _ hu1 => lntWrite_kept hu1) hu) h)
  | .unlock .. => .next (lntPacket_kept (fun _ hu => tryUnlock_kept hu) h)
  | .lntEventRead => .next (lntPacket_kept (fun _ hu => lntOpen_kept (fun _ hu1 => readEvent_kept hu1) hu) h)
  | .lntAccessReg => .next (accessReg_kept h)
  | .lntAccessMem => .next (accessMem_kept h)
  | .lntAccessLs => .next (accessLs_kept h)
  | .lntAccessCore => .next (accessCore_kept h)
  | .lntAccessDone => .next (accDone_kept h)
  | .halt .. => .next (lntPacket_kept (fun _ hu => lntOpen_kept (fun _ hu1 => runCmd_kept hu1) hu) h)
  | .tileHalt .. => .next (haltTile_kept h)
  | .resume .. | .step .. => .next (lntPacket_kept (fun _ hu => lntOpen_kept (fun _ hu1 => runCmd_kept hu1) hu) h)
  | .stepEnd .. => .next (endStep_kept h)
  | .lntComparatorWrite .. => .next (lntPacket_kept (fun _ hu => lntOpen_kept (fun _ hu1 => writeComp_kept hu1) hu) h)
  | .thermalRearm .. => .next (storageKept_ite (rearm_kept h) h)
  | .vcoreRecovery .. => .next (vcoreRise_kept h)
  | .plwNDeassert => .next (setF_kept _ _ h)
  | .l0pPartnerRequest .. => .next (storageKept_ite (setLanes_kept h) h)
  | .cxlIoCompletion .. => .next (ioCompletion_kept h)
  | .logCtrlReadDone => .next (endLogRead_kept h)
  | .calUserHoldEnd => execCalUserHoldEnd_kept h

theorem step_kept (h : storageKept s) : ResultKept (step s) := by
  unfold step
  split
  · exact .next (passTime_kept h)
  · exact exec_kept _ h

end State

/-- Settles O58: a step lets time pass or carries out the command at the front of the queue, and each keeps the form. -/
theorem storageStaysCanonical : Obligations.StorageStaysCanonical := by
  unfold Obligations.StorageStaysCanonical
  intro s v h e
  have k := State.step_kept h
  rw [e] at k
  cases k
  assumption

end Sys2Proof.Machine

/-! ### Resets (00 R3, R14; 15 R421; 17 R453, R469, R472, R473) -/

namespace Sys2Proof.Machine

theorem lookupCell_filter {α : Type} (d : α) (p : Nat → Bool) {k : Nat} (hk : p k = true) (l : List (Nat × α)) :
    lookupCell d (l.filter (fun c => p c.1)) k = lookupCell d l k := by
  induction l with
  | nil => rfl
  | cons c r ih =>
    by_cases hc : k = c.1
    · simp [lookupCell, ← hc, hk]
    · by_cases hp : p c.1 = true <;> simp [lookupCell, hc, hp, ih]

/-- An entry that stays when others are dropped reads as before. -/
theorem Tbl.get_drop {α : Type} (d : α) (t : Tbl α) (p : Nat → Bool) {k : Nat} (hk : p k = false) : (t.drop p).get d k = t.get d k :=
  lookupCell_filter d (fun j => !p j) (by simp [hk]) t.cells

/-- What holds of every listed entry and of the default holds of what any key reads as. -/
theorem Tbl.get_of_forall {α : Type} {P : α → Prop} {d : α} {t : Tbl α} (hd : P d) (h : ∀ c ∈ t.cells, P c.2) (k : Nat) : P (t.get d k) := by
  obtain ⟨l⟩ := t
  induction l with
  | nil => exact hd
  | cons c r ih =>
    rw [Tbl.get, lookupCell]
    split_ifs
    · exact h c (by simp)
    · exact ih fun e he => h e (by simp [he])

/-- A fold whose every step changes nothing. -/
theorem foldl_of_fixed {α β : Type} {g : β → α → β} {b : β} {l : List α} (h : ∀ a ∈ l, g b a = b) : l.foldl g b = b := by
  induction l with
  | nil => rfl
  | cons a l ih => rw [List.foldl_cons, h a (by simp), ih fun c hc => h c (by simp [hc])]

namespace State
variable {s : State}

/-! #### Nothing is written back in a quiet state (11 R316) -/

/-- A way that neither reading the arrays nor a flush touches. -/
def CleanWay (c : CWay) : Prop := c.tagBad = false ∧ c.maskErrs = [] ∧ c.st ≠ .m ∧ c.st ≠ .im ∧ c.st ≠ .sm

/-- No erase is under way, no cache holds a modified line or one to repair, and no home holds a transaction. -/
def Quiet (s : State) : Prop :=
  s.isF F.FLT_LOG_CTRL_ERASE = false
    ∧ (∀ q, (s.quarter q).bufs = [] ∧ ∀ c ∈ (s.quarter q).ways.cells, CleanWay c.2)
    ∧ (∀ h < 17, (s.homeN h).txns = [] ∧ (s.homeN h).wbufs = [])

theorem Quiet.way (h : Quiet s) (q : QuarterId) (k : Nat) : CleanWay ((s.quarter q).ways.get CWay.free k) :=
  Tbl.get_of_forall (P := CleanWay) ⟨rfl, rfl, by decide, by decide, by decide⟩ (h.2.1 q).2 k

theorem Quiet.cell (h : Quiet s) {q : QuarterId} {c : Nat × CWay} (hc : c ∈ (s.quarter q).ways.cells) : CleanWay c.2 := (h.2.1 q).2 c hc

theorem tagScan_of_quiet (h : Quiet s) (q : QuarterId) (set : Nat) : s.tagScan q set = s :=
  foldl_of_fixed fun _ _ => if_neg (by rw [Quarter.way, (h.way q _).1]; nofun)

theorem checkMask_of_quiet (h : Quiet s) (q : QuarterId) (set w : Nat) : s.checkMask q set w = s := by
  rw [checkMask, Quarter.way, (h.way q _).2.1]
  rfl

theorem scanQuarter_of_quiet (h : Quiet s) (q : QuarterId) : s.scanQuarter q = s := by
  have tags : ((s.quarter q).ways.cells.map (fun c => c.1 / 16)).eraseDups.foldl (fun s set => s.tagScan q set) s = s :=
    foldl_of_fixed fun set _ => tagScan_of_quiet h q set
  unfold scanQuarter
  rw [tags]
  refine foldl_of_fixed fun c _ => ?_
  obtain ⟨-, -, hm, him, hsm⟩ := h.way q c.1
  rw [checkMask_of_quiet h, ite_self]
  dsimp only
  split
  · contradiction
  · contradiction
  · contradiction
  · rfl

theorem flushOwned_of_quiet (h : Quiet s) (up : Bool) (q : QuarterId) : s.flushOwned up q = s := by
  unfold flushOwned
  rw [(h.2.1 q).1, List.foldl_nil]
  exact foldl_of_fixed fun c hc => if_neg (h.cell hc).2.2.1

theorem flushHome_of_quiet (h : Quiet s) (up : Bool) {k : Nat} (hk : k < 17) : s.flushHome up k = s := by
  obtain ⟨ht, hw⟩ := h.2.2 k hk
  rw [flushHome, ht, List.foldl_nil, hw, List.foldl_nil]

theorem flushEarly_of_quiet (h : Quiet s) (up : Bool) (q : QuarterId) : s.flushEarly up q = s := by
  have ways : (s.quarter q).ways.cells.foldl (fun s c => match c.2.st with
      | .im => s.flushWay up q c.2 c.2.valid false
      | .sm => s.flushWay up q c.2 c.2.upgMask false
      | _ => s) s = s := foldl_of_fixed fun c hc => by
    obtain ⟨-, -, -, him, hsm⟩ := h.cell hc
    split
    · contradiction
    · contradiction
    · rfl
  unfold flushEarly
  refine Eq.trans (congrArg (fun v : State => List.foldl _ v (v.quarter q).bufs) ways) ?_
  rw [(h.2.1 q).1, List.foldl_nil]

theorem flushAll_of_quiet (h : Quiet s) (up : Bool) : s.flushAll up = s := by
  have scan : ∀ l : List QuarterId, l.foldl scanQuarter s = s := fun _ => foldl_of_fixed fun q _ => scanQuarter_of_quiet h q
  have owned : ∀ l : List QuarterId, l.foldl (fun s q => s.flushOwned up q) s = s := fun _ => foldl_of_fixed fun q _ => flushOwned_of_quiet h up q
  have home : (List.range 17).foldl (fun s h => s.flushHome up h) s = s :=
    foldl_of_fixed fun k hk => flushHome_of_quiet h up (List.mem_range.mp hk)
  have early : ∀ l : List QuarterId, l.foldl (fun s q => s.flushEarly up q) s = s := fun _ => foldl_of_fixed fun q _ => flushEarly_of_quiet h up q
  simp only [flushAll, scan, owned, home, early]

/-! #### The core domain in reset -/

/-- What a reset of the core domain leaves of it. -/
def CoreCleared (v : State) : Prop :=
  v.tiles = .empty ∧ v.plan = Plan.none ∧ v.keys = .empty ∧ v.lamp = .empty ∧ v.engines = .empty ∧ v.quarters = .empty
    ∧ v.net = [] ∧ v.arrivals = [] ∧ v.ledger = State.reset.ledger ∧ v.ready = false ∧ v.job = .idle

/-- What `v` has of the Gatehouse island of `s` after a reset. -/
def IslandKept (s v : State) (cold : Bool) : Prop :=
  v.pending = s.pending ∧ v.supTime = s.supTime ∧ v.tickCount = s.tickCount ∧ v.fuses = s.fuses
    ∧ v.mgmt = { s.mgmt with pendingReset := s.mgmt.pendingReset.filter (fun x => x.1 == 2 || (!cold && x.1 == 1)) }
    ∧ v.logQueue = s.logQueue ∧ v.logNextSeq = s.logNextSeq ∧ v.logNextSlot = s.logNextSlot ∧ v.flash = s.flash ∧ v.smbAlert = s.smbAlert
    ∧ v.lantern.lock = s.lantern.lock ∧ v.lantern.fails = s.lantern.fails ∧ v.lantern.halts = []

/-- GBL_RESET_CAUSE of `v` names the cause and counts one reset more than that of `s`. -/
def CauseTold (s v : State) (cause : Nat) : Prop :=
  v.getF F.GBL_RESET_CAUSE_LAST = cause
    ∧ v.getF F.GBL_RESET_CAUSE_WARM_COUNT = min 65535 (s.getF F.GBL_RESET_CAUSE_WARM_COUNT + 1)

/-- The two fields that leaving reset writes. -/
def leaveFields : List Fld := [F.SUP_BOOT_VALUE 0, F.SUP_CAL_ITEM_INFORCE 2]

/-- Leaving reset touches register fields, the power state and WAKE_N. -/
theorem leaveReset_eq (s : State) : ∃ t p w, s.leaveReset = { s with fld := t, power := p, wake := w } := by
  unfold leaveReset
  dsimp only
  split_ifs
  · exact ⟨_, _, _, rfl⟩
  · exact ⟨_, _, _, rfl⟩

theorem getF_leaveReset (s : State) {f : Fld} (hf : ∀ g ∈ leaveFields, f.key ≠ g.key) : s.leaveReset.getF f = s.getF f := by
  unfold leaveReset
  dsimp only
  split_ifs
  · rw [getF_setF_other _ _ _ _ (hf _ (by simp [leaveFields])), getF_setF_other _ _ _ _ (hf _ (by simp [leaveFields]))]
    rfl
  · rfl

/-- What the core needs to leave reset. -/
def canLeave (p : Power) : Bool := p.vauxGood && p.fuseGood && p.coreGood && !p.perst && p.pAt.isNone

theorem leaveReset_of_not {s : State} (h : canLeave s.power = false) : s.leaveReset = s := if_neg (by rw [← canLeave, h]; nofun)

theorem power_leaveReset_of_not {s : State} (h : canLeave s.power = false) : s.leaveReset.power = s.power := by rw [leaveReset_of_not h]

theorem leaveReset_of {s : State} (h : canLeave s.power = true) : s.leaveReset =
    (({ s with power := { s.power with pAt := some s.supTime, coreUp := true, d3cold := false, coldBinds := [], coldPme := false }, wake := false
      }).setF
      (F.SUP_BOOT_VALUE 0) s.supTime).setF (F.SUP_CAL_ITEM_INFORCE 2) (s.getF (F.SUP_CAL_ITEM_USER 2)) := if_pos h

/-- The core runs after the attempt to leave reset when it could leave. -/
theorem coreUp_leaveReset {s : State} (h : s.power.coreUp = false) : s.leaveReset.power.coreUp = canLeave s.power := by
  cases hc : canLeave s.power
  · rw [leaveReset_of_not hc, h]
  · rw [leaveReset_of hc]
    rfl

/-- The last steps of a reset: `r` is the state with the core domain cleared, `old` the state before. -/
def resetEnd (r old : State) (cause : Nat) : State :=
  (((r.keepTrip old).setF F.GBL_RESET_CAUSE_LAST cause).bumpF F.GBL_RESET_CAUSE_WARM_COUNT 1).leaveReset

theorem keepTrip_eq (s old : State) : ∃ t, s.keepTrip old = { s with fld := t } := by
  unfold keepTrip
  split_ifs
  · exact ⟨_, rfl⟩
  · exact ⟨_, rfl⟩

theorem getF_keepTrip (s old : State) {f : Fld} (hf : ∀ g ∈ [F.SUP_DIM_STATE, F.SUP_DIM_CAUSE, F.SUP_THERM_TRIPPED], f.key ≠ g.key) :
    (s.keepTrip old).getF f = s.getF f := by
  unfold keepTrip
  split_ifs
  · rw [getF_setF_other _ _ _ _ (hf _ (by simp)), getF_setF_other _ _ _ _ (hf _ (by simp)), getF_setF_other _ _ _ _ (hf _ (by simp))]
  · rfl

/-- The last steps of a reset touch register fields, the power state and WAKE_N. -/
theorem resetEnd_eq (r old : State) (cause : Nat) : ∃ t p w, resetEnd r old cause = { r with fld := t, power := p, wake := w } := by
  obtain ⟨t, p, w, e⟩ := leaveReset_eq (((r.keepTrip old).setF F.GBL_RESET_CAUSE_LAST cause).bumpF F.GBL_RESET_CAUSE_WARM_COUNT 1)
  obtain ⟨t2, e2⟩ := keepTrip_eq r old
  refine ⟨t, p, w, e.trans ?_⟩
  rw [e2]
  rfl

theorem coreUp_resetEnd {r : State} (old : State) (cause : Nat) (h : r.power.coreUp = false) :
    (resetEnd r old cause).power.coreUp = canLeave r.power := by
  obtain ⟨t, e⟩ := keepTrip_eq r old
  rw [resetEnd, e]
  exact coreUp_leaveReset h

theorem resetCauseLast_resetEnd (r old : State) {cause : Nat} (h : cause < 16) : (resetEnd r old cause).getF F.GBL_RESET_CAUSE_LAST = cause := by
  rw [resetEnd, getF_leaveReset _ (by decide), bumpF, getF_setF_other _ _ _ _ (by decide), getF_setF]
  exact Nat.mod_eq_of_lt h

theorem warmCount_resetEnd (r old : State) (cause : Nat) :
    (resetEnd r old cause).getF F.GBL_RESET_CAUSE_WARM_COUNT = min 65535 (r.getF F.GBL_RESET_CAUSE_WARM_COUNT + 1) := by
  rw [resetEnd, getF_leaveReset _ (by decide), bumpF, getF_setF, getF_setF_other _ _ _ _ (by decide), getF_keepTrip _ _ (by decide)]
  exact Nat.mod_eq_of_lt (lt_of_le_of_lt (min_le_left _ _) (by decide))

/-- The count of warm resets outlasts a reset of the core domain (00, GBL_RESET_CAUSE). -/
theorem warmCount_coreReset (s : State) (cold : Bool) :
    (s.coreReset cold).getF F.GBL_RESET_CAUSE_WARM_COUNT = s.getF F.GBL_RESET_CAUSE_WARM_COUNT := by
  have fld : (s.coreReset cold).fld = s.resetFld cold := rfl
  have cls : fldClass F.GBL_RESET_CAUSE_WARM_COUNT.key = some .cold := by decide
  rw [getF, fld, resetFld]
  exact (getF_setF_other _ _ _ _ (by decide)).trans (Tbl.get_drop _ _ _ (by simp [cls]))

theorem coreCleared_resetEnd {r : State} (old : State) (cause : Nat) (h : CoreCleared r) : CoreCleared (resetEnd r old cause) := by
  obtain ⟨t, p, w, e⟩ := resetEnd_eq r old cause
  rw [e]
  exact h

theorem islandKept_resetEnd {r : State} (old : State) {cold : Bool} (cause : Nat) (h : IslandKept s r cold) :
    IslandKept s (resetEnd r old cause) cold := by
  obtain ⟨t, p, w, e⟩ := resetEnd_eq r old cause
  rw [e]
  exact h

theorem coreCleared_coreReset (s : State) (cold : Bool) : CoreCleared (s.coreReset cold) := ⟨rfl, rfl, rfl, rfl, rfl, rfl, rfl, rfl, rfl, rfl, rfl⟩

theorem islandKept_coreReset (s : State) (cold : Bool) : IslandKept s (s.coreReset cold) cold :=
  ⟨rfl, rfl, rfl, rfl, rfl, rfl, rfl, rfl, rfl, rfl, rfl, rfl, rfl⟩

/-! #### A warm reset (15 R421) -/

/-- The link as an FLR leaves it. -/
def linkKept (l : Link) : Link :=
  { Link.down with up := l.up, rate := l.rate, width := l.width, cxl := l.cxl, l0p := l.l0p, insecure := l.insecure, ideMemBad := l.ideMemBad }

/-- The state with the core domain cleared by a warm reset that follows on `old`. -/
def warmCleared (old : State) (keepLink : Bool) : State :=
  if keepLink then { (old.flushAll keepLink).coreReset false with link := linkKept old.link } else (old.flushAll keepLink).coreReset false

/-- The state after the erase of the log that a reset cuts short (16 R450). -/
def eraseEnded (s : State) : State := if s.isF F.FLT_LOG_CTRL_ERASE then s.endLogErase else s

theorem warmReset_eq (s : State) (cause : Nat) (keepLink : Bool) :
    s.warmReset cause keepLink = resetEnd (warmCleared s.eraseEnded keepLink) s.eraseEnded cause := rfl

theorem Quiet.eraseEnded (h : Quiet s) : s.eraseEnded = s := if_neg (by rw [h.1]; nofun)

theorem coreCleared_warmCleared (old : State) (keepLink : Bool) : CoreCleared (warmCleared old keepLink) := by
  unfold warmCleared
  split_ifs
  · exact coreCleared_coreReset (old.flushAll keepLink) false
  · exact coreCleared_coreReset (old.flushAll keepLink) false

theorem coreCleared_warmReset (s : State) (cause : Nat) (keepLink : Bool) : CoreCleared (s.warmReset cause keepLink) := by
  rw [warmReset_eq]
  exact coreCleared_resetEnd _ _ (coreCleared_warmCleared _ _)

theorem resetCauseLast_warmReset (s : State) {cause : Nat} (keepLink : Bool) (h : cause < 16) :
    (s.warmReset cause keepLink).getF F.GBL_RESET_CAUSE_LAST = cause := resetCauseLast_resetEnd _ _ h

theorem link_warmReset (s : State) (cause : Nat) : (s.warmReset cause false).link = Link.down := by
  obtain ⟨t, p, w, e⟩ := resetEnd_eq (warmCleared s.eraseEnded false) s.eraseEnded cause
  rw [warmReset_eq, e]
  rfl

/-- In a quiet state a warm reset keeps the island and memory, counts itself, and the core leaves reset when it may. -/
theorem warmReset_of_quiet (h : Quiet s) {cause : Nat} (keepLink : Bool) (hc : cause < 16) :
    IslandKept s (s.warmReset cause keepLink) false ∧ CoreCleared (s.warmReset cause keepLink) ∧ CauseTold s (s.warmReset cause keepLink) cause
      ∧ (s.warmReset cause keepLink).dram = s.dram
      ∧ (s.warmReset cause keepLink).link = (if keepLink then linkKept s.link else Link.down)
      ∧ (s.warmReset cause keepLink).power.coreUp = (s.power.vauxGood && s.power.fuseGood && s.power.coreGood && !s.power.perst) := by
  have cleared : warmCleared s keepLink = if keepLink then { s.coreReset false with link := linkKept s.link } else s.coreReset false := by
    rw [warmCleared, flushAll_of_quiet h]
  have count : (warmCleared s keepLink).getF F.GBL_RESET_CAUSE_WARM_COUNT = s.getF F.GBL_RESET_CAUSE_WARM_COUNT := by
    rw [cleared]
    cases keepLink <;> exact warmCount_coreReset s false
  have island : IslandKept s (warmCleared s keepLink) false := by
    rw [cleared]
    cases keepLink <;> exact islandKept_coreReset s false
  have up : (resetEnd (warmCleared s keepLink) s cause).power.coreUp = canLeave (warmCleared s keepLink).power := by
    refine coreUp_resetEnd _ _ ?_
    rw [cleared]
    cases keepLink <;> rfl
  have e := warmReset_eq s cause keepLink
  rw [h.eraseEnded] at e
  rw [e]
  refine ⟨islandKept_resetEnd _ _ island, ?_, ⟨resetCauseLast_resetEnd _ _ hc, ?_⟩, ?_, ?_, ?_⟩
  · rw [← e]
    exact coreCleared_warmReset s cause keepLink
  · rw [warmCount_resetEnd, count]
  · obtain ⟨t, p, w, e2⟩ := resetEnd_eq (warmCleared s keepLink) s cause
    rw [e2, cleared]
    cases keepLink <;> rfl
  · obtain ⟨t, p, w, e2⟩ := resetEnd_eq (warmCleared s keepLink) s cause
    rw [e2, cleared]
    cases keepLink <;> rfl
  · rw [up, cleared]
    cases keepLink <;> exact Bool.and_true _

/-! #### The core rails are removed (17 R472, R473) -/

theorem power_resetEnd_of_not {r : State} (old : State) (cause : Nat) (h : canLeave r.power = false) : (resetEnd r old cause).power = r.power := by
  obtain ⟨t, e⟩ := keepTrip_eq r old
  rw [resetEnd, e]
  exact power_leaveReset_of_not h

/-- The state in which the removal of the core rails begins the core cold reset. -/
def railsGone (s : State) : State := { s with thermtrip := false, power := { s.power with coreGood := false } }

theorem railsLost_of {s : State} (hv : s.power.vauxGood = true) (hc : s.power.coreGood = true) (he : s.isF F.FLT_LOG_CTRL_ERASE = false) :
    ∃ r p, r = resetEnd (s.railsGone.coreReset true) s.railsGone 2 ∧ s.railsLost = { r with power := p }
      ∧ p = { r.power with d3cold := true, coldBinds := s.bindsNow, coldPme := s.pmeEn } := by
  have erase : s.railsGone.isF F.FLT_LOG_CTRL_ERASE = false := he
  have cold : s.railsGone.coldCore = resetEnd (s.railsGone.coreReset true) s.railsGone 2 := by
    rw [coldCore, erase]
    rfl
  refine ⟨_, _, rfl, ?_, rfl⟩
  rw [railsLost, hv, hc, ← cold]
  rfl

theorem railsLost_resets {s : State} (hv : s.power.vauxGood = true) (hc : s.power.coreGood = true) (he : s.isF F.FLT_LOG_CTRL_ERASE = false) :
    IslandKept s s.railsLost true ∧ CoreCleared s.railsLost ∧ CauseTold s s.railsLost 2 ∧ s.railsLost.dram = .empty
      ∧ s.railsLost.homes = .empty ∧ s.railsLost.power.coreUp = false ∧ s.railsLost.power.coreGood = false ∧ s.railsLost.power.d3cold = true
      ∧ s.railsLost.thermtrip = false := by
  obtain ⟨r, p, hr, e, hp⟩ := railsLost_of hv hc he
  have off : r.power = (s.railsGone.coreReset true).power := by
    rw [hr]
    exact power_resetEnd_of_not _ _ (by simp [canLeave, coreReset, powerKept, railsGone])
  have island : IslandKept s r true := hr ▸ islandKept_resetEnd (s := s) _ _ (islandKept_coreReset s.railsGone true)
  have core : CoreCleared r := hr ▸ coreCleared_resetEnd _ _ (coreCleared_coreReset _ _)
  have told : CauseTold s r 2 := by
    refine hr ▸ ⟨resetCauseLast_resetEnd _ _ (by decide), ?_⟩
    rw [warmCount_resetEnd, warmCount_coreReset]
    rfl
  have rest : r.dram = .empty ∧ r.homes = .empty ∧ r.thermtrip = false := by
    obtain ⟨t, q, w, e2⟩ := resetEnd_eq (s.railsGone.coreReset true) s.railsGone 2
    rw [hr, e2]
    exact ⟨rfl, rfl, rfl⟩
  rw [e]
  refine ⟨island, core, told, rest.1, rest.2.1, ?_, ?_, ?_, rest.2.2⟩
  · rw [hp, off]
    rfl
  · rw [hp, off]
    rfl
  · rw [hp]

/-! #### VAUX comes up (17 R453, R466, R469) -/

/-- `v` differs from `s` in register fields only. -/
def FieldsOnly (s v : State) : Prop := ∃ t, v = { s with fld := t }

theorem fieldsOnly_setF (f : Fld) (x : Nat) : FieldsOnly s (s.setF f x) := ⟨_, rfl⟩

theorem FieldsOnly.trans {u v : State} (h : FieldsOnly s u) (k : FieldsOnly u v) : FieldsOnly s v := by
  obtain ⟨t, rfl⟩ := h
  obtain ⟨t2, rfl⟩ := k
  exact ⟨t2, rfl⟩

theorem FieldsOnly.setF {u : State} {f : Fld} {x : Nat} (h : FieldsOnly s u) : FieldsOnly s (u.setF f x) := h.trans (fieldsOnly_setF f x)

theorem fieldsOnly_foldl {α : Type} {g : State → α → State} (hg : ∀ u a, FieldsOnly u (g u a)) (l : List α) (s : State) :
    FieldsOnly s (l.foldl g s) := by
  induction l generalizing s with
  | nil => exact ⟨_, rfl⟩
  | cons a l ih => exact (hg s a).trans (ih _)

theorem fieldsOnly_setUser (n : Nat) (v : Int) : FieldsOnly s (s.setUser n v) := by
  unfold setUser
  dsimp only
  split_ifs
  · exact fieldsOnly_setF _ _
  · exact (fieldsOnly_setF _ _).trans (fieldsOnly_setF _ _)

theorem fieldsOnly_calLoad (s : State) : FieldsOnly s s.calLoad := by
  unfold calLoad
  split
  · exact ((fieldsOnly_foldl (fun _ _ => fieldsOnly_setF _ _) _ _).trans (fieldsOnly_setF _ _)).trans (fieldsOnly_setF _ _)
  · exact ((fieldsOnly_foldl (fun _ _ => fieldsOnly_setUser _ _) _ _).trans (fieldsOnly_setF _ _)).trans (fieldsOnly_setF _ _)

/-- Each of the fields that are zeroed reads 0. -/
theorem getF_foldl_zero {g : Nat → Fld} {l : List Nat} {k : Nat} (hk : k ∈ l) (s : State) :
    (l.foldl (fun s n => s.setF (g n) 0) s).getF (g k) = 0 := by
  have still : ∀ (l : List Nat) (u : State), u.getF (g k) = 0 → (l.foldl (fun s n => s.setF (g n) 0) u).getF (g k) = 0 := fun l u hu =>
    List.foldlRecOn (motive := fun u : State => u.getF (g k) = 0) l _ hu fun u hu n _ => by
      by_cases e : (g k).key = (g n).key
      · have put : (u.setF (g n) 0).getF (g k) = (u.setF (g n) 0).getF (g n) := by rw [getF, getF, e]
        rw [put, getF_setF, Nat.zero_mod]
      · rw [getF_setF_other _ _ _ _ e, hu]
  induction l generalizing s with
  | nil => contradiction
  | cons n l ih =>
    rcases List.mem_cons.mp hk with rfl | h
    · exact still l _ (by rw [getF_setF, Nat.zero_mod])
    · exact ih h _

/-- Without a good copy the store is empty and each user value is 0 (17 R466). -/
theorem calLoad_of_none (h : s.calCurrent = none) :
    s.calLoad.getF F.SUP_CAL_STATUS_STORE_EMPTY = 1 ∧ ∀ k < 7, s.calLoad.getF (F.SUP_CAL_ITEM_USER k) = 0 := by
  unfold calLoad
  rw [h]
  dsimp only
  constructor
  · rw [getF_setF_other _ _ _ _ (by decide), getF_setF]
    rfl
  · intro k hk
    rw [getF_setF_other _ _ _ _ (by simp only [Fld.key, F.SUP_CAL_STATUS_SEQ, F.SUP_CAL_ITEM_USER]; omega),
      getF_setF_other _ _ _ _ (by simp only [Fld.key, F.SUP_CAL_STATUS_STORE_EMPTY, F.SUP_CAL_ITEM_USER]; omega)]
    exact getF_foldl_zero (List.mem_range.mpr hk) s

theorem logScan_eq (s : State) : ∃ a b, s.logScan = { s with logNextSeq := a, logNextSlot := b } := by
  unfold logScan
  dsimp only
  split
  · exact ⟨_, _, rfl⟩
  · exact ⟨_, _, rfl⟩

theorem queueLog_of_room (e : LogEntry) (h : s.logQueue.length < 16) : s.queueLog e = { s with logQueue := s.logQueue ++ [e] } := if_pos h

/-- The state with VAUX good and the fuses read or failed, before the calibration store is loaded. -/
def fusesRead (s : State) (ok : Bool) (fz : Fuses) : State :=
  { s with power := { s.power with vauxGood := true, fuseGood := ok }, fuses := if ok then fz else Fuses.blank }

/-- The boot marker as it is queued (16 R449). -/
def markerOf (s : State) (ok : Bool) : LogEntry := ⟨⟨0, 0, 0, 0, 0, BitVec.ofNat 64 (bN ok)⟩, true, 0, s.supTime⟩

/-- The state with the store loaded, the log scanned and the boot marker queued. -/
def bootMarked (s : State) (ok : Bool) (fz : Fuses) : State :=
  let u := (s.fusesRead ok fz).calLoad.logScan
  u.queueLog u.bootMarker

theorem bootMarked_eq (ok : Bool) (fz : Fuses) (h : s.logQueue.length < 15) :
    ∃ a b, s.bootMarked ok fz = { s.fusesRead ok fz with
      fld := (s.fusesRead ok fz).calLoad.fld, logNextSeq := a, logNextSlot := b, logQueue := s.logQueue ++ [s.markerOf ok] } := by
  obtain ⟨t, ht⟩ := fieldsOnly_calLoad (s.fusesRead ok fz)
  obtain ⟨a, b, hs⟩ := logScan_eq (s.fusesRead ok fz).calLoad
  refine ⟨a, b, ?_⟩
  unfold bootMarked
  dsimp only
  rw [hs, ht]
  exact queueLog_of_room _ (Nat.lt_succ_of_lt h)

theorem vauxUp_of {s : State} (h : s.power.vauxGood = false) (fz : Fuses) :
    s.vauxUp true fz = (s.bootMarked true fz).leaveReset
      ∧ s.vauxUp false fz = ((s.bootMarked false fz).event ⟨47, 3, 13, 0, 0, 1⟩).leaveReset := by
  have up : ∀ ok, s.vauxUp ok fz =
      (if ok then s.bootMarked ok fz else (s.bootMarked ok fz).event ⟨47, 3, 13, 0, 0, 1⟩).leaveReset := fun ok => if_neg (by rw [h]; nofun)
  exact ⟨(up true).trans (congrArg leaveReset (if_pos rfl)), (up false).trans (congrArg leaveReset (if_neg nofun))⟩

/-! #### What an event leaves (16 R436, R440, R449) -/

section
variable {f : Fld}

/-- `v` has the power state, the fuses, the log queue, memory and the receive queue of `s`, and reads field `f` alike. -/
structure KeepsFld (f : Fld) (s v : State) : Prop where
  power : v.power = s.power
  fuses : v.fuses = s.fuses
  queue : v.logQueue = s.logQueue
  dram : v.dram = s.dram
  rxq : v.link.rxq = s.link.rxq
  fld : v.getF f = s.getF f

theorem KeepsFld.refl (f : Fld) (s : State) : KeepsFld f s s := ⟨rfl, rfl, rfl, rfl, rfl, rfl⟩

theorem KeepsFld.trans {u v : State} (h : KeepsFld f s u) (k : KeepsFld f u v) : KeepsFld f s v :=
  ⟨k.power.trans h.power, k.fuses.trans h.fuses, k.queue.trans h.queue,
    k.dram.trans h.dram, k.rxq.trans h.rxq, k.fld.trans h.fld⟩

theorem keepsFld_ite {p : Prop} [Decidable p] {a b : State} (ha : KeepsFld f s a) (hb : KeepsFld f s b) : KeepsFld f s (if p then a else b) := by
  split_ifs
  · exact ha
  · exact hb

theorem keepsFld_foldl {α : Type} {g : State → α → State} (hg : ∀ u a, KeepsFld f u (g u a)) (l : List α) : KeepsFld f s (l.foldl g s) :=
  List.foldlRecOn (motive := KeepsFld f s) l g (.refl f s) fun u hu a _ => hu.trans (hg u a)

theorem keepsFld_setF {g : Fld} (hg : f.key ≠ g.key) (v : Nat) : KeepsFld f s (s.setF g v) :=
  ⟨rfl, rfl, rfl, rfl, rfl, getF_setF_other _ _ _ _ hg⟩

theorem keepsFld_setCfgBit (fn off bit : Nat) (b : Bool) : KeepsFld f s (s.setCfgBit fn off bit b) := ⟨rfl, rfl, rfl, rfl, rfl, rfl⟩

theorem keepsFld_emit (o : Out) : KeepsFld f s (s.emit o) := by
  have rxq : (s.emit o).link.rxq = s.link.rxq := by
    unfold emit
    dsimp only
    split_ifs
    · rfl
    · rfl
  exact ⟨rfl, rfl, rfl, rfl, rxq, rfl⟩

theorem keepsFld_setMsix (fn v : Nat) (e : MsixEntry) : KeepsFld f s (s.setMsix fn v e) := ⟨rfl, rfl, rfl, rfl, rfl, rfl⟩

theorem keepsFld_pmeOnPending (s : State) : KeepsFld f s s.pmeOnPending :=
  keepsFld_ite ((keepsFld_setCfgBit _ _ _ _).trans (keepsFld_emit _)) (.refl f s)

theorem keepsFld_updIntx (s : State) : KeepsFld f s s.updIntx := keepsFld_ite (.refl f s) ⟨rfl, rfl, rfl, rfl, rfl, rfl⟩

theorem keepsFld_raiseMsix (hf : f.off < 0x400000 ∧ f.lo < 128) (fn : Func) (v : Nat) : KeepsFld f s (s.raiseMsix fn v) := by
  cases fn with
  | vf w => exact keepsFld_ite (.refl f s) (keepsFld_ite ((keepsFld_setMsix _ _ _).trans (keepsFld_pmeOnPending _)) (keepsFld_emit _))
  | pf0 =>
    have pending : f.key ≠ (F.LNK_INTX_PEND_VALUE (v / 64)).key := by
      simp only [Fld.key, F.LNK_INTX_PEND_VALUE]
      omega
    exact keepsFld_ite (.refl f s) (keepsFld_ite
      (((keepsFld_setF pending _).trans (keepsFld_updIntx _)).trans (keepsFld_pmeOnPending _))
      (keepsFld_ite ((keepsFld_setMsix _ _ _).trans (keepsFld_pmeOnPending _)) (keepsFld_emit _)))

end

theorem keepsFld_quarantine (w : WardId) : KeepsFld F.FLT_BEACON_GROUPS s (s.quarantine w) := by
  refine keepsFld_ite (.refl _ s) (keepsFld_setF ?_ _)
  simp only [Fld.key, F.FLT_BEACON_GROUPS, F.WRD_STATUS_QUARANTINED]
  omega

theorem keepsFld_enterViral (s : State) : KeepsFld F.FLT_BEACON_GROUPS s s.enterViral := by
  have viral : KeepsFld F.FLT_BEACON_GROUPS s { s with link := { s.link with viral := true } } := ⟨rfl, rfl, rfl, rfl, rfl, rfl⟩
  exact keepsFld_ite (keepsFld_ite (.refl _ s)
    (((viral.trans (keepsFld_setF (by decide) _)).trans (keepsFld_setCfgBit _ _ _ _)).trans (keepsFld_emit _))) (keepsFld_setF (by decide) _)

theorem keepsFld_reportAer (fn : Func) (unc : Bool) (bit : Nat) (what : String) : KeepsFld F.FLT_BEACON_GROUPS s (s.reportAer fn unc bit what) :=
  keepsFld_ite (keepsFld_setCfgBit _ _ _ _) ((keepsFld_setCfgBit _ _ _ _).trans (keepsFld_emit _))

theorem keepsFld_reportRas (unc : Bool) (bit : Nat) (what : String) : KeepsFld F.FLT_BEACON_GROUPS s (s.reportRas unc bit what) :=
  keepsFld_ite ⟨rfl, rfl, rfl, rfl, rfl, rfl⟩ ⟨rfl, rfl, rfl, rfl, rfl, rfl⟩

theorem keepsFld_tellHost (ev : Event) : KeepsFld F.FLT_BEACON_GROUPS s (s.tellHost ev) :=
  keepsFld_ite
    (keepsFld_ite ((keepsFld_reportAer _ _ _ _).trans (keepsFld_reportRas _ _ _))
      ((keepsFld_reportAer _ _ _ _).trans (keepsFld_reportRas _ _ _)))
    (keepsFld_ite (keepsFld_ite (keepsFld_reportAer _ _ _ _) (keepsFld_ite (keepsFld_reportAer _ _ _ _) (keepsFld_reportAer _ _ _ _)))
      (keepsFld_ite (keepsFld_reportAer _ _ _ _) (.refl _ s)))

/-- The reactions leave the power state, the fuses and the groups, and queue at most the event itself. -/
theorem react_told (ev : Event) :
    ∃ u, KeepsFld F.FLT_BEACON_GROUPS s u ∧ (s.react ev = u ∨ s.react ev = u.queueLog ⟨ev, false, 0, u.supTime⟩) := by
  unfold react
  extract_lets a vec s1 m2 s2 s3 s4 s5 s6
  have k1 : KeepsFld F.FLT_BEACON_GROUPS s s1 := keepsFld_ite (keepsFld_setF (by decide) _) (.refl _ s)
  have k2 : KeepsFld F.FLT_BEACON_GROUPS s s2 := keepsFld_ite ⟨k1.power, k1.fuses, k1.queue, k1.dram, k1.rxq, k1.fld⟩ k1
  have k3 : KeepsFld F.FLT_BEACON_GROUPS s s3 := keepsFld_ite (k2.trans (keepsFld_enterViral _)) k2
  have k4 : KeepsFld F.FLT_BEACON_GROUPS s s4 :=
    keepsFld_ite (k3.trans (keepsFld_foldl (fun u w => keepsFld_ite (keepsFld_quarantine w) (.refl _ u)) _)) k3
  have k5 : KeepsFld F.FLT_BEACON_GROUPS s s5 := keepsFld_ite (k4.trans (keepsFld_raiseMsix (by decide) _ _)) k4
  have k6 : KeepsFld F.FLT_BEACON_GROUPS s s6 :=
    keepsFld_ite (k5.trans (keepsFld_foldl (fun u w => keepsFld_ite (keepsFld_raiseMsix (by decide) _ _) (.refl _ u)) _)) k5
  refine ⟨s6, k6, ?_⟩
  split_ifs
  · exact .inr rfl
  · exact .inl rfl

/-- The field of groups of a record block. -/
def groupsF (base : Nat) : Fld := ⟨base, 0, 49⟩

theorem recF_key_ne (base g sub lo w : Nat) : (groupsF base).key ≠ (recF base g sub lo w).key := by
  simp only [Fld.key, groupsF, recF]
  omega

theorem getF_setF_rec (base g sub lo w v : Nat) : (s.setF (recF base g sub lo w) v).getF (groupsF base) = s.getF (groupsF base) :=
  getF_setF_other _ _ _ _ (recF_key_ne _ _ _ _ _)

theorem getF_highF_rec (base g sub lo w v : Nat) : (s.highF (recF base g sub lo w) v).getF (groupsF base) = s.getF (groupsF base) := by
  unfold highF
  split_ifs
  · exact getF_setF_rec ..
  · rfl

theorem fieldsOnly_highF (f : Fld) (v : Nat) : FieldsOnly s (s.highF f v) := by
  unfold highF
  split_ifs
  · exact fieldsOnly_setF _ _
  · exact ⟨_, rfl⟩

theorem putBitN_testBit (v i : Nat) (h : v.testBit i = false) : (putBitN v i true).testBit i = true := by
  rw [putBitN, h, if_neg (by decide), Nat.testBit_xor, h, Nat.testBit_two_pow_self]
  rfl

/-- A latched event stands in the groups of the record block (16 R436). -/
theorem groups_latchAt (base : Nat) (ev : Event) (hg : ev.group < 49) :
    ((s.latchAt base ev).getF (groupsF base)).testBit ev.group = true := by
  have count : ∀ u : State, (if ev.cls = 1 then u.bumpF (recF base ev.group 0x18 0 32) 1
      else if ev.cls = 2 then u.bumpF (recF base ev.group 0x18 32 16) 1 else u.bumpF (recF base ev.group 0x18 48 16) 1).getF (groupsF base)
      = u.getF (groupsF base) := fun u => by
    split_ifs <;> exact getF_setF_rec ..
  unfold latchAt
  rw [count]
  cases hb : (s.getF (groupsF base)).testBit ev.group with
  | true =>
    have set : bitN (s.getF ⟨base, 0, 49⟩) ev.group = true := hb
    rw [if_pos set, getF_setF_rec, getF_highF_rec, hb]
  | false =>
    have clear : ¬bitN (s.getF ⟨base, 0, 49⟩) ev.group = true := ne_true_of_eq_false hb
    rw [if_neg clear]
    simp only [getF_setF_rec]
    refine (congrArg (fun v => Nat.testBit v ev.group) (getF_setF s (groupsF base) _)).trans ?_
    rw [Nat.testBit_mod_two_pow, show decide (ev.group < (groupsF base).w) = true from decide_eq_true hg, Bool.true_and]
    exact putBitN_testBit _ _ hb

theorem fieldsOnly_latchAt (base : Nat) (ev : Event) : FieldsOnly s (s.latchAt base ev) := by
  have count : ∀ u : State, FieldsOnly u (if ev.cls = 1 then u.bumpF (recF base ev.group 0x18 0 32) 1
      else if ev.cls = 2 then u.bumpF (recF base ev.group 0x18 32 16) 1 else u.bumpF (recF base ev.group 0x18 48 16) 1) := fun u => by
    split_ifs <;> exact fieldsOnly_setF _ _
  unfold latchAt
  refine FieldsOnly.trans ?_ (count _)
  split_ifs
  · exact (fieldsOnly_highF _ _).setF
  · exact (fieldsOnly_setF _ _).setF.setF.setF.setF.setF.setF.setF.setF

/-- An event of no ward leaves the power state and the fuses, sets its group's bit, and drops no queued entry while there is room. -/
theorem event_told (ev : Event) (hg : ev.group < 49) (hw : ev.wards = 0) :
    (s.event ev).power = s.power ∧ (s.event ev).fuses = s.fuses ∧ ((s.event ev).getF F.FLT_BEACON_GROUPS).testBit ev.group = true
      ∧ (s.logQueue.length < 16 → ∀ e ∈ s.logQueue, e ∈ (s.event ev).logQueue) := by
  obtain ⟨t, ht⟩ := fieldsOnly_latchAt (s := s) 0x30000 ev
  have bit := groups_latchAt (s := s) 0x30000 ev hg
  have wards : s.event ev = ((s.latchAt 0x30000 ev).react ev).tellHost ev := by
    refine congrArg (fun u : State => (u.react ev).tellHost ev) (foldl_of_fixed fun w _ => if_neg ?_)
    rw [inScope, hw]
    simp
  obtain ⟨u, hu, hr⟩ := react_told (s := s.latchAt 0x30000 ev) ev
  have queue : u.logQueue = s.logQueue := by rw [hu.queue, ht]
  have done : ∀ v : State, KeepsFld F.FLT_BEACON_GROUPS v (v.tellHost ev) := fun v => keepsFld_tellHost ev
  have power : u.power = s.power := by rw [hu.power, ht]
  have fuses : u.fuses = s.fuses := by rw [hu.fuses, ht]
  have groups : (u.getF F.FLT_BEACON_GROUPS).testBit ev.group = true := by
    rw [hu.fld]
    exact bit
  rw [wards]
  rcases hr with hr | hr
  · rw [hr, (done u).power, (done u).fuses, (done u).fld, (done u).queue, queue]
    exact ⟨power, fuses, groups, fun _ e he => he⟩
  · rw [hr, (done _).power, (done _).fuses, (done _).fld, (done _).queue]
    have same : (u.queueLog ⟨ev, false, 0, u.supTime⟩).power = u.power ∧ (u.queueLog ⟨ev, false, 0, u.supTime⟩).fuses = u.fuses
        ∧ (u.queueLog ⟨ev, false, 0, u.supTime⟩).getF F.FLT_BEACON_GROUPS = u.getF F.FLT_BEACON_GROUPS := by
      unfold queueLog
      split_ifs
      · exact ⟨rfl, rfl, rfl⟩
      · exact ⟨rfl, rfl, rfl⟩
    obtain ⟨p, f, g⟩ := same
    rw [p, f, g]
    refine ⟨power, fuses, groups, fun room e he => ?_⟩
    rw [queueLog_of_room _ (by rw [queue]; exact room), queue]
    exact List.mem_append_left _ he

/-! #### The commands -/

/-- Leaving reset keeps what the rails, the fuses and PERST_N are. -/
theorem leaveReset_stays (s : State) : s.leaveReset.power.vauxGood = s.power.vauxGood ∧ s.leaveReset.power.fuseGood = s.power.fuseGood
    ∧ s.leaveReset.power.coreGood = s.power.coreGood ∧ s.leaveReset.power.perst = s.power.perst := by
  cases h : canLeave s.power
  · rw [leaveReset_of_not h]
    exact ⟨rfl, rfl, rfl, rfl⟩
  · rw [leaveReset_of h]
    exact ⟨rfl, rfl, rfl, rfl⟩

/-- What leaving reset sets: P, the time of P, WAKE_N and the end of D3cold. -/
theorem leaveReset_leaves {s : State} (h : canLeave s.power = true) :
    s.leaveReset.power.coreUp = true ∧ s.leaveReset.power.pAt = some s.supTime ∧ s.leaveReset.wake = false ∧ s.leaveReset.power.d3cold = false
      ∧ s.leaveReset.getF (F.SUP_BOOT_VALUE 0) = s.supTime % 2 ^ 64 := by
  rw [leaveReset_of h]
  refine ⟨rfl, rfl, rfl, rfl, ?_⟩
  rw [getF_setF_other _ _ _ _ (by decide), getF_setF]
  rfl

theorem vauxUp_good (h : s.power.vauxGood = false) (hq : s.logQueue.length < 15) (fz : Fuses) :
    (s.vauxUp true fz).power.vauxGood = true ∧ (s.vauxUp true fz).power.fuseGood = true ∧ (s.vauxUp true fz).fuses = fz
      ∧ (s.vauxUp true fz).logQueue = s.logQueue ++ [⟨⟨0, 0, 0, 0, 0, 1⟩, true, 0, s.supTime⟩]
      ∧ (s.calCurrent = none → (s.vauxUp true fz).getF F.SUP_CAL_STATUS_STORE_EMPTY = 1 ∧ ∀ k < 7, (s.vauxUp true fz).calUser k = 0)
      ∧ (s.power.coreGood = true → s.power.perst = false → s.power.pAt = none →
        (s.vauxUp true fz).power.coreUp = true ∧ (s.vauxUp true fz).power.pAt = some s.supTime ∧ (s.vauxUp true fz).wake = false
          ∧ (s.vauxUp true fz).power.d3cold = false ∧ (s.vauxUp true fz).getF (F.SUP_BOOT_VALUE 0) = s.supTime % 2 ^ 64) := by
  obtain ⟨a, b, e⟩ := bootMarked_eq true fz hq
  rw [(vauxUp_of h fz).1]
  have power : (s.bootMarked true fz).power = { s.power with vauxGood := true, fuseGood := true } := by
    rw [e]
    rfl
  have fields : (s.bootMarked true fz).fld = (s.fusesRead true fz).calLoad.fld := by rw [e]
  have time : (s.bootMarked true fz).supTime = s.supTime := by
    rw [e]
    rfl
  obtain ⟨hv, hf, -, -⟩ := leaveReset_stays (s.bootMarked true fz)
  obtain ⟨t, p, w, left⟩ := leaveReset_eq (s.bootMarked true fz)
  refine ⟨hv.trans (by rw [power]), hf.trans (by rw [power]), ?_, ?_, fun none => ?_, fun hc hp hn => ?_⟩
  · rw [left, e]
    rfl
  · rw [left, e]
    rfl
  · obtain ⟨empty, user⟩ := calLoad_of_none (s := s.fusesRead true fz) none
    constructor
    · rw [getF_leaveReset _ (by decide), getF_congr fields, empty]
    · intro k hk
      have other : ∀ g ∈ leaveFields, (F.SUP_CAL_ITEM_USER k).key ≠ g.key := by
        simp only [leaveFields, List.mem_cons, List.not_mem_nil, or_false, forall_eq_or_imp, forall_eq, Fld.key, F.SUP_CAL_ITEM_USER,
          F.SUP_BOOT_VALUE, F.SUP_CAL_ITEM_INFORCE]
        omega
      rw [calUser, getF_leaveReset _ other, getF_congr fields, user k hk]
      rfl
  · have leaves := leaveReset_leaves (s := s.bootMarked true fz) (by rw [power]; simp [canLeave, hc, hp, hn])
    rw [time] at leaves
    exact leaves

theorem vauxUp_badFuses (h : s.power.vauxGood = false) (hq : s.logQueue.length < 15) (fz : Fuses) :
    (s.vauxUp false fz).power.vauxGood = true ∧ (s.vauxUp false fz).power.fuseGood = false ∧ (s.vauxUp false fz).fuses = Fuses.blank
      ∧ (s.vauxUp false fz).power.coreUp = s.power.coreUp ∧ ((s.vauxUp false fz).getF F.FLT_BEACON_GROUPS).testBit 47 = true
      ∧ ⟨⟨0, 0, 0, 0, 0, 0⟩, true, 0, s.supTime⟩ ∈ (s.vauxUp false fz).logQueue := by
  obtain ⟨a, b, e⟩ := bootMarked_eq false fz hq
  obtain ⟨power, fuses, bit, queue⟩ := event_told (s := s.bootMarked false fz) ⟨47, 3, 13, 0, 0, 1⟩ (by decide) rfl
  have stays : (s.vauxUp false fz) = (s.bootMarked false fz).event ⟨47, 3, 13, 0, 0, 1⟩ := by
    rw [(vauxUp_of h fz).2]
    refine leaveReset_of_not ?_
    rw [power, e]
    simp [canLeave, fusesRead]
  rw [stays, power, fuses]
  refine ⟨by rw [e]; rfl, by rw [e]; rfl, by rw [e]; rfl, by rw [e]; rfl, bit, queue ?_ _ ?_⟩
  · rw [e, List.length_append]
    exact Nat.succ_lt_succ hq
  · rw [e]
    exact List.mem_append_right _ (List.mem_singleton_self _)

theorem warmReset_unless {up : Bool} (h : s.coreRuns = false ∨ up = false) (cause : Nat) (keepLink : Bool) :
    (if s.coreRuns && up then s.warmReset cause keepLink else s) = s := if_neg (by rcases h with h | h <;> simp [h])

theorem warmReset_when {up : Bool} (h : s.coreRuns = true) (hu : up = true) (cause : Nat) (keepLink : Bool) :
    (if s.coreRuns && up then s.warmReset cause keepLink else s) = s.warmReset cause keepLink := if_pos (by simp [h, hu])

/-- PERST_N asserted while the core runs: the state in which its warm reset begins. -/
def perstOn (s : State) : State := { s with power := { s.power with perst := true } }

theorem execPerstNAssert_of_up (h : s.power.coreUp = true) : execPerstNAssert s = .next (s.perstOn.warmReset 3 false) :=
  congrArg Host.Outcome.next (if_pos h)

/-- An asserted PERST_N holds over the warm reset that it begins. -/
theorem perst_warmReset_perstOn (h : Quiet s) : (s.perstOn.warmReset 3 false).power.perst = true := by
  have q : Quiet s.perstOn := h
  rw [warmReset_eq, q.eraseEnded, warmCleared, flushAll_of_quiet q, power_resetEnd_of_not]
  · rfl
  · exact Bool.and_eq_false_iff.mpr (.inl (Bool.and_false _))

theorem leaveReset_of_no {s : State} (h : s.power.vauxGood = false ∨ s.power.fuseGood = false ∨ s.power.coreGood = false ∨ s.power.perst = true ∨
    s.power.pAt ≠ none) :
    s.leaveReset = s := by
  refine leaveReset_of_not ?_
  rcases h with h | h | h | h | h
  · simp [canLeave, h]
  · simp [canLeave, h]
  · simp [canLeave, h]
  · simp [canLeave, h]
  · simp [canLeave, Option.ne_none_iff_isSome.mp h]

end State

section
open State

/-- Settles O53: a warm reset of a quiet state writes nothing back and ends in `resetEnd`, which touches register fields and the
power state; the rest is what the core needs to leave reset. -/
theorem resetsKeepTheIsland : Obligations.ResetsKeepTheIsland := by
  unfold Obligations.ResetsKeepTheIsland
  intro s island core why quiet good leaves
  have linkReset : ∀ c cause, cause < 16 → exec c s = .next (if s.coreRuns && s.link.up then s.warmReset cause false else s) →
      ((s.coreRuns = false ∨ s.link.up = false) → exec c s = .next s)
      ∧ (s.coreRuns = true → s.link.up = true → ∃ v, exec c s = .next v ∧ core v ∧ v.getF F.GBL_RESET_CAUSE_LAST = cause ∧ v.link.up = false)
      ∧ (s.coreRuns = true → s.link.up = true → quiet → ∃ v, exec c s = .next v ∧ island v false ∧ core v ∧ why v cause ∧ v.dram = s.dram
          ∧ v.link.up = false ∧ v.power.coreUp = (good && !s.power.perst)) := by
    intro c cause hc e
    rw [e]
    refine ⟨fun h => by rw [warmReset_unless h], fun hr hu => ?_, fun hr hu hq => ?_⟩
    · rw [warmReset_when hr hu]
      exact ⟨_, rfl, coreCleared_warmReset s cause false, resetCauseLast_warmReset s false hc, by rw [link_warmReset]; rfl⟩
    · obtain ⟨hi, hcore, htold, hdram, hlink, hup⟩ := warmReset_of_quiet (s := s) hq false hc
      rw [warmReset_when hr hu]
      exact ⟨_, rfl, hi, hcore, htold, hdram, by rw [hlink]; rfl, hup⟩
  refine ⟨?_, ?_, ?_, ?_, ?_, ?_, ?_, ?_, ?_, ?_, ?_, ?_, ?_, ?_, ?_, ?_, ?_, ?_⟩
  -- hot reset and link down
  · intro c cause h
    simp only [List.mem_cons, Prod.mk.injEq, List.not_mem_nil, or_false] at h
    rcases h with ⟨rfl, rfl⟩ | ⟨rfl, rfl⟩
    · exact linkReset _ _ (by decide) rfl
    · exact linkReset _ _ (by decide) rfl
  -- PF0 FLR: ignored, then taken, then taken in a quiet state
  · exact fun h => congrArg Host.Outcome.next (warmReset_unless h 6 true)
  · exact fun hr hc =>
      ⟨_, congrArg Host.Outcome.next (warmReset_when hr hc 6 true), coreCleared_warmReset s 6 true, resetCauseLast_warmReset s true (by decide)⟩
  · intro hr hc hq
    obtain ⟨hi, hcore, htold, hdram, hlink, hup⟩ := warmReset_of_quiet (s := s) hq true (cause := 6) (by decide)
    exact ⟨_, congrArg Host.Outcome.next (warmReset_when hr hc 6 true), hi, hcore, htold, hdram,
      (congrArg Link.up hlink :), (congrArg Link.rate hlink :), (congrArg Link.cxl hlink :), hup⟩
  -- PERST_N asserted: the core is in reset, then runs, then runs in a quiet state
  · exact fun h => congrArg Host.Outcome.next (if_neg (by rw [h]; nofun))
  · exact fun h => ⟨_, execPerstNAssert_of_up h, coreCleared_warmReset _ 3 false, resetCauseLast_warmReset _ false (by decide)⟩
  · intro h hq
    obtain ⟨hi, hcore, htold, hdram, -, hup⟩ := warmReset_of_quiet (s := s.perstOn) hq false (cause := 3) (by decide)
    exact ⟨_, execPerstNAssert_of_up h, hi, hcore, htold, hdram, perst_warmReset_perstOn hq, hup.trans (Bool.and_false _)⟩
  -- the core rails are removed, or rise without VAUX
  · exact fun h => congrArg Host.Outcome.next (if_pos (by rcases h with h | h <;> simp [h]))
  · exact fun h => congrArg Host.Outcome.next (if_neg (by rw [h]; nofun))
  · exact fun hv hc he => ⟨_, rfl, railsLost_resets hv hc he⟩
  -- VAUX is lost
  · intro he hc
    refine congrArg Host.Outcome.next ?_
    simp only [vauxLost, he, hc, Bool.false_eq_true, if_false]
  -- VAUX comes up
  · exact fun h ok fz => congrArg Host.Outcome.next (if_pos h)
  · exact fun h hq fz => ⟨⟨_, rfl, vauxUp_good h hq fz⟩, ⟨_, rfl, vauxUp_badFuses h hq fz⟩⟩
  -- core good
  · intro hv
    have up : exec .coreGood s = .next ({ s with power := { s.power with coreGood := true } } : State).leaveReset :=
      congrArg Host.Outcome.next (if_pos hv)
    rw [up]
    refine ⟨fun hf hp hn => ?_, fun h => ?_⟩
    · obtain ⟨hup, hat, hwake, hcold, -⟩ := leaveReset_leaves (s := { s with power := { s.power with coreGood := true } })
        (by simp [canLeave, hv, hf, hp, hn])
      exact ⟨_, rfl, (leaveReset_stays _).2.2.1, hup, hat, hwake, hcold⟩
    · rw [leaveReset_of_no]
      rcases h with h | h | h
      · exact .inr (.inl h)
      · exact .inr (.inr (.inr (.inl h)))
      · exact .inr (.inr (.inr (.inr h)))
  -- PERST_N released
  · intro hg hn
    have rails : (s.power.vauxGood && s.power.fuseGood && s.power.coreGood) = true := hg
    obtain ⟨hup, hat, -⟩ := leaveReset_leaves (s := { s with power := { s.power with perst := false } }) (by simpa [canLeave, hn] using rails)
    exact ⟨_, rfl, (leaveReset_stays _).2.2.2, hup, hat⟩
  · intro h
    refine congrArg Host.Outcome.next (leaveReset_of_no (s := { s with power := { s.power with perst := false } }) ?_)
    rcases h with h | h
    · have rails : (s.power.vauxGood && s.power.fuseGood && s.power.coreGood) = false := h
      rw [Bool.and_eq_false_iff, Bool.and_eq_false_iff] at rails
      rcases rails with (h | h) | h
      · exact .inl h
      · exact .inr (.inl h)
      · exact .inr (.inr (.inl h))
    · exact .inr (.inr (.inr (.inr h)))
  -- configuration space is ready
  · exact fun hr hc => congrArg Host.Outcome.next (if_pos (by simp [hr, hc]))
  · exact fun h => congrArg Host.Outcome.next (if_neg (by rcases h with h | h <;> simp [h]))

end

end Sys2Proof.Machine

/-! ### Register space (00 R8–R13; 01 R19, R20, R50; 17 R458) -/

namespace Sys2Proof.Machine

/-! #### Where the registers stand -/

/-- Where the registers of a tile begin (06, TIL_). -/
def tilBase (t : TileId) : Nat := 0x108000 + 0x10000 * (t.val / 16) + 0x400 * (t.val % 16)

theorem tilBase_lt (t : TileId) : tilBase t + 0x400 ≤ 0x200000 := by
  unfold tilBase
  omega

theorem blockAt_til (t : TileId) {l : Nat} (h : l < 0x400) : blockAt (tilBase t + l) = some (.til, tilBase t) := by
  have start : tilBase t + l - (tilBase t + l) % 0x400 = tilBase t := by
    unfold tilBase
    omega
  have lo : 0x100000 ≤ tilBase t + l ∧ tilBase t + l < 0x200000 := by
    unfold tilBase
    omega
  have inBank : 0x8000 ≤ (tilBase t + l) % 0x10000 ∧ (tilBase t + l) % 0x10000 < 0xC000 := by
    unfold tilBase
    omega
  unfold blockAt
  rw [start]
  simp (disch := omega) only [if_neg, if_pos]

theorem canonOff_of_lt {o : Nat} (h : o < 0x200000) : canonOff o = o := if_neg (by omega)

/-- SUP_STALL_CTRL (17), WRD_CTRL (01) and TIL_ENTRY (06). -/
def stallReg : RegDesc := ⟨0x120, 4, 1, 1, .warm, [⟨0, 1, .rw, 1, false⟩, ⟨1, 1, .rw, 1, false⟩, ⟨8, 10, .cl (.near 2 1000), 20, false⟩]⟩
def ctrlReg : RegDesc := ⟨0x0, 4, 1, 1, .ward, [⟨0, 1, .w1s, 0, false⟩, ⟨1, 2, .cl (.zero 2), 0, false⟩]⟩

def entryReg : RegDesc := ⟨0x8, 8, 1, 1, .ward, [⟨0, 64, .rw, 0, false⟩]⟩

theorem regAt_entry (t : TileId) {i : Nat} (h : i < 8) : regAt (tilBase t + (8 + i)) = some (entryReg, tilBase t + 8) := by
  have hb := tilBase_lt t
  unfold regAt
  rw [canonOff_of_lt (by omega)]
  dsimp only
  rw [blockAt_til t (by omega)]
  dsimp only
  rw [Nat.add_sub_cancel_left]
  interval_cases i <;> rfl

namespace State
variable {s : State}

/-- The register behind an offset of PF0, as a port that sees PF0 has it: begin, bytes, place of the byte in it. -/
def spanAt (o : Nat) : Option (Nat × Nat × Nat) := (regSpan o).map (fun x => (x.1, x.2, canonOff o - x.1))

theorem spanAt_entry (t : TileId) {i : Nat} (h : i < 8) : spanAt (tilBase t + (8 + i)) = some (tilBase t + 8, 8, i) := by
  have hb := tilBase_lt t
  have span : regSpan (tilBase t + (8 + i)) = some (tilBase t + 8, 8) := by
    unfold regSpan
    rw [canonOff_of_lt (by omega)]
    dsimp only
    rw [if_pos (by omega), if_neg (by omega), blockAt_til t (by omega), regAt_entry t h]
    rfl
  rw [spanAt, span, canonOff_of_lt (by omega)]
  simp only [Option.map_some, Option.some.injEq, Prod.mk.injEq, true_and]
  omega

theorem spanAt_time : ∀ i < 8, spanAt (0x40100 + i) = some (0x40100, 8, i) := by decide

theorem spanAt_tick : spanAt 0x50000 = some (0x50000, 4, 0) := by decide

theorem spanAt_stall : spanAt 0x40120 = some (0x40120, 4, 0) := by decide

theorem spanAt_rail : ∀ n < 6, ∀ i < 8, spanAt (0x40000 + 8 * n + i) = some (0x40000 + 8 * n, 8, i) := by decide

/-- A ward sees the registers of its tile at 0x40000 + 0x400 t (01 R52). -/
theorem vfOff_tile {w : WardId} {t : TileId} (h : s.tileWard t = some w) {l : Nat} (hl : l < 0x110) :
    s.vfOff w (0x40000 + 0x400 * t.val + l) = some (tilBase t + l) := by
  have tile : (Fin.ofNat 256 ((0x40000 + 0x400 * t.val + l - 0x40000) / 0x400) : TileId) = t := by
    ext
    simp only [Fin.ofNat_eq_cast, Fin.val_natCast]
    omega
  have place : (0x40000 + 0x400 * t.val + l) % 0x400 = l := by omega
  unfold vfOff
  simp (disch := omega) only [if_neg, if_pos]
  rw [tile, place, h, if_pos (by simp; omega)]
  simp only [tilBase, Option.some.injEq]
  omega

theorem viewSpan_entry {w : WardId} {t : TileId} (h : s.tileWard t = some w) {i : Nat} (hi : i < 8) :
    s.viewSpan (.w w) (0x40008 + 0x400 * t.val + i) = some (tilBase t + 8, 8, i) := by
  have at_ : s.vfOff w (0x40008 + 0x400 * t.val + i) = some (tilBase t + (8 + i)) := by
    rw [show 0x40008 + 0x400 * t.val + i = 0x40000 + 0x400 * t.val + (8 + i) by omega]
    exact vfOff_tile h (by omega)
  exact (congrArg (fun o => Option.bind o spanAt) at_).trans (spanAt_entry t hi)

/-! #### A ward sees the registers of no Bulk Port but its own (01 R52) -/

/-- What holds of each branch's value holds of the chosen one. -/
theorem forall_mem_ite {α : Type} {P : α → Prop} {c : Prop} [Decidable c] {a b : Option α} (ha : c → ∀ y ∈ a, P y) (hb : ¬c → ∀ y ∈ b, P y) :
    ∀ y ∈ (if c then a else b), P y := by
  split_ifs with h
  · exact ha h
  · exact hb h

/-- A block begins at or before each of its offsets; those of the Bulk Ports stand from 0x800000 on. -/
theorem blockAt_bounds (o : Nat) : ∀ y ∈ blockAt o, y.2 ≤ o ∧ (y.1 = .blk → 0x800000 ≤ o ∧ o < 0x809000 ∧ y.2 = o - o % 0x1000) := by
  unfold blockAt
  repeat' refine forall_mem_ite (fun _ => ?_) (fun _ => ?_)
  all_goals rintro y ⟨⟩
  all_goals
    simp only [reduceCtorEq, false_implies, and_true, forall_const]
    omega

theorem blockAt_le {o base : Nat} {b : Blk} (h : blockAt o = some (b, base)) : base ≤ o := (blockAt_bounds o _ h).1

theorem blockAt_blk {o base : Nat} (h : blockAt o = some (.blk, base)) : 0x800000 ≤ o ∧ o < 0x809000 ∧ base = o - o % 0x1000 :=
  (blockAt_bounds o _ h).2 rfl

theorem blockAt_of_blk {o : Nat} (h : 0x800000 ≤ o) (k : o < 0x809000) : blockAt o = some (.blk, o - o % 0x1000) := by
  unfold blockAt
  simp (disch := omega) only [if_neg, if_pos]

/-- A register begins within its block, at or before each of its bytes. -/
theorem regAt_begin {o r : Nat} {d : RegDesc} (h : regAt o = some (d, r)) :
    ∃ b base, blockAt (canonOff o) = some (b, base) ∧ base ≤ r ∧ r ≤ canonOff o := by
  unfold regAt at h
  dsimp only at h
  split at h
  · contradiction
  next b base hb =>
    have le := blockAt_le hb
    split at h
    · contradiction
    next x hx =>
      have found := List.find?_some hx
      have off : x.off ≤ canonOff o - base := by
        simp only [Bool.or_eq_true, Bool.and_eq_true, decide_eq_true_eq] at found
        rcases found with ⟨⟨h, -⟩, -⟩ | ⟨⟨-, h⟩, -⟩
        · exact h
        · exact h
      refine ⟨b, base, hb, ?_⟩
      have part := Nat.mod_le (canonOff o - base - x.off) x.stride
      split_ifs at h <;> simp only [Option.some.injEq, Prod.mk.injEq] at h <;> omega

theorem canonOff_cases (o : Nat) : canonOff o = o ∨ canonOff o < 0x210000 := by
  unfold canonOff
  dsimp only
  split_ifs <;> omega

theorem regSpan_blk {o r n : Nat} (h : regSpan o = some (r, n)) (hr : 0x800000 ≤ r ∧ r < 0x809000) :
    0x800000 ≤ canonOff o ∧ canonOff o < 0x809000 ∧ r - r % 0x1000 = canonOff o - canonOff o % 0x1000 := by
  unfold regSpan at h
  dsimp only at h
  have bases : obsBase = 0x1000000 ∧ agesBase = 0x1100000 ∧ msixBase = 0x4000000 := ⟨rfl, rfl, rfl⟩
  split at h
  · split at h
    · split_ifs at h
      simp only [Option.some.injEq, Prod.mk.injEq] at h
      omega
    · split at h
      · contradiction
      next b base hb =>
        split_ifs at h
        split at h
        · contradiction
        next d at_ hd =>
          simp only [Option.some.injEq, Prod.mk.injEq] at h
          obtain ⟨rfl, -⟩ := h
          obtain ⟨b2, base2, hb2, lo, hi⟩ := regAt_begin hd
          have again := (canonOff_cases (canonOff o)).resolve_right (by omega)
          rw [again] at hb2 hi
          have inBlk : 0x800000 ≤ canonOff o := by omega
          rw [blockAt_of_blk inBlk (by omega)] at hb2
          simp only [Option.some.injEq, Prod.mk.injEq] at hb2
          omega
  · split_ifs at h <;> simp only [Option.some.injEq, Prod.mk.injEq] at h <;> omega

theorem vfOff_blk {w : WardId} {v o : Nat} (h : s.vfOff w v = some o) (lo : 0x800000 ≤ o) (hi : o < 0x809000) :
    o - o % 0x1000 = 0x801000 + 0x1000 * w.val := by
  unfold vfOff at h
  have obs : obsBase = 0x1000000 := rfl
  dsimp only at h
  split_ifs at h <;> simp only [Option.some.injEq] at h <;> omega

theorem bulkRegOf_viewSpan {w : WardId} {off r n k : Nat} {f : Func} (h : s.viewSpan (.w w) off = some (r, n, k)) (hf : bulkRegOf r = some f) :
    f = .vf w := by
  have blk : 0x800000 ≤ r ∧ r < 0x809000 ∧ f = blkIx (r - r % 0x1000) := by
    unfold bulkRegOf at hf
    split at hf
    next base hb =>
      obtain ⟨lo, hi, rfl⟩ := blockAt_blk hb
      exact ⟨lo, hi, (Option.some.inj hf).symm⟩
    · contradiction
  obtain ⟨o, ho, hs⟩ := Option.bind_eq_some_iff.mp h
  obtain ⟨⟨r2, n2⟩, hr2, e⟩ := Option.map_eq_some_iff.mp hs
  simp only [Prod.mk.injEq] at e
  obtain ⟨rfl, -, -⟩ := e
  obtain ⟨lo, hi, place⟩ := regSpan_blk hr2 ⟨blk.1, blk.2.1⟩
  have same : canonOff o = o := (canonOff_cases o).resolve_right (by omega)
  rw [same] at lo hi place
  rw [blk.2.2, place, vfOff_blk ho lo hi, blkIx, if_neg (by omega)]
  congr 1
  ext
  simp only [Fin.ofNat_eq_cast, Fin.val_natCast]
  omega

/-! #### Numbers and their bytes -/

theorem leBytes_eq_map (n v : Nat) : leBytes n v = (List.range n).map (fun i => BitVec.ofNat 8 (v >>> (8 * i))) := by
  induction n generalizing v with
  | zero => rfl
  | succ n ih =>
    rw [leBytes, ih, List.range_succ_eq_map, List.map_cons, List.map_map]
    refine congrArg₂ List.cons rfl (List.map_congr_left fun i _ => ?_)
    rw [Function.comp_apply, Nat.succ_eq_add_one, Nat.mul_succ, Nat.add_comm, Nat.shiftRight_add, Nat.shiftRight_eq_div_pow v 8]

theorem bN_getLsbD {w : Nat} (z : BitVec w) (i : Nat) : bN (z.getLsbD i) = bitsN z.toNat i 1 := by
  rw [BitVec.getLsbD, bitsN, Nat.shiftRight_eq_div_pow, Nat.testBit_eq_decide_div_mod_eq, bN]
  rcases Nat.mod_two_eq_zero_or_one (z.toNat / 2 ^ i) with h | h <;> simp [h]

theorem bitsN_zero (v w : Nat) : bitsN v 0 w = v % 2 ^ w := rfl

/-! #### A whole register is read -/

theorem touched_whole {p : Port} {off r m n : Nat} (hn : 0 < n) (hv : ∀ i < n, s.viewSpan p (off + i) = some (r, m, i)) :
    s.touched p off n = [(r, 0, n)] := by
  induction n with
  | zero => contradiction
  | succ n ih =>
    have last := hv n (Nat.lt_succ_self n)
    rcases Nat.eq_zero_or_pos n with rfl | hp
    · simp only [touched, Nat.zero_add, List.range_one, List.foldl_cons, List.foldl_nil, last]
    · have init : s.touched p off n = [(r, 0, n)] := ih hp fun i hi => hv i (Nat.lt_succ_of_lt hi)
      rw [touched] at init ⊢
      rw [List.range_succ, List.foldl_append, init, List.foldl_cons, List.foldl_nil, last]
      simp

/-- A read of a whole register gives its word, and clears it where the port may. -/
theorem readReg_whole {p : Port} {off r m n : Nat} (hn : 0 < n)
    (hv : ∀ i < n, s.viewSpan p (off + i) = some (r, m, i)) (hm : s.mayRead p r = true) :
    s.readReg p off n = (s.regWord r % 256 ^ n, if s.mayClear p r then s.clearRead (r, 0, n) else s) := by
  have bytes : s.bytesBy p (s.mayRead p) off n = leBytes n (s.regWord r) := by
    rw [leBytes_eq_map]
    refine List.map_congr_left fun i hi => ?_
    rw [hv i (List.mem_range.mp hi)]
    simp only [hm, if_true]
  have all : ((List.range n).any fun i => (s.viewSpan p (off + i)).isNone) = false := by
    rw [List.any_eq_false]
    intro i hi
    rw [hv i (List.mem_range.mp hi)]
    nofun
  rw [readReg, readBy, bytes, all, ofLe_leBytes, touched_whole hn hv]
  rfl

/-! #### A whole register is written -/

theorem writeReg_of_span {p : Port} {off r n v : Nat} (hv : s.viewSpan p off = some (r, n, 0)) (hm : s.mayWrite p r = true) (hr : r < 0x410000) :
    s.writeReg p off n v = s.writeEffect p r v := by
  have bases : rasBase = 0x411100 ∧ hdmBase = 0x411200 ∧ msixBase = 0x4000000 := ⟨rfl, rfl, rfl⟩
  rw [writeReg, writeBy, hv]
  dsimp only
  rw [if_neg (by simp [hm]), if_neg (by omega), if_neg (by omega), if_neg (by omega), if_neg (by omega)]

theorem writeReg_of_part {p : Port} {off len r n k v : Nat} (hv : s.viewSpan p off = some (r, n, k)) (h : k ≠ 0 ∨ len ≠ n) :
    s.writeReg p off len v = s.countAccess p off := by
  rw [writeReg, writeBy, hv]
  exact if_pos (by tauto)

theorem writeReg_of_none {p : Port} {off len v : Nat} (hv : s.viewSpan p off = none) : s.writeReg p off len v = s.countAccess p off := by
  rw [writeReg, writeBy, hv]

theorem bulkRegOf_of_lt {r : Nat} (h : r < 0x800000) : bulkRegOf r = none := by
  unfold bulkRegOf
  split
  next base hb =>
    have := blockAt_blk hb
    omega
  · rfl

theorem fieldsOnly_mark (f : Option Fld) (b : Bool) : FieldsOnly s (s.mark f b) := by
  unfold mark
  split
  · split_ifs
    · exact fieldsOnly_setF _ _
    · exact ⟨_, rfl⟩
  · exact ⟨_, rfl⟩

theorem fieldsOnly_putClamped (flag : Option Fld) (f : Fld) (x e : Nat) : FieldsOnly s (s.putClamped flag f x e) :=
  (fieldsOnly_setF f e).trans (fieldsOnly_mark flag _)

theorem FieldsOnly.eq {v : State} (h : FieldsOnly s v) : v = { s with fld := v.fld } := by
  obtain ⟨t, rfl⟩ := h
  rfl

/-- What a clamped field reads once written, its report bit standing elsewhere. -/
theorem getF_putClamped {f g : Fld} (h : f.key ≠ g.key) (x e : Nat) : (s.putClamped (some g) f x e).getF f = e % 2 ^ f.w := by
  unfold putClamped mark
  dsimp only
  split_ifs
  · rw [getF_setF_other _ _ _ _ h, getF_setF]
  · rw [getF_setF]

theorem getF_putClamped_other {f g k : Fld} (hf : k.key ≠ f.key) (hg : k.key ≠ g.key) (x e : Nat) :
    (s.putClamped (some g) f x e).getF k = s.getF k := by
  unfold putClamped mark
  dsimp only
  split_ifs
  · rw [getF_setF_other _ _ _ _ hg, getF_setF_other _ _ _ _ hf]
  · rw [getF_setF_other _ _ _ _ hf]

/-- The report bit is set where the value was cut, and else stays. -/
theorem getF_putClamped_flag {f g : Fld} (h : g.key ≠ f.key) (x e : Nat) :
    (s.putClamped (some g) f x e).getF g = if e = x then s.getF g else 1 % 2 ^ g.w := by
  unfold putClamped mark
  dsimp only
  by_cases hx : e = x
  · rw [if_neg (by simp [hx]), if_pos hx, getF_setF_other _ _ _ _ h]
  · rw [if_pos (by simp [hx]), if_neg hx, getF_setF]

/-! #### The registers that the obligation names -/

theorem writeEffect_entry (p : Port) (t : TileId) (v : Nat) :
    s.writeEffect p (tilBase t + 8) v = s.setF (F.TIL_ENTRY_VALUE t.val) (bitsN v 0 64) := by
  unfold writeEffect
  rw [blockAt_til t (by omega), regAt_entry t (i := 0) (by omega)]
  dsimp only
  rw [Nat.add_sub_cancel_left]
  rfl

theorem writeEffect_time (p : Port) (v : Nat) : s.writeEffect p 0x40100 v = s := rfl

theorem writeEffect_tick (p : Port) (v : Nat) : s.writeEffect p 0x50000 v =
    (s.setF F.LMP_TICK_CLAMPED (s.getF F.LMP_TICK_CLAMPED - (s.getF F.LMP_TICK_CLAMPED &&& bitsN v 31 1))).putClamped
      (some F.LMP_TICK_CLAMPED) F.LMP_TICK_PERIOD (bitsN v 0 15) (max 3 (min 25000 (bitsN v 0 15))) := rfl

theorem writeEffect_stall (p : Port) (v : Nat) : s.writeEffect p 0x40120 v =
    ((s.setF F.SUP_STALL_CTRL_ENABLE (bitsN v 0 1)).setF F.SUP_STALL_CTRL_SELFTEST (bitsN v 1 1)).putClamped
      (some F.SUP_STALL_STATUS_CLAMPED) F.SUP_STALL_CTRL_LIMIT (bitsN v 8 10) (max 2 (min 1000 (bitsN v 8 10))) := by
  have block : blockAt 0x40120 = some (.sup, 0x40000) := by decide
  have reg : regAt 0x40120 = some (stallReg, 0x40120) := by decide
  unfold writeEffect
  rw [block, reg]
  rfl

theorem blockAt_wrd (w : WardId) : blockAt (F.WRD_CTRL_ATOMIC_POLICY w.val).off = some (.wrd, (F.WRD_CTRL_ATOMIC_POLICY w.val).off) := by
  revert w
  decide

theorem wrdIx_policy (w : WardId) : wrdIx (F.WRD_CTRL_ATOMIC_POLICY w.val).off = w := by
  revert w
  decide

/-- A write of WRD_CTRL without its reset bit (01 R34). -/
theorem writeEffect_policy (p : Port) (w : WardId) (x : BitVec 2) : s.writeEffect p (F.WRD_CTRL_ATOMIC_POLICY w.val).off (2 * x.toNat) =
    s.putClamped (some (F.WRD_STATUS_CLAMPED w.val)) (F.WRD_CTRL_ATOMIC_POLICY w.val) (bitsN (2 * x.toNat) 1 2)
      (if 2 < bitsN (2 * x.toNat) 1 2 then 0 else bitsN (2 * x.toNat) 1 2) := by
  have reg : regAt (F.WRD_CTRL_ATOMIC_POLICY w.val).off = some (ctrlReg, (F.WRD_CTRL_ATOMIC_POLICY w.val).off) := by
    revert w
    decide
  have noReset : bitN (2 * x.toNat) 0 = false := by
    revert x
    decide
  unfold writeEffect
  rw [blockAt_wrd, reg]
  dsimp only
  rw [Nat.sub_self, wrdIx_policy, noReset]
  dsimp only [clampFlag]
  rw [wrdIx_policy]
  rfl

theorem regWord_time : s.regWord 0x40100 = s.supTime % 2 ^ 64 := by
  have word : s.regWord 0x40100 = 0 + s.supTime % 2 ^ 64 * 2 ^ 0 := rfl
  rw [word, pow_zero, Nat.mul_one, Nat.zero_add]

theorem clearRead_time : s.clearRead (0x40100, 0, 8) = s := rfl

theorem regWord_entry (t : TileId) : s.regWord (tilBase t + 8) = s.getF (F.TIL_ENTRY_VALUE t.val) := by
  have hb := tilBase_lt t
  have bases : rasBase = 0x411100 ∧ hdmBase = 0x411200 ∧ msixBase = 0x4000000 ∧ agesBase = 0x1100000 ∧ obsBase = 0x1000000 :=
    ⟨rfl, rfl, rfl, rfl, rfl⟩
  unfold regWord
  rw [if_neg (by omega), if_neg (by omega), if_neg (by omega), if_neg (by omega), if_neg (by omega), if_neg (by omega),
    blockAt_til t (by omega), regAt_entry t (i := 0) (by omega)]
  have word : entryReg.fields.foldl (fun a f => a + s.fieldVal .til (tilBase t) (tilBase t + 8) f * 2 ^ f.lo) 0
      = 0 + s.getF (F.TIL_ENTRY_VALUE t.val) * 2 ^ 0 := rfl
  exact word.trans (by rw [pow_zero, Nat.mul_one, Nat.zero_add])

theorem clearRead_entry (t : TileId) : s.clearRead (tilBase t + 8, 0, 8) = s := by
  unfold clearRead
  dsimp only
  rw [blockAt_til t (by omega), regAt_entry t (i := 0) (by omega)]
  rfl

theorem clearRead_rail {n : Nat} (h : n < 6) :
    s.clearRead (0x40000 + 8 * n, 0, 8) = (s.setF (F.SUP_RAIL_LOW n) 0xFFFF).setF (F.SUP_RAIL_HIGH n) 0 := by
  interval_cases n <;> rfl

/-! #### The ports -/

theorem writeWaits_of_span {p : Port} {off r n k : Nat} (hw : s.hostHolds p = false) (hv : s.viewSpan p off = some (r, n, k))
    (hb : ∀ f, bulkRegOf r = some f → s.bulkOut f = false) : s.writeWaits p off = false := by
  rw [writeWaits, hw, hv, Bool.false_or]
  dsimp only
  cases h : bulkRegOf r with
  | none => rfl
  | some f => exact hb f h

theorem writeWaits_of_none {p : Port} {off : Nat} (hw : s.hostHolds p = false) (hv : s.viewSpan p off = none) : s.writeWaits p off = false := by
  rw [writeWaits, hw, hv]
  rfl

theorem exec_write_s (ho : s.mmioOpen = true) {off len v : Nat} (hw : s.writeWaits .s off = false) :
    exec (.registerWrite .s off len v) s = .next (s.writeReg .s off len v) :=
  congrArg Host.Outcome.next ((if_pos ho).trans (if_neg (by rw [hw]; nofun)))

theorem exec_read_s (ho : s.mmioOpen = true) (hw : s.hostHolds .s = false) (off len : Nat) :
    exec (.rcFieldRead .s off len) s = .next ((s.readReg .s off len).2.emit (.readData .s off (s.readReg .s off len).1)) :=
  congrArg Host.Outcome.next ((if_pos ho).trans (if_neg (by rw [hw]; nofun)))

theorem exec_write_w {w : WardId} (ho : s.fnOpen (.vf w) = true) (hr : s.resettingWard w = false) {off len v : Nat} (hlt : off < vfMsix)
    (hw : s.writeWaits (.w w) off = false) : exec (.registerWrite (.w w) off len v) s = .next (s.writeReg (.w w) off len v) := by
  refine congrArg Host.Outcome.next ((if_pos ho).trans ((if_neg (by rw [hw]; nofun)).trans ?_))
  rw [portWrite, wardDark, hr]
  exact if_neg (Nat.not_le.mpr hlt)

theorem exec_read_w {w : WardId} (ho : s.fnOpen (.vf w) = true) (hr : s.resettingWard w = false) (hw : s.hostHolds (.w w) = false)
    {off : Nat} (hlt : off < vfMsix) (len : Nat) : exec (.rcFieldRead (.w w) off len) s =
      .next ((s.readReg (.w w) off len).2.emit (.readData (.w w) off (s.readReg (.w w) off len).1)) := by
  refine congrArg Host.Outcome.next ((if_pos ho).trans ((if_neg (by rw [hw]; nofun)).trans ?_))
  have dark : s.wardDark (.w w) = false := hr
  rw [answerRead, portRead, dark]
  exact if_neg (Nat.not_le.mpr hlt)

theorem exec_write_m {off : Nat} (hb : s.power.bootDone = true) (hm : s.mayWrite .m off = true) (len v : Nat) :
    exec (.registerWrite .m off len v) s = .next (s.writeReg .m off len v) := congrArg Host.Outcome.next (if_pos (by simp [hb, hm]))

theorem exec_read_m {off : Nat} (hb : s.power.bootDone = true) (hm : s.mayRead .m off = true) (len : Nat) :
    exec (.rcFieldRead .m off len) s = .next ((s.readReg .m off len).2.emit (.readData .m off (s.readReg .m off len).1)) :=
  congrArg Host.Outcome.next (if_pos (by simp [hb, hm]))

theorem exec_write_l {off : Nat} (hr : s.coreRuns = true) (hl : s.lantern.lock = 2) (hm : s.mayWrite .l off = true) (len v : Nat) :
    exec (.registerWrite .l off len v) s = .next (s.writeReg .l off len v) := congrArg Host.Outcome.next (if_pos (by simp [hr, hl, hm]))

theorem exec_read_l {off : Nat} (hr : s.coreRuns = true) (hl : s.lantern.lock = 2) (hm : s.mayRead .l off = true) (len : Nat) :
    exec (.rcFieldRead .l off len) s = .next ((s.readReg .l off len).2.emit (.readData .l off (s.readReg .l off len).1)) :=
  congrArg Host.Outcome.next (if_pos (by simp [hr, hl, hm]))

/-- SUP_TIME reads the time, and its read changes nothing but the answer. -/
theorem readReg_time {p : Port} (hv : ∀ i < 8, s.viewSpan p (0x40100 + i) = some (0x40100, 8, i)) (hm : s.mayRead p 0x40100 = true) :
    s.readReg p 0x40100 8 = (s.supTime % 2 ^ 64, s) := by
  rw [readReg_whole (by decide) hv hm, regWord_time, clearRead_time, ite_self]
  exact Prod.ext (Nat.mod_mod _ _) rfl

/-- An access that is counted (00 R9). -/
theorem countAccess_counts (off : Nat) : FieldsOnly s (s.countAccess .s off)
    ∧ (s.countAccess .s off).getF F.GBL_ACCESS_ERR_COUNT = min 65535 (s.getF F.GBL_ACCESS_ERR_COUNT + 1)
    ∧ (s.countAccess .s off).getF F.GBL_ACCESS_ERR_OFFSET = off % 2 ^ 41 ∧ (s.countAccess .s off).getF F.GBL_ACCESS_ERR_SOURCE = 0 := by
  unfold countAccess
  dsimp only
  refine ⟨((fieldsOnly_setF _ _).setF).setF, ?_, ?_, ?_⟩
  · rw [getF_setF_other _ _ _ _ (by decide), getF_setF_other _ _ _ _ (by decide), bumpF, getF_setF]
    exact Nat.mod_eq_of_lt (lt_of_le_of_lt (min_le_left _ _) (by decide))
  · rw [getF_setF_other _ _ _ _ (by decide), getF_setF]
    rfl
  · rw [getF_setF]
    rfl

/-! #### The end of the dim state (17 R458) -/

section
variable {f : Fld}

/-- A field of the Gatehouse's part, below the registers of Lamplighter. -/
def BelowLamp (f : Fld) : Prop := f.off < 0x50000 ∧ f.lo < 128

theorem BelowLamp.ne {g : Fld} (h : BelowLamp f) (hg : 0x50000 ≤ g.off) : f.key ≠ g.key := by
  obtain ⟨off, lo⟩ := h
  simp only [Fld.key]
  omega

theorem keepsFld_setLampw (w : WardId) (v : LampWard) : KeepsFld f s (s.setLampw w v) := ⟨rfl, rfl, rfl, rfl, rfl, rfl⟩

theorem keepsFld_emitOuts (hf : BelowLamp f) (w : WardId) (key tag : BitVec 32) (poison : Bool) (payload : BitVec 128) (src : TokSrc) :
    KeepsFld f s (s.emitOuts w key tag poison payload src) := by
  unfold emitOuts
  split
  · exact .refl f s
  · refine keepsFld_foldl (fun u o => ?_) _
    exact keepsFld_ite (.refl f u) (keepsFld_ite (keepsFld_raiseMsix ⟨hf.1.trans (by decide), hf.2⟩ _ _) ⟨rfl, rfl, rfl, rfl, rfl, rfl⟩)

theorem keepsFld_pushTrace (it : Item) (kind dest waited : Nat) : KeepsFld f s (s.pushTrace it kind dest waited) :=
  keepsFld_ite (keepsFld_setLampw _ _) (.refl f s)

theorem keepsFld_failNotice (hf : BelowLamp f) (it : Item) (reason : Nat) : KeepsFld f s (s.failNotice it reason) := by
  have count : f.key ≠ (F.LMPW_FAILED_FAILED it.ward.val).key := hf.ne (by simp only [F.LMPW_FAILED_FAILED]; omega)
  have last : f.key ≠ (F.LMPW_FAILED_LAST_KEY it.ward.val).key := hf.ne (by simp only [F.LMPW_FAILED_LAST_KEY]; omega)
  exact keepsFld_ite (.refl f s) ((((keepsFld_emitOuts hf _ _ _ _ _ _).trans (keepsFld_setF count _)).trans (keepsFld_setF last _)).trans
    (keepsFld_pushTrace _ _ _ _))

theorem keepsFld_queueItem (hf : BelowLamp f) (it : Item) : KeepsFld f s (s.queueItem it) :=
  keepsFld_ite (keepsFld_failNotice hf _ _) (keepsFld_setLampw _ _)

theorem keepsFld_fireAll (hf : BelowLamp f) (w : WardId) (nd : PlanNode) (n : Nat) : KeepsFld f s (s.fireAll w nd n) := by
  induction n generalizing s with
  | zero => exact .refl f s
  | succ n ih =>
    unfold fireAll
    dsimp only
    split
    · exact .refl f s
    · exact ((keepsFld_setLampw _ _).trans (keepsFld_queueItem hf _)).trans ih

theorem keepsFld_storeToken (hf : BelowLamp f) (w : WardId) (nd : PlanNode) (tk : Token) : KeepsFld f s (s.storeToken w nd tk) :=
  keepsFld_ite (keepsFld_ite (keepsFld_setLampw _ _) (keepsFld_queueItem hf _)) ((keepsFld_setLampw _ _).trans (keepsFld_fireAll hf _ _ _))

/-- A token that comes through no gate. -/
theorem keepsFld_offerTok (hf : BelowLamp f) (w : WardId) (tk : Token) : KeepsFld f s (s.offerTok w tk none).2 := by
  have discard : ∀ g, s.resolveTok w tk none = .inr g → 0x50000 ≤ g.off := by
    intro g hg
    unfold resolveTok at hg
    split at hg
    · cases hg
      simp only [F.LMPW_DISCARD_NO_NODE]
      omega
    · split_ifs at hg
      cases hg
      simp only [F.LMPW_DISCARD_BAD_PORT]
      omega
  unfold offerTok
  split
  next g hg => exact keepsFld_setF (hf.ne (discard g hg)) _
  · dsimp only
    split_ifs
    · exact keepsFld_setLampw _ _
    · exact .refl f s
    · have served : KeepsFld f s { s with storeServed := some w } := ⟨rfl, rfl, rfl, rfl, rfl, rfl⟩
      exact served.trans (keepsFld_storeToken hf _ _ _)
    · exact .refl f s

theorem keepsFld_fireFirst (hf : BelowLamp f) (w : WardId) (l : List DelayEntry) (held : List Nat) : KeepsFld f s (s.fireFirst w l held).2 := by
  induction l generalizing s held with
  | nil => exact .refl f s
  | cons e r ih =>
    have offer := keepsFld_offerTok (s := s) hf w (delayTok w e)
    unfold fireFirst
    split
    · exact ih held
    · split
      next u hu =>
        rw [hu] at offer
        exact offer.trans (keepsFld_setLampw _ _)
      next u hu =>
        rw [hu] at offer
        exact (offer.trans (keepsFld_setLampw _ _)).trans (ih _)

theorem keepsFld_fireOne (hf : BelowLamp f) (w : WardId) : KeepsFld f s (s.fireOne w).2 := by
  unfold fireOne
  split
  · exact .refl f s
  · exact keepsFld_fireFirst hf _ _ _

theorem keepsFld_fireRipe (hf : BelowLamp f) (n : Nat) : KeepsFld f s (s.fireRipe n) := by
  induction n generalizing s with
  | zero => exact .refl f s
  | succ n ih =>
    unfold fireRipe
    split
    · exact keepsFld_foldl (fun u w => keepsFld_fireOne hf w) _
    · exact (keepsFld_fireOne hf _).trans ih

theorem keepsFld_endDrains (hf : BelowLamp f) (s : State) : KeepsFld f s s.endDrains :=
  keepsFld_foldl (fun _ q => keepsFld_setF (hf.ne (by simp only [F.QC_STATUS_DRAINING]; omega)) _) _

end

theorem releaseHeld_of_none (h : s.link.held = []) : s.releaseHeld = s := by
  rw [releaseHeld, h, List.foldl_nil, ← h]

theorem pumpRx_of_none (h : s.link.rxq = []) : s.pumpRx = s := by
  rw [pumpRx, pumpRxN, h]

/-- The state with the dim state left, before anything held is let go. -/
def dimCleared (s : State) : State := { s with power := { s.power with dimDrain := false, dimOut := false } }.setF F.SUP_DIM_STATE 0

/-- The dim state ends: nothing is held or waits, so that due entries fire and READY is read anew. -/
theorem leaveDim_of (hd : s.dimmed = true) (hc : s.getF F.SUP_DIM_CAUSE < 8) (hp : s.power.plwRunning = false) (hh : s.link.held = [])
    (hr : s.link.rxq = []) :
    s.leaveDim.getF F.SUP_DIM_STATE = 0 ∧ s.leaveDim.power = { s.power with dimDrain := false, dimOut := false }
      ∧ s.leaveDim.ready = s.leaveDim.readyNow ∧ s.leaveDim.dram = s.dram := by
  have ends : s.leaveDim = s.dimCleared.endDrains.releaseHeld.fireDue.pumpRx.updReady := if_neg (by simp [hd, hp, hc])
  have below : BelowLamp F.SUP_DIM_STATE := by
    unfold BelowLamp
    decide
  have link : s.dimCleared.endDrains.link = s.link := by
    obtain ⟨t, e⟩ : FieldsOnly s.dimCleared s.dimCleared.endDrains := fieldsOnly_foldl (fun _ _ => fieldsOnly_setF _ _) _ _
    rw [e]
    rfl
  have fired : KeepsFld F.SUP_DIM_STATE s.dimCleared s.dimCleared.endDrains.fireDue :=
    (keepsFld_endDrains below _).trans (keepsFld_fireRipe below _)
  rw [releaseHeld_of_none (by rw [link, hh]), pumpRx_of_none (fired.rxq.trans hr)] at ends
  rw [ends]
  exact ⟨fired.fld.trans (getF_setF _ _ _), fired.power, rfl, fired.dram⟩

theorem leaveDim_unless (h : s.dimmed = false ∨ 8 ≤ s.getF F.SUP_DIM_CAUSE ∨ s.power.plwRunning = true) : s.leaveDim = s :=
  if_pos (by rcases h with h | h | h <;> simp [h])

/-! #### What a port's access of the named registers does -/

theorem write_entry {p : Port} {off : Nat} (t : TileId) (z : W64) (hv : s.viewSpan p off = some (tilBase t + 8, 8, 0))
    (hm : s.mayWrite p (tilBase t + 8) = true) : s.writeReg p off 8 z.toNat = s.setF (F.TIL_ENTRY_VALUE t.val) z.toNat := by
  have hb := tilBase_lt t
  rw [writeReg_of_span hv hm (by omega), writeEffect_entry, bitsN_zero, Nat.mod_eq_of_lt z.isLt]

theorem getF_entry (t : TileId) (z : W64) : (s.setF (F.TIL_ENTRY_VALUE t.val) z.toNat).getF (F.TIL_ENTRY_VALUE t.val) = z.toNat := by
  rw [getF_setF]
  exact Nat.mod_eq_of_lt z.isLt

theorem tick_written (z : W32) : FieldsOnly s (s.writeEffect .s 0x50000 z.toNat)
    ∧ (s.writeEffect .s 0x50000 z.toNat).getF F.LMP_TICK_PERIOD = max 3 (min 25000 (z.toNat % 32768))
    ∧ (z.toNat % 32768 < 3 ∨ 25000 < z.toNat % 32768 → (s.writeEffect .s 0x50000 z.toNat).getF F.LMP_TICK_CLAMPED = 1)
    ∧ (3 ≤ z.toNat % 32768 → z.toNat % 32768 ≤ 25000 → z.getLsbD 31 = true → s.getF F.LMP_TICK_CLAMPED = 1 →
        (s.writeEffect .s 0x50000 z.toNat).getF F.LMP_TICK_CLAMPED = 0) := by
  have period : bitsN z.toNat 0 15 = z.toNat % 32768 := rfl
  rw [writeEffect_tick, period]
  refine ⟨(fieldsOnly_setF _ _).trans (fieldsOnly_putClamped _ _ _ _), ?_, fun h => ?_, fun lo hi bit old => ?_⟩
  · rw [getF_putClamped (by decide)]
    exact Nat.mod_eq_of_lt (lt_of_le_of_lt (show _ ≤ 25000 by omega) (by decide))
  · rw [getF_putClamped_flag (by decide), if_neg (by omega)]
    rfl
  · have one : bitsN z.toNat 31 1 = 1 := by rw [← bN_getLsbD, bit]; rfl
    rw [getF_putClamped_flag (by decide), if_pos (by omega), getF_setF, old, one]
    rfl

theorem stall_written (p : Port) (z : W32) : FieldsOnly s (s.writeEffect p 0x40120 z.toNat)
    ∧ (s.writeEffect p 0x40120 z.toNat).getF F.SUP_STALL_CTRL_ENABLE = bN (z.getLsbD 0)
    ∧ (s.writeEffect p 0x40120 z.toNat).getF F.SUP_STALL_CTRL_SELFTEST = bN (z.getLsbD 1)
    ∧ (s.writeEffect p 0x40120 z.toNat).getF F.SUP_STALL_CTRL_LIMIT = max 2 (min 1000 (z.extractLsb' 8 10).toNat)
    ∧ ((z.extractLsb' 8 10).toNat < 2 ∨ 1000 < (z.extractLsb' 8 10).toNat →
        (s.writeEffect p 0x40120 z.toNat).getF F.SUP_STALL_STATUS_CLAMPED = 1) := by
  have limit : bitsN z.toNat 8 10 = (z.extractLsb' 8 10).toNat := (BitVec.extractLsb'_toNat _ _ _).symm
  rw [writeEffect_stall, limit]
  refine ⟨((fieldsOnly_setF _ _).setF).trans (fieldsOnly_putClamped _ _ _ _), ?_, ?_, ?_, fun h => ?_⟩
  · rw [getF_putClamped_other (by decide) (by decide), getF_setF_other _ _ _ _ (by decide), getF_setF, bN_getLsbD]
    exact Nat.mod_mod _ _
  · rw [getF_putClamped_other (by decide) (by decide), getF_setF, bN_getLsbD]
    exact Nat.mod_mod _ _
  · rw [getF_putClamped (by decide)]
    exact Nat.mod_eq_of_lt (lt_of_le_of_lt (show _ ≤ 1000 by omega) (by decide))
  · rw [getF_putClamped_flag (by decide), if_neg (by omega)]
    rfl

theorem policy_written (p : Port) (w : WardId) (x : BitVec 2) :
    FieldsOnly s (s.writeEffect p (F.WRD_CTRL_ATOMIC_POLICY w.val).off (2 * x.toNat))
      ∧ (s.writeEffect p (F.WRD_CTRL_ATOMIC_POLICY w.val).off (2 * x.toNat)).getF (F.WRD_CTRL_ATOMIC_POLICY w.val) = (if x = 3 then 0 else x.toNat)
      ∧ (x = 3 → (s.writeEffect p (F.WRD_CTRL_ATOMIC_POLICY w.val).off (2 * x.toNat)).getF (F.WRD_STATUS_CLAMPED w.val) = 1) := by
  have apart : (F.WRD_CTRL_ATOMIC_POLICY w.val).key ≠ (F.WRD_STATUS_CLAMPED w.val).key := by
    simp only [Fld.key, F.WRD_CTRL_ATOMIC_POLICY, F.WRD_STATUS_CLAMPED]
    omega
  have value : (if 2 < bitsN (2 * x.toNat) 1 2 then 0 else bitsN (2 * x.toNat) 1 2) % 2 ^ 2 = if x = 3 then 0 else x.toNat := by
    revert x
    decide
  rw [writeEffect_policy]
  refine ⟨fieldsOnly_putClamped _ _ _ _, ?_, fun h => ?_⟩
  · rw [getF_putClamped apart]
    exact value
  · subst h
    rw [getF_putClamped_flag apart.symm]
    rfl

/-! #### The accesses of each port -/

/-- A register access of S or of a ward that nothing holds up. -/
theorem of_carries_s (h : s.carries .s none true) : s.mmioOpen = true ∧ s.hostHolds .s = false := by
  rcases h with ⟨-, ho, hw⟩ | ⟨w, e, -⟩
  · exact ⟨ho, hw⟩
  · cases e

theorem of_carries_w {w : WardId} {a : Nat} (h : s.carries (.w w) (some a) true) :
    s.fnOpen (.vf w) = true ∧ s.hostHolds (.w w) = false ∧ s.resettingWard w = false := by
  rcases h with ⟨e, -⟩ | ⟨w2, e, ho, -, hw, hr, -⟩
  · cases e
  · cases e
    exact ⟨ho, hw, hr⟩

/-- A write of a register below the Bulk Ports' waits for none of them. -/
theorem writeWaits_of_lt {p : Port} {off r n k : Nat} (hw : s.hostHolds p = false) (hv : s.viewSpan p off = some (r, n, k)) (h : r < 0x800000) :
    s.writeWaits p off = false := writeWaits_of_span hw hv fun f hf => by
  rw [bulkRegOf_of_lt h] at hf
  contradiction

/-- A ward's write of any register waits for its own Bulk Port alone. -/
theorem writeWaits_w {w : WardId} (hw : s.hostHolds (.w w) = false) (hb : s.bulkOut (.vf w) = false) (off : Nat) :
    s.writeWaits (.w w) off = false := by
  cases hv : s.viewSpan (.w w) off with
  | none => exact writeWaits_of_none hw hv
  | some x =>
    obtain ⟨r, n, k⟩ := x
    exact writeWaits_of_span hw hv fun f hf => by rw [bulkRegOf_viewSpan hv hf, hb]

theorem exec_write_resetting {w : WardId} (ho : s.fnOpen (.vf w) = true) (hr : s.resettingWard w = true) (hx : s.link.rxq = [])
    (hb : s.bulkOut (.vf w) = false) (off len v : Nat) : exec (.registerWrite (.w w) off len v) s = .next s := by
  have holds : s.hostHolds (.w w) = false := by simp [hostHolds, portFn, hx, hb]
  have dark : s.wardDark (.w w) = true := hr
  exact congrArg Host.Outcome.next ((if_pos ho).trans ((if_neg (by rw [writeWaits_w holds hb]; nofun)).trans (if_pos dark)))

theorem exec_held_s (ho : s.mmioOpen = true) (h : s.link.rxq ≠ [] ∨ s.bulkOut .pf0 = true) :
    (∀ off len, exec (.rcFieldRead .s off len) s = .next (s.holdPosted (.regRead .s off len)))
      ∧ ∀ off len val, exec (.registerWrite .s off len val) s = .next (s.holdPosted (.regWrite .s off len val)) := by
  have holds : s.hostHolds .s = true := by
    rcases h with h | h
    · simp [hostHolds, portFn, List.isEmpty_eq_false_iff.mpr h]
    · simp [hostHolds, portFn, h]
  refine ⟨fun off len => congrArg Host.Outcome.next ((if_pos ho).trans (if_pos holds)), fun off len val => ?_⟩
  exact congrArg Host.Outcome.next ((if_pos ho).trans (if_pos (by rw [writeWaits, holds, Bool.true_or])))

/-- A read that reaches no register answers 0 and is counted. -/
theorem readReg_of_none {off : Nat} (hv : s.viewSpan .s off = none) : s.readReg .s off 1 = (0, s.countAccess .s off) := by
  simp [readReg, readBy, bytesBy, touched, hv, ofLe]

theorem exec_write_entry_w {w : WardId} {t : TileId} (ht : s.tileWard t = some w) (h : s.carries (.w w) (some (0x40008 + 0x400 * t.val)) true)
    (z : W64) : exec (.registerWrite (.w w) (0x40008 + 0x400 * t.val) 8 z.toNat) s = .next (s.setF (F.TIL_ENTRY_VALUE t.val) z.toNat) := by
  obtain ⟨ho, hw, hr⟩ := of_carries_w h
  have view : s.viewSpan (.w w) (0x40008 + 0x400 * t.val) = some (tilBase t + 8, 8, 0) := viewSpan_entry ht (i := 0) (by omega)
  have hb := tilBase_lt t
  have vf : vfMsix = 0x100000 := rfl
  have may : s.mayWrite (.w w) (tilBase t + 8) = true := by
    rw [mayWrite, blockAt_til t (by omega)]
    exact Bool.or_true _
  rw [exec_write_w ho hr (by omega) (writeWaits_of_lt hw view (by omega)), write_entry t z view may]

theorem exec_read_entry_w {w : WardId} {t : TileId} (ht : s.tileWard t = some w) (h : s.carries (.w w) (some (0x40008 + 0x400 * t.val)) true) :
    exec (.rcFieldRead (.w w) (0x40008 + 0x400 * t.val) 8) s =
      .next (s.emit (.readData (.w w) (0x40008 + 0x400 * t.val) (s.getF (F.TIL_ENTRY_VALUE t.val) % 2 ^ 64))) := by
  obtain ⟨ho, hw, hr⟩ := of_carries_w h
  have vf : vfMsix = 0x100000 := rfl
  have read : s.readReg (.w w) (0x40008 + 0x400 * t.val) 8 = (s.getF (F.TIL_ENTRY_VALUE t.val) % 2 ^ 64, s) := by
    rw [readReg_whole (by decide) (fun i hi => viewSpan_entry ht hi) rfl, regWord_entry, clearRead_entry, ite_self]
    rfl
  rw [exec_read_w ho hr hw (by omega), read]

/-- The lowest and the highest sample of a rail begin anew, the last one stays (17 R454). -/
theorem rail_cleared (n : Nat) :
    ((s.setF (F.SUP_RAIL_LOW n) 0xFFFF).setF (F.SUP_RAIL_HIGH n) 0).getF (F.SUP_RAIL_LOW n) = 0xFFFF
      ∧ ((s.setF (F.SUP_RAIL_LOW n) 0xFFFF).setF (F.SUP_RAIL_HIGH n) 0).getF (F.SUP_RAIL_HIGH n) = 0
      ∧ ((s.setF (F.SUP_RAIL_LOW n) 0xFFFF).setF (F.SUP_RAIL_HIGH n) 0).getF (F.SUP_RAIL_NOW n) = s.getF (F.SUP_RAIL_NOW n) := by
  have apart : (F.SUP_RAIL_LOW n).key ≠ (F.SUP_RAIL_HIGH n).key ∧ (F.SUP_RAIL_NOW n).key ≠ (F.SUP_RAIL_HIGH n).key
      ∧ (F.SUP_RAIL_NOW n).key ≠ (F.SUP_RAIL_LOW n).key := by
    simp only [Fld.key, F.SUP_RAIL_LOW, F.SUP_RAIL_HIGH, F.SUP_RAIL_NOW]
    omega
  refine ⟨?_, ?_, ?_⟩
  · rw [getF_setF_other _ _ _ _ apart.1, getF_setF]
    rfl
  · rw [getF_setF]
    rfl
  · rw [getF_setF_other _ _ _ _ apart.2.1, getF_setF_other _ _ _ _ apart.2.2]

theorem inObs_policy (w : WardId) : inObs (F.WRD_CTRL_ATOMIC_POLICY w.val).off = false := by
  revert w
  decide

theorem mayWrite_policy {w : WardId} (h : s.consentRegs w = true) : s.mayWrite .l (F.WRD_CTRL_ATOMIC_POLICY w.val).off = true := by
  have ward : s.blockWard (F.WRD_CTRL_ATOMIC_POLICY w.val).off = some w := by
    rw [blockWard, blockAt_wrd]
    exact congrArg some (wrdIx_policy w)
  rw [mayWrite, lntWrites, inObs_policy, blockAt_wrd]
  dsimp only
  rw [Nat.sub_self, ward, Option.any_some, h]
  rfl

theorem spanAt_policy (w : WardId) : spanAt (F.WRD_CTRL_ATOMIC_POLICY w.val).off = some ((F.WRD_CTRL_ATOMIC_POLICY w.val).off, 4, 0) := by
  revert w
  decide

end State

section
open State

/-- Settles O56: an access is refused or held by its port, or it reaches a register; each named register is written and read as its
fields' access codes say. -/
theorem registersReadAndWrite : Obligations.RegistersReadAndWrite := by
  unfold Obligations.RegistersReadAndWrite
  intro s answers
  refine ⟨?_, ?_, ?_, ?_, ?_, ?_, ?_, ?_, ?_, ?_, ?_, ?_, ?_, ?_⟩
  -- a port that does not answer, a ward that resets, a port without authority
  · exact fun h _ _ _ => congrArg Host.Outcome.next (if_neg (by rw [h]; nofun))
  · exact fun w h _ _ _ => congrArg Host.Outcome.next (if_neg (by rw [h]; nofun))
  · exact fun w ho hr hx hb off len val => exec_write_resetting ho hr hx hb off len val
  · exact fun off len val h => congrArg Host.Outcome.next (if_neg (by rcases h with h | h <;> simp [h]))
  · exact fun off len val h => congrArg Host.Outcome.next (if_neg (by rcases h with h | h | h <;> simp [h]))
  · exact fun off len h => congrArg Host.Outcome.next (if_neg (by rcases h with h | h <;> simp [h]))
  · exact fun off len h => congrArg Host.Outcome.next (if_neg (by rcases h with h | h | h <;> simp [h]))
  -- what arrived before is waited for
  · exact fun ho h => exec_held_s ho h
  -- S
  · intro h counted
    obtain ⟨ho, hw⟩ := of_carries_s h
    have count : ∀ off, counted (s.countAccess .s off) off := fun off =>
      have c := countAccess_counts (s := s) off
      ⟨c.1.eq, c.2⟩
    refine ⟨fun off len val hv => ?_, fun off len val r n k hv part hb => ?_, fun off hv => ?_, fun t z => ?_, fun z => ?_, fun z =>
      ?_, ?_, fun n hn => ?_⟩
    · exact ⟨_, (exec_write_s ho (writeWaits_of_none hw hv)).trans (congrArg Host.Outcome.next (writeReg_of_none hv)), count off⟩
    · exact ⟨_, (exec_write_s ho (writeWaits_of_span hw hv hb)).trans (congrArg Host.Outcome.next (writeReg_of_part hv part)), count off⟩
    · rw [exec_read_s ho hw, readReg_of_none hv]
      exact ⟨_, rfl, ⟨rfl, (count off).2⟩, rfl⟩
    · have view : s.viewSpan .s (F.TIL_ENTRY_VALUE t.val).off = some (tilBase t + 8, 8, 0) := spanAt_entry t (i := 0) (by omega)
      have hb := tilBase_lt t
      rw [exec_write_s ho (writeWaits_of_lt hw view (by omega)), write_entry t z view rfl]
      exact ⟨_, rfl, rfl, getF_entry t z⟩
    · have view : s.viewSpan .s 0x50000 = some (0x50000, 4, 0) := spanAt_tick
      obtain ⟨only, period, cut, clear⟩ := tick_written (s := s) z
      rw [exec_write_s ho (writeWaits_of_lt hw view (by decide)), writeReg_of_span view rfl (by decide)]
      exact ⟨_, rfl, only.eq, period, cut, clear⟩
    · have view : s.viewSpan .s 0x40100 = some (0x40100, 8, 0) := spanAt_time 0 (by decide)
      rw [exec_write_s ho (writeWaits_of_lt hw view (by decide)), writeReg_of_span view rfl (by decide), writeEffect_time]
    · rw [exec_read_s ho hw, readReg_time (s := s) (p := .s) spanAt_time rfl]
      exact ⟨_, rfl, rfl, rfl⟩
    · have may : s.mayClear .s (0x40000 + 8 * n) = true := rfl
      rw [exec_read_s ho hw, readReg_whole (s := s) (p := .s) (by decide) (spanAt_rail n hn) rfl, if_pos may, clearRead_rail hn]
      exact ⟨_, rfl, rail_cleared n⟩
  -- a ward at the entry of its tile
  · exact fun w t z ht h => ⟨⟨_, exec_write_entry_w ht h z, rfl, getF_entry t z⟩, ⟨_, exec_read_entry_w ht h, rfl, rfl⟩⟩
  -- management
  · intro hb z lim
    obtain ⟨only, enable, selftest, limit, cut⟩ := stall_written (s := s) .m z
    have view : s.viewSpan .m 0x40120 = some (0x40120, 4, 0) := spanAt_stall
    refine ⟨⟨_, exec_write_m hb rfl _ _, ?_⟩, ?_⟩
    · rw [writeReg_of_span view rfl (by decide)]
      exact ⟨only.eq, enable, selftest, limit, cut⟩
    · rw [exec_read_m hb rfl, readReg_time (s := s) (p := .m) spanAt_time rfl]
      exact ⟨_, rfl, rfl, rfl⟩
  -- Lantern
  · intro hr hl
    refine ⟨fun w x hc => ?_, ?_⟩
    · obtain ⟨only, policy, cut⟩ := policy_written (s := s) .l w x
      have view : s.viewSpan .l (F.WRD_CTRL_ATOMIC_POLICY w.val).off = some ((F.WRD_CTRL_ATOMIC_POLICY w.val).off, 4, 0) := spanAt_policy w
      have low : (F.WRD_CTRL_ATOMIC_POLICY w.val).off < 0x410000 := by
        simp only [F.WRD_CTRL_ATOMIC_POLICY]
        omega
      rw [exec_write_l hr hl (mayWrite_policy hc), writeReg_of_span view (mayWrite_policy hc) low]
      exact ⟨_, rfl, only.eq, policy, cut⟩
    · rw [exec_read_l hr hl rfl, readReg_time (s := s) (p := .l) spanAt_time rfl]
      exact ⟨_, rfl, rfl, rfl⟩
  -- the end of the dim state
  · exact fun h => congrArg Host.Outcome.next (leaveDim_unless h)
  · exact fun hd hc hp hh hr => ⟨_, rfl, leaveDim_of hd hc hp hh hr⟩

end

end Sys2Proof.Machine

namespace Sys2Proof.Machine

/-! ### Faults of data accesses (04 R118, R119, R122, R123; 01 R28, R29) -/

namespace State
variable {s u : State} {c : Instr} {t : TileId} {ra : BitVec 5} {imm a : W64} {n : Nat} {k : AccKind} {page : PageUse}

/-! #### The instructions that access data -/

/-- Command `c` accesses `n` bytes of data at tile `t`: it takes the exception that the checks of the access find, and
else makes the access `go`. -/
def Accesses (c : Instr) (t : TileId) (ra : BitVec 5) (imm : W64) (n : Nat) (k : AccKind) (page : PageUse) (go : State → W64 → State) : Prop :=
  ∃ bad body, tileWord c = some (t, bad) ∧ (∀ s, exec c s = .next (s.tileOp c t bad false body))
    ∧ (∀ u e, u.dataFault t ((u.tile t).rg ra + imm) n k page = some e → body u = u.dataExcept t e ((u.tile t).rg ra + imm))
    ∧ (∀ u, u.dataFault t ((u.tile t).rg ra + imm) n k page = none → body u = go u ((u.tile t).rg ra + imm))

theorem reachesOrNarrow_ne (p : Prop) [Decidable p] : (if p then PageUse.reaches else .narrow) ≠ .other := by
  split_ifs <;> decide

theorem loadOp_accesses {f : IForm} {op : Nat} (hw : tileWord c = some (t, false)) (hc : ∀ s, exec c s = .next (s.loadOp c t f op)) :
    Accesses c t f.ra (f.imm.signExtend 64) (opSize op) .read (if op = 0x16 then .reaches else .narrow) (fun u a => u.doLoad t op f.rd a) :=
  ⟨false, _, hw, hc, fun u e h => by simp only [Tile.ea, sext16, h],
    fun u h => by simp only [Tile.ea, sext16, h]⟩

theorem storeOp_accesses {f : SForm} {op : Nat} (hw : tileWord c = some (t, false)) (hc : ∀ s, exec c s = .next (s.storeOp c t f op)) :
    Accesses c t f.ra (f.imm.signExtend 64) (opSize op) .write (if op = 0x1D then .reaches else .narrow) (fun u a => u.doStore t op ((u.tile t).storeValue op f.rs) a) :=
  ⟨false, _, hw, hc, fun u e h => by simp only [Tile.ea, sext16, h],
    fun u h => by simp only [Tile.ea, sext16, h]⟩

theorem ptest_accesses (t : TileId) (f : IForm) :
    Accesses (.ptest t f) t f.ra (f.imm.signExtend 64) 8 .read .other (fun u a => u.doPtest t f.rd a) :=
  ⟨false, _, rfl, fun _ => rfl, fun u e h => by simp only [Tile.ea, sext16, h], fun u h => by simp only [Tile.ea, sext16, h]⟩

theorem atReq_size (y : Tile) (op : AtOp) (f : AtForm) : (y.atReq op f).size = if f.size = 1 then 8 else 4 := by
  simp [AtReq.size, Tile.atReq]

theorem atomicOp_accesses {f : AtForm} {op : AtOp} (hw : tileWord c = some (t, f.bad)) (hc : ∀ s, exec c s = .next (s.atomicOp c t f op)) :
    Accesses c t f.ra 0 (if f.size = 1 then 8 else 4) .atomic .other (fun u a => u.doAtomic t f.hint.toNat ((u.tile t).atReq op f) f.rd a) :=
  ⟨f.bad, _, hw, hc, fun u e h => by simp only [add_zero] at h ⊢; simp only [atReq_size, h],
    fun u h => by simp only [add_zero] at h ⊢; simp only [atReq_size, h]⟩

/-- The four families of data accesses. -/
theorem dataAccess_cases (h : dataAccess c = some (t, ra, imm, n)) :
    (∃ f op, tileWord c = some (t, false) ∧ (∀ s, exec c s = .next (s.loadOp c t f op)) ∧ (ra, imm, n) = (f.ra, f.imm.signExtend 64, opSize op)
      ∧ ∀ y, (loadsInto c y).isSome = true ∧ storesFrom c y = none)
    ∨ (∃ f, c = .ptest t f ∧ (ra, imm, n) = (f.ra, f.imm.signExtend 64, 8))
    ∨ (∃ f op, tileWord c = some (t, false) ∧ (∀ s, exec c s = .next (s.storeOp c t f op)) ∧ (ra, imm, n) = (f.ra, f.imm.signExtend 64, opSize op)
      ∧ ∀ y, loadsInto c y = none ∧ (storesFrom c y).isSome = true)
    ∨ (∃ f op, tileWord c = some (t, f.bad) ∧ (∀ s, exec c s = .next (s.atomicOp c t f op)) ∧ (ra, imm, n) = (f.ra, 0, if f.size = 1 then 8 else 4)
      ∧ ∀ y, loadsInto c y = none ∧ storesFrom c y = none) := by
  unfold dataAccess at h
  split at h
  case h_1 f | h_2 f | h_3 f | h_4 f | h_5 f | h_6 f | h_7 f | h_8 f | h_9 f =>
    cases h
    exact .inl ⟨f, _, rfl, fun _ => rfl, rfl, fun _ => ⟨rfl, rfl⟩⟩
  case h_10 f =>
    cases h
    exact .inr (.inl ⟨f, rfl, rfl⟩)
  case h_11 f | h_12 f | h_13 f | h_14 f | h_15 f | h_16 f =>
    cases h
    exact .inr (.inr (.inl ⟨f, _, rfl, fun _ => rfl, rfl, fun _ => ⟨rfl, rfl⟩⟩))
  case h_17 f | h_18 f | h_19 f | h_20 f | h_21 f | h_22 f | h_23 f | h_24 f | h_25 f | h_26 f =>
    cases h
    exact .inr (.inr (.inr ⟨f, _, rfl, fun _ => rfl, rfl, fun _ => ⟨rfl, rfl⟩⟩))
  case h_27 => cases h

theorem dataAccess_accesses (h : dataAccess c = some (t, ra, imm, n)) : ∃ k page go, Accesses c t ra imm n k page go := by
  rcases dataAccess_cases h with ⟨f, op, hw, he, e, -⟩ | ⟨f, hf, e⟩ | ⟨f, op, hw, he, e, -⟩ | ⟨f, op, hw, he, e, -⟩
  · cases e
    exact ⟨_, _, _, loadOp_accesses hw he⟩
  · cases e
    exact ⟨_, _, _, hf ▸ ptest_accesses t f⟩
  · cases e
    exact ⟨_, _, _, storeOp_accesses hw he⟩
  · cases e
    exact ⟨_, _, _, atomicOp_accesses hw he⟩

/-- A load reads and a store writes; both may name the control page. -/
theorem accesses_of_load (h : dataAccess c = some (t, ra, imm, n)) (hl : (loadsInto c (u.tile t)).isSome = true) :
    tileWord c = some (t, false) ∧ ∃ page go, page ≠ .other ∧ Accesses c t ra imm n .read page go := by
  rcases dataAccess_cases h with ⟨f, op, hw, he, e, -⟩ | ⟨f, hf, e⟩ | ⟨_, _, _, -, -, no⟩ | ⟨_, _, _, -, -, no⟩
  · cases e
    exact ⟨hw, _, _, reachesOrNarrow_ne _, loadOp_accesses hw he⟩
  · cases hf
    cases hl
  · cases (no (u.tile t)).1 ▸ hl
  · cases (no (u.tile t)).1 ▸ hl

theorem accesses_of_store (h : dataAccess c = some (t, ra, imm, n)) (hl : (storesFrom c (u.tile t)).isSome = true) :
    tileWord c = some (t, false) ∧ ∃ page go, page ≠ .other ∧ Accesses c t ra imm n .write page go := by
  rcases dataAccess_cases h with ⟨_, _, _, -, -, no⟩ | ⟨f, hf, e⟩ | ⟨f, op, hw, he, e, -⟩ | ⟨_, _, _, -, -, no⟩
  · cases (no (u.tile t)).2 ▸ hl
  · cases hf
    cases hl
  · cases e
    exact ⟨hw, _, _, reachesOrNarrow_ne _, storeOp_accesses hw he⟩
  · cases (no (u.tile t)).2 ▸ hl

theorem Accesses.exec_fault {go : State → W64 → State} (h : Accesses c t ra imm n k page go) (hw : tileWord c = some (t, false)) (hb : s.begins c t u)
    {e : Nat × Nat} (he : u.dataFault t ((u.tile t).rg ra + imm) n k page = some e) :
    exec c s = .next (u.dataExcept t e ((u.tile t).rg ra + imm)) := by
  obtain ⟨bad, body, hbad, hexec, hfault, -⟩ := h
  cases hbad.symm.trans hw
  rw [hexec, tileOp_begins hb, ← hfault u e he]
  rfl

theorem Accesses.exec_go {go : State → W64 → State} (h : Accesses c t ra imm n k page go) (hw : tileWord c = some (t, false)) (hb : s.begins c t u)
    (he : u.dataFault t ((u.tile t).rg ra + imm) n k page = none) : exec c s = .next (go u ((u.tile t).rg ra + imm)) := by
  obtain ⟨bad, body, hbad, hexec, -, hgo⟩ := h
  cases hbad.symm.trans hw
  rw [hexec, tileOp_begins hb, ← hgo u he]
  rfl

/-! #### What the checks of an access find -/

theorem areaOf_ward (h : a.toNat < lsBase) : areaOf a.toNat = .ward := if_pos h

theorem areaOf_ls (h : lsBase ≤ a.toNat) (h2 : a.toNat < lsBase + lsSize) : areaOf a.toNat = .ls (a.toNat - lsBase) := by
  rw [areaOf, if_neg (Nat.not_lt.mpr h), if_pos h2]

theorem areaOf_page (h : cpBase ≤ a.toNat) (h2 : a.toNat < cpBase + 2048) : areaOf a.toNat = .page ((a.toNat - cpBase) / 8) := by
  have hl : lsBase + lsSize ≤ cpBase := by decide
  rw [areaOf, if_neg (by omega), if_neg (by omega), if_pos ⟨h, h2⟩]

theorem areaOf_hole (h : lsBase + lsSize ≤ a.toNat) (hp : ¬(cpBase ≤ a.toNat ∧ a.toNat < cpBase + 2048))
    (hq : ¬(qsBase ≤ a.toNat ∧ a.toNat < qsBase + 3145728)) : areaOf a.toNat = .hole := by
  rw [areaOf, if_neg (by omega), if_neg (Nat.not_lt.mpr h), if_neg hp, if_neg hq]

theorem dataFault_misaligned (hk : (u.tile t).k = true) (ha : a.toNat % n ≠ 0) : u.dataFault t a n k page = some (3, 0) := by
  simp [dataFault, hk, ha]

theorem dataFault_hole (ha : a.toNat % n = 0) (h : areaOf a.toNat = .hole) : u.dataFault t a n k page = some (6, 0) := by
  simp [dataFault, ha, h]

theorem dataFault_narrow {p : Nat} (hk : (u.tile t).k = true) (ha : a.toNat % n = 0) (hn : n ≠ 8) (h : areaOf a.toNat = .page p) :
    u.dataFault t a n k page = some (6, 0) := by
  simp [dataFault, hk, ha, h, hn]

theorem dataFault_local {o : Nat} (ha : a.toNat % n = 0) (h : areaOf a.toNat = .ls o) : u.dataFault t a n k page = none := by
  simp [dataFault, ha, h]

theorem dataFault_level {p : Nat} (hk : (u.tile t).k = false) (hp : page ≠ .other) (h : areaOf a.toNat = .page p) :
    u.dataFault t a n k page = some (2, 0) := by
  simp [dataFault, hk, hp, h]

theorem dataFault_window {w : WardId} {wc : Nat} (ha : a.toNat % n = 0) (h : areaOf a.toNat = .ward) (hw : u.tileWard t = some w)
    (hx : u.translate w a.toNat n k = .inl wc) : u.dataFault t a n k page = some (5, wc) := by
  simp [dataFault, ha, h, hw, hx]

/-- Sound bytes need no correction. -/
theorem lsCorrect_of_sound {o : Nat} (h : (u.tile t).lsSound o n = true) : u.lsCorrect t o n = u := by
  have none : (List.range n).filter (fun i => (u.tile t).lsFix.get false (o + i)) = [] := by
    refine List.filter_eq_nil_iff.mpr fun i hi => ?_
    have := List.all_eq_true.mp h i hi
    simp_all
  rw [lsCorrect, none]
  rfl

theorem doLoad_marked {op o : Nat} {rd : BitVec 5} (h : areaOf a.toNat = .ls o) (hs : (u.tile t).lsSound o (opSize op) = true)
    (hm : (u.tile t).marked o (opSize op) = true) : u.doLoad t op rd a = u.except t 7 a := by
  simp only [doLoad, h, lsCorrect_of_sound hs, hm, if_true]

theorem doAtomic_marked {hint o : Nat} {q : AtReq} {rd : BitVec 5} (h : areaOf a.toNat = .ls o) (hs : (u.tile t).lsSound o q.size = true)
    (hm : (u.tile t).marked o q.size = true) : u.doAtomic t hint q rd a = u.except t 7 a := by
  simp only [doAtomic, h, lsCorrect_of_sound hs, hm, if_true]

/-! #### Exceptions with no window fault -/

/-- An exception of the instruction at the PC that is no window fault and no local-store error. -/
theorem traps_of_exec {code : Nat} {bad : W64} (h4 : code ≠ 4) (h5 : code ≠ 5) (h9 : code ≠ 9) (hc : u.canEnter t code)
    (he : exec c s = .next (u.takeException t code 0 0 bad (u.tile t).pc)) : traps c s u t code (BitVec.ofNat 64 code) bad (u.tile t).pc := by
  obtain ⟨only, enters⟩ := takeException_enters u t code 0 bad (u.tile t).pc h4 h5 h9 hc
  exact ⟨_, he, only, enters⟩

theorem Accesses.traps_fault {go : State → W64 → State} (h : Accesses c t ra imm n k page go) (hw : tileWord c = some (t, false)) (hb : s.begins c t u)
    {code : Nat} (h4 : code ≠ 4) (h5 : code ≠ 5) (h9 : code ≠ 9) (hc : u.canEnter t code)
    (he : u.dataFault t ((u.tile t).rg ra + imm) n k page = some (code, 0)) :
    traps c s u t code (BitVec.ofNat 64 code) (if code = 2 then 0 else (u.tile t).rg ra + imm) (u.tile t).pc :=
  traps_of_exec h4 h5 h9 hc (by rw [h.exec_fault hw hb he, dataExcept])

/-- A load or an atomic that reads a marked word of local store. -/
theorem traps_marked (hd : dataAccess c = some (t, ra, imm, n)) (hw : tileWord c = some (t, false)) (hb : s.begins c t u) (hc : u.canEnter t 7)
    (ha : ((u.tile t).rg ra + imm).toNat % n = 0) {o : Nat} (hl : areaOf ((u.tile t).rg ra + imm).toNat = .ls o)
    (hs : (u.tile t).lsSound o n = true) (hm : (u.tile t).marked o n = true) (hst : storesFrom c (u.tile t) = none) (hpt : ∀ f, c ≠ .ptest t f) :
    traps c s u t 7 (BitVec.ofNat 64 7) ((u.tile t).rg ra + imm) (u.tile t).pc := by
  refine traps_of_exec (by decide) (by decide) (by decide) hc ?_
  rcases dataAccess_cases hd with ⟨f, op, -, he, e, -⟩ | ⟨f, hf, -⟩ | ⟨_, _, -, -, -, store⟩ | ⟨f, op, hbad, he, e, -⟩
  · cases e
    rw [(loadOp_accesses hw he).exec_go hw hb (dataFault_local ha hl), doLoad_marked hl hs hm]
    rfl
  · exact absurd hf (hpt f)
  · cases hst ▸ (store (u.tile t)).2
  · cases e
    rw [← atReq_size (u.tile t) op f] at hs hm
    rw [(atomicOp_accesses hbad he).exec_go hw hb (dataFault_local ha hl), doAtomic_marked hl hs hm]
    rfl

end State

/-! #### Entering a handler (04 R130, R133) -/

/-- The tile in the handler of `code`, with the frame `fr` below its old g2. -/
def Tile.inHandler (y : Tile) (fr : Vector W64 8) (code : Nat) (cause bad epc : W64) : Tile :=
  let o := (y.rg 2).toNat - 64 - lsBase
  let z := ((y.lsWriteBytes o (State.frameBytes fr)).markWords o false 8).wg 2 (y.rg 2 - 64)
  { z with epc := epc, cause := cause, badaddr := bad, k := true, ie := false, pc := z.vbase + BitVec.ofNat 64 (16 * code), mode := .running,
           stepDone := z.stepping, vectoring := some fr }

section
variable (y : Tile) (fr : Vector W64 8) (code : Nat) (cause bad epc : W64)

theorem Tile.wg_eq (r : BitVec 5) (v : W64) : y.wg r v = { y with g := (y.wg r v).g } := by
  unfold Tile.wg
  split_ifs <;> rfl

theorem Tile.inHandler_eq : y.inHandler fr code cause bad epc =
    { y with g := (y.inHandler fr code cause bad epc).g, ls := (y.inHandler fr code cause bad epc).ls,
             lsPoison := (y.inHandler fr code cause bad epc).lsPoison, lsBad := (y.inHandler fr code cause bad epc).lsBad,
             lsFix := (y.inHandler fr code cause bad epc).lsFix, epc := epc, cause := cause, badaddr := bad, k := true, ie := false,
             pc := y.vbase + BitVec.ofNat 64 (16 * code), mode := .running, stepDone := y.stepping, vectoring := some fr } := by
  unfold Tile.inHandler
  dsimp only
  rw [Tile.wg_eq, Tile.markWords_eq, Tile.lsWriteBytes_eq]

theorem Tile.inHandler_rg (r : BitVec 5) : (y.inHandler fr code cause bad epc).rg r = if r = 2 then y.rg 2 - 64 else y.rg r := by
  have old : ∀ (z : Tile), z.g = y.g → (z.wg 2 (y.rg 2 - 64)).rg r = if r = 2 then y.rg 2 - 64 else y.rg r := fun z hz => by
    rw [Tile.rg_wg]
    by_cases h : r = 2
    · simp [h]
    · rw [if_neg (fun c => h c.1), if_neg h, Tile.rg, Tile.rg, hz]
  exact old _ (by rw [Tile.markWords_eq, Tile.lsWriteBytes_eq])

theorem Tile.inHandler_ls : (y.inHandler fr code cause bad epc).ls = (y.lsWriteBytes ((y.rg 2).toNat - 64 - lsBase) (State.frameBytes fr)).ls := by
  unfold Tile.inHandler
  dsimp only
  rw [Tile.wg_eq, Tile.markWords_ls]

theorem frameBytes_length : (State.frameBytes fr).length = 64 := by
  simp [State.frameBytes]

/-- The words of the frame stand in local store in their order. -/
theorem Tile.inHandler_word {i p : Nat} {w : W64} (hp : p = (y.rg 2).toNat - 64 - lsBase + 8 * i) (hi : fr.toList[i]? = some w) :
    (y.inHandler fr code cause bad epc).word p = w := by
  have lt : i < 8 := by simpa using (List.getElem?_eq_some_iff.mp hi).1
  subst hp
  refine Tile.word_written _ _ _ fun j hj => ?_
  rw [Tile.inHandler_ls, Tile.lsWriteBytes_get, frameBytes_length, if_pos (by omega), Nat.add_assoc, Nat.add_sub_cancel_left]
  exact getD_flatMap_le _ i j _ hj hi

/-- The tile has entered the handler (04 R130). -/
theorem entered_inHandler (status : W64) :
    entered y (y.inHandler #v[epc, status, cause, bad, y.rg 1, y.rg 3, y.rg 4, y.rg 5] code cause bad epc) status cause bad epc code := by
  have word := fun i {p w} => Tile.inHandler_word y #v[epc, status, cause, bad, y.rg 1, y.rg 3, y.rg 4, y.rg 5] code cause bad epc (i := i) (p := p) (w := w)
  refine ⟨Tile.inHandler_eq .., Tile.inHandler_rg _ _ _ _ _ _, word 0 (Nat.add_zero _).symm rfl, word 1 rfl rfl, word 2 rfl rfl, word 3 rfl rfl,
    word 4 rfl rfl, word 5 rfl rfl, word 6 rfl rfl, word 7 rfl rfl, fun j hj => ?_⟩
  rw [Tile.inHandler_ls, Tile.lsWriteBytes_get, frameBytes_length, if_neg (by omega)]

/-- Entering a handler marks no word and leaves no error that did not stand. -/
theorem Tile.inHandler_marks (k : Nat) (h : (y.inHandler fr code cause bad epc).lsPoison.get false k = true) : y.lsPoison.get false k = true := by
  unfold Tile.inHandler at h
  dsimp only at h
  rw [Tile.wg_eq] at h
  have := Tile.markWords_clears _ _ _ _ h
  rwa [Tile.lsWriteBytes_eq] at this

theorem Tile.inHandler_errors (k : Nat) (h : (y.inHandler fr code cause bad epc).lsBad.get false k = true) : y.lsBad.get false k = true := by
  unfold Tile.inHandler at h
  dsimp only at h
  rw [Tile.wg_eq, Tile.markWords_eq] at h
  exact Tile.lsWriteBytes_bad _ _ _ _ h

end

namespace State
variable {s u : State} {c : Instr} {t : TileId} {ra : BitVec 5} {imm a : W64} {n : Nat} {k : AccKind} {page : PageUse}

theorem fieldsOnly_winFault (w : WardId) (wc addr : Nat) : FieldsOnly s (s.winFault w wc addr) := ((fieldsOnly_setF _ _).setF).setF

theorem fieldsOnly_recordTileFault (code wc : Nat) (bad : W64) : FieldsOnly s (s.recordTileFault t code wc bad) := by
  unfold recordTileFault
  split_ifs
  · cases s.tileWard t with
    | none => exact ⟨_, rfl⟩
    | some w => exact fieldsOnly_winFault w wc _
  · exact ⟨_, rfl⟩

/-- An exception that is no local-store error, with a valid stack and a vector that can be fetched, is recorded if it is a
window fault, counts at the tile and puts it in the handler. -/
theorem takeException_inHandler (code wc tn : Nat) (bad epc : W64) (h9 : code ≠ 9) (hc : s.canEnter t code) :
    ∃ a b, s.takeException t code wc tn bad epc = ((s.recordTileFault t code wc bad).setTile t { s.tile t with pmc := a, ovf := b }).setTile t
      (({ s.tile t with pmc := a, ovf := b } : Tile).inHandler (s.trapFrame t epc (causeWord code wc tn) bad) code (causeWord code wc tn) bad epc) := by
  obtain ⟨hv, he, hf⟩ := hc
  have counted : ∃ a b, (if code = 7 ∨ code = 8 then ((s.tile t).countEv (if code < 0x20 then 14 else 15) 1).countEv 16 1
      else (s.tile t).countEv (if code < 0x20 then 14 else 15) 1) = { s.tile t with pmc := a, ovf := b } := by
    obtain ⟨a, b, e⟩ := (s.tile t).countEv_cases (if code < 0x20 then 14 else 15) 1
    rw [e]
    split_ifs
    · exact Tile.countEv_cases { s.tile t with pmc := a, ovf := b } 16 1
    · exact ⟨a, b, rfl⟩
  obtain ⟨a, b, counted⟩ := counted
  obtain ⟨fl, hr⟩ := fieldsOnly_recordTileFault (s := s) (t := t) code wc bad
  refine ⟨a, b, ?_⟩
  generalize hy : ({ s.tile t with pmc := a, ovf := b } : Tile) = y at counted ⊢
  have tile : (s.recordTileFault t code wc bad).tile t = s.tile t := by rw [hr]; rfl
  have frame : ((s.recordTileFault t code wc bad).setTile t y).trapFrame t epc (causeWord code wc tn) bad = s.trapFrame t epc (causeWord code wc tn) bad := by
    rw [hr, trapFrame, tileStatus, tile_setTile, ← hy]
    rfl
  have vector : (((s.recordTileFault t code wc bad).setTile t y).setTile t (y.inHandler (s.trapFrame t epc (causeWord code wc tn) bad) code
      (causeWord code wc tn) bad epc)).fetchFault t (y.inHandler (s.trapFrame t epc (causeWord code wc tn) bad) code (causeWord code wc tn) bad epc).pc
      = none := by
    refine fetchFault_none (s := s) (by rw [hr]; rfl) (by rw [hr]; rfl) ?_ (fun k h => ?_) (fun k h => ?_) ?_
    · rw [tile_setTile, Tile.inHandler_eq, ← hy]
    · rw [tile_setTile] at h
      have := Tile.inHandler_marks _ _ _ _ _ _ _ h
      rwa [← hy] at this
    · rw [tile_setTile] at h
      have := Tile.inHandler_errors _ _ _ _ _ _ _ h
      rwa [← hy] at this
    · rw [Tile.inHandler_eq, ← hy]
      exact hf
  unfold takeException
  dsimp only
  rw [tile, counted, if_neg h9, if_pos (by rw [← hy]; exact hv), frame, tile_setTile, if_neg (by rw [← hy]; exact ne_true_of_eq_false he)]
  split
  · rfl
  · next found => cases vector.symm.trans found

theorem permCause_le {win : Win} {x : Nat} (h : permCause win k = some x) : x ≤ 7 := by
  cases k <;> grind [permCause]

/-- The causes of R28. -/
theorem translate_cause {w : WardId} {wc : Nat} {p : Nat} (h : u.translate w p n k = .inl wc) : wc ≤ 7 := by
  unfold translate at h
  split at h
  · cases h
    decide
  split at h
  · cases h
    decide
  split at h
  · cases h
    decide
  split at h
  · next hx =>
    cases h
    exact permCause_le hx
  split at h
  · cases h
    decide
  · cases h

/-- The window fault record takes the count, the cause and the address (01 R29). -/
theorem getF_winFault (w : WardId) {wc : Nat} (hwc : wc ≤ 7) (addr : Nat) :
    (u.winFault w wc addr).getF (F.WRD_WINFAULT_COUNT w.val) = min (2 ^ 12 - 1) (u.getF (F.WRD_WINFAULT_COUNT w.val) + 1)
      ∧ (u.winFault w wc addr).getF (F.WRD_WINFAULT_CAUSE w.val) = wc ∧ (u.winFault w wc addr).getF (F.WRD_WINFAULT_ADDR w.val) = addr % 2 ^ 47 := by
  have key : (F.WRD_WINFAULT_COUNT w.val).key ≠ (F.WRD_WINFAULT_CAUSE w.val).key ∧ (F.WRD_WINFAULT_COUNT w.val).key ≠ (F.WRD_WINFAULT_ADDR w.val).key
      ∧ (F.WRD_WINFAULT_CAUSE w.val).key ≠ (F.WRD_WINFAULT_ADDR w.val).key := by
    simp only [Fld.key, F.WRD_WINFAULT_COUNT, F.WRD_WINFAULT_CAUSE, F.WRD_WINFAULT_ADDR]
    omega
  obtain ⟨key1, key2, key3⟩ := key
  unfold winFault
  refine ⟨?_, ?_, ?_⟩
  · rw [getF_setF_other _ _ _ _ key2, getF_setF_other _ _ _ _ key1, bumpF, getF_setF]
    exact Nat.mod_eq_of_lt (lt_of_le_of_lt (min_le_left _ _) (by decide : 2 ^ 12 - 1 < 2 ^ 12))
  · rw [getF_setF_other _ _ _ _ key3, getF_setF]
    exact Nat.mod_eq_of_lt (lt_of_le_of_lt hwc (by decide : 7 < 2 ^ 4))
  · rw [getF_setF]
    rfl

/-- DATA_WINDOW: the fault is recorded, and the tile enters the handler. -/
theorem takeException_dataWindow {w : WardId} {wc : Nat} (hwc : wc ≤ 7) (hc : u.canEnter t 5) (hw : u.tileWard t = some w) (epc : W64) :
    let v := u.takeException t 5 wc 0 a epc
    v = { u with tiles := v.tiles, fld := v.fld } ∧ (∀ r, r ≠ t → v.tile r = u.tile r)
      ∧ entered (u.tile t) (v.tile t) (u.tileStatus t) (BitVec.ofNat 64 (5 + 256 * wc)) a epc 5
      ∧ v.getF (F.WRD_WINFAULT_COUNT w.val) = min (2 ^ 12 - 1) (u.getF (F.WRD_WINFAULT_COUNT w.val) + 1)
      ∧ v.getF (F.WRD_WINFAULT_CAUSE w.val) = wc ∧ v.getF (F.WRD_WINFAULT_ADDR w.val) = a.toNat % 2 ^ 47 := by
  obtain ⟨x, y, he⟩ := takeException_inHandler (s := u) 5 wc 0 a epc (by decide) hc
  have record : u.recordTileFault t 5 wc a = u.winFault w wc a.toNat := by
    rw [recordTileFault, if_pos (.inr rfl), hw]
  obtain ⟨fl, hf⟩ := fieldsOnly_winFault (s := u) w wc a.toNat
  have fields := getF_winFault (u := u) w hwc a.toNat
  rw [he, record]
  refine ⟨by rw [hf]; rfl, fun r hr => ?_, ?_, fields⟩
  · rw [tile_setTile_other _ _ _ _ hr, tile_setTile_other _ _ _ _ hr, hf]
    rfl
  · rw [tile_setTile]
    exact entered_inHandler { u.tile t with pmc := x, ovf := y } 5 _ a epc (u.tileStatus t)

end State

section
open State

/-- Settles O9: the checks of an access find its fault before it touches anything, but for a mark, which the access of local store
finds; a window fault is recorded before the tile enters the handler. -/
theorem dataAccessFaultsAreTaken : Obligations.DataAccessFaultsAreTaken := by
  unfold Obligations.DataAccessFaultsAreTaken
  refine ⟨fun c s u t ra imm n hd hw hb hk => ?_, fun c s u t ra imm n hd hls hb hk hc => ?_, fun c s u t ra imm n w k wc hd hk hb hc ht => ?_⟩
  · obtain ⟨k, page, go, acc⟩ := dataAccess_accesses hd
    intro a fault
    have six : a.toNat % n = 0 → u.dataFault t a n k page = some (6, 0) → fault 6 := fun _ he hc =>
      acc.traps_fault hw hb (by decide) (by decide) (by decide) hc he
    refine ⟨fun ha hc => acc.traps_fault hw hb (by decide) (by decide) (by decide) hc (dataFault_misaligned hk ha), fun ha => ⟨?_, ?_, ?_⟩⟩
    · exact fun h1 h2 h3 => six ha (dataFault_hole ha (areaOf_hole h1 h2 h3))
    · exact fun h1 h2 hn => six ha (dataFault_narrow hk ha hn (areaOf_page h1 h2))
    · exact fun h1 h2 hs hm hst hpt hc => traps_marked hd hw hb hc ha (areaOf_ls h1 h2) hs hm hst hpt
  · intro a h1 h2
    obtain ⟨hw, k, page, go, hp, acc⟩ : tileWord c = some (t, false) ∧ ∃ k page go, page ≠ .other ∧ Accesses c t ra imm n k page go := by
      rcases hls with hl | hst
      · obtain ⟨hw, page, go, acc⟩ := accesses_of_load hd hl
        exact ⟨hw, _, page, go, acc⟩
      · obtain ⟨hw, page, go, acc⟩ := accesses_of_store hd hst
        exact ⟨hw, _, page, go, acc⟩
    exact acc.traps_fault hw hb (by decide) (by decide) (by decide) hc (dataFault_level hk hp (areaOf_page h1 h2))
  · intro a ha hl hx
    obtain ⟨hw, page, go, acc⟩ : tileWord c = some (t, false) ∧ ∃ page go, Accesses c t ra imm n k page go := by
      rcases hk with ⟨rfl, hl⟩ | ⟨rfl, hst⟩
      · obtain ⟨hw, page, go, -, acc⟩ := accesses_of_load hd hl
        exact ⟨hw, page, go, acc⟩
      · obtain ⟨hw, page, go, -, acc⟩ := accesses_of_store hd hst
        exact ⟨hw, page, go, acc⟩
    have he := acc.exec_fault hw hb (dataFault_window ha (areaOf_ward hl) ht hx)
    rw [dataExcept, if_neg (show 5 ≠ 2 by decide)] at he
    exact ⟨_, he, takeException_dataWindow (translate_cause hx) hc ht _⟩

end
end Sys2Proof.Machine

namespace Sys2Proof.Machine

/-! ### Gates and probes (01 R38, R39; 06 R187, R190, R192) -/

namespace State
variable {s : State}

/-! #### Where a write of one register is not carried out -/

/-- A row that is a write of one register by a host port, where it is not carried out (01 R20, R50; 10 R292). -/
theorem heldBack_of_hostWrite {c : Instr} {p : Port} {off : Nat} {vf : Option Nat} {v : Nat} {own : Bool} {f : State → State}
    (h : exec c s = .next (s.hostWrite p off vf v own f)) : heldBack c s p off vf v own := by
  unfold heldBack
  rw [h]
  refine ⟨?_, ?_, ?_⟩
  · rintro rfl
    exact ⟨fun ho => by simp [hostWrite, ho], fun ho hw => by simp [hostWrite, ho, hw]⟩
  · rintro w rfl
    refine ⟨fun ho => by simp [hostWrite, ho], fun ho => ⟨?_, ?_⟩⟩
    · rintro rfl
      exact ⟨fun hr => by simp [hostWrite, ho, hr],
        fun hr => ⟨Config.freeNat s.freeCtr % 2 ^ 20, Nat.mod_lt _ (by decide), by simp [hostWrite, ho, hr, free]⟩⟩
    · rintro a rfl
      exact ⟨fun hw => by simp [hostWrite, ho, hw], fun hw => ⟨fun hr => by simp [hostWrite, ho, hw, hr],
        fun hr hown => by simp [hostWrite, ho, hw, hr, hown]⟩⟩
  · rintro (rfl | rfl)
    · rfl
    · rfl

theorem hostWrite_s {off : Nat} {vf : Option Nat} {v : Nat} {own : Bool} {f : State → State} (ho : s.mmioOpen = true) (hw : s.hostHolds .s = false) :
    s.hostWrite .s off vf v own f = f s := by
  simp [hostWrite, ho, hw]

/-! #### Probes -/

theorem tileWard_congr {u : State} (h : u.plan = s.plan) (t : TileId) : u.tileWard t = s.tileWard t := by
  unfold tileWard own
  rw [h]

/-- No quarter's fence holds back a message (12 R344). -/
theorem sendPkt_msg {p : Packet} (h : p.chan = .msg) : s.sendPkt p = { s with net := s.net ++ [p] } := by
  have free : s.fencedDst p.chan p.dst = false := by rw [fencedDst, h]; rfl
  rw [sendPkt, free]
  rfl

theorem ofNat_bitsN (val : W64) (lo w : Nat) : BitVec.ofNat w (bitsN val.toNat lo w) = val.extractLsb' lo w := by
  refine BitVec.eq_of_toNat_eq ?_
  rw [bitsN, BitVec.toNat_ofNat, Nat.mod_mod, BitVec.extractLsb'_toNat]

/-- GO clears the result, marks the probe as under way and sends it (06 R192). -/
theorem sendProbe_go {t : TileId} {val : W64} (h : val.getLsbD 48 = true) :
    ∃ u, FieldsOnly s u ∧ u.getF (F.TIL_AVE_PROBE_RES_DONE t.val) = 0
      ∧ s.sendProbe t val = { u.updTile t (fun y => { y with probeSerial := y.probeSerial + 1, probeOut := true }) with
        net := u.net ++ [mkPkt .msg 3 (.tile t) (.tile (Fin.ofNat 256 (val.toNat % 256))) ((u.tileWard t).getD 0) 8 0 false
          (.probe ⟨val.extractLsb' 16 32, u.supTime, (u.tile t).probeSerial + 1⟩) noLine] } := by
  unfold sendProbe
  extract_lets v s1 s2 s3
  have go : ¬(!bitN v 48) = true := by
    show ¬(!val.getLsbD 48) = true
    rw [h]
    decide
  refine ⟨s2, (fieldsOnly_setF _ _).setF.setF.setF.setF.setF.setF, ?_, ?_⟩
  · have key : (F.TIL_AVE_PROBE_RES_DONE t.val).key ≠ (F.TIL_AVE_PROBE_RES_MISMATCH t.val).key
        ∧ (F.TIL_AVE_PROBE_RES_DONE t.val).key ≠ (F.TIL_AVE_PROBE_RES_POISON t.val).key := by
      simp only [Fld.key, F.TIL_AVE_PROBE_RES_DONE, F.TIL_AVE_PROBE_RES_MISMATCH, F.TIL_AVE_PROBE_RES_POISON]
      omega
    rw [getF_setF_other _ _ _ _ key.2, getF_setF_other _ _ _ _ key.1, getF_setF]
    exact Nat.zero_mod _
  · have dest : bitsN v 0 8 = val.toNat % 256 := rfl
    have ward : s3.tileWard t = s2.tileWard t := tileWard_congr (updTile_plan s2 t _) t
    have serial : (s3.tile t).probeSerial = (s2.tile t).probeSerial + 1 := congrArg Tile.probeSerial (tile_updTile s2 t _)
    rw [if_neg go, sendPkt_msg rfl, ofNat_bitsN, dest, ward, serial]
    clear_value s2
    rfl

/-! #### Gates -/

theorem arrived_eq_some {i : Nat} {p : Packet} (h : s.arrived i = some p) : s.net[i]? = some p ∧ p.cur = p.dst := by
  unfold arrived at h
  split at h
  · cases h
  · next found =>
    split_ifs at h with here
    cases h
    simp only [Bool.and_eq_true, beq_iff_eq] at here
    exact ⟨found, here.1.1⟩

/-- A packet that has come by the network leaves it and frees no buffer of a sender. -/
theorem takePkt_of_moved {i : Nat} {p : Packet} (h : s.net[i]? = some p) (hp : p.prev ≠ p.cur) :
    s.takePkt i = s.dropPkt i := by
  unfold takePkt
  rw [h]
  exact if_neg (by simpa using hp)

variable {g : GateId} {gt : Gate} {i : Nat} {p : Packet} {m : Msg}

/-- The message at place `i` stands at its gate `g`. -/
structure AtGate (s : State) (g : GateId) (i : Nat) (p : Packet) (m : Msg) : Prop where
  arrived : s.arrived i = some p
  payload : p.payload = .message m
  gated : m.gated = true
  gate : m.gate = g.val
  alive : p.dead = false
  moved : p.prev ≠ p.cur
  lt : i < s.net.length

theorem AtGate.item (h : AtGate s g i p m) : s.gateItem g.val i = some (p, none) := by
  unfold gateItem
  rw [if_pos h.lt, h.arrived]
  simp [h.alive, h.payload, h.gated, h.gate]

theorem AtGate.taken (h : AtGate s g i p m) : s.takeGateItem i = s.dropPkt i := by
  rw [takeGateItem, if_pos h.lt, takePkt_of_moved (arrived_eq_some h.arrived).1 h.moved]

/-- What a message at its gate meets (01 R38; 06 R190). -/
theorem AtGate.enter (h : AtGate s g i p m) (hg : s.gate g.val = some gt) :
    s.enterGate g i = if s.resettingWard (Fin.ofNat 8 gt.src) || s.resettingWard (Fin.ofNat 8 gt.dst) then (s.dropPkt i).bumpF (gateDiscard p g) 1
      else if (s.gateBuf g.val).length < 8 then (s.dropPkt i).setGateBuf g.val (s.gateBuf g.val ++ [{ p with gated := true, gate := g.val }])
      else s := by
  have buf : (s.dropPkt i).gateBuf g.val = s.gateBuf g.val := rfl
  unfold enterGate
  simp only [h.item, hg, h.taken, h.payload, gateSrcDone, buf]

/-- The end of a wait at a tile that does not wait. -/
theorem endWait_running {t : TileId} (h : (s.tile t).mode = .running) : s.endWait t = s := by
  rw [endWait, if_neg]
  rw [h]
  nofun

/-- A message comes to a running tile (06 R190). -/
theorem inboxPut_running {t : TileId} (h : (s.tile t).mode = .running) (m : Msg) :
    s.inboxPut t m = s.updTile t (fun y => { y with inbox := y.inbox ++ [m] }) := by
  have mode : ((s.updTile t (fun y => { y with inbox := y.inbox ++ [m] })).tile t).mode = .running := by
    rw [tile_updTile]
    exact h
  unfold inboxPut
  dsimp only
  rw [mode]
  dsimp only
  rw [endWait_running mode, ite_self]

/-- A count goes up by one, or stays at its end (00 R9). -/
theorem getF_bumpF (f : Fld) (k : Nat) : (s.bumpF f k).getF f = min (2 ^ f.w - 1) (s.getF f + k) := by
  rw [bumpF, getF_setF]
  exact Nat.mod_eq_of_lt (lt_of_le_of_lt (min_le_left _ _) (Nat.sub_lt (Nat.two_pow_pos _) Nat.one_pos))

theorem getF_bumpF_other {f f2 : Fld} (h : f2.key ≠ f.key) (k : Nat) : (s.bumpF f k).getF f2 = s.getF f2 := getF_setF_other _ _ _ _ h

/-- Gate `g` holds `rest`: an item has left it, which is counted at the gate and at tile `t` (06 R187). -/
def gateLeft (s : State) (g : GateId) (t : TileId) (rest : List Packet) : State :=
  ((s.setGateBuf g.val rest).bumpF (F.GBL_GATE_CNT_DELIVERED g.val) 1).bumpF (F.TIL_AVE_CNT_GATED_IN t.val) 1

section
variable (s : State) (g : GateId) (t : TileId) (rest : List Packet)

theorem gateLeft_only : ∃ fl b, s.gateLeft g t rest = { s with gateBufs := b, fld := fl } := ⟨_, _, rfl⟩

theorem gateBuf_gateLeft : (s.gateLeft g t rest).gateBuf g.val = rest := gateBuf_setGateBuf s g.val rest

theorem tile_gateLeft (r : TileId) : (s.gateLeft g t rest).tile r = s.tile r := tile_congr rfl r

theorem gatedIn_ne_delivered : (F.TIL_AVE_CNT_GATED_IN t.val).key ≠ (F.GBL_GATE_CNT_DELIVERED g.val).key := by
  simp only [Fld.key, F.TIL_AVE_CNT_GATED_IN, F.GBL_GATE_CNT_DELIVERED]
  omega

theorem gatedIn_gateLeft : (s.gateLeft g t rest).getF (F.TIL_AVE_CNT_GATED_IN t.val) =
    min (2 ^ (F.TIL_AVE_CNT_GATED_IN t.val).w - 1) (s.getF (F.TIL_AVE_CNT_GATED_IN t.val) + 1) := by
  rw [gateLeft, getF_bumpF, getF_bumpF_other (gatedIn_ne_delivered g t), getF_congr (setGateBuf_fld ..)]

theorem delivered_gateLeft : (s.gateLeft g t rest).getF (F.GBL_GATE_CNT_DELIVERED g.val) =
    min (2 ^ (F.GBL_GATE_CNT_DELIVERED g.val).w - 1) (s.getF (F.GBL_GATE_CNT_DELIVERED g.val) + 1) := by
  rw [gateLeft, getF_bumpF_other (gatedIn_ne_delivered g t).symm, getF_bumpF, getF_congr (setGateBuf_fld ..)]

end

/-- The oldest message of a gate is delivered to its running tile and counted (06 R187). -/
theorem leaveGate_message {rest : List Packet} {t : TileId} (hb : s.gateBuf g.val = p :: rest) (hg : s.gate g.val = some gt)
    (hp : p.payload = .message m) (hd : p.dst = .tile t) (hm : (s.tile t).mode = .running) (hl : (s.tile t).inbox.length < 16) :
    s.leaveGate g = (s.gateLeft g t rest).updTile t (fun y => { y with inbox := y.inbox ++ [{ m with poison := m.poison || p.poison }] }) := by
  rw [← inboxPut_running (by rw [tile_gateLeft]; exact hm), leaveGate]
  simp only [hb, hg, hp, hd, if_pos hl]
  rfl

end State

section
open State

/-- Settles O19: the probe's result clears before it is sent; a message at its gate meets the resets, the room or neither; delivery
moves one message and counts it twice. -/
theorem gatesAndProbesSend : Obligations.GatesAndProbesSend := by
  unfold Obligations.GatesAndProbesSend
  refine ⟨fun s p t val => heldBack_of_hostWrite rfl, fun s t val hc hv => ?_, fun s g gt hg => ⟨fun i p m ha hp hm hgate hd hmoved hlt => ?_,
    fun p rest m t hb hp hd hm hl => ?_⟩⟩
  · obtain ⟨ho, hw⟩ := of_carries_s hc
    obtain ⟨u, ⟨fl, hu⟩, done, sent⟩ := sendProbe_go (s := s) (t := t) hv
    have run : exec (.probeGo .s t val) s = .next (s.sendProbe t val) := congrArg Host.Outcome.next (hostWrite_s ho hw)
    refine ⟨_, ⟨val.extractLsb' 16 32, s.supTime, (s.tile t).probeSerial + 1⟩, run, ?_, ?_, rfl, rfl, ?_, ?_⟩
    · rw [sent, hu]
      rfl
    · rw [sent, hu]
      rfl
    · rw [sent]
      exact done
    · rw [sent, hu]
      exact Tbl.get_put ..
  · have atGate : AtGate s g i p m := ⟨ha, hp, hm, hgate, hd, hmoved, hlt⟩
    have enter : exec (.gateEnter g i) s = .next (s.enterGate g i) := rfl
    rw [enter, atGate.enter hg]
    refine ⟨fun t ht hr => ?_, fun h1 h2 room => ?_, fun h1 h2 full => ?_⟩
    · rw [if_pos (Bool.or_eq_true_iff.mpr hr), gateDiscard, ht]
      rfl
    · rw [h1, h2, if_neg (by decide), if_pos room]
      rfl
    · rw [h1, h2, if_neg (by decide), if_neg (Nat.not_lt.mpr full)]
  · have left : exec (.gateDeliver g) s = .next _ := congrArg Host.Outcome.next (leaveGate_message hb hg hp hd hm hl)
    refine ⟨_, left, gateBuf_gateLeft s g t rest, ?_, ?_, fun r hr => ?_, gatedIn_gateLeft s g t rest, delivered_gateLeft s g t rest⟩
    · obtain ⟨fl, b, only⟩ := gateLeft_only s g t rest
      rw [only]
      rfl
    · rw [tile_updTile, tile_gateLeft]
    · rw [tile_updTile_other _ _ _ _ hr, tile_gateLeft]

end
end Sys2Proof.Machine

namespace Sys2Proof.Machine

/-! ### The access window of Lantern (19 R501–R503; 01 R42) -/

namespace State
variable {s : State}

/-! #### What an event changes (16 R436, R440, R449, R451) -/

/-- State `v` differs from `s` in the registers and in what the Beacon tells: the host link, the management port, the log queue. -/
def BeaconOnly (s v : State) : Prop :=
  ∃ fld out alert link queue mgmt, v = { s with fld := fld, out := out, smbAlert := alert, link := link, logQueue := queue, mgmt := mgmt }

theorem BeaconOnly.refl (s : State) : BeaconOnly s s := ⟨_, _, _, _, _, _, rfl⟩

theorem BeaconOnly.trans {u v : State} (h : BeaconOnly s u) (k : BeaconOnly u v) : BeaconOnly s v := by
  obtain ⟨_, _, _, _, _, _, rfl⟩ := h
  obtain ⟨_, _, _, _, _, _, rfl⟩ := k
  exact ⟨_, _, _, _, _, _, rfl⟩

theorem BeaconOnly.tile {v : State} (h : BeaconOnly s v) (t : TileId) : v.tile t = s.tile t := by
  obtain ⟨_, _, _, _, _, _, rfl⟩ := h
  rfl

theorem BeaconOnly.lantern {v : State} (h : BeaconOnly s v) : v.lantern = s.lantern := by
  obtain ⟨_, _, _, _, _, _, rfl⟩ := h
  rfl

theorem beaconOnly_ite {p : Prop} [Decidable p] {a b : State} (ha : BeaconOnly s a) (hb : BeaconOnly s b) : BeaconOnly s (if p then a else b) := by
  split_ifs
  · exact ha
  · exact hb

theorem beaconOnly_foldl {α : Type} {g : State → α → State} (hg : ∀ u a, BeaconOnly u (g u a)) (l : List α) : BeaconOnly s (l.foldl g s) :=
  List.foldlRecOn (motive := BeaconOnly s) l g (.refl s) fun u hu a _ => hu.trans (hg u a)

theorem FieldsOnly.beacon {v : State} (h : FieldsOnly s v) : BeaconOnly s v := by
  obtain ⟨_, rfl⟩ := h
  exact ⟨_, _, _, _, _, _, rfl⟩

theorem beaconOnly_setF (f : Fld) (v : Nat) : BeaconOnly s (s.setF f v) := (fieldsOnly_setF f v).beacon

theorem beaconOnly_setCfgBit (fn off bit : Nat) (b : Bool) : BeaconOnly s (s.setCfgBit fn off bit b) := ⟨_, _, _, _, _, _, rfl⟩

theorem beaconOnly_emit (o : Out) : BeaconOnly s (s.emit o) := ⟨_, _, _, _, _, _, rfl⟩

theorem beaconOnly_setMsix (fn v : Nat) (e : MsixEntry) : BeaconOnly s (s.setMsix fn v e) := ⟨_, _, _, _, _, _, rfl⟩

theorem beaconOnly_pmeOnPending (s : State) : BeaconOnly s s.pmeOnPending :=
  beaconOnly_ite ((beaconOnly_setCfgBit _ _ _ _).trans (beaconOnly_emit _)) (.refl s)

theorem beaconOnly_updIntx (s : State) : BeaconOnly s s.updIntx := beaconOnly_ite (.refl s) ⟨_, _, _, _, _, _, rfl⟩

theorem beaconOnly_raiseMsix (fn : Func) (v : Nat) : BeaconOnly s (s.raiseMsix fn v) := by
  cases fn with
  | vf w => exact beaconOnly_ite (.refl s) (beaconOnly_ite ((beaconOnly_setMsix _ _ _).trans (beaconOnly_pmeOnPending _)) (beaconOnly_emit _))
  | pf0 =>
    exact beaconOnly_ite (.refl s) (beaconOnly_ite (((beaconOnly_setF _ _).trans (beaconOnly_updIntx _)).trans (beaconOnly_pmeOnPending _))
      (beaconOnly_ite ((beaconOnly_setMsix _ _ _).trans (beaconOnly_pmeOnPending _)) (beaconOnly_emit _)))

theorem beaconOnly_quarantine (w : WardId) : BeaconOnly s (s.quarantine w) := beaconOnly_ite (.refl s) (beaconOnly_setF _ _)

theorem beaconOnly_enterViral (s : State) : BeaconOnly s s.enterViral := by
  have viral : BeaconOnly s { s with link := { s.link with viral := true } } := ⟨_, _, _, _, _, _, rfl⟩
  exact beaconOnly_ite (beaconOnly_ite (.refl s) (((viral.trans (beaconOnly_setF _ _)).trans (beaconOnly_setCfgBit _ _ _ _)).trans (beaconOnly_emit _)))
    (beaconOnly_setF _ _)

theorem beaconOnly_queueLog (e : LogEntry) : BeaconOnly s (s.queueLog e) := beaconOnly_ite ⟨_, _, _, _, _, _, rfl⟩ ⟨_, _, _, _, _, _, rfl⟩

theorem beaconOnly_reportAer (fn : Func) (unc : Bool) (bit : Nat) (what : String) : BeaconOnly s (s.reportAer fn unc bit what) :=
  beaconOnly_ite (beaconOnly_setCfgBit _ _ _ _) ((beaconOnly_setCfgBit _ _ _ _).trans (beaconOnly_emit _))

theorem beaconOnly_reportRas (unc : Bool) (bit : Nat) (what : String) : BeaconOnly s (s.reportRas unc bit what) :=
  beaconOnly_ite ⟨_, _, _, _, _, _, rfl⟩ ⟨_, _, _, _, _, _, rfl⟩

theorem beaconOnly_tellHost (ev : Event) : BeaconOnly s (s.tellHost ev) :=
  beaconOnly_ite
    (beaconOnly_ite ((beaconOnly_reportAer _ _ _ _).trans (beaconOnly_reportRas _ _ _))
      ((beaconOnly_reportAer _ _ _ _).trans (beaconOnly_reportRas _ _ _)))
    (beaconOnly_ite (beaconOnly_ite (beaconOnly_reportAer _ _ _ _) (beaconOnly_ite (beaconOnly_reportAer _ _ _ _) (beaconOnly_reportAer _ _ _ _)))
      (beaconOnly_ite (beaconOnly_reportAer _ _ _ _) (.refl s)))

theorem beaconOnly_react (ev : Event) : BeaconOnly s (s.react ev) := by
  unfold react
  extract_lets a vec s1 m2 s2 s3 s4 s5 s6
  have k1 : BeaconOnly s s1 := beaconOnly_ite (beaconOnly_setF _ _) (.refl s)
  have k2 : BeaconOnly s s2 := k1.trans (beaconOnly_ite ⟨_, _, _, _, _, _, rfl⟩ (.refl s1))
  have k3 : BeaconOnly s s3 := k2.trans (beaconOnly_ite (beaconOnly_enterViral _) (.refl s2))
  have k4 : BeaconOnly s s4 :=
    k3.trans (beaconOnly_ite (beaconOnly_foldl (fun u w => beaconOnly_ite (beaconOnly_quarantine w) (.refl u)) _) (.refl s3))
  have k5 : BeaconOnly s s5 := k4.trans (beaconOnly_ite (beaconOnly_raiseMsix _ _) (.refl s4))
  have k6 : BeaconOnly s s6 :=
    k5.trans (beaconOnly_ite (beaconOnly_foldl (fun u w => beaconOnly_ite (beaconOnly_raiseMsix _ _) (.refl u)) _) (.refl s5))
  exact k6.trans (beaconOnly_ite (beaconOnly_queueLog _) (.refl s6))

theorem beaconOnly_event (ev : Event) : BeaconOnly s (s.event ev) :=
  (((fieldsOnly_latchAt _ ev).beacon.trans
    (beaconOnly_foldl (fun u _ => beaconOnly_ite (fieldsOnly_latchAt _ ev).beacon (.refl u)) _)).trans (beaconOnly_react ev)).trans (beaconOnly_tellHost ev)

/-! #### Registers -/

theorem accAsked_iff (k : Nat) : s.accAsked k = true ↔ s.lantern.accPhase = 1 ∧ s.getF F.LNT_ACC_CTRL_KIND = k := by
  simp [accAsked]

/-- What an access does that its kind has not been asked for. -/
theorem access_unasked {c : Instr} {k : Nat} (hc : (c, k) ∈ [(Instr.lntAccessReg, 0), (.lntAccessMem, 1), (.lntAccessLs, 2), (.lntAccessCore, 3)])
    (h : s.accAsked k = false) : exec c s = .next s := by
  have off : (!s.accAsked k) = true := by rw [h]; rfl
  simp only [List.mem_cons, Prod.mk.injEq, List.not_mem_nil, or_false] at hc
  rcases hc with ⟨rfl, rfl⟩ | ⟨rfl, rfl⟩ | ⟨rfl, rfl⟩ | ⟨rfl, rfl⟩
  all_goals exact congrArg Host.Outcome.next (if_pos off)

/-- An access that is not aligned ends with FAULT (19 R502). -/
theorem access_misaligned {c : Instr} {k : Nat} (hc : (c, k) ∈ [(Instr.lntAccessReg, 0), (.lntAccessMem, 1), (.lntAccessLs, 2), (.lntAccessCore, 3)])
    (h : s.accAsked k = true) (hk : k ≠ 3) (ha : s.accAddr % s.accWidth ≠ 0) : exec c s = .next s.accFaults := by
  have on : ¬(!s.accAsked k) = true := by rw [h]; decide
  simp only [List.mem_cons, Prod.mk.injEq, List.not_mem_nil, or_false] at hc
  rcases hc with ⟨rfl, rfl⟩ | ⟨rfl, rfl⟩ | ⟨rfl, rfl⟩ | ⟨rfl, rfl⟩
  · exact congrArg Host.Outcome.next ((if_neg on).trans (if_pos ha))
  · exact congrArg Host.Outcome.next ((if_neg on).trans (if_pos ha))
  · exact congrArg Host.Outcome.next ((if_neg on).trans (if_pos (.inl ha)))
  · exact absurd rfl hk

theorem accessReg_write (h : s.accAsked 0 = true) (ha : s.accAddr % s.accWidth = 0) (hw : s.accWrites = true) :
    s.accessReg = (s.writeBy .l (s.lntWrites (fun _ => true)) s.accAddr s.accWidth (s.lantern.accData.toNat % 2 ^ (8 * s.accWidth))).accEnd false false none := by
  simp [accessReg, h, ha, hw]

theorem accessReg_read (h : s.accAsked 0 = true) (ha : s.accAddr % s.accWidth = 0) (hw : s.accWrites = false) :
    s.accessReg = (s.readBy .l (s.lntReads (fun _ => true)) (fun r => s.lntReads (fun _ => true) r && s.lntWrites (fun _ => true) r) s.accAddr s.accWidth).2.accEnd
      false false (some (s.readBy .l (s.lntReads (fun _ => true)) (fun r => s.lntReads (fun _ => true) r && s.lntWrites (fun _ => true) r) s.accAddr s.accWidth).1) := by
  simp [accessReg, h, ha, hw]

/-! #### Memory -/

theorem mem_insertCell_self {α : Type} (k : Nat) (v : α) (l : List (Nat × α)) : (k, v) ∈ insertCell k v l := by
  induction l with
  | nil => simp [insertCell]
  | cons c r ih =>
    rw [insertCell]
    split_ifs
    · exact List.mem_cons_of_mem _ ih
    · exact List.mem_cons_self
    · exact List.mem_cons_self

/-- A Lantern line that holds an entry is on its way. -/
theorem accOut_setEntry {e : LEntry} (he : e.lantern = true) (x : Nat) : (s.setEntry x (some e)).accOut = true := by
  have listed : (x, some e) ∈ (s.setEntry x (some e)).ledger.entries.cells := by
    simp only [setEntry, Tbl.put, if_neg (Option.some_ne_none e)]
    exact mem_insertCell_self ..
  refine Bool.or_eq_true_iff.mpr (.inr (List.any_eq_true.mpr ⟨_, listed, he⟩))

/-- State `v` differs from `s` in the Ledger and in what is sent: packets, and what leaves by the host link. -/
def SentOnly (s v : State) : Prop := ∃ ledger net out link, v = { s with ledger := ledger, net := net, out := out, link := link }

theorem SentOnly.trans {u v : State} (h : SentOnly s u) (k : SentOnly u v) : SentOnly s v := by
  obtain ⟨_, _, _, _, rfl⟩ := h
  obtain ⟨_, _, _, _, rfl⟩ := k
  exact ⟨_, _, _, _, rfl⟩

theorem sentOnly_ite {p : Prop} [Decidable p] {a b : State} (ha : SentOnly s a) (hb : SentOnly s b) : SentOnly s (if p then a else b) := by
  split_ifs
  · exact ha
  · exact hb

theorem sentOnly_setEntry (x : Nat) (e : Option LEntry) : SentOnly s (s.setEntry x e) := ⟨_, _, _, _, rfl⟩

theorem sentOnly_emit (o : Out) : SentOnly s (s.emit o) := ⟨_, _, _, _, rfl⟩

theorem sendReq_net (x : Nat) (r : Req) : ∃ net, s.sendReq x r = { s with net := net } := by
  unfold sendReq sendPkt
  dsimp only
  split_ifs
  · exact ⟨_, rfl⟩
  · exact ⟨_, rfl⟩

theorem sentOnly_sendReq (x : Nat) (r : Req) : SentOnly s (s.sendReq x r) := by
  obtain ⟨net, sent⟩ := sendReq_net (s := s) x r
  exact ⟨_, _, _, _, sent⟩

theorem openEntry_reserve {e : LEntry} (hc : e.charge = .reserve) :
    s.openEntry e = (lowestFree s.ledger.entries.cells 0,
      s.setEntry (lowestFree s.ledger.entries.cells 0) (some { e with tag := lowestFree s.ledger.entries.cells 0 })) := by
  rw [openEntry, hc]

theorem sentOnly_takeEntry {e : LEntry} (hc : e.charge = .reserve) : SentOnly s (s.takeEntry e) := by
  unfold takeEntry
  rw [openEntry_reserve hc]
  refine (sentOnly_setEntry _ _).trans (sentOnly_ite ?_ (sentOnly_sendReq _ _))
  cases e.wdata with
  | none => exact sentOnly_emit _
  | some v => exact (sentOnly_ite ⟨_, _, _, _, rfl⟩ (sentOnly_emit _)).trans (sentOnly_setEntry _ _)

theorem accOut_sendReq (x : Nat) (r : Req) : (s.sendReq x r).accOut = s.accOut := by
  obtain ⟨net, sent⟩ := sendReq_net (s := s) x r
  rw [sent]
  rfl

theorem accOut_takeEntry {e : LEntry} (hc : e.charge = .reserve) (he : e.lantern = true) (hm : e.hostMem = false) : (s.takeEntry e).accOut = true := by
  have device : ¬e.hostMem = true := by rw [hm]; nofun
  unfold takeEntry
  rw [openEntry_reserve hc]
  dsimp only
  rw [if_neg device, accOut_sendReq]
  exact accOut_setEntry (e := { e with tag := lowestFree s.ledger.entries.cells 0 }) he _

/-- A Lantern line, charged to the reserve, leaves for its home or waits for an entry (13 R356, R361, R363). -/
theorem issue_lantern {e : LEntry} (hc : e.charge = .reserve) (he : e.lantern = true) :
    SentOnly s (s.issue e) ∧ (e.hostMem = false → (s.issue e).accOut = true) := by
  unfold issue
  split_ifs
  · exact ⟨sentOnly_takeEntry hc, accOut_takeEntry hc he⟩
  · exact ⟨⟨_, _, _, _, rfl⟩, fun _ => Bool.or_eq_true_iff.mpr (.inl (List.any_eq_true.mpr ⟨e, by simp, he⟩))⟩

theorem accessMem_fault (h : s.accAsked 1 = true) (ha : s.accAddr % s.accWidth = 0) {c : Nat}
    (hx : s.translate (Fin.ofNat 8 (s.getF F.LNT_ACC_CTRL_WARD)) s.accAddr s.accWidth (if s.accWrites then .write else .read) = .inl c) :
    s.accessMem = (s.winFault (Fin.ofNat 8 (s.getF F.LNT_ACC_CTRL_WARD)) c s.accAddr).accFaults := by
  unfold accessMem
  simp only [h, ha, hx]
  rfl

/-- An access that its window lets pass is one transaction of the Lantern port (19 R501; 01 R43). -/
theorem accessMem_issue (h : s.accAsked 1 = true) (ha : s.accAddr % s.accWidth = 0) {z : Xlat}
    (hx : s.translate (Fin.ofNat 8 (s.getF F.LNT_ACC_CTRL_WARD)) s.accAddr s.accWidth (if s.accWrites then .write else .read) = .inr z) :
    ∃ e, e.charge = .reserve ∧ e.lantern = true ∧ e.hostMem = z.host
      ∧ s.accessMem = ({ s with lantern := { s.lantern with accPhase := 2 } } : State).issue e := by
  unfold accessMem
  simp only [h, ha, hx]
  exact ⟨_, rfl, rfl, rfl, rfl⟩

/-! #### Local store -/

/-- A read that corrects single-bit errors changes no byte, no mark and no uncorrectable error, and leaves the port alone (04 R129). -/
theorem lsCorrect_reads (t : TileId) (o n : Nat) :
    (s.lsCorrect t o n).lantern = s.lantern ∧ ∃ fix, (s.lsCorrect t o n).tile t = { s.tile t with lsFix := fix } := by
  refine List.foldlRecOn (motive := fun u : State => u.lantern = s.lantern ∧ ∃ fix, u.tile t = { s.tile t with lsFix := fix }) _ _ ⟨rfl, _, rfl⟩ ?_
  rintro u ⟨port, fix, tile⟩ i -
  have told := beaconOnly_event (s := u.updTile t (fun y => { y with lsFix := y.lsFix.put false (o + i) false }))
    ⟨t.val / 16, 1, 1, t.val % 16 + 32, wardBit (u.tileWard t), BitVec.ofNat 64 (lsBase + o + i)⟩
  exact ⟨told.lantern.trans port, fix.put false (o + i) false, by rw [told.tile, tile_updTile, tile]⟩

/-- The state after a read of [a, a + n) of local store: corrected errors and an error that cannot be are told (04 R129). -/
def lsObserved (s : State) (t : TileId) (a n : Nat) : State :=
  let u := s.lsCorrect t a n
  if (u.tile t).lsError a n then u.lsErrorEvent t (BitVec.ofNat 64 (lsBase + a)) else u

theorem lsObserved_reads (t : TileId) (a n : Nat) :
    (s.lsObserved t a n).lantern = s.lantern ∧ ∃ fix, (s.lsObserved t a n).tile t = { s.tile t with lsFix := fix } := by
  obtain ⟨port, fix, tile⟩ := lsCorrect_reads (s := s) t a n
  have told : BeaconOnly (s.lsCorrect t a n) (s.lsObserved t a n) := beaconOnly_ite (beaconOnly_event _) (.refl _)
  exact ⟨told.lantern.trans port, fix, by rw [told.tile, tile]⟩

theorem lsError_of_sound {y : Tile} {a n : Nat} (h : y.lsSound a n = true) : y.lsError a n = false := by
  refine List.any_eq_false.mpr fun i hi => ?_
  have := List.all_eq_true.mp h i hi
  simp_all

theorem lsObserved_of_sound {t : TileId} {a n : Nat} (h : (s.tile t).lsSound a n = true) : s.lsObserved t a n = s := by
  rw [lsObserved, lsCorrect_of_sound h, lsError_of_sound h]
  rfl

/-- Bytes of local store are read in place, with their marks; where an error stands in them they are poisoned (19 R502). -/
theorem accessLs_read (h : s.accAsked 2 = true) (ha : s.accAddr % s.accWidth = 0) (hl : s.accAddr + s.accWidth ≤ lsSize) (hw : s.accWrites = false) :
    s.accessLs = (s.lsObserved s.accTile s.accAddr s.accWidth).accEnd false
      ((s.tile s.accTile).marked s.accAddr s.accWidth || (s.tile s.accTile).lsError s.accAddr s.accWidth)
      (some ((s.tile s.accTile).lsRead s.accAddr s.accWidth)) := by
  have fits : ¬(s.accAddr % s.accWidth ≠ 0 ∨ lsSize < s.accAddr + s.accWidth) := by omega
  obtain ⟨-, fix, tile⟩ := lsObserved_reads (s := s) s.accTile s.accAddr s.accWidth
  have run : s.accessLs = (s.lsObserved s.accTile s.accAddr s.accWidth).accEnd false
      (((s.lsObserved s.accTile s.accAddr s.accWidth).tile s.accTile).marked s.accAddr s.accWidth
        || ((s.lsObserved s.accTile s.accAddr s.accWidth).tile s.accTile).lsError s.accAddr s.accWidth)
      (some (((s.lsObserved s.accTile s.accAddr s.accWidth).tile s.accTile).lsRead s.accAddr s.accWidth)) := by
    unfold accessLs
    simp only [h, fits, hw]
    rfl
  have same : ({ s.tile s.accTile with lsFix := fix } : Tile).lsRead s.accAddr s.accWidth = (s.tile s.accTile).lsRead s.accAddr s.accWidth :=
    Tile.lsRead_congr _ _ _ _ fun _ _ _ => rfl
  rw [run, tile, same]
  rfl

theorem accessLs_read_lantern (h : s.accAsked 2 = true) (ha : s.accAddr % s.accWidth = 0) (hl : s.accAddr + s.accWidth ≤ lsSize)
    (hw : s.accWrites = false) : s.accessLs.lantern = { s.lantern with
      accPhase := 3, accFault := false,
      accPoison := ((s.tile s.accTile).marked s.accAddr s.accWidth || (s.tile s.accTile).lsError s.accAddr s.accWidth),
      accData := BitVec.ofNat 64 ((s.tile s.accTile).lsRead s.accAddr s.accWidth) } := by
  rw [accessLs_read h ha hl hw, accEnd, (lsObserved_reads _ _ _).1]

theorem accessLs_read_sound (h : s.accAsked 2 = true) (ha : s.accAddr % s.accWidth = 0) (hl : s.accAddr + s.accWidth ≤ lsSize) (hw : s.accWrites = false)
    (hs : (s.tile s.accTile).lsSound s.accAddr s.accWidth = true) : s.accessLs = s.accEnd false ((s.tile s.accTile).marked s.accAddr s.accWidth)
      (some ((s.tile s.accTile).lsRead s.accAddr s.accWidth)) := by
  rw [accessLs_read h ha hl hw, lsObserved_of_sound hs, lsError_of_sound hs, Bool.or_false]

theorem accessLs_fault (h : s.accAsked 2 = true) (ho : lsSize < s.accAddr + s.accWidth) : s.accessLs = s.accFaults := by
  have on : ¬(!s.accAsked 2) = true := by rw [h]; decide
  exact (if_neg on).trans (if_pos (.inr ho))

end State

/-- The tile with the bytes of `d` that `mask` selects written to local store at `a`. -/
def Tile.lsPatch (y : Tile) (a n mask d : Nat) : Tile :=
  (List.range n).foldl (fun y i => if bitN mask i then y.lsWriteBytes (a + i) [BitVec.ofNat 8 (d >>> (8 * i))] else y) y

theorem Tile.lsPatch_get (y : Tile) (a mask d j n : Nat) : (y.lsPatch a n mask d).ls.get 0 j =
    if a ≤ j ∧ j < a + n ∧ mask.testBit (j - a) = true then BitVec.ofNat 8 (d >>> (8 * (j - a))) else y.ls.get 0 j := by
  induction n with
  | zero => exact (if_neg (by omega)).symm
  | succ n ih =>
    have step : y.lsPatch a (n + 1) mask d = if bitN mask n then (y.lsPatch a n mask d).lsWriteBytes (a + n) [BitVec.ofNat 8 (d >>> (8 * n))]
        else y.lsPatch a n mask d := by
      rw [Tile.lsPatch, List.range_succ, List.foldl_append]
      rfl
    rw [step, apply_ite (fun z : Tile => z.ls.get 0 j), Tile.lsWriteBytes_get, ih]
    by_cases hj : j = a + n
    · subst hj
      simp [bitN]
    · have same : (a ≤ j ∧ j < a + (n + 1) ∧ mask.testBit (j - a) = true) ↔ (a ≤ j ∧ j < a + n ∧ mask.testBit (j - a) = true) :=
        and_congr_right fun _ => and_congr_left fun _ => by omega
      have out : ¬(a + n ≤ j ∧ j < a + n + [BitVec.ofNat 8 (d >>> (8 * n))].length) := by simp; omega
      rw [if_neg out, ite_self]
      simp only [same]

namespace State
variable {s : State}

theorem accEnd_tile (fault poison : Bool) (data : Option Nat) (t : TileId) : (s.accEnd fault poison data).tile t = s.tile t := rfl

/-- The enabled bytes are written in place; a whole word of eight loses its mark (19 R502; 04 R122). -/
theorem accessLs_write (h : s.accAsked 2 = true) (ha : s.accAddr % s.accWidth = 0) (hl : s.accAddr + s.accWidth ≤ lsSize) (hw : s.accWrites = true) :
    s.accessLs = (s.updTile s.accTile (fun y =>
      let z := y.lsPatch s.accAddr s.accWidth s.accBytes s.lantern.accData.toNat
      if s.accBytes = 255 then z.markWords s.accAddr false 1 else z)).accEnd false false none := by
  have fits : ¬(s.accAddr % s.accWidth ≠ 0 ∨ lsSize < s.accAddr + s.accWidth) := by omega
  unfold accessLs
  simp only [h, fits, hw]
  rfl

theorem accBytes_testBit {i : Nat} (h : i < s.accWidth) : s.accBytes.testBit i = (s.getF F.LNT_ACC_CTRL_BYTES).testBit i := by
  rw [accBytes, Nat.testBit_mod_two_pow, decide_eq_true h, Bool.true_and]

theorem accessLs_write_get (h : s.accAsked 2 = true) (ha : s.accAddr % s.accWidth = 0) (hl : s.accAddr + s.accWidth ≤ lsSize) (hw : s.accWrites = true)
    (j : Nat) : (s.accessLs.tile s.accTile).ls.get 0 j =
      if s.accAddr ≤ j ∧ j < s.accAddr + s.accWidth ∧ (s.getF F.LNT_ACC_CTRL_BYTES).testBit (j - s.accAddr) = true
        then BitVec.ofNat 8 (s.lantern.accData.toNat >>> (8 * (j - s.accAddr))) else (s.tile s.accTile).ls.get 0 j := by
  have enabled : (s.accAddr ≤ j ∧ j < s.accAddr + s.accWidth ∧ s.accBytes.testBit (j - s.accAddr) = true)
      ↔ (s.accAddr ≤ j ∧ j < s.accAddr + s.accWidth ∧ (s.getF F.LNT_ACC_CTRL_BYTES).testBit (j - s.accAddr) = true) :=
    and_congr_right fun h1 => and_congr_right fun h2 => by rw [accBytes_testBit (by omega)]
  rw [accessLs_write h ha hl hw, accEnd_tile, tile_updTile]
  dsimp only
  rw [apply_ite Tile.ls, Tile.markWords_ls, ite_self, Tile.lsPatch_get]
  simp only [enabled]

/-! #### Registers of a tile -/

variable {r : Nat}

theorem accessCore_elsewhere (h : s.accAsked 3 = true) (ht : ¬(s.tileCode s.accTile = 7 ∨ s.tileCode s.accTile = 8)) : s.accessCore = s.accFaults := by
  have on : ¬(!s.accAsked 3) = true := by rw [h]; decide
  exact (if_neg on).trans (if_pos (not_or.mp ht))

/-- No register has this number (19 R503; log 67). -/
theorem accessCore_unlisted (h : s.accAsked 3 = true) (hr : s.coreReg s.accTile s.accAddr = none) : s.accessCore = s.accFaults := by
  unfold accessCore
  simp only [h, hr]
  exact ite_self _

theorem accessCore_read (h : s.accAsked 3 = true) (ht : s.tileCode s.accTile = 7 ∨ s.tileCode s.accTile = 8) (hr : s.coreReg s.accTile s.accAddr = some r)
    (hw : s.accWrites = false) : s.accessCore = s.accEnd false false (some (r % 2 ^ (8 * s.accWidth))) := by
  have here : ¬(s.tileCode s.accTile ≠ 7 ∧ s.tileCode s.accTile ≠ 8) := by omega
  unfold accessCore
  simp only [h, hr, here, hw]
  rfl

/-- The PCs of retired instructions are read only (19 R503). -/
theorem accessCore_write_trace (h : s.accAsked 3 = true) (hr : s.coreReg s.accTile s.accAddr = some r) (hw : s.accWrites = true)
    (ha : 0x200 ≤ s.accAddr) : s.accessCore = s.accFaults := by
  unfold accessCore
  simp only [h, hr, hw, if_pos ha]
  exact ite_self _

theorem accessCore_write (h : s.accAsked 3 = true) (ht : s.tileCode s.accTile = 7 ∨ s.tileCode s.accTile = 8) (hr : s.coreReg s.accTile s.accAddr = some r)
    (hw : s.accWrites = true) (ha : s.accAddr < 0x200) (hn : s.accWidth = 8) :
    s.accessCore = (s.updTile s.accTile (fun y => putCoreReg y s.accAddr s.lantern.accData.toNat)).accEnd false false none := by
  have here : ¬(s.tileCode s.accTile ≠ 7 ∧ s.tileCode s.accTile ≠ 8) := by omega
  unfold accessCore
  simp only [h, hr, here, hw, if_neg (Nat.not_le.mpr ha), hn]
  rfl

variable {t : TileId} {k : Nat}

theorem coreReg_g (h : k < 32) : s.coreReg t k = some ((s.tile t).rg (BitVec.ofNat 5 k)).toNat := if_pos h

theorem coreReg_f (h : k < 32) : s.coreReg t (32 + k) = some ((s.tile t).rf (BitVec.ofNat 5 k)).toNat := by
  rw [coreReg, if_neg (by omega), if_pos (by omega), Nat.add_sub_cancel_left]

theorem coreReg_pc : s.coreReg t 64 = some (s.tile t).pc.toNat := rfl

theorem coreReg_trace (h : 0x200 ≤ k) (h2 : k < 0x210) : s.coreReg t k = some ((s.tile t).trace.getD (k - 0x200) 0).toNat := by
  rw [coreReg, if_neg (by omega), if_neg (by omega), if_neg (by omega), if_neg (by omega), if_pos ⟨h, h2⟩]

theorem coreReg_none (h : 0x210 ≤ k ∨ (65 ≤ k ∧ k < 0x100)) : s.coreReg t k = none := by
  rw [coreReg, if_neg (by omega), if_neg (by omega), if_neg (by omega), if_neg (by omega), if_neg (by omega)]

theorem putCoreReg_g (y : Tile) (h : k < 32) (v : W64) : putCoreReg y k v.toNat = y.wg (BitVec.ofNat 5 k) v := by
  rw [putCoreReg, if_pos h, BitVec.ofNat_toNat, BitVec.setWidth_eq]

theorem putCoreReg_pc (y : Tile) (v : W64) : putCoreReg y 64 v.toNat = { y with pc := v } := by
  rw [putCoreReg, if_neg (by decide), if_neg (by decide), if_pos rfl, BitVec.ofNat_toNat, BitVec.setWidth_eq]

/-- An access of either width moves the whole of a 32-bit register. -/
theorem toNat_mod_accWidth (v : W32) : v.toNat % 2 ^ (8 * s.accWidth) = v.toNat := by
  have wide : 32 ≤ 8 * s.accWidth := by
    unfold accWidth
    split_ifs
    · decide
    · decide
  exact Nat.mod_eq_of_lt (v.isLt.trans_le (Nat.pow_le_pow_right (by decide) wide))

/-! #### The end of an access -/

theorem accDone_over (h : s.lantern.accPhase = 3 ∨ (s.lantern.accPhase = 2 ∧ s.accOut = false)) :
    s.accDone = { s with fld := s.accDone.fld, lantern := { s.lantern with accPhase := 0 } }
      ∧ s.accDone.getF F.LNT_ACC_ADDR_VALUE = if s.isF F.LNT_ACC_CTRL_INC
        then (s.accAddr + if s.getF F.LNT_ACC_CTRL_KIND = 3 then 1 else s.accWidth) % 2 ^ 64 else s.accAddr := by
  have ended : s.lantern.accPhase = 3 ∨ (s.lantern.accPhase = 2 ∧ (!s.accOut) = true) := by simpa using h
  have inc : ({ s with lantern := { s.lantern with accPhase := 0 } } : State).isF F.LNT_ACC_CTRL_INC = s.isF F.LNT_ACC_CTRL_INC := rfl
  rw [accDone, if_pos ended]
  dsimp only
  rw [inc]
  cases s.isF F.LNT_ACC_CTRL_INC with
  | true => exact ⟨rfl, getF_setF _ _ _⟩
  | false => exact ⟨rfl, rfl⟩

theorem accDone_not (h : ¬(s.lantern.accPhase = 3 ∨ (s.lantern.accPhase = 2 ∧ s.accOut = false))) : s.accDone = s := by
  have going : ¬(s.lantern.accPhase = 3 ∨ (s.lantern.accPhase = 2 ∧ (!s.accOut) = true)) := by simpa using h
  rw [accDone, if_neg going]

end State

section
open State

/-- Settles O51: an access that has been asked for is carried out by the row of its kind, as the lemmas on the four kinds say. -/
theorem lanternReachesTheDevice : Obligations.LanternReachesTheDevice := by
  unfold Obligations.LanternReachesTheDevice
  intro s n a kind wr t x stops reads writes
  refine ⟨fun c k hc => ⟨fun hk => ?_, fun hk h3 ha => ?_⟩, fun hk ha => ?_, fun hk ha => ?_, fun hk ha => ?_, fun hk => ?_, fun h => ?_, fun h => ?_⟩
  · exact access_unasked hc (Bool.eq_false_iff.mpr fun h => hk ((accAsked_iff k).mp h))
  · exact access_misaligned hc ((accAsked_iff k).mpr hk) h3 ha
  -- registers
  · have asked := (accAsked_iff 0).mpr hk
    exact ⟨fun hw => congrArg Host.Outcome.next (accessReg_write asked ha hw),
      fun hw => congrArg Host.Outcome.next (accessReg_read asked ha (Bool.eq_false_iff.mpr hw))⟩
  -- memory
  · have asked := (accAsked_iff 1).mpr hk
    refine ⟨fun c hx => congrArg Host.Outcome.next (accessMem_fault asked ha hx), fun z hx => ?_⟩
    obtain ⟨e, hc, he, hm, sent⟩ := accessMem_issue asked ha hx
    obtain ⟨⟨_, _, _, _, only⟩, out⟩ := issue_lantern (s := { s with lantern := { s.lantern with accPhase := 2 } }) hc he
    refine ⟨_, congrArg Host.Outcome.next sent, ?_, ?_, ?_, fun hz => out (hm.trans hz)⟩
    all_goals rw [only]
  -- local store
  · have asked := (accAsked_iff 2).mpr hk
    refine ⟨fun ho => congrArg Host.Outcome.next (accessLs_fault asked ho), fun hl hw => ⟨fun hs => ?_, ?_⟩, fun hl hw => ?_⟩
    · exact congrArg Host.Outcome.next (accessLs_read_sound asked ha hl (Bool.eq_false_iff.mpr hw) hs)
    · exact ⟨_, rfl, accessLs_read_lantern asked ha hl (Bool.eq_false_iff.mpr hw)⟩
    · have write := accessLs_write asked ha hl hw
      refine ⟨_, rfl, fun r hr => ?_, ?_, accessLs_write_get asked ha hl hw⟩
      · rw [write, accEnd_tile]
        exact tile_updTile_other _ _ _ _ hr
      · rw [write]
        rfl
  -- registers of a tile
  · have asked := (accAsked_iff 3).mpr hk
    intro here
    refine ⟨fun ht => congrArg Host.Outcome.next (accessCore_elsewhere asked ht), fun ht => ⟨fun g hg hag => ⟨fun hw => ?_, fun hw hn => ?_⟩,
      fun g hg hag hw => ?_, fun hap => ⟨fun hw => ?_, fun hw hn => ?_⟩, fun h1 h2 => ⟨fun hw => ?_, fun hw => ?_⟩, fun hnone => ?_⟩⟩
    · exact congrArg Host.Outcome.next (accessCore_read asked ht ((congrArg _ hag).trans (coreReg_g hg)) (Bool.eq_false_iff.mpr hw))
    · have write := accessCore_write asked ht ((congrArg _ hag).trans (coreReg_g hg)) hw (show a < 0x200 by omega) hn
      simp only [show s.accAddr = g from hag, putCoreReg_g _ hg] at write
      exact congrArg Host.Outcome.next write
    · have read := accessCore_read asked ht ((congrArg _ hag).trans (coreReg_f hg)) (Bool.eq_false_iff.mpr hw)
      rw [toNat_mod_accWidth] at read
      exact congrArg Host.Outcome.next read
    · exact congrArg Host.Outcome.next (accessCore_read asked ht ((congrArg _ hap).trans coreReg_pc) (Bool.eq_false_iff.mpr hw))
    · have write := accessCore_write asked ht ((congrArg _ hap).trans coreReg_pc) hw (show a < 0x200 by omega) hn
      simp only [show s.accAddr = 64 from hap, putCoreReg_pc] at write
      exact congrArg Host.Outcome.next write
    · exact congrArg Host.Outcome.next (accessCore_write_trace asked (coreReg_trace h1 h2) hw h1)
    · exact congrArg Host.Outcome.next (accessCore_read asked ht (coreReg_trace h1 h2) (Bool.eq_false_iff.mpr hw))
    · exact congrArg Host.Outcome.next (accessCore_unlisted asked (coreReg_none hnone))
  · obtain ⟨only, addr⟩ := accDone_over h
    exact ⟨_, rfl, only, addr⟩
  · refine congrArg Host.Outcome.next (accDone_not ?_)
    rintro (h3 | ⟨h2, hout⟩)
    · omega
    · simp [h2, hout] at h

end
end Sys2Proof.Machine

namespace Sys2Proof.Machine

/-! ### Plans are checked and installed (02 R79–R89) -/

/-- The fields of the loader's report, and the wards' resets and swaps: what the steps of a LOAD or SWAP turn on. -/
def loaderFields : List Fld :=
  [F.PLN_STATUS_BUSY, F.PLN_STATUS_LOADED, F.PLN_STATUS_RESULT, F.PLN_STATUS_NO_BOOT]
    ++ (List.finRange 8).flatMap fun w => [F.WRD_STATUS_RESETTING w.val, F.WRD_STATUS_SWAPPING w.val]

/-- A field that is none of them. -/
def Unwatched (f : Fld) : Prop := ∀ g ∈ loaderFields, g.key ≠ f.key

/-- The part of the state that the loader's commands work on. -/
structure LoaderView where
  job : LoadJob
  plan : Plan
  power : Power
  fuses : Fuses
  supTime : Nat
  tickCount : Nat
  fields : List Nat

/-- The same with what waits in the Ledger, the engines, the caches and memory. -/
structure WideView where
  loader : LoaderView
  ledger : Ledger
  engines : Tbl Engine
  quarters : Tbl Quarter
  dram : Tbl Byte

/-- What tile `t` asked for itself is answered to no instruction, and no longer waits for an entry (13 R367, R368). -/
def WideView.forget (t : TileId) (c : WideView) : WideView :=
  { c with ledger := { c.ledger with
      waiting := c.ledger.waiting.filter (fun e => !State.ownAccess t e)
      entries := ⟨c.ledger.entries.cells.map (fun x => (x.1, x.2.map (fun e => if State.ownAccess t e then { e with forgotten := true } else e)))⟩ } }

/-- A fold keeps what each of its steps keeps. -/
theorem foldl_keeps {α β γ : Type} (f : β → γ) {g : β → α → β} (hg : ∀ b a, f (g b a) = f b) (l : List α) (b : β) : f (l.foldl g b) = f b :=
  List.foldlRecOn (motive := fun x => f x = f b) l g rfl fun x hx a _ => (hg x a).trans hx

namespace State
variable {s : State}

def loader (s : State) : LoaderView := ⟨s.job, s.plan, s.power, s.fuses, s.supTime, s.tickCount, loaderFields.map s.getF⟩
def wide (s : State) : WideView := ⟨s.loader, s.ledger, s.engines, s.quarters, s.dram⟩

theorem loader_of_wide {v : State} (h : v.wide = s.wide) : v.loader = s.loader := congrArg WideView.loader h

theorem getF_of_loader {v : State} (h : v.loader = s.loader) {f : Fld} (hf : f ∈ loaderFields) : v.getF f = s.getF f :=
  List.map_inj_left.mp (congrArg LoaderView.fields h) f hf

/-! #### Fields that are not watched -/

theorem loaderFields_off : ∀ g ∈ loaderFields, 0x10018 ≤ g.off ∧ g.off < 0x30000 ∧ g.lo < 128 := by decide

theorem unwatched_of_high {f : Fld} (h : 0x30000 ≤ f.off) : Unwatched f := fun g hg => by
  have := loaderFields_off g hg
  unfold Fld.key
  omega

theorem unwatched_of_low {f : Fld} (h : f.off < 0x10000 ∧ f.lo < 128) : Unwatched f := fun g hg => by
  have := loaderFields_off g hg
  unfold Fld.key
  omega

theorem unwatched_quarantined (w : WardId) : Unwatched (F.WRD_STATUS_QUARANTINED w.val) := by
  unfold Unwatched
  revert w
  decide

theorem fields_setF {f : Fld} (hf : Unwatched f) (v : Nat) : loaderFields.map (s.setF f v).getF = loaderFields.map s.getF :=
  List.map_congr_left fun g hg => getF_setF_other s f g v (hf g hg)

theorem wide_setF {f : Fld} (hf : Unwatched f) (v : Nat) : (s.setF f v).wide = s.wide := by
  unfold wide loader
  rw [fields_setF hf]
  rfl

theorem wide_bumpF {f : Fld} (hf : Unwatched f) (k : Nat) : (s.bumpF f k).wide = s.wide := wide_setF hf _

@[simp] theorem wide_ite {p : Prop} [Decidable p] {a b : State} : (if p then a else b).wide = if p then a.wide else b.wide := apply_ite wide p a b

theorem wide_either {p : Prop} [Decidable p] {a b : State} {c : WideView} (ha : a.wide = c) (hb : b.wide = c) : (if p then a else b).wide = c := by
  simp [ha, hb]

theorem wide_when {p : Prop} [Decidable p] {u : State} (h : u.wide = s.wide) : (if p then u else s).wide = s.wide := wide_either h rfl

/-! #### The Beacon and interrupts -/

@[simp] theorem wide_emit (o : Out) : (s.emit o).wide = s.wide := rfl
@[simp] theorem wide_free (s : State) : s.free.2.wide = s.wide := rfl
@[simp] theorem wide_setTile (t : TileId) (v : Tile) : (s.setTile t v).wide = s.wide := rfl
@[simp] theorem wide_updTile (t : TileId) (g : Tile → Tile) : (s.updTile t g).wide = s.wide := rfl
@[simp] theorem wide_setLampw (w : WardId) (v : LampWard) : (s.setLampw w v).wide = s.wide := rfl
@[simp] theorem wide_setPin (p : Fin 8) (v : EvtPin) : (s.setPin p v).wide = s.wide := rfl
@[simp] theorem wide_setGateBuf (g : Nat) (v : List Packet) : (s.setGateBuf g v).wide = s.wide := rfl
@[simp] theorem wide_setMsix (fn v : Nat) (e : MsixEntry) : (s.setMsix fn v e).wide = s.wide := rfl
@[simp] theorem wide_setCfgBit (fn off bit : Nat) (b : Bool) : (s.setCfgBit fn off bit b).wide = s.wide := rfl
@[simp] theorem wide_with_link (x : Link) : ({ s with link := x } : State).wide = s.wide := rfl
@[simp] theorem wide_with_arrivals (x : List (WardId × Token × TokSrc)) : ({ s with arrivals := x } : State).wide = s.wide := rfl
@[simp] theorem wide_with_storeServed (x : Option WardId) : ({ s with storeServed := x } : State).wide = s.wide := rfl

@[simp] theorem wide_pmeOnPending (s : State) : s.pmeOnPending.wide = s.wide := by simp [pmeOnPending]
@[simp] theorem wide_updIntx (s : State) : s.updIntx.wide = s.wide := by simp [updIntx]

@[simp] theorem wide_raiseMsix (fn : Func) (v : Nat) : (s.raiseMsix fn v).wide = s.wide := by
  have pending : Unwatched (F.LNK_INTX_PEND_VALUE (v / 64)) := unwatched_of_high (by simp only [F.LNK_INTX_PEND_VALUE]; omega)
  cases fn with
  | vf w => simp [raiseMsix]
  | pf0 => simp [raiseMsix, wide_setF pending]

theorem unwatched_rec {base : Nat} (h : 0x30000 ≤ base) (g sub lo w : Nat) : Unwatched (recF base g sub lo w) :=
  unwatched_of_high (by simp only [recF]; omega)

theorem wide_highF {f : Fld} (hf : Unwatched f) (v : Nat) : (s.highF f v).wide = s.wide := by simp [highF, wide_setF hf]

theorem wide_latchAt {base : Nat} (h : 0x30000 ≤ base) (ev : Event) : (s.latchAt base ev).wide = s.wide := by
  have groups : Unwatched ⟨base, 0, 49⟩ := unwatched_of_high h
  have field := fun sub lo w => unwatched_rec h ev.group sub lo w
  simp [latchAt, wide_setF groups, wide_setF (field _ _ _), wide_highF (field _ _ _), wide_bumpF (field _ _ _)]

@[simp] theorem wide_quarantine (w : WardId) : (s.quarantine w).wide = s.wide := by simp [quarantine, wide_setF (unwatched_quarantined w)]

@[simp] theorem wide_enterViral (s : State) : s.enterViral.wide = s.wide := by
  have viral : Unwatched F.FLT_STATUS_VIRAL ∧ Unwatched F.FLT_STATUS_VIRAL_OFF := ⟨unwatched_of_high (by decide), unwatched_of_high (by decide)⟩
  simp [enterViral, wide_setF viral.1, wide_setF viral.2]

@[simp] theorem wide_queueLog (e : LogEntry) : (s.queueLog e).wide = s.wide := (wide_ite).trans (ite_self _)
@[simp] theorem wide_reportAer (fn : Func) (unc : Bool) (bit : Nat) (what : String) : (s.reportAer fn unc bit what).wide = s.wide := by
  simp [reportAer]
@[simp] theorem wide_reportRas (unc : Bool) (bit : Nat) (what : String) : (s.reportRas unc bit what).wide = s.wide := (wide_ite).trans (ite_self _)
@[simp] theorem wide_tellHost (ev : Event) : (s.tellHost ev).wide = s.wide := by simp [tellHost]

@[simp] theorem wide_react (ev : Event) : (s.react ev).wide = s.wide := by
  have faultn : Unwatched F.FLT_STATUS_FAULTN := unwatched_of_high (by decide)
  unfold react
  extract_lets a vec s1 m2 s2 s3 s4 s5 s6
  have k1 : s1.wide = s.wide := by simp [s1, wide_setF faultn]
  have k2 : s2.wide = s1.wide := (wide_ite).trans (ite_self _)
  have k4 : s4.wide = s3.wide := wide_when (foldl_keeps wide (fun u w => by simp) _ _)
  have k6 : s6.wide = s5.wide := wide_when (foldl_keeps wide (fun u w => by simp) _ _)
  simp [k6, s5, k4, s3, k2, k1]

@[simp] theorem wide_event (ev : Event) : (s.event ev).wide = s.wide := by
  have device := wide_latchAt (s := s) (base := 0x30000) (Nat.le_refl _) ev
  have wards : ∀ (u : State) (w : WardId), (if inScope ev w then u.latchAt (0x34000 + 0x1000 * w.val) ev else u).wide = u.wide := fun u w => by
    simp [wide_latchAt (s := u) (show 0x30000 ≤ 0x34000 + 0x1000 * w.val by omega)]
  simp [event, foldl_keeps wide wards, device]

/-! #### Tiles, items and Lamplighter -/

@[simp] theorem wide_winFault (w : WardId) (cause addr : Nat) : (s.winFault w cause addr).wide = s.wide := by
  have free : Unwatched (F.WRD_WINFAULT_COUNT w.val) ∧ Unwatched (F.WRD_WINFAULT_CAUSE w.val) ∧ Unwatched (F.WRD_WINFAULT_ADDR w.val) := by
    unfold Unwatched
    revert w
    decide
  obtain ⟨count, why, place⟩ := free
  simp [winFault, wide_setF why, wide_setF place, wide_bumpF count]

@[simp] theorem wide_emitOuts (w : WardId) (nodeKey tag : BitVec 32) (poison : Bool) (payload : BitVec 128) (src : TokSrc) :
    (s.emitOuts w nodeKey tag poison payload src).wide = s.wide := by
  unfold emitOuts
  split
  · rfl
  · exact foldl_keeps wide (fun u o => by simp) _ _

@[simp] theorem wide_pushTrace (it : Item) (kind dest waited : Nat) : (s.pushTrace it kind dest waited).wide = s.wide := by simp [pushTrace]

@[simp] theorem wide_failNotice (it : Item) (reason : Nat) : (s.failNotice it reason).wide = s.wide := by
  have failed : Unwatched (F.LMPW_FAILED_FAILED it.ward.val) := unwatched_of_high (by simp only [F.LMPW_FAILED_FAILED]; omega)
  have last : Unwatched (F.LMPW_FAILED_LAST_KEY it.ward.val) := unwatched_of_high (by simp only [F.LMPW_FAILED_LAST_KEY]; omega)
  simp [failNotice, wide_setF last, wide_bumpF failed]

@[simp] theorem wide_failItem (it : Item) (reason : Nat) : (s.failItem it reason).wide = s.wide := by simp [failItem]

@[simp] theorem wide_failHeld (t : TileId) (reason : Nat) : (s.failHeld t reason).wide = s.wide := by
  unfold failHeld
  split <;> simp

@[simp] theorem wide_recordTileFault (t : TileId) (code wc : Nat) (bad : W64) : (s.recordTileFault t code wc bad).wide = s.wide := by
  unfold recordTileFault
  refine wide_when ?_
  split <;> simp

@[simp] theorem wide_lsErrorEvent (t : TileId) (a : W64) : (s.lsErrorEvent t a).wide = s.wide := wide_event _
@[simp] theorem wide_lsCorrect (t : TileId) (o n : Nat) : (s.lsCorrect t o n).wide = s.wide := foldl_keeps wide (fun u i => by simp) _ _

@[simp] theorem wide_strand (t : TileId) (why second : Nat) (frame : Vector W64 8) : (s.strand t why second frame).wide = s.wide := by simp [strand]

@[simp] theorem wide_deliveryFault (t : TileId) (code wc : Nat) (bad : W64) (frame : Vector W64 8) :
    (s.deliveryFault t code wc bad frame).wide = s.wide := by simp [deliveryFault]

@[simp] theorem wide_takeException (t : TileId) (code wc tn : Nat) (bad epc : W64) : (s.takeException t code wc tn bad epc).wide = s.wide := by
  unfold takeException
  extract_lets s1 tl tl2 s2 cause fr g s3 o tl3 tl4 tl5 tl6 s4
  have k3 : s3.wide = s.wide := by simp [s3, s2, s1]
  have k4 : s4.wide = s.wide := by simp [s4, k3]
  clear_value s3 s4
  refine wide_either (wide_either (by simp [k3]) ?_) (by simp [k3])
  split <;> simp [k4]

@[simp] theorem wide_except (t : TileId) (code : Nat) (bad : W64) : (s.except t code bad).wide = s.wide := wide_takeException _ _ _ _ _ _
@[simp] theorem wide_countTile (t : TileId) (ev k : Nat) : (s.countTile t ev k).wide = s.wide := rfl
@[simp] theorem wide_sendPkt (p : Packet) : (s.sendPkt p).wide = s.wide := (wide_ite).trans (ite_self _)

theorem wide_of_snd {α : Type} {p : α × State} {a : α} {u : State} (e : p = (a, u)) (h : p.2.wide = s.wide) : u.wide = s.wide := by
  rw [← h, e]

@[simp] theorem wide_retireAs (t : TileId) (alone : Bool) (next : W64) : (s.retireAs t alone next).wide = s.wide := by
  unfold retireAs
  extract_lets tl may
  have taken : (if may = true then s.free else (0, s)).2.wide = s.wide := by split_ifs <;> rfl
  split
  next e => simp [wide_of_snd e taken]

@[simp] theorem wide_retireAlone (t : TileId) : (s.retireAlone t).wide = s.wide := wide_retireAs _ _ _

@[simp] theorem wide_doSend (t : TileId) (a : W64) (n : Nat) (d : TileId) : (s.doSend t a n d).wide = s.wide := by
  unfold doSend
  split
  · rfl
  · split <;> simp

@[simp] theorem wide_doPuttok (t : TileId) (a : W64) : (s.doPuttok t a).wide = s.wide := by
  unfold doPuttok
  split <;> simp

@[simp] theorem wide_puttokDone (t : TileId) : (s.puttokDone t).wide = s.wide := by
  unfold puttokDone
  split <;> simp

@[simp] theorem wide_retrySender (n : Node) : (s.retrySender n).wide = s.wide := by
  unfold retrySender
  split
  · rfl
  · refine wide_either rfl ?_
    split <;> simp

@[simp] theorem wide_dropPkt (i : Nat) : (s.dropPkt i).wide = s.wide := rfl

/-- A packet that leaves the network may let a blocked SEND or PUTTOK go on, which touches nothing the loader works on. -/
@[simp] theorem wide_takePkt (i : Nat) : (s.takePkt i).wide = s.wide := by
  unfold takePkt
  split <;> simp

@[simp] theorem wide_killPackets (p : Packet → Bool) : (s.killPackets p).wide = s.wide := rfl

@[simp] theorem wide_dropPuttok (t : TileId) : (s.dropPuttok t).wide = s.wide := foldl_keeps wide (fun u w => by simp) _ _

@[simp] theorem wide_failAll (t : TileId) (reason : Nat) : (s.failAll t reason).wide = s.wide := by
  unfold failAll
  extract_lets s1 s2
  split
  · exact wide_failHeld _ _
  · simp [s2, s1]

@[simp] theorem wide_with_gwQueue (x : List TileId) : ({ s with gwQueue := x } : State).wide = s.wide := rfl
@[simp] theorem wide_forgetAccesses (t : TileId) : (s.forgetAccesses t).wide = s.wide.forget t := rfl
@[simp] theorem wide_liftTileHalts (t : TileId) : (s.liftTileHalts t).wide = s.wide := rfl

/-- The reset of a tile marks its accesses in the Ledger as forgotten, and touches nothing else that the loader works on. -/
@[simp] theorem wide_resetTile (t : TileId) (wardReset : Bool) : (s.resetTile t wardReset).wide = s.wide.forget t := by
  have inbox : Unwatched (F.TIL_AVE_CNT_DISCARD t.val) := unwatched_of_high (by simp only [F.TIL_AVE_CNT_DISCARD]; omega)
  have run : Unwatched (F.TIL_CTRL_RUN t.val) := unwatched_of_high (by simp only [F.TIL_CTRL_RUN]; omega)
  unfold resetTile
  extract_lets s1 s2 s3 s4 s5 s6 entry s7 s8
  have k3 : s3.wide = s.wide := by simp [s3, s2, s1, discardInbox, wide_bumpF inbox]
  have k6 : s6.wide = s.wide.forget t := by simp [s6, s5, s4, wide_setF run, k3]
  simp [s8, s7, k6]

@[simp] theorem wide_queueItem (it : Item) : (s.queueItem it).wide = s.wide := by simp [queueItem]

@[simp] theorem wide_fireAll (w : WardId) (nd : PlanNode) (n : Nat) : (s.fireAll w nd n).wide = s.wide := by
  induction n generalizing s with
  | zero => rfl
  | succ n ih =>
    rw [fireAll]
    split <;> simp [ih]

@[simp] theorem wide_storeToken (w : WardId) (nd : PlanNode) (tk : Token) : (s.storeToken w nd tk).wide = s.wide := by simp [storeToken]

/-- A token that is offered straight to its ward. -/
@[simp] theorem wide_offerTok (w : WardId) (tk : Token) : (s.offerTok w tk none).2.wide = s.wide := by
  unfold offerTok
  have noNode : Unwatched (F.LMPW_DISCARD_NO_NODE w.val) := unwatched_of_high (by simp only [F.LMPW_DISCARD_NO_NODE]; omega)
  have badPort : Unwatched (F.LMPW_DISCARD_BAD_PORT w.val) := unwatched_of_high (by simp only [F.LMPW_DISCARD_BAD_PORT]; omega)
  split
  next f e =>
    have discard : Unwatched f := by
      unfold resolveTok at e
      split at e
      · cases e
        exact noNode
      · split_ifs at e
        cases e
        exact badPort
    exact wide_bumpF discard 1
  · extract_lets lw d
    split_ifs <;> simp

@[simp] theorem wide_tokDone (src : TokSrc) : (s.tokDone src).wide = s.wide := by
  unfold tokDone
  split <;> simp

@[simp] theorem wide_arriveTok (w : WardId) (tk : Token) (src : TokSrc) : (s.arriveTok w tk src).wide = s.wide := by
  unfold arriveTok
  extract_lets busy
  have offered : (if busy = true then (false, s) else s.offerTok w tk none).2.wide = s.wide := by split_ifs <;> simp
  split
  next e => simp [wide_of_snd e offered]
  next e => simp [wide_of_snd e offered]

@[simp] theorem wide_fireFirst (w : WardId) (l : List DelayEntry) (held : List Nat) : (s.fireFirst w l held).2.wide = s.wide := by
  induction l generalizing s held with
  | nil => rfl
  | cons e l ih =>
    rw [fireFirst]
    split_ifs
    · exact ih _
    · split
      next e2 => simp [wide_of_snd e2 (wide_offerTok _ _)]
      next e2 => simp [ih, wide_of_snd e2 (wide_offerTok _ _)]

@[simp] theorem wide_fireOne (w : WardId) : (s.fireOne w).2.wide = s.wide := by
  unfold fireOne
  split_ifs <;> simp

@[simp] theorem wide_fireRipe (n : Nat) : (s.fireRipe n).wide = s.wide := by
  induction n generalizing s with
  | zero => rfl
  | succ n ih =>
    rw [fireRipe]
    split
    · exact foldl_keeps wide (fun u w => wide_fireOne w) _ _
    · simp [ih]

@[simp] theorem wide_fireDue (s : State) : s.fireDue.wide = s.wide := wide_fireRipe _
@[simp] theorem wide_injectInits (w : WardId) : (s.injectInits w).wide = s.wide := foldl_keeps wide (fun u tk => by simp) _ _

@[simp] theorem wide_deliverEdge (p : Fin 8) : (s.deliverEdge p).wide = s.wide := by
  unfold deliverEdge
  split
  · refine wide_either rfl (wide_either (by simp) ?_)
    extract_lets tk
    split
    next e => simp [wide_of_snd e (wide_offerTok _ _)]
    next e => exact wide_of_snd e (wide_offerTok _ _)
  · rfl

/-! #### Gates -/

@[simp] theorem wide_takeGateItem (i : Nat) : (s.takeGateItem i).wide = s.wide := by simp [takeGateItem]

@[simp] theorem wide_gateSrcDone (src : Option TokSrc) : (s.gateSrcDone src).wide = s.wide := by
  unfold gateSrcDone
  split <;> simp

theorem wide_emptyGate {g : Nat} (hg : g < 16) : (s.emptyGate g).wide = s.wide := by
  have count : Unwatched (F.GBL_GATE_CNT_DISC_RESET g) := unwatched_of_low (by simp only [F.GBL_GATE_CNT_DISC_RESET]; omega)
  unfold emptyGate
  extract_lets full s1 s2
  have k2 : s2.wide = s.wide := (wide_when (foldl_keeps wide (fun u t => by simp [wide_bumpF count]) _ _)).trans (by simp [s1, wide_bumpF count])
  refine (foldl_keeps wide (fun u i => ?_) _ _).trans k2
  split <;> simp [wide_bumpF count]

@[simp] theorem wide_emptyGates (w : WardId) : (s.emptyGates w).wide = s.wide :=
  List.foldlRecOn (motive := fun u => u.wide = s.wide) _ _ rfl fun (u : State) hu g hg => by
    split
    · exact hu
    · exact (wide_when (wide_emptyGate (List.mem_range.mp hg))).trans hu

/-! #### What a home does for the loader: nothing (12 R330–R341) -/

@[simp] theorem loader_ite {p : Prop} [Decidable p] {a b : State} : (if p then a else b).loader = if p then a.loader else b.loader := apply_ite loader p a b

theorem loader_either {p : Prop} [Decidable p] {a b : State} {c : LoaderView} (ha : a.loader = c) (hb : b.loader = c) :
    (if p then a else b).loader = c := by
  simp [ha, hb]

theorem loader_of_snd {α : Type} {p : α × State} {a : α} {u : State} (e : p = (a, u)) (h : p.2.loader = s.loader) : u.loader = s.loader := by
  rw [← h, e]

theorem loader_setF {f : Fld} (hf : Unwatched f) (v : Nat) : (s.setF f v).loader = s.loader := loader_of_wide (wide_setF hf v)
theorem loader_bumpF {f : Fld} (hf : Unwatched f) (k : Nat) : (s.bumpF f k).loader = s.loader := loader_setF hf _

@[simp] theorem loader_free (s : State) : s.free.2.loader = s.loader := rfl
@[simp] theorem loader_emit (o : Out) : (s.emit o).loader = s.loader := rfl
@[simp] theorem loader_sendPkt (p : Packet) : (s.sendPkt p).loader = s.loader := loader_of_wide (wide_sendPkt p)
@[simp] theorem loader_setLampw (w : WardId) (v : LampWard) : (s.setLampw w v).loader = s.loader := rfl
@[simp] theorem loader_emptyGates (w : WardId) : (s.emptyGates w).loader = s.loader := loader_of_wide (wide_emptyGates w)
@[simp] theorem loader_setEntry (x : Nat) (e : Option LEntry) : (s.setEntry x e).loader = s.loader := rfl
@[simp] theorem loader_setEngine (e : EngId) (v : Engine) : (s.setEngine e v).loader = s.loader := rfl
@[simp] theorem loader_updHome (h : Nat) (f : Home → Home) : (s.updHome h f).loader = s.loader := rfl
@[simp] theorem loader_dirPut (h n : Nat) (d : Option DirEntry) : (s.dirPut h n d).loader = s.loader := rfl
@[simp] theorem loader_dropTxn (h x : Nat) (l : LineAddr) : (s.dropTxn h x l).loader = s.loader := rfl
@[simp] theorem loader_setTxn (h : Nat) (t : Txn) : (s.setTxn h t).loader = s.loader := rfl
@[simp] theorem loader_addTxn (h : Nat) (t : Txn) : (s.addTxn h t).loader = s.loader := rfl
@[simp] theorem loader_nextUse (h : Nat) : (s.nextUse h).loader = s.loader := rfl

@[simp] theorem loader_dirCount (h k : Nat) : (s.dirCount h k).loader = s.loader := by
  have count : Unwatched (F.HOM_DIR_CNT_VALUE h k) := unwatched_of_high (by simp only [F.HOM_DIR_CNT_VALUE]; omega)
  simp [dirCount, loader_bumpF count]

@[simp] theorem loader_hlfCount (k : Nat) : (s.hlfCount k).loader = s.loader :=
  loader_bumpF (unwatched_of_high (by simp only [F.LNK_HLF_CNT_VALUE]; omega)) 1

@[simp] theorem loader_reply (h x : Nat) (r : Req) (k : RspKind) (pl : Payload) (poison : Bool) : (s.reply h x r k pl poison).loader = s.loader :=
  loader_either rfl (loader_sendPkt _)

@[simp] theorem loader_sendSnoop (h x : Nat) (l : LineAddr) (k : SnpKind) (q : Fin 17) : (s.sendSnoop h x l k q).loader = s.loader := by
  simp [sendSnoop]

@[simp] theorem loader_poisonReply (h x : Nat) (r : Req) : (s.poisonReply h x r).loader = s.loader := by
  unfold poisonReply
  extract_lets junk u
  have taken : u.loader = s.loader := rfl
  split <;> simp [taken]

@[simp] theorem loader_answer (h : Nat) (t : Txn) : (s.answer h t).loader = s.loader := by
  unfold answer
  extract_lets r x v data free k a
  split <;> simp [data]

@[simp] theorem loader_askHost (t : Txn) (op : D2HOp) (v : Option LineVal) : (s.askHost t op v).loader = s.loader := by simp [askHost]

@[simp] theorem loader_answerHost (t : Txn) (k : SnpKind) (lost : Bool) : (s.answerHost t k lost).loader = s.loader := by
  unfold answerHost
  extract_lets v dirty v2
  split <;> simp

@[simp] theorem loader_callWaiting (h : Nat) (l : LineAddr) : (s.callWaiting h l).loader = s.loader := foldl_keeps loader (fun u e => by simp) _ _

@[simp] theorem loader_writeDram (n : Nat) (d : Line512) (sig : Bool) : (s.writeDram n d sig).loader = s.loader := by
  unfold writeDram
  extract_lets h u a b fl
  have armed : Unwatched (F.HOM_ECC_INJ_ARM h) := unwatched_of_high (by simp only [F.HOM_ECC_INJ_ARM]; omega)
  have fired : Unwatched (F.HOM_ECC_INJ_FIRED h) := unwatched_of_high (by simp only [F.HOM_ECC_INJ_FIRED]; omega)
  exact loader_either ((loader_setF fired _).trans (loader_setF armed _)) rfl

@[simp] theorem loader_finishWrite (h : Nat) (t : Txn) : (s.finishWrite h t).2.loader = s.loader := by
  unfold finishWrite
  split
  · rfl
  · split_ifs <;> simp

@[simp] theorem loader_takeDir (h : Nat) (r : Req) : (s.takeDir h r).loader = s.loader := by
  unfold takeDir
  split <;> simp

theorem loader_lostLine (s : State) : s.lostLine.2.loader = s.loader := rfl

@[simp] theorem loader_poisonEnd (h : Nat) (t : Txn) : (s.poisonEnd h t).loader = s.loader := by simp [poisonEnd]

/-- The stages of a transaction, with fuel for `n` of them, leave the loader alone. -/
structure StagesApart (n : Nat) : Prop where
  admitTxn : ∀ (s : State) (h x : Nat) (r : Req) (wd : Option LineVal), (s.admitTxn h x r wd n).loader = s.loader
  goNext : ∀ (s : State) (h : Nat) (t : Txn), (s.next h t n).loader = s.loader
  finish : ∀ (s : State) (h : Nat) (t : Txn), (s.finish h t n).loader = s.loader
  conclude : ∀ (s : State) (h : Nat) (t : Txn), (s.conclude h t n).loader = s.loader
  pump : ∀ (s : State) (h : Nat) (l : LineAddr), (s.pump h l n).loader = s.loader
  enter : ∀ (s : State) (h x : Nat) (r : Req) (wd : Option LineVal), (s.enter h x r wd n).loader = s.loader

section
variable {n : Nat} (ih : StagesApart n)
include ih

theorem StagesApart.admitTxn_succ (s : State) (h x : Nat) (r : Req) (wd : Option LineVal) : (s.admitTxn h x r wd (n + 1)).loader = s.loader := by
  rw [State.admitTxn]
  generalize hu : takeDir _ h r = u
  have taken : u.loader = s.loader := by simp [← hu]
  refine loader_either (by simp [ih.finish, taken]) ?_
  split
  · exact (foldl_keeps loader (fun v q => loader_sendSnoop _ _ _ _ _) _ _).trans taken
  · simp [ih.goNext, taken]

theorem StagesApart.next_succ (s : State) (h : Nat) (t : Txn) : (s.next h t (n + 1)).loader = s.loader := by
  rw [State.next]
  refine loader_either (by simp) (loader_either (by simp [ih.finish]) (loader_either (by simp) (loader_either (by simp)
    (loader_either (ih.finish ..) (loader_either (by simp) (loader_either (by simp [ih.finish]) ?_))))))
  split
  · simp
  · simp [ih.finish]
  · refine loader_either (by simp) (loader_either (ih.finish ..) ?_)
    split <;> simp [ih.finish]

theorem StagesApart.finish_succ (s : State) (h : Nat) (t : Txn) : (s.finish h t (n + 1)).loader = s.loader := by
  rw [State.finish]
  split
  next e => simp [loader_of_snd e (loader_finishWrite _ _)]
  next e => simp [ih.conclude, loader_of_snd e (loader_finishWrite _ _)]

theorem StagesApart.conclude_succ (s : State) (h : Nat) (t : Txn) : (s.conclude h t (n + 1)).loader = s.loader := by
  rw [State.conclude]
  split
  · refine (ih.pump ..).trans (loader_either (by simp) ?_)
    split
    · simp
    · split <;> simp
    · simp
  · split
    · simp [ih.pump, ih.admitTxn]
    · simp [ih.pump]

theorem StagesApart.pump_succ (s : State) (h : Nat) (l : LineAddr) : (s.pump h l (n + 1)).loader = s.loader := by
  rw [State.pump]
  refine loader_either (by simp) ?_
  split
  · simp
  · simp [ih.enter]

theorem StagesApart.enter_succ (s : State) (h x : Nat) (r : Req) (wd : Option LineVal) : (s.enter h x r wd (n + 1)).loader = s.loader := by
  rw [State.enter]
  split
  · split
    · exact ih.admitTxn ..
    · extract_lets l s1 s2 hs d' t' t
      have k2 : s2.loader = s.loader := by simp [s2, s1]
      split
      next u e =>
        have taken : u.loader = s.loader := by
          refine (loader_of_snd e ?_).trans k2
          split_ifs
          · split
            next lost => exact loader_of_snd lost (loader_lostLine _)
          · rfl
        exact loader_either (by simp [ih.goNext, taken]) ((foldl_keeps loader (fun v q => loader_sendSnoop _ _ _ _ _) _ _).trans taken)
  · exact ih.admitTxn ..

end

theorem stagesApart (n : Nat) : StagesApart n := by
  induction n with
  | zero => exact ⟨fun _ _ _ _ _ => rfl, fun _ _ _ => rfl, fun _ _ _ => rfl, fun _ _ _ => rfl, fun _ _ _ => rfl, fun _ _ _ _ _ => rfl⟩
  | succ n ih => exact ⟨ih.admitTxn_succ, ih.next_succ, ih.finish_succ, ih.conclude_succ, ih.pump_succ, ih.enter_succ⟩

@[simp] theorem loader_serve (h : Nat) (l : LineAddr) : (s.serve h l).loader = s.loader := by simp [serve, (stagesApart _).pump]

/-! #### Resets of engines and wards (01 R48; 09 R269; 13 R367) -/

@[simp] theorem loader_updEntry (x : Nat) (f : LEntry → LEntry) : (s.updEntry x f).loader = s.loader := by
  unfold updEntry
  split <;> simp

@[simp] theorem loader_countAbort (e : LEntry) : (s.countAbort e).loader = s.loader := by
  have count : ∀ w : WardId, Unwatched (F.LDGW_ABORT_COUNT w.val) := fun w => unwatched_of_high (by simp only [F.LDGW_ABORT_COUNT]; omega)
  unfold countAbort
  split <;> simp [loader_bumpF (count _)]

@[simp] theorem loader_closeEntry (x : Nat) : (s.closeEntry x).loader = s.loader := by
  unfold closeEntry
  split <;> simp

@[simp] theorem loader_giveUp (x : Nat) (l : LineAddr) : (s.giveUp x l).loader = s.loader := by simp [giveUp, closeAborted]

@[simp] theorem loader_abortEntry (x : Nat) (e : LEntry) : (s.abortEntry x e).loader = s.loader := by simp [abortEntry]

@[simp] theorem loader_abortWhere (p : LEntry → Bool) : (s.abortWhere p).loader = s.loader :=
  foldl_keeps loader (fun u c => by split <;> simp) _ _

@[simp] theorem loader_resetEngine (e : EngId) (silent : Bool) : (s.resetEngine e silent).loader = s.loader := by simp [resetEngine]

@[simp] theorem loader_resetTile (t : TileId) (wardReset : Bool) : (s.resetTile t wardReset).loader = s.loader :=
  congrArg WideView.loader (wide_resetTile t wardReset)


theorem resetting_mem (w : WardId) : F.WRD_STATUS_RESETTING w.val ∈ loaderFields := by revert w; decide
theorem swapping_mem (w : WardId) : F.WRD_STATUS_SWAPPING w.val ∈ loaderFields := by revert w; decide

theorem resettingWard_of_loader {v : State} (h : v.loader = s.loader) (w : WardId) : v.resettingWard w = s.resettingWard w :=
  congrArg (· != 0) (getF_of_loader h (resetting_mem w))

theorem swapping_of_loader {v : State} (h : v.loader = s.loader) (w : WardId) : v.swapping w = s.swapping w :=
  congrArg (· != 0) (getF_of_loader h (swapping_mem w))

theorem resettingWard_setF_self (w : WardId) : (s.setF (F.WRD_STATUS_RESETTING w.val) 1).resettingWard w = true := by
  unfold resettingWard isF
  rw [getF_setF]
  rfl

theorem resettingWard_setF_other {w x : WardId} (h : x ≠ w) (v : Nat) :
    (s.setF (F.WRD_STATUS_RESETTING w.val) v).resettingWard x = s.resettingWard x := by
  have key : (F.WRD_STATUS_RESETTING x.val).key ≠ (F.WRD_STATUS_RESETTING w.val).key := by
    have := Fin.val_ne_of_ne h
    simp only [Fld.key, F.WRD_STATUS_RESETTING]
    omega
  unfold resettingWard isF
  rw [getF_setF_other _ _ _ _ key]

/-- The reset of a ward while no plan is read or drained for a swap: the ward is marked. -/
theorem loader_startWardReset {w : WardId} {b : List Byte} (hj : s.job = .load b) (hr : s.coreRuns = true) (hw : s.resettingWard w = false) :
    (s.startWardReset w).loader = (s.setF (F.WRD_STATUS_RESETTING w.val) 1).loader := by
  unfold startWardReset
  rw [if_neg (by simp [hr, hw])]
  extract_lets s1 s2 s3 s4 s5 s6
  have k1 : s1 = s := by
    simp only [s1]
    split
    next h => cases hj.symm.trans h
    next h => cases hj.symm.trans h
    next => rfl
  have k2 : s2.loader = (s1.setF (F.WRD_STATUS_RESETTING w.val) 1).loader := by simp [s2]
  clear_value s2
  have k4 : s4.loader = s2.loader := rfl
  have k5 : s5.loader = s4.loader := foldl_keeps loader (fun u t => loader_resetTile t true) _ _
  have k6 : s6.loader = s5.loader := foldl_keeps loader (fun u e => loader_resetEngine e true) _ _
  rw [loader_abortWhere, k6, k5, k4, k2, k1]

/-- What the loader sees of a ward's reset: its job and plan stand, every ward that was resetting still is, and the ward itself is. -/
structure ResetBegun (s v : State) : Prop where
  job : v.job = s.job
  plan : v.plan = s.plan
  runs : v.coreRuns = s.coreRuns
  wards : ∀ x, s.resettingWard x = true → v.resettingWard x = true

theorem ResetBegun.refl (s : State) : ResetBegun s s := ⟨rfl, rfl, rfl, fun _ h => h⟩

theorem ResetBegun.trans {u v : State} (h : ResetBegun s u) (k : ResetBegun u v) : ResetBegun s v :=
  ⟨k.job.trans h.job, k.plan.trans h.plan, k.runs.trans h.runs, fun x hx => k.wards x (h.wards x hx)⟩

theorem startWardReset_of_down (hr : s.coreRuns = false) (w : WardId) : s.startWardReset w = s := if_pos (by simp [hr])
theorem startWardReset_of_resetting {w : WardId} (hw : s.resettingWard w = true) : s.startWardReset w = s := if_pos (by simp [hw])

theorem startWardReset_begun {b : List Byte} (hj : s.job = .load b) (w : WardId) :
    ResetBegun s (s.startWardReset w) ∧ (s.coreRuns = true → (s.startWardReset w).resettingWard w = true) := by
  cases hr : s.coreRuns with
  | false =>
    rw [startWardReset_of_down hr]
    exact ⟨.refl s, nofun⟩
  | true =>
    cases hw : s.resettingWard w with
    | true =>
      rw [startWardReset_of_resetting hw]
      exact ⟨.refl s, fun _ => hw⟩
    | false =>
      have view := loader_startWardReset hj hr hw
      have self : (s.startWardReset w).resettingWard w = true := by
        rw [resettingWard_of_loader view, resettingWard_setF_self]
      refine ⟨⟨congrArg LoaderView.job view, congrArg LoaderView.plan view, congrArg (fun c => c.power.coreUp) view, fun x hx => ?_⟩, fun _ => self⟩
      by_cases e : x = w
      · rw [e, self]
      · rw [resettingWard_of_loader view, resettingWard_setF_other e, hx]

/-- Every ward of a list is reset. -/
theorem startWardResets_begun (l : List WardId) {s : State} {b : List Byte} (hj : s.job = .load b) :
    ResetBegun s (l.foldl startWardReset s) ∧ (s.coreRuns = true → ∀ w ∈ l, (l.foldl startWardReset s).resettingWard w = true) := by
  induction l generalizing s with
  | nil => exact ⟨.refl s, fun _ w hw => nomatch hw⟩
  | cons w l ih =>
    obtain ⟨first, self⟩ := startWardReset_begun hj w
    obtain ⟨rest, others⟩ := ih (first.job.trans hj)
    refine ⟨first.trans rest, fun hr x hx => ?_⟩
    cases hx with
    | head => exact rest.wards w (self hr)
    | tail _ hx => exact others (first.runs.trans hr) x hx

/-- A LOAD has been read (02 R83 step 4). -/
theorem beginLoad_begun (img : List Byte) :
    (s.beginLoad img).job = .load img ∧ (s.beginLoad img).plan = s.plan ∧ (s.coreRuns = true → ∀ x, (s.beginLoad img).resettingWard x = true) := by
  obtain ⟨begun, wards⟩ := startWardResets_begun (List.finRange 8) (s := { s with job := .load img }) rfl
  have engines : (s.beginLoad img).loader = ((List.finRange 8).foldl startWardReset { s with job := .load img }).loader :=
    foldl_keeps loader (fun u e => loader_resetEngine e false) _ _
  refine ⟨(congrArg LoaderView.job engines).trans begun.job, (congrArg LoaderView.plan engines).trans begun.plan, fun hr x => ?_⟩
  exact (resettingWard_of_loader engines x).trans (wards hr x (List.mem_finRange x))

/-! #### The staged image is read (02 R80; 13 R357) -/

/-- The loader's request for line `n`. -/
def loaderAsk (n : Nat) : LEntry := LEntry.make (Req.make .rdC ⟨false, n⟩ .loader none false) .reserve

theorem stopQuarter_homeStop (h : Nat) : stopQuarter (homeStop h) = none := by
  unfold homeStop
  split_ifs with hh
  · have place : (Fin.ofNat 121 (32 + h)).val = 32 + h := Nat.mod_eq_of_lt (by omega)
    simp only [stopN, stopQuarter, place]
    rw [if_neg (by omega), if_neg (by omega)]
  · rfl

theorem sendReq_sent (x : Nat) (r : Req) : s.sendReq x r = { s with net := s.net ++ [reqPkt x r] } := by
  have open_ : s.fencedDst .req (homeStop (reqHome r.line)) = false := by rw [fencedDst, stopQuarter_homeStop]; rfl
  exact if_neg (ne_true_of_eq_false open_)

/-- An entry of the reserve for a line of device memory: the lowest free number, and the packet (13 R356). -/
theorem takeEntry_device {e : LEntry} (hc : e.charge = .reserve) (hm : e.hostMem = false) :
    s.takeEntry e = { s.setEntry (lowestFree s.ledger.entries.cells 0) (some { e with tag := lowestFree s.ledger.entries.cells 0 }) with
      net := s.net ++ [reqPkt (lowestFree s.ledger.entries.cells 0) e.req] } := by
  unfold takeEntry
  rw [openEntry_reserve hc]
  dsimp only
  rw [if_neg (ne_true_of_eq_false hm), sendReq_sent]
  rfl

theorem sentOnly_issue {e : LEntry} (hc : e.charge = .reserve) : SentOnly s (s.issue e) := sentOnly_ite (sentOnly_takeEntry hc) ⟨_, _, _, _, rfl⟩

/-- The reserve's grant rule reads the Ledger alone (13 R361). -/
theorem grantsNow_of_ledger {v : State} {e : LEntry} (hc : e.charge = .reserve) (hl : v.ledger = s.ledger) : v.grantsNow e = s.grantsNow e := by
  have rule : ∀ x : LEntry, x.charge = .reserve → v.canGrant x = s.canGrant x := fun x hx => by
    have count : v.grantRsv x = s.grantRsv x := by
      unfold grantRsv heldRsv heldHost heldBulk heldLantern held
      rw [hl]
    unfold canGrant
    rw [hx]
    exact count
  have rivals : ∀ x : LEntry, (x.charge == .reserve && v.canGrant x) = (x.charge == .reserve && s.canGrant x) := fun x => by
    by_cases hx : x.charge = .reserve
    · rw [rule x hx]
    · rw [beq_eq_false_iff_ne.mpr hx, Bool.false_and, Bool.false_and]
  unfold grantsNow
  rw [rule e hc, hc, hl]
  simp only [rivals]

section
variable {sw : Option WardId} {base len : Nat} {got : List LineVal} (hj : s.job = .read sw base len got)
include hj

/-- Lines are left, and the next one is populated. -/
theorem askNext_asks {k : Nat} (hl : got.length * 64 < max len 64) (hc : (base / 64 + got.length) * 64 < s.capacity) :
    s.askNext (k + 1) = s.issue (loaderAsk (base / 64 + got.length)) := by
  rw [askNext]
  split
  next h =>
    cases hj.symm.trans h
    rw [if_neg (by omega)]
    exact if_neg (by omega)
  next h => exact (h _ _ _ _ hj).elim

/-- The image is whole. -/
theorem askNext_whole {k : Nat} (hl : max len 64 ≤ got.length * 64) : s.askNext (k + 1) = s.checkStaged sw len got := by
  rw [askNext]
  split
  next h =>
    cases hj.symm.trans h
    exact if_pos hl
  next h => exact (h _ _ _ _ hj).elim

/-- There is fuel for the line that follows. -/
theorem loaderFuel_pos (hl : got.length * 64 < max len 64 + 64) : ∃ k, s.loaderFuel = k + 1 := by
  refine ⟨s.loaderFuel - 1, (Nat.sub_add_cancel ?_).symm⟩
  unfold loaderFuel
  rw [hj]
  dsimp only
  omega

/-- The line that was asked for. -/
theorem loaderLine_arrives {v : LineVal} (hl : got.length * 64 < max len 64) :
    ∃ k, s.loaderLine ⟨false, base / 64 + got.length⟩ v = ({ s with job := .read sw base len (v :: got) } : State).askNext (k + 1) := by
  obtain ⟨k, hk⟩ := loaderFuel_pos (s := { s with job := .read sw base len (v :: got) }) rfl (by rw [List.length_cons]; omega)
  refine ⟨k, ?_⟩
  unfold loaderLine
  split
  next h =>
    cases hj.symm.trans h
    rw [if_neg (by simp), ← hk]
  next h => exact (h _ _ _ _ hj).elim

end

/-! #### The end of the check (02 R58, R83, R85) -/

theorem checkStaged_rejected {sw : Option WardId} {len : Nat} {got : List LineVal} (hr : rejectCode (gotImage got) len (got.any (·.poison)) sw ≠ 0) :
    s.checkStaged sw len got
      = (({ s with job := .idle } : State).planResult (rejectCode (gotImage got) len (got.any (·.poison)) sw)).setF F.PLN_STATUS_BUSY 0 := by
  unfold checkStaged
  cases code : rejectCode (gotImage got) len (got.any (·.poison)) sw with
  | zero => exact absurd code hr
  | succ r =>
    dsimp only
    rw [code]
    rfl

theorem checkStaged_load {len : Nat} {got : List LineVal} (hr : rejectCode (gotImage got) len (got.any (·.poison)) none = 0) :
    s.checkStaged none len got = s.beginLoad ((gotImage got).take len) := by
  unfold checkStaged
  dsimp only
  rw [hr]
  rfl

theorem checkStaged_swap {w : WardId} {len : Nat} {got : List LineVal} (hr : rejectCode (gotImage got) len (got.any (·.poison)) (some w) = 0) :
    s.checkStaged (some w) len got = s.beginSwap w ((gotImage got).take len) := by
  unfold checkStaged
  dsimp only
  rw [hr]
  rfl

/-- BUSY is set, and nothing has been read. -/
def readBegun (s : State) (sw : Option WardId) : State :=
  { s.setF F.PLN_STATUS_BUSY 1 with job := .read sw (s.getF F.PLN_IMG_DPA_DPA) (s.getF F.PLN_IMG_LEN_LEN) [] }

/-- LOAD and SWAP ask for the first line. -/
theorem startRead_asks (sw : Option WardId) (hc : s.getF F.PLN_IMG_DPA_DPA < s.capacity)
    (hg : s.grantsNow (loaderAsk (s.getF F.PLN_IMG_DPA_DPA / 64)) = true) :
    s.startRead sw = (s.readBegun sw).takeEntry (loaderAsk (s.getF F.PLN_IMG_DPA_DPA / 64)) := by
  obtain ⟨k, hk⟩ := loaderFuel_pos (s := s.readBegun sw) rfl (by simp)
  have first : s.startRead sw = (s.readBegun sw).askNext (s.readBegun sw).loaderFuel := rfl
  have room : (s.getF F.PLN_IMG_DPA_DPA / 64 + ([] : List LineVal).length) * 64 < (s.readBegun sw).capacity :=
    Nat.lt_of_le_of_lt (Nat.div_mul_le_self _ _) hc
  rw [first, hk, askNext_asks rfl (by simp) room]
  have held : (s.readBegun sw).grantsNow (loaderAsk (s.getF F.PLN_IMG_DPA_DPA / 64)) = true :=
    (grantsNow_of_ledger (s := s) (v := s.readBegun sw) rfl rfl).trans hg
  exact if_pos held

/-- The read of the image has begun: BUSY, and the entry and the packet of its first line. -/
theorem startRead_begun (sw : Option WardId) (hc : s.getF F.PLN_IMG_DPA_DPA < s.capacity)
    (hg : s.grantsNow (loaderAsk (s.getF F.PLN_IMG_DPA_DPA / 64)) = true) :
    let x := lowestFree s.ledger.entries.cells 0
    let e := loaderAsk (s.getF F.PLN_IMG_DPA_DPA / 64)
    (s.startRead sw).job = .read sw (s.getF F.PLN_IMG_DPA_DPA) (s.getF F.PLN_IMG_LEN_LEN) [] ∧ (s.startRead sw).getF F.PLN_STATUS_BUSY = 1
      ∧ (s.startRead sw).plan = s.plan ∧ (s.startRead sw).entry x = some { e with tag := x } ∧ (s.startRead sw).net = s.net ++ [reqPkt x e.req] := by
  rw [startRead_asks sw hc hg, takeEntry_device rfl rfl]
  exact ⟨rfl, getF_setF s F.PLN_STATUS_BUSY 1, rfl, entry_setEntry (s.readBegun sw) _ _, rfl⟩

/-! #### A line of the staged image arrives (13 R357) -/

/-- An entry that the loader still waits for with one response to come (13 R357). -/
structure AwaitedByLoader (e : LEntry) : Prop where
  aborted : e.aborted = false
  forgotten : e.forgotten = false
  bad : e.bad = false
  pend : e.pend = 1
  kind : e.req.kind = .rdC
  src : e.req.src = .loader

theorem deliverLine_loader {x : Nat} {e : LEntry} (he : s.entry x = some e) (ha : AwaitedByLoader e) (v : LineVal) :
    s.deliverLine x e v = (s.setEntry x none).loaderLine e.req.line v := by
  have closes : s.closeEntry x = s.setEntry x none := by
    unfold closeEntry
    rw [he]
    simp [ha.pend, ha.aborted]
  unfold deliverLine
  rw [closes, ha.src, ha.aborted, ha.forgotten, ha.bad, Bool.or_false]
  rfl

theorem entry_takePkt (i x : Nat) : (s.takePkt i).entry x = s.entry x :=
  congrArg (fun c : WideView => c.ledger.entries.get none x) (wide_takePkt i)

/-- DATA with a line that the loader waits for. -/
theorem takeData_loader {i : Nat} {p : Packet} {e : LEntry} {v : LineVal} {z : Option WardId} (hi : s.arrived i = some p) (hc : p.chan = .rsp)
    (hk : p.kind = RspKind.data.code) (hp : p.poison = false) (hv : p.payload = .line v z)
    (hd : stopHome p.dst = none ∨ (stopHome p.dst = some 16 ∧ stopQuarter p.src = none)) (he : s.entry p.xid = some e) (hl : e.req.line = p.about)
    (ha : AwaitedByLoader e) : s.takeData i = ((s.takePkt i).setEntry p.xid none).loaderLine e.req.line v := by
  have found : s.rspAt i .data = some p := by
    unfold rspAt
    rw [hi]
    simp [hc, hk]
  have line : s.takeData i = s.takeLine i p := by
    unfold takeData
    rw [found]
    rcases hd with home | ⟨home, quarter⟩
    · simp [home]
    · simp [home, quarter]
  have entry : (s.takePkt i).entry p.xid = some e := (entry_takePkt i _).trans he
  rw [line]
  unfold takeLine
  simp only [hv, entry, hp, Bool.or_false, ha.kind]
  rw [if_neg (by simp [hl]), deliverLine_loader entry ha]

theorem capacity_of_loader {v : State} (h : v.loader = s.loader) : v.capacity = s.capacity := congrArg (fun c : LoaderView => c.power.capGib * 2 ^ 30) h

section
variable {u : State} (hu : u.loader = s.loader) {sw : Option WardId} {base n : Nat} {got : List LineVal} (hj : s.job = .read sw base n got)
  (hn : got.length * 64 < max n 64) (v : LineVal)
include hu hj hn

/-- The line arrives where the loader's part of the state is that of `s`: the loader takes up its next line. -/
theorem loaderLine_continues :
    ∃ (y : State) (k : Nat), y.loader = { s.loader with job := .read sw base n (v :: got) }
      ∧ u.loaderLine ⟨false, base / 64 + got.length⟩ v = y.askNext (k + 1) := by
  obtain ⟨k, hk⟩ := loaderLine_arrives (s := u) ((congrArg LoaderView.job hu).trans hj) (v := v) hn
  refine ⟨_, k, ?_, hk⟩
  have view : ({ u with job := .read sw base n (v :: got) } : State).loader = { u.loader with job := .read sw base n (v :: got) } := rfl
  rw [view, hu]

/-- Lines are left. -/
theorem loaderLine_asks (hl : (got.length + 1) * 64 < max n 64) (hc : (base / 64 + got.length + 1) * 64 < s.capacity) :
    (u.loaderLine ⟨false, base / 64 + got.length⟩ v).job = .read sw base n (v :: got)
      ∧ (u.loaderLine ⟨false, base / 64 + got.length⟩ v).plan = s.plan := by
  obtain ⟨y, k, hy, arrives⟩ := loaderLine_continues hu hj hn v
  have cap : y.capacity = s.capacity := congrArg (fun c : LoaderView => c.power.capGib * 2 ^ 30) hy
  have job : y.job = .read sw base n (v :: got) := congrArg LoaderView.job hy
  have left : (v :: got).length * 64 < max n 64 := hl
  have room : (base / 64 + (v :: got).length) * 64 < y.capacity := by rwa [cap]
  rw [arrives, askNext_asks job left room]
  obtain ⟨_, _, _, _, sent⟩ := sentOnly_issue (s := y) (e := loaderAsk (base / 64 + (v :: got).length)) rfl
  rw [sent]
  exact ⟨job, congrArg LoaderView.plan hy⟩

/-- The image is whole: it is checked. -/
theorem loaderLine_checks (hl : max n 64 ≤ (got.length + 1) * 64) :
    ∃ y : State, y.loader = { s.loader with job := .read sw base n (v :: got) }
      ∧ u.loaderLine ⟨false, base / 64 + got.length⟩ v = y.checkStaged sw n (v :: got) := by
  obtain ⟨y, k, hy, arrives⟩ := loaderLine_continues hu hj hn v
  have whole : max n 64 ≤ (v :: got).length * 64 := hl
  exact ⟨y, hy, arrives.trans (askNext_whole (congrArg LoaderView.job hy) whole)⟩

end

/-- A rejected image: RESULT, and the loader is free. -/
theorem checkStaged_reports {sw : Option WardId} {len : Nat} {got : List LineVal} (hr : rejectCode (gotImage got) len (got.any (·.poison)) sw ≠ 0) :
    (s.checkStaged sw len got).job = .idle ∧ (s.checkStaged sw len got).plan = s.plan
      ∧ (s.checkStaged sw len got).getF F.PLN_STATUS_RESULT = rejectCode (gotImage got) len (got.any (·.poison)) sw % 16
      ∧ (s.checkStaged sw len got).getF F.PLN_STATUS_BUSY = 0 := by
  rw [checkStaged_rejected hr]
  refine ⟨rfl, rfl, ?_, getF_setF _ F.PLN_STATUS_BUSY 0⟩
  rw [getF_setF_other _ _ _ _ (by decide)]
  exact getF_setF _ F.PLN_STATUS_RESULT _

theorem beginSwap_eq (w : WardId) (img : List Byte) :
    s.beginSwap w img = { (s.clampReport (clampWard img s.plan w s.capacity).2).setF (F.WRD_STATUS_SWAPPING w.val) 1 with
      job := .swap w (clampWard img s.plan w s.capacity).1 (clampWard img s.plan w s.capacity).2.length s.tickCount s.supTime } := by
  unfold beginSwap
  generalize clampWard img s.plan w s.capacity = clamped
  rfl

theorem swapping_setF (w : WardId) : (s.setF (F.WRD_STATUS_SWAPPING w.val) 1).swapping w = true := by
  unfold swapping isF
  rw [getF_setF]
  rfl

theorem swapping_with_job (j : LoadJob) (w : WardId) : ({ s with job := j } : State).swapping w = s.swapping w := rfl

/-- A SWAP has been read: its section is clamped, and the ward's dispatch stops (02 R85). -/
theorem beginSwap_begun (w : WardId) (img : List Byte) :
    (s.beginSwap w img).plan = s.plan ∧ (s.beginSwap w img).swapping w = true
      ∧ (s.beginSwap w img).job = .swap w (clampWard img s.plan w s.capacity).1 (clampWard img s.plan w s.capacity).2.length s.tickCount s.supTime := by
  rw [beginSwap_eq]
  generalize clampWard img s.plan w s.capacity = clamped
  exact ⟨rfl, by rw [swapping_with_job, swapping_setF], rfl⟩

/-! #### PLN_CMD (02 R79, R83–R85) -/

theorem host_carries (h : s.carries .s none true) : s.mmioOpen = true ∧ s.hostHolds .s = false := by
  rcases h with ⟨_, opened, free⟩ | ⟨w, vf, _⟩
  · exact ⟨opened, free⟩
  · cases vf

theorem planCommand_heldBack {w : WardId} {c : Instr} {op : Nat} (h : (c, op) ∈ [(Instr.plnLoad, 1), (.plnSwap w, 2 + 16 * w.val), (.plnSeal, 3)]) :
    heldBack c s .s F.PLN_CMD_OP.off none op true := by
  simp only [List.mem_cons, List.not_mem_nil, or_false, Prod.mk.injEq] at h
  rcases h with ⟨rfl, rfl⟩ | ⟨rfl, rfl⟩ | ⟨rfl, rfl⟩
  · exact heldBack_of_hostWrite (f := startLoad) rfl
  · exact heldBack_of_hostWrite (f := fun s => s.startSwap w) rfl
  · exact heldBack_of_hostWrite (f := sealPlan) rfl

section
variable (hc : s.carries .s none true)
include hc

theorem exec_plnLoad : exec .plnLoad s = .next s.startLoad := congrArg Host.Outcome.next (hostWrite_s (host_carries hc).1 (host_carries hc).2)
theorem exec_plnSwap (w : WardId) : exec (.plnSwap w) s = .next (s.startSwap w) :=
  congrArg Host.Outcome.next (hostWrite_s (host_carries hc).1 (host_carries hc).2)
theorem exec_plnSeal : exec .plnSeal s = .next s.sealPlan := congrArg Host.Outcome.next (hostWrite_s (host_carries hc).1 (host_carries hc).2)

theorem planCommand_refused {w : WardId} (hb : s.planBusy = true) {c : Instr} (h : c ∈ [Instr.plnLoad, .plnSwap w, .plnSeal]) :
    exec c s = .next (s.setF F.PLN_STATUS_REFUSED 1) := by
  simp only [List.mem_cons, List.not_mem_nil, or_false] at h
  rcases h with rfl | rfl | rfl
  · exact (exec_plnLoad hc).trans (congrArg Host.Outcome.next (if_pos hb))
  · exact (exec_plnSwap hc w).trans (congrArg Host.Outcome.next (if_pos (Bool.or_eq_true_iff.mpr (.inl hb))))
  · exact (exec_plnSeal hc).trans (congrArg Host.Outcome.next (if_pos hb))

end

section
variable (hb : s.planBusy = false)
include hb

theorem sealPlan_seals : s.sealPlan = { s with fld := s.sealPlan.fld } ∧ s.sealPlan.getF F.PLN_STATUS_SEALED = 1 := by
  have done : s.sealPlan = (s.setF F.PLN_STATUS_SEALED 1).planResult 1 := if_neg (ne_true_of_eq_false hb)
  rw [done]
  exact ⟨rfl, (getF_setF_other _ _ _ _ (by decide)).trans (getF_setF s F.PLN_STATUS_SEALED 1)⟩

theorem startLoad_sealed (hs : s.isF F.PLN_STATUS_SEALED = true) : s.startLoad = s.setF F.PLN_STATUS_RESULT 9 :=
  (if_neg (ne_true_of_eq_false hb)).trans (if_pos hs)

theorem startLoad_reads (hs : s.isF F.PLN_STATUS_SEALED = false) : s.startLoad = s.startRead none :=
  (if_neg (ne_true_of_eq_false hb)).trans (if_neg (ne_true_of_eq_false hs))

theorem startSwap_refused {w : WardId} (hw : s.resettingWard w = true) : s.startSwap w = s.setF F.PLN_STATUS_REFUSED 1 :=
  if_pos (by rw [hb, hw, Bool.false_or])

theorem startSwap_reads {w : WardId} (hw : s.resettingWard w = false) : s.startSwap w = s.startRead (some w) :=
  if_neg (by rw [hb, hw]; decide)

end

/-! #### What the check of a read image leads to -/

section
variable {y : State} {sw : Option WardId} {base n : Nat} {got : List LineVal} (hy : y.loader = { s.loader with job := .read sw base n got })
include hy

theorem check_rejects (hr : rejectCode (gotImage got) n (got.any (·.poison)) sw ≠ 0) :
    (y.checkStaged sw n got).job = .idle ∧ (y.checkStaged sw n got).plan = s.plan
      ∧ (y.checkStaged sw n got).getF F.PLN_STATUS_RESULT = rejectCode (gotImage got) n (got.any (·.poison)) sw % 16
      ∧ (y.checkStaged sw n got).getF F.PLN_STATUS_BUSY = 0 := by
  have plan : y.plan = s.plan := congrArg LoaderView.plan hy
  exact plan ▸ checkStaged_reports hr

theorem check_loads (hr : rejectCode (gotImage got) n (got.any (·.poison)) none = 0) :
    (y.checkStaged none n got).job = .load ((gotImage got).take n) ∧ (y.checkStaged none n got).plan = s.plan
      ∧ (s.coreRuns = true → ∀ x, (y.checkStaged none n got).resettingWard x = true) := by
  have plan : y.plan = s.plan := congrArg LoaderView.plan hy
  have runs : y.coreRuns = s.coreRuns := congrArg (fun c : LoaderView => c.power.coreUp) hy
  rw [checkStaged_load hr, ← plan, ← runs]
  exact beginLoad_begun _

theorem check_swaps {w : WardId} (hr : rejectCode (gotImage got) n (got.any (·.poison)) (some w) = 0) :
    (y.checkStaged (some w) n got).plan = s.plan ∧ (y.checkStaged (some w) n got).swapping w = true
      ∧ (y.checkStaged (some w) n got).job = .swap w (clampWard ((gotImage got).take n) s.plan w s.capacity).1
          (clampWard ((gotImage got).take n) s.plan w s.capacity).2.length s.tickCount s.supTime := by
  have plan : y.plan = s.plan := congrArg LoaderView.plan hy
  have cap : y.capacity = s.capacity := congrArg (fun c : LoaderView => c.power.capGib * 2 ^ 30) hy
  have ticks : y.tickCount = s.tickCount := congrArg LoaderView.tickCount hy
  have time : y.supTime = s.supTime := congrArg LoaderView.supTime hy
  rw [checkStaged_swap hr, ← plan, ← cap, ← ticks, ← time]
  exact beginSwap_begun w _

end

/-- What DATA does with a line that the loader waits for: the loader takes it in a state whose part of the loader is that of `s`. -/
theorem data_loader {i : Nat} {p : Packet} {e : LEntry} {v : LineVal} {z : Option WardId} (hi : s.arrived i = some p) (hc : p.chan = .rsp)
    (hk : p.kind = RspKind.data.code) (hp : p.poison = false) (hv : p.payload = .line v z)
    (hd : stopHome p.dst = none ∨ (stopHome p.dst = some 16 ∧ stopQuarter p.src = none)) (he : s.entry p.xid = some e) (hl : e.req.line = p.about)
    (ha : AwaitedByLoader e) : ∃ u : State, u.loader = s.loader ∧ exec (.data i) s = .next (u.loaderLine e.req.line v) :=
  ⟨(s.takePkt i).setEntry p.xid none, (loader_setEntry _ _).trans (loader_of_wide (wide_takePkt i)),
    congrArg Host.Outcome.next (takeData_loader hi hc hk hp hv hd he hl ha)⟩

/-! #### LOAD is installed (02 R83 steps 4 to 6) -/

/-- Every tile is held in reset. -/
def allTilesReset (s : State) : State := (List.finRange 256).foldl (fun s t => s.resetTile t true) s

/-- What a tile's reset leaves alone: the loader's part, the caches and memory. -/
def stored (s : State) : LoaderView × Tbl Quarter × Tbl Byte := (s.wide.loader, s.wide.quarters, s.wide.dram)

theorem stored_resetTile (t : TileId) : (s.resetTile t true).stored = s.stored := by
  unfold stored
  rw [wide_resetTile]
  rfl

theorem stored_allTilesReset : s.allTilesReset.stored = s.stored := by
  unfold allTilesReset
  exact foldl_keeps stored (fun _ t => stored_resetTile t) _ _

theorem parts_of_stored {v : State} (h : v.stored = s.stored) : v.loader = s.loader ∧ v.quarters = s.quarters ∧ v.dram = s.dram :=
  ⟨congrArg (fun c => c.1) h, congrArg (fun c => c.2.1) h, congrArg (fun c => c.2.2) h⟩

/-- Marks on entries hide none of them from a count that does not look at the mark. -/
theorem held_forgetAccesses (t : TileId) {p : LEntry → Bool} (hp : ∀ e : LEntry, p { e with forgotten := true } = p e) :
    (s.forgetAccesses t).held p = s.held p := by
  have mark : ∀ e, p (if ownAccess t e then { e with forgotten := true } else e) = p e := fun e => by
    split
    · exact hp e
    · rfl
  unfold held forgetAccesses
  rw [List.filter_map, List.length_map]
  refine congrArg List.length (List.filter_congr fun c _ => ?_)
  obtain ⟨x, o⟩ := c
  cases o with
  | none => rfl
  | some e => exact mark e

/-- What waits of a tile's accesses is discarded, so that no more waits than before. -/
theorem waiting_forgetAccesses (t : TileId) {p : LEntry → Bool} (h : s.ledger.waiting.any p = false) :
    (s.forgetAccesses t).ledger.waiting.any p = false :=
  List.any_eq_false.mpr fun e he => List.any_eq_false.mp h e (List.mem_of_mem_filter he)

theorem engHas_forgetAccesses (t : TileId) (e : EngId) (h : s.engHas e (fun _ => true) = false) : (s.forgetAccesses t).engHas e (fun _ => true) = false := by
  obtain ⟨hold, wait⟩ := Bool.or_eq_false_iff.mp h
  refine Bool.or_eq_false_iff.mpr ⟨?_, waiting_forgetAccesses t wait⟩
  unfold forgetAccesses
  refine (List.any_map).trans (Eq.trans (congrArg (List.any s.ledger.entries.cells) (funext fun c => ?_)) hold)
  obtain ⟨x, o⟩ := c
  cases o with
  | none => rfl
  | some y =>
    simp only [Function.comp_apply, Option.map_some, ofEngine]
    split <;> rfl

theorem loadQuiet_of_wide {v : State} (h : v.wide = s.wide) : v.loadQuiet = s.loadQuiet := by
  have ledger : v.ledger = s.ledger := congrArg WideView.ledger h
  have engines : v.engines = s.engines := congrArg WideView.engines h
  have wards := resettingWard_of_loader (loader_of_wide h)
  unfold loadQuiet
  simp only [wards, ledgerClear, heldBy, held, engHas, engine, ledger, engines]

theorem loadQuiet_forgetAccesses (t : TileId) (h : s.loadQuiet = true) : (s.forgetAccesses t).loadQuiet = true := by
  unfold loadQuiet at h ⊢
  simp only [Bool.and_eq_true, List.all_eq_true, Bool.not_eq_true'] at h ⊢
  obtain ⟨wards, engines⟩ := h
  refine ⟨fun w hw => ⟨(wards w hw).1, ?_⟩, fun e he => ⟨(engines e he).1, engHas_forgetAccesses t e (engines e he).2⟩⟩
  have clear := (wards w hw).2
  unfold ledgerClear at clear ⊢
  simp only [Bool.and_eq_true, Bool.not_eq_true'] at clear ⊢
  have count : (s.forgetAccesses t).heldBy w = s.heldBy w := held_forgetAccesses t fun _ => rfl
  exact ⟨count ▸ clear.1, waiting_forgetAccesses t clear.2⟩

theorem loadQuiet_resetTile (t : TileId) (h : s.loadQuiet = true) : (s.resetTile t true).loadQuiet = true :=
  (loadQuiet_of_wide ((wide_resetTile t true).trans (wide_forgetAccesses t).symm)).trans (loadQuiet_forgetAccesses t h)

theorem loadQuiet_allTilesReset (h : s.loadQuiet = true) : s.allTilesReset.loadQuiet = true := by
  unfold allTilesReset
  exact List.foldlRecOn (motive := fun u : State => u.loadQuiet = true) _ _ h fun _ hu t _ => loadQuiet_resetTile t hu

/-- A ward that resets keeps the installation back (R83 step 5). -/
theorem loadQuiet_of_resetting {w : WardId} (h : s.resettingWard w = true) : s.loadQuiet = false := by
  refine Bool.and_eq_false_imp.mpr fun wards => ?_
  have := (List.all_eq_true.mp wards) w (List.mem_finRange w)
  rw [h] at this
  cases this

/-! #### A plan is installed (02 R81, R83) -/

/-- What the installation of a clamped image leaves: its plan, and a free loader that reports it. -/
structure Installed (v : State) (c : Plan × List ClampRec × Bool) : Prop where
  plan : v.plan = c.1
  job : v.job = .idle
  loaded : v.getF F.PLN_STATUS_LOADED = 1
  busy : v.getF F.PLN_STATUS_BUSY = 0
  result : v.getF F.PLN_STATUS_RESULT = if c.2.1.isEmpty then 1 else 2

theorem injectInits_loader (l : List WardId) : (l.foldl injectInits s).loader = s.loader :=
  foldl_keeps loader (fun _ w => loader_of_wide (wide_injectInits w)) _ _

/-- The fields that an installation writes last: the tick period, the Clamp Report, the plan's number, and the loader's report. -/
def reportInstalled (s : State) (c : Plan × List ClampRec × Bool) : State :=
  let s := (s.setF F.LMP_TICK_PERIOD c.1.period).clampReport c.2.1
  let s := (s.setF F.PLN_PLAN_ID_VALUE c.1.planId.toNat).setF F.PLN_STATUS_LOADED 1
  let s := (s.planResult (if c.2.1.isEmpty then 1 else 2)).setF F.PLN_STATUS_BUSY 0
  if c.2.2 then s.setF F.PLN_STATUS_SEALED 1 else s

/-- The plan and the power part, which the steps of an installation before its report leave alone. -/
def planPower (s : State) : Plan × Power := (s.plan, s.power)

theorem planPower_of_loader {v : State} (h : v.loader = s.loader) : v.planPower = s.planPower := congrArg (fun c : LoaderView => (c.plan, c.power)) h

@[simp] theorem planPower_setF (f : Fld) (v : Nat) : (s.setF f v).planPower = s.planPower := rfl
@[simp] theorem planPower_setLampw (w : WardId) (v : LampWard) : (s.setLampw w v).planPower = s.planPower := rfl
@[simp] theorem planPower_setPin (p : Fin 8) (v : EvtPin) : (s.setPin p v).planPower = s.planPower := rfl
@[simp] theorem planPower_clampReport (l : List ClampRec) : (s.clampReport l).planPower = s.planPower := rfl
@[simp] theorem planPower_resetTile (t : TileId) (b : Bool) : (s.resetTile t b).planPower = s.planPower := planPower_of_loader (loader_resetTile t b)

/-- An installation ends with its report; then the initial tokens arrive. -/
theorem installPlan_reports (b : List Byte) :
    ∃ u : State, u.planPower = ((clampFull b s.capacity s.fuses.defects).1, s.power)
      ∧ (s.installPlan b).loader = ({ u.reportInstalled (clampFull b s.capacity s.fuses.defects) with job := .idle } : State).loader := by
  unfold installPlan
  generalize clampFull b s.capacity s.fuses.defects = c
  obtain ⟨plan, recs, autoSeal⟩ := c
  dsimp -zeta only
  extract_lets s1 s2 s3 s4 s5 s6 s7 s8 s9
  refine ⟨s5, ?_, injectInits_loader _⟩
  have k2 : s2.planPower = s1.planPower := foldl_keeps planPower (fun _ t => planPower_resetTile t true) _ _
  have k3 : s3.planPower = s2.planPower := foldl_keeps planPower (fun u g => by simp) _ _
  have k4 : s4.planPower = s3.planPower := foldl_keeps planPower (fun u w => by
    dsimp only
    split <;> simp) _ _
  have k5 : s5.planPower = s4.planPower := foldl_keeps planPower (fun u p => planPower_setPin p _) _ _
  rw [k5, k4, k3, k2]
  rfl

theorem planPower_reportInstalled (c : Plan × List ClampRec × Bool) : (s.reportInstalled c).planPower = s.planPower := by
  unfold reportInstalled planResult
  extract_lets s1 s2 s3
  have k1 : s1.planPower = s.planPower := by simp [s1]
  split <;> simp [s3, s2, k1]

/-- Whether later LOADs are stopped changes nothing else. -/
theorem getF_sealed {p : Prop} [Decidable p] {f : Fld} (hf : f.key ≠ F.PLN_STATUS_SEALED.key) :
    (if p then s.setF F.PLN_STATUS_SEALED 1 else s).getF f = s.getF f := by
  split
  · exact getF_setF_other _ _ _ _ hf
  · rfl

theorem reportInstalled_reports (c : Plan × List ClampRec × Bool) :
    (s.reportInstalled c).getF F.PLN_STATUS_LOADED = 1 ∧ (s.reportInstalled c).getF F.PLN_STATUS_BUSY = 0
      ∧ (s.reportInstalled c).getF F.PLN_STATUS_RESULT = if c.2.1.isEmpty then 1 else 2 := by
  unfold reportInstalled
  extract_lets s1 s2 s3
  rw [getF_sealed (by decide), getF_sealed (by decide), getF_sealed (by decide)]
  have loaded : s2.getF F.PLN_STATUS_LOADED = 1 := getF_setF _ F.PLN_STATUS_LOADED 1
  refine ⟨?_, getF_setF _ F.PLN_STATUS_BUSY 0, ?_⟩
  · exact (getF_setF_other _ _ _ _ (by decide)).trans ((getF_setF_other _ _ _ _ (by decide)).trans loaded)
  · refine (getF_setF_other _ _ _ _ (by decide)).trans ((getF_setF _ F.PLN_STATUS_RESULT _).trans ?_)
    split <;> rfl

/-- The loader's part of `v` is that of a report on the image, with no job left. -/
theorem installed_of_report {v y : State} {c : Plan × List ClampRec × Bool} (view : v.loader = ({ y with job := .idle } : State).loader)
    (plan : y.plan = c.1) (loaded : y.getF F.PLN_STATUS_LOADED = 1) (busy : y.getF F.PLN_STATUS_BUSY = 0)
    (result : y.getF F.PLN_STATUS_RESULT = if c.2.1.isEmpty then 1 else 2) : Installed v c where
  plan := (congrArg LoaderView.plan view).trans plan
  job := congrArg LoaderView.job view
  loaded := (getF_of_loader view (by decide)).trans loaded
  busy := (getF_of_loader view (by decide)).trans busy
  result := (getF_of_loader view (by decide)).trans result

theorem power_of_report {v y : State} (view : v.loader = ({ y with job := .idle } : State).loader) : v.power = y.power := congrArg LoaderView.power view

/-- The result of an installation (02 R83 step 6). -/
theorem installPlan_installed (b : List Byte) :
    Installed (s.installPlan b) (clampFull b s.capacity s.fuses.defects) ∧ (s.installPlan b).power = s.power := by
  obtain ⟨u, before, view⟩ := installPlan_reports (s := s) b
  obtain ⟨loaded, busy, result⟩ := reportInstalled_reports (s := u) (clampFull b s.capacity s.fuses.defects)
  have kept := (planPower_reportInstalled (s := u) (clampFull b s.capacity s.fuses.defects)).trans before
  exact ⟨installed_of_report view (congrArg Prod.fst kept) loaded busy result, (power_of_report view).trans (congrArg Prod.snd kept)⟩

/-- An installation is seen in the loader's part alone. -/
theorem Installed.seen {v u : State} {c : Plan × List ClampRec × Bool} (k : Installed v c) (h : u.loader = v.loader) : Installed u c where
  plan := (congrArg LoaderView.plan h).trans k.plan
  job := (congrArg LoaderView.job h).trans k.job
  loaded := (getF_of_loader h (by decide)).trans k.loaded
  busy := (getF_of_loader h (by decide)).trans k.busy
  result := (getF_of_loader h (by decide)).trans k.result

theorem Installed.updReady {v : State} {c : Plan × List ClampRec × Bool} (k : Installed v c) : Installed v.updReady c :=
  ⟨k.plan, k.job, k.loaded, k.busy, k.result⟩

/-! #### LOAD_INSTALL -/

theorem loader_updQuarter (q : QuarterId) (f : Quarter → Quarter) : (s.updQuarter q f).loader = s.loader := rfl
theorem loader_zeroWays (mask : QuarterId → BitVec 16) : (s.zeroWays mask).loader = s.loader := by
  unfold zeroWays
  exact foldl_keeps loader (fun _ q => loader_updQuarter q _) _ _

/-- What an installation turns on: the loader's part alone. -/
theorem clamps_of_loader {u : State} (h : u.loader = s.loader) (b : List Byte) :
    clampFull b u.capacity u.fuses.defects = clampFull b s.capacity s.fuses.defects := by
  have defects : u.fuses.defects = s.fuses.defects := congrArg (fun c : LoaderView => c.fuses.defects) h
  rw [capacity_of_loader h, defects]

/-- No way of a cache holds a line: none has to drain before its use changes. -/
theorem strayWay_of_free {own : WardId → Own} {q : QuarterId} {k : Nat} {c : CWay} (h : c.held = false) : strayWay own q k c = false := by
  unfold strayWay
  rw [h, Bool.false_and]

theorem finishPlan_waits {b : List Byte} (hj : s.job = .load b) (hq : s.allTilesReset.loadQuiet = false) : s.finishPlan = s.allTilesReset := by
  unfold finishPlan
  split
  next h =>
    exact if_pos (by simpa [allTilesReset] using hq)
  next h => exact absurd hj (h b)

theorem finishPlan_installs {b : List Byte} (hj : s.job = .load b) (hq : s.loadQuiet = true)
    (hw : ∀ q, ∀ c ∈ (s.quarter q).ways.cells, c.2.held = false) :
    ∃ mask, s.finishPlan = (s.allTilesReset.zeroWays mask).installPlan b := by
  have free : ∀ q, ∀ c ∈ (s.allTilesReset.quarter q).ways.cells, c.2.held = false := by
    have quarters := (parts_of_stored (s := s) stored_allTilesReset).2.1
    unfold quarter
    rw [quarters]
    exact hw
  have quiet := loadQuiet_allTilesReset hq
  unfold finishPlan
  split
  next h =>
    cases hj.symm.trans h
    rw [show (List.finRange 256).foldl (fun s t => s.resetTile t true) s = s.allTilesReset from rfl]
    generalize s.allTilesReset = u at *
    extract_lets start own drained
    have fixed : drained = u := foldl_of_fixed fun q _ => foldl_of_fixed fun c hc =>
      if_neg (ne_true_of_eq_false (strayWay_of_free (free q c hc)))
    have none_left : (List.finRange 16).any (fun q => (drained.quarter q).ways.cells.any (fun c => strayWay own q c.1 c.2)) = false := by
      rw [fixed]
      exact List.any_eq_false.mpr fun q _ => ne_true_of_eq_false (List.any_eq_false.mpr fun c hc => ne_true_of_eq_false (strayWay_of_free (free q c hc)))
    rw [if_neg (by simp [start, quiet]), none_left, fixed, if_neg (by simp [quiet])]
    exact ⟨_, rfl⟩
  next h => exact absurd hj (h b)

theorem finishPlan_idle (h : ∀ b, s.job ≠ .load b) : s.finishPlan = s := by
  unfold finishPlan
  split
  next b hj => exact absurd hj (h b)
  next => rfl

/-- LOAD_INSTALL once every ward is reset, and nothing has to drain. -/
theorem loadInstall_installs {b : List Byte} (hj : s.job = .load b) (hq : s.loadQuiet = true)
    (hw : ∀ q, ∀ c ∈ (s.quarter q).ways.cells, c.2.held = false) : Installed s.finishPlan (clampFull b s.capacity s.fuses.defects) := by
  obtain ⟨mask, installs⟩ := finishPlan_installs hj hq hw
  have view : (s.allTilesReset.zeroWays mask).loader = s.loader := (loader_zeroWays mask).trans (parts_of_stored stored_allTilesReset).1
  rw [installs, ← clamps_of_loader view]
  exact (installPlan_installed b).1

theorem waits_of_stored {u : State} {b : List Byte} (h : u.stored = s.stored) (hj : s.job = .load b) :
    u.job = .load b ∧ u.plan = s.plan ∧ u.dram = s.dram := by
  obtain ⟨view, _, dram⟩ := parts_of_stored h
  exact ⟨(congrArg LoaderView.job view).trans hj, congrArg LoaderView.plan view, dram⟩

theorem resetting_of_stored {u : State} (h : u.stored = s.stored) {x : WardId} (hx : s.resettingWard x = true) : u.resettingWard x = true :=
  (resettingWard_of_loader (parts_of_stored h).1 x).trans hx

/-- LOAD_INSTALL while a ward resets. -/
theorem loadInstall_waits {b : List Byte} (hj : s.job = .load b) {x : WardId} (hx : s.resettingWard x = true) :
    s.finishPlan.job = .load b ∧ s.finishPlan.plan = s.plan ∧ s.finishPlan.dram = s.dram := by
  rw [finishPlan_waits hj (loadQuiet_of_resetting (resetting_of_stored stored_allTilesReset hx))]
  exact waits_of_stored stored_allTilesReset hj

/-! #### A swap ends (02 R85, R86, R88) -/

theorem loader_with_swapRpt (x : Tbl Byte) : ({ s with swapRpt := x } : State).loader = s.loader := rfl

theorem loader_swapReport (w : WardId) (result : Nat) (oldId newId : W64) (tick clamps : Nat) (c : SwapCounts) (l : List (List Byte)) :
    (s.swapReport w result oldId newId tick clamps c l).loader = s.loader := by
  unfold swapReport
  extract_lets hdr
  exact loader_with_swapRpt _

theorem plan_of_loader {v : State} (h : v.loader = s.loader) : v.plan = s.plan := congrArg LoaderView.plan h

theorem plan_swapReport (w : WardId) (result : Nat) (oldId newId : W64) (tick clamps : Nat) (c : SwapCounts) (l : List (List Byte)) :
    (s.swapReport w result oldId newId tick clamps c l).plan = s.plan :=
  plan_of_loader (loader_swapReport w result oldId newId tick clamps c l)

theorem plan_setF (f : Fld) (v : Nat) : (s.setF f v).plan = s.plan := rfl

/-- The loader has no job left, and BUSY is clear. -/
def freeLoader (s : State) : State := ({ s with job := .idle } : State).setF F.PLN_STATUS_BUSY 0

theorem getF_with_job (j : LoadJob) (f : Fld) : ({ s with job := j } : State).getF f = s.getF f := rfl

theorem getF_freeLoader_other {f : Fld} (hf : f.key ≠ F.PLN_STATUS_BUSY.key) : s.freeLoader.getF f = s.getF f := by
  unfold freeLoader
  rw [getF_setF_other _ _ _ _ hf, getF_with_job]

theorem getF_freeLoader : s.freeLoader.getF F.PLN_STATUS_BUSY = 0 := getF_setF _ F.PLN_STATUS_BUSY 0

theorem swapping_key (w : WardId) :
    (F.WRD_STATUS_SWAPPING w.val).key ∉ [F.PLN_STATUS_BUSY.key, F.PLN_STATUS_RESULT.key, (F.PLN_WARD_ID_VALUE w.val).key] := by
  revert w
  decide

theorem wardId_key (w : WardId) : (F.PLN_WARD_ID_VALUE w.val).key ∉ [F.PLN_STATUS_BUSY.key, F.PLN_STATUS_RESULT.key] := by
  revert w
  decide

/-- The ward's dispatch goes on. -/
theorem swapping_cleared (w : WardId) : (s.setF (F.WRD_STATUS_SWAPPING w.val) 0).getF (F.WRD_STATUS_SWAPPING w.val) = 0 :=
  (getF_setF s (F.WRD_STATUS_SWAPPING w.val) 0).trans (Nat.zero_mod _)

theorem swapping_eq_false {w : WardId} (h : s.getF (F.WRD_STATUS_SWAPPING w.val) = 0) : s.swapping w = false := by
  unfold swapping isF
  rw [h]
  rfl

/-- What the end of a swap of ward `w` leaves: no job, and the ward's dispatch goes on. -/
structure SwapEnded (v : State) (w : WardId) (plan : Plan) (result : Nat) : Prop where
  job : v.job = .idle
  plan : v.plan = plan
  swapping : v.swapping w = false
  busy : v.getF F.PLN_STATUS_BUSY = 0
  result : v.getF F.PLN_STATUS_RESULT = result % 16

/-- The swap ends with the loader's report and `freeLoader`. -/
theorem swapEnded_of_freeLoader {w : WardId} {plan : Plan} {r : Nat} (hp : s.plan = plan) (hs : s.getF (F.WRD_STATUS_SWAPPING w.val) = 0)
    (hr : s.getF F.PLN_STATUS_RESULT = r % 16) : SwapEnded s.freeLoader w plan r where
  job := rfl
  plan := hp
  swapping := swapping_eq_false ((getF_freeLoader_other fun e => swapping_key w (by simp [e])).trans hs)
  busy := getF_freeLoader
  result := (getF_freeLoader_other (by decide)).trans hr

theorem SwapEnded.of_loader {u v : State} {w : WardId} {plan : Plan} {r : Nat} (k : SwapEnded u w plan r) (h : v.loader = u.loader) : SwapEnded v w plan r where
  job := (congrArg LoaderView.job h).trans k.job
  plan := (congrArg LoaderView.plan h).trans k.plan
  swapping := (swapping_of_loader h w).trans k.swapping
  busy := (getF_of_loader h (by decide)).trans k.busy
  result := (getF_of_loader h (by decide)).trans k.result

/-- A swap is abandoned: nothing is installed. -/
theorem abandonSwap_ended {w : WardId} {sec : WardSec} {n tick since : Nat} (hj : s.job = .swap w sec n tick since) (r : Nat) :
    SwapEnded (s.abandonSwap r) w s.plan r := by
  unfold abandonSwap
  split
  next h =>
    cases hj.symm.trans h
    extract_lets s1 s2
    have plan : s2.plan = s.plan := by simp only [s2, s1, plan_setF, plan_swapReport]
    refine swapEnded_of_freeLoader plan ?_ (getF_setF _ F.PLN_STATUS_RESULT r)
    refine (getF_setF_other _ _ _ _ fun e => swapping_key w ?_).trans (swapping_cleared w)
    simp [e]
  next h => cases hj.symm.trans h
  next h _ => exact (h _ _ _ _ _ hj).elim

/-! #### SWAP_INSTALL (02 R85 steps 6 to 8; R86) -/

theorem loader_carryTokens (w : WardId) (old new : WardSec) : (s.carryTokens w old new).1.loader = s.loader := by
  unfold carryTokens
  extract_lets lw node ready toks s1 s2
  have stored : s2.loader = s1.loader := foldl_keeps loader (fun _ x => loader_of_wide (wide_storeToken w _ _)) _ _
  exact stored

theorem loader_carryDelays (w : WardId) (new : WardSec) : (s.carryDelays w new).1.loader = s.loader := loader_setLampw _ _

theorem unwatched_discardSwap (w : WardId) : Unwatched (F.LMPW_DISCARD_SWAP w.val) :=
  unwatched_of_high (by simp only [F.LMPW_DISCARD_SWAP]; omega)

theorem unwatched_unclaimed (p : Fin 8) : Unwatched (F.LMP_EVT_CNT_UNCLAIMED p.val) :=
  unwatched_of_high (by simp only [F.LMP_EVT_CNT_UNCLAIMED]; omega)

theorem loader_unclaimedEdge (old : WardSec) (p : Fin 8) : (s.unclaimedEdge old p).1.loader = s.loader := by
  unfold unclaimedEdge
  extract_lets x entry l
  exact (foldl_keeps loader (fun u _ => loader_bumpF (unwatched_unclaimed p) 1) l _).trans (loader_of_wide (wide_setPin p _))

/-- The initial tokens arrive and the delay entries that are due fire. -/
theorem loader_injectDue (w : WardId) : (s.injectInits w).fireDue.loader = s.loader :=
  loader_of_wide ((wide_fireDue _).trans (wide_injectInits w))

/-- SWAP_INSTALL once the ward's work has drained. -/
theorem finishSwap_installs {w : WardId} {sec : WardSec} {n tick since : Nat} (hj : s.job = .swap w sec n tick since)
    (hw : (s.lampw w).running = []) :
    SwapEnded s.finishSwap w { s.plan with wards := s.plan.wards.put WardSec.absent w.val sec } (if n = 0 then 1 else 2)
      ∧ s.finishSwap.getF (F.PLN_WARD_ID_VALUE w.val) = sec.planId.toNat := by
  unfold finishSwap
  split
  next h =>
    cases hj.symm.trans h
    rw [if_neg (by simp [hw])]
    dsimp -zeta only
    extract_lets old held before start counted resumed served res told numbered
    have drained : counted.loader = start.loader := by
      simp only [counted, loader_bumpF (unwatched_discardSwap w), loader_carryTokens]
    have plan : resumed.plan = start.plan := by
      simp only [resumed, plan_setF]
      exact plan_of_loader ((loader_carryDelays w sec).trans drained)
    have goes_on : resumed.getF (F.WRD_STATUS_SWAPPING w.val) = 0 := swapping_cleared w
    clear_value resumed
    have edges : served.loader = resumed.loader := by
      refine (loader_injectDue w).trans (foldl_keeps (fun a : State × Nat × List (List Byte) => a.1.loader) (fun a p => ?_) held _)
      dsimp only
      split
      · exact loader_of_wide (wide_deliverEdge p)
      · exact loader_unclaimedEdge old p
    have report : told.loader = resumed.loader := by
      simp only [told, loader_swapReport, edges]
    clear_value told
    have end_plan : numbered.plan = start.plan := by
      simp only [numbered, planResult, plan_setF]
      exact (plan_of_loader report).trans plan
    have end_swapping : numbered.getF (F.WRD_STATUS_SWAPPING w.val) = 0 := by
      simp only [numbered, planResult]
      rw [getF_setF_other _ _ _ _ fun e => swapping_key w (by simp [e]), getF_setF_other _ _ _ _ fun e => swapping_key w (by simp [e]),
        getF_of_loader report (swapping_mem w), goes_on]
    have end_result : numbered.getF F.PLN_STATUS_RESULT = res % 16 := by
      simp only [numbered, planResult]
      rw [getF_setF_other _ _ _ _ fun e => wardId_key w (by simp [e])]
      exact getF_setF _ F.PLN_STATUS_RESULT res
    have end_id : numbered.getF (F.PLN_WARD_ID_VALUE w.val) = sec.planId.toNat :=
      (getF_setF _ _ _).trans (Nat.mod_eq_of_lt sec.planId.isLt)
    clear_value numbered
    exact ⟨swapEnded_of_freeLoader end_plan end_swapping end_result, (getF_freeLoader_other fun e => wardId_key w (by simp [e])).trans end_id⟩
  next h => exact (h _ _ _ _ _ hj).elim

/-- A swap that drains is not installed, and no other job is (02 R85 step 5, R88). -/
theorem finishSwap_drains {w : WardId} {sec : WardSec} {n tick since : Nat} (hj : s.job = .swap w sec n tick since)
    (hw : (s.lampw w).running ≠ []) : s.finishSwap = s := by
  unfold finishSwap
  split
  next h =>
    cases hj.symm.trans h
    exact if_pos (by simpa using hw)
  next h => exact (h _ _ _ _ _ hj).elim

theorem overrunSwap_drained {w : WardId} {sec : WardSec} {n tick since : Nat} (hj : s.job = .swap w sec n tick since)
    (hw : (s.lampw w).running = []) : s.overrunSwap = s := by
  unfold overrunSwap
  split
  next h =>
    cases hj.symm.trans h
    exact if_pos (by simpa using hw)
  next h => exact (h _ _ _ _ _ hj).elim

theorem overrunSwap_abandons {w : WardId} {sec : WardSec} {n tick since : Nat} (hj : s.job = .swap w sec n tick since)
    (hw : (s.lampw w).running ≠ []) : SwapEnded s.overrunSwap w s.plan 10 := by
  have drop : s.overrunSwap = (s.abandonSwap 10).fireDue := by
    unfold overrunSwap
    split
    next h =>
      cases hj.symm.trans h
      exact if_neg (by simpa using hw)
    next h => exact (h _ _ _ _ _ hj).elim
  rw [drop]
  exact (abandonSwap_ended hj 10).of_loader (loader_of_wide (wide_fireDue _))

theorem swap_idle (h : ∀ x sec n tick since, s.job ≠ .swap x sec n tick since) : s.finishSwap = s ∧ s.overrunSwap = s := by
  unfold finishSwap overrunSwap
  constructor
  · split
    next hj => exact absurd hj (h _ _ _ _ _)
    next => rfl
  · split
    next hj => exact absurd hj (h _ _ _ _ _)
    next => rfl

theorem SwapEnded.updated {v : State} {w : WardId} {sec : WardSec} {r : Nat}
    (k : SwapEnded v w { s.plan with wards := s.plan.wards.put WardSec.absent w.val sec } r) :
    v.sec w = sec ∧ (∀ x, x ≠ w → v.sec x = s.sec x) ∧ v.plan.own = s.plan.own := by
  unfold State.sec
  rw [k.plan]
  exact ⟨Tbl.get_put _ _ _ _, fun x hx => Tbl.get_put_other _ _ _ _ _ _ (Fin.val_ne_of_ne hx), rfl⟩

/-! #### The boot plan (02 R81, R82; 17 R469) -/

/-- What the check of the two boot slots leads to: the first slot that is good. -/
def bootJob (s : State) : LoadJob :=
  let a := s.slotImage 0x100000
  let b := s.slotImage 0x900000
  if rejectCode a.1 a.2 false none = 0 then .boot (some (a.1.take a.2)) false 0
  else if rejectCode b.1 b.2 false none = 0 then .boot (some (b.1.take b.2)) true 0 else .boot none true (rejectCode b.1 b.2 false none)

theorem bootLoad_idle (h : ¬ (s.power.coreUp = true ∧ s.power.bootDone = false ∧ s.job = .idle)) : s.bootLoad = s := by
  unfold bootLoad
  refine if_pos ?_
  cases up : s.power.coreUp <;> cases done : s.power.bootDone <;> simp_all

theorem bootLoad_reads (hu : s.power.coreUp = true) (hd : s.power.bootDone = false) (hj : s.job = .idle) :
    s.bootLoad = ({ s with job := s.bootJob } : State).setF F.PLN_STATUS_BUSY 1 := by
  unfold bootLoad bootJob
  rw [if_neg (by simp [hu, hd, hj])]
  generalize s.slotImage 0x100000 = a
  generalize s.slotImage 0x900000 = b
  dsimp only
  generalize rejectCode a.1 a.2 false none = first
  generalize rejectCode b.1 b.2 false none = second
  by_cases good : first = 0
  · rw [if_pos good, if_pos good]
  · rw [if_neg good, if_neg good]
    cases second with
    | zero => rfl
    | succ r => rfl

theorem fields_and_job (j : LoadJob) (f : Fld) (n : Nat) :
    ({ s with job := j } : State).setF f n
        = { s with fld := (({ s with job := j } : State).setF f n).fld, job := (({ s with job := j } : State).setF f n).job }
      ∧ (({ s with job := j } : State).setF f n).job = j := ⟨rfl, rfl⟩

/-- BOOT_PLAN_LOAD sets BUSY and the loader's job, and nothing else. -/
theorem bootLoad_report (hu : s.power.coreUp = true) (hd : s.power.bootDone = false) (hj : s.job = .idle) :
    s.bootLoad = { s with fld := s.bootLoad.fld, job := s.bootLoad.job } ∧ s.bootLoad.getF F.PLN_STATUS_BUSY = 1 ∧ s.bootLoad.job = s.bootJob := by
  rw [bootLoad_reads hu hd hj]
  generalize s.bootJob = j
  obtain ⟨same, job⟩ := fields_and_job (s := s) j F.PLN_STATUS_BUSY 1
  exact ⟨same, getF_setF _ F.PLN_STATUS_BUSY 1, job⟩

theorem bootInstall_idle (h : ∀ o slotB r, s.job ≠ .boot o slotB r) : s.bootInstall = s := by
  unfold bootInstall
  split
  next hj => exact absurd hj (h _ _ _)
  next => rfl

theorem bootInstall_untrained (ht : s.power.trained = false) : s.bootInstall = s := by
  unfold bootInstall
  split
  next h => exact if_pos (by simp [ht])
  next => rfl

/-- Step 8 of the first second has begun: its time is noted, and the boot plan counts as dealt with. -/
def bootStepDone (s : State) : State := { s.setF (F.SUP_BOOT_VALUE 3) s.supTime with power := { s.power with bootDone := true } }

theorem bootInstall_some {b : List Byte} {slotB : Bool} {r : Nat} (hj : s.job = .boot (some b) slotB r) (ht : s.power.trained = true) :
    s.bootInstall = ((s.bootStepDone.installPlan b).setB F.PLN_STATUS_BOOT_SLOT slotB).updReady := by
  unfold bootInstall
  split
  next h =>
    cases hj.symm.trans h
    exact if_neg (by simp [ht])
  next h => exact absurd hj (h _ _ _)

/-- The Beacon's event of a boot that found no plan (02 R82). -/
def noBootEvent (s : State) : Event := ⟨43, 2, 14, 0, 0, BitVec.ofNat 64 (s.storedWord 0x10018)⟩

/-- The loader's report of a boot that found no plan. -/
def noBoot (s : State) (r : Nat) : State := ((s.planResult r).setF F.PLN_STATUS_NO_BOOT 1).setF F.PLN_STATUS_BUSY 0

theorem bootInstall_none {slotB : Bool} {r : Nat} (hj : s.job = .boot none slotB r) (ht : s.power.trained = true) :
    s.bootInstall = (({ s.bootStepDone.noBoot r with job := .idle } : State).event (s.bootStepDone.noBoot r).noBootEvent).updReady := by
  unfold bootInstall
  split
  next h =>
    cases hj.symm.trans h
    exact if_neg (by simp [ht])
  next h => exact absurd hj (h _ _ _)

theorem unwatched_bootSlot : Unwatched F.PLN_STATUS_BOOT_SLOT := by
  unfold Unwatched
  decide

/-- The steps before the installation change nothing that it turns on. -/
theorem bootStepDone_keeps : s.bootStepDone.capacity = s.capacity ∧ s.bootStepDone.fuses.defects = s.fuses.defects ∧ s.bootStepDone.power.bootDone = true :=
  ⟨rfl, rfl, rfl⟩

/-- The boot plan is installed, and the slot it came from is reported. -/
theorem bootInstall_installs {b : List Byte} {slotB : Bool} {r : Nat} (hj : s.job = .boot (some b) slotB r) (ht : s.power.trained = true) :
    Installed s.bootInstall (clampFull b s.capacity s.fuses.defects) ∧ s.bootInstall.power.bootDone = true
      ∧ s.bootInstall.getF F.PLN_STATUS_BOOT_SLOT = bN slotB := by
  obtain ⟨cap, defects, dealt⟩ := bootStepDone_keeps (s := s)
  obtain ⟨installed, power⟩ := installPlan_installed (s := s.bootStepDone) b
  rw [cap, defects] at installed
  rw [bootInstall_some hj ht]
  generalize s.bootStepDone.installPlan b = u at *
  have slot : (u.setF F.PLN_STATUS_BOOT_SLOT (bN slotB)).getF F.PLN_STATUS_BOOT_SLOT = bN slotB := by
    rw [getF_setF]
    cases slotB <;> rfl
  exact ⟨(installed.seen (loader_setF unwatched_bootSlot (bN slotB))).updReady, (congrArg Power.bootDone power).trans dealt, slot⟩

/-- What a boot without a plan leaves. -/
structure BootFailed (s v : State) (r : Nat) : Prop where
  job : v.job = .idle
  plan : v.plan = s.plan
  dealt : v.power.bootDone = true
  noBoot : v.getF F.PLN_STATUS_NO_BOOT = 1
  result : v.getF F.PLN_STATUS_RESULT = r % 16
  busy : v.getF F.PLN_STATUS_BUSY = 0

theorem BootFailed.seen {v u : State} {r : Nat} (k : BootFailed s v r) (h : u.loader = v.loader) : BootFailed s u r where
  job := (congrArg LoaderView.job h).trans k.job
  plan := (congrArg LoaderView.plan h).trans k.plan
  dealt := (congrArg (fun c : LoaderView => c.power.bootDone) h).trans k.dealt
  noBoot := (getF_of_loader h (by decide)).trans k.noBoot
  result := (getF_of_loader h (by decide)).trans k.result
  busy := (getF_of_loader h (by decide)).trans k.busy

theorem power_setF (f : Fld) (v : Nat) : (s.setF f v).power = s.power := rfl

theorem noBoot_fails (r : Nat) : BootFailed s { s.bootStepDone.noBoot r with job := .idle } r where
  job := rfl
  plan := by
    unfold noBoot planResult bootStepDone
    simp only [plan_setF]
  dealt := by
    unfold noBoot planResult
    simp only [power_setF, bootStepDone]
  noBoot := by
    rw [getF_with_job, noBoot, getF_setF_other _ _ _ _ (by decide)]
    exact getF_setF _ F.PLN_STATUS_NO_BOOT 1
  result := by
    rw [getF_with_job, noBoot, getF_setF_other _ _ _ _ (by decide), getF_setF_other _ _ _ _ (by decide)]
    exact getF_setF _ F.PLN_STATUS_RESULT r
  busy := by
    rw [getF_with_job, noBoot]
    exact getF_setF _ F.PLN_STATUS_BUSY 0

/-- A device that found no boot plan is not ready (00 R3). -/
theorem readyNow_noBoot (h : s.getF F.PLN_STATUS_NO_BOOT = 1) : s.readyNow = false := by
  unfold readyNow isF
  rw [h]
  simp

/-- No slot is good: NO_BOOT is set and reported. -/
theorem bootInstall_fails {slotB : Bool} {r : Nat} (hj : s.job = .boot none slotB r) (ht : s.power.trained = true) :
    BootFailed s s.bootInstall r ∧ s.bootInstall.ready = false ∧ (s.bootInstall.getF F.FLT_BEACON_GROUPS).testBit 43 = true := by
  have failed := noBoot_fails (s := s) r
  rw [bootInstall_none hj ht]
  generalize s.bootStepDone.noBoot r = u at *
  have told := (event_told (s := { u with job := .idle }) u.noBootEvent (by simp [noBootEvent]) rfl).2.2.1
  have after := failed.seen (loader_of_wide (wide_event u.noBootEvent))
  generalize State.event _ u.noBootEvent = v at *
  exact ⟨⟨after.job, after.plan, after.dealt, after.noBoot, after.result, after.busy⟩, readyNow_noBoot after.noBoot, told⟩

end State

section
open State

/-- Settles O55. A PLN_CMD that is carried out reads the staged image a line at a time; each line that arrives brings the next
request or the check of the whole image, which rejects it, resets the wards for a LOAD, or drains the ward for a SWAP; a
LOAD, a SWAP and the boot plan are installed, or given up, as their conditions say. -/
theorem plansAreCheckedAndInstalled : Obligations.PlansAreCheckedAndInstalled := by
  unfold Obligations.PlansAreCheckedAndInstalled
  intro s w dpa len first x0 reading fields installed
  have is_installed : ∀ {v : State} {b : List Byte}, Installed v (clampFull b s.capacity s.fuses.defects) → installed v b :=
    fun k => ⟨k.plan, k.job, k.loaded, k.busy, k.result⟩
  refine ⟨fun c op => planCommand_heldBack,
    fun hc => ⟨fun hb c => planCommand_refused hc hb, fun hb => ⟨?stopsLoads, ?sealed, ?load, ?refused, ?swap⟩⟩,
    ?line, ?install, ?waits, ?noLoad, ?noSwap, ?swapEnds, ?noBootLoad, ?bootLoad, ?bootInstall, ?noBootInstall⟩
  case stopsLoads => exact ⟨_, exec_plnSeal hc, sealPlan_seals hb⟩
  case sealed => exact fun hs => (exec_plnLoad hc).trans (congrArg Host.Outcome.next (startLoad_sealed hb hs))
  case load =>
    exact fun hs cap grant => ⟨_, (exec_plnLoad hc).trans (congrArg Host.Outcome.next (startLoad_reads hb hs)), startRead_begun none cap grant⟩
  case refused => exact fun hw => (exec_plnSwap hc w).trans (congrArg Host.Outcome.next (startSwap_refused hb hw))
  case swap =>
    exact fun hw cap grant => ⟨_, (exec_plnSwap hc w).trans (congrArg Host.Outcome.next (startSwap_reads hb hw)), startRead_begun (some w) cap grant⟩
  case line =>
    intro i p e v z sw base n got hi hchan hkind hpoison hpay hdst he hline haborted hforgotten hbad hpend hrdC hsrc hjob hnext hlen img r
    obtain ⟨u, hu, step⟩ := data_loader hi hchan hkind hpoison hpay hdst he hline ⟨haborted, hforgotten, hbad, hpend, hrdC, hsrc⟩
    rw [hnext] at step
    refine ⟨fun more cap => ⟨_, step, loaderLine_asks hu hjob hlen v more cap⟩, fun whole => ?_⟩
    obtain ⟨y, hy, checks⟩ := loaderLine_checks hu hjob hlen v whole
    rw [checks] at step
    refine ⟨fun hr => ⟨_, step, check_rejects hy hr⟩, fun hr hsw => ?_, fun hr hsw => ?_⟩
    · subst hsw
      exact ⟨_, step, check_loads hy hr⟩
    · subst hsw
      exact ⟨_, step, check_swaps hy hr⟩
  case install => exact fun b hj hq hw => ⟨_, rfl, is_installed (loadInstall_installs hj hq hw).updReady⟩
  case waits => exact fun b hj ⟨x, hx⟩ => ⟨_, rfl, loadInstall_waits hj hx⟩
  case noLoad => exact fun h => congrArg (fun v : State => Host.Outcome.next v.updReady) (finishPlan_idle h)
  case noSwap => exact fun h => ⟨congrArg Host.Outcome.next (swap_idle h).1, congrArg Host.Outcome.next (swap_idle h).2⟩
  case swapEnds =>
    refine fun sec n tick since hj => ⟨fun hw => ⟨congrArg Host.Outcome.next (finishSwap_drains hj hw), _, rfl, ?_⟩,
      fun hw => ⟨congrArg Host.Outcome.next (overrunSwap_drained hj hw), _, rfl, ?_⟩⟩
    · have ended := overrunSwap_abandons hj hw
      exact ⟨ended.job, ended.plan, ended.swapping, ended.busy, ended.result⟩
    · obtain ⟨ended, id⟩ := finishSwap_installs hj hw
      obtain ⟨new, others, own⟩ := ended.updated
      refine ⟨ended.job, new, others, own, ended.swapping, ended.busy, ended.result.trans ?_, id⟩
      split <;> rfl
  case noBootLoad => exact fun h => congrArg Host.Outcome.next (bootLoad_idle h)
  case bootLoad =>
    intro hu hd hj a b
    exact ⟨_, rfl, bootLoad_report hu hd hj⟩
  case bootInstall =>
    refine fun o slotB r hj => ⟨fun ht => congrArg Host.Outcome.next (bootInstall_untrained ht), fun ht => ⟨?_, ?_⟩⟩
    · rintro b rfl
      obtain ⟨k, dealt, slot⟩ := bootInstall_installs hj ht
      exact ⟨_, rfl, is_installed k, dealt, slot⟩
    · rintro rfl
      obtain ⟨k, ready, told⟩ := bootInstall_fails hj ht
      exact ⟨_, rfl, k.dealt, k.job, k.noBoot, k.result, k.busy, k.plan, ready, told⟩
  case noBootInstall => exact fun h => congrArg Host.Outcome.next (bootInstall_idle h)

end
end Sys2Proof.Machine

namespace Sys2Proof.Machine

/-! ### 40 ns of Gatehouse time (03 R104; 04 R147; 07 R213, R217, R222) -/

namespace State
variable {s u v : State}

/-- `v` differs from `s` as 40 ns may leave it: at a tile the performance counters and the cached lines, at a ward anything but its
trace records that wait, and register fields. -/
structure Elapsed (s v : State) : Prop where
  frame : v = { s with tiles := v.tiles, lamp := v.lamp, fld := v.fld }
  tile : ∀ t, ∃ pmc ovf l1d, v.tile t = { s.tile t with pmc, ovf, l1d }
  traceQ : ∀ w, (v.lampw w).traceQ = (s.lampw w).traceQ

theorem FieldsOnly.elapsed (h : FieldsOnly s v) : Elapsed s v := by
  obtain ⟨_, rfl⟩ := h
  exact ⟨rfl, fun _ => ⟨_, _, _, rfl⟩, fun _ => rfl⟩

theorem elapsed_refl (s : State) : Elapsed s s := FieldsOnly.elapsed ⟨_, rfl⟩
theorem elapsed_bumpF (f : Fld) (k : Nat) : Elapsed s (s.bumpF f k) := (fieldsOnly_setF _ _).elapsed

theorem Elapsed.trans (h : Elapsed s u) (k : Elapsed u v) : Elapsed s v where
  frame := by rw [k.frame, h.frame]
  tile t := by
    obtain ⟨a, b, l, ht⟩ := h.tile t
    obtain ⟨a', b', l', kt⟩ := k.tile t
    exact ⟨a', b', l', by rw [kt, ht]⟩
  traceQ w := (k.traceQ w).trans (h.traceQ w)

theorem Elapsed.bumpF (h : Elapsed s u) (f : Fld) (k : Nat) : Elapsed s (u.bumpF f k) := h.trans (elapsed_bumpF f k)

theorem Elapsed.ite {p : Prop} [Decidable p] (h : Elapsed s u) (k : Elapsed s v) : Elapsed s (if p then u else v) := by
  split
  · exact h
  · exact k

theorem elapsed_foldl {α : Type} {g : State → α → State} (hg : ∀ u a, Elapsed u (g u a)) (l : List α) (s : State) : Elapsed s (l.foldl g s) :=
  List.foldlRecOn (motive := Elapsed s) l g (elapsed_refl s) fun u hu a _ => hu.trans (hg u a)

theorem elapsed_setTile {t : TileId} {y : Tile} (h : ∃ pmc ovf l1d, y = { s.tile t with pmc, ovf, l1d }) : Elapsed s (s.setTile t y) where
  frame := rfl
  tile r := by
    by_cases hr : r = t
    · subst hr
      rwa [tile_setTile]
    · exact ⟨_, _, _, tile_setTile_other s t r y hr⟩
  traceQ _ := rfl

theorem elapsed_setLampw {w : WardId} {y : LampWard} (h : y.traceQ = (s.lampw w).traceQ) : Elapsed s (s.setLampw w y) where
  frame := rfl
  tile _ := ⟨_, _, _, rfl⟩
  traceQ x := by
    by_cases hx : x = w
    · subst hx
      rwa [lampw_setLampw]
    · rw [lampw_setLampw_other s w x y hx]

/-- The time of a blocked tile is counted, and the copies whose invalidation arrives are dropped. -/
theorem elapsed_tileTime (s : State) (t : TileId) : Elapsed s (s.tileTime t) := by
  unfold tileTime
  extract_lets tl counted
  have only : ∃ a b, counted = { tl with pmc := a, ovf := b } := by
    unfold counted
    split
    · exact tl.countEv_cases 9 1
    · exact tl.countEv_cases 12 1
    · split
      · exact tl.countEv_cases 13 1
      · exact ⟨_, _, rfl⟩
    · exact ⟨_, _, rfl⟩
  obtain ⟨a, b, e⟩ := only
  exact elapsed_setTile ⟨a, b, _, by rw [e]⟩

theorem elapsed_wardTime (s : State) (w : WardId) : Elapsed s (s.wardTime w) := by
  unfold wardTime
  extract_lets lw busyT busyE lw2 st dl mine s1 s2 s3
  have k1 : Elapsed s s1 := elapsed_setLampw rfl
  have k2 : Elapsed s s2 := (k1.bumpF _ _).ite k1
  have k3 : Elapsed s s3 := (k2.bumpF _ _).ite k2
  exact ((k3.bumpF _ _).ite ((k3.bumpF _ _).ite k3)).ite k3

/-- Where no trace record waits, none is sent. -/
theorem tracePumpAll_idle (h : ∀ w, (s.lampw w).traceQ = []) : s.tracePumpAll = s :=
  List.foldl_fixed' (fun w => by rw [tracePump, h w]; rfl) _

theorem passTime_noVaux (h : s.power.vauxGood = false) : s.passTime = s := by simp [passTime, h]

theorem passTime_coreDown (h : s.power.vauxGood = true) (hc : s.power.coreUp = false) :
    s.passTime = { s with supTime := (s.supTime + 1) % 2 ^ 64 } := by simp [passTime, h, hc]

theorem passTime_coreUp (h : s.power.vauxGood = true) (hc : s.power.coreUp = true) (ht : ∀ w, (s.lampw w).traceQ = []) :
    Elapsed { s with supTime := (s.supTime + 1) % 2 ^ 64 } s.passTime := by
  unfold passTime
  rw [if_neg (by simp [h])]
  extract_lets s0 s1 s2 s3 s4
  have k2 : Elapsed s0 s2 := (elapsed_foldl (fun u c => elapsed_tileTime u _) _ _).trans (elapsed_foldl elapsed_wardTime _ _)
  have k3 : Elapsed s0 s3 := (k2.bumpF _ _).ite k2
  have k4 : Elapsed s0 s4 := (k3.bumpF _ _).ite k3
  rw [if_neg (by simp [s0, hc]), tracePumpAll_idle fun w => (k4.traceQ w).trans (ht w)]
  exact k4

end State

theorem step_emptyQueue {s : State} (h : s.pending = []) : step s = .next s.passTime := by simp [step, h]

/-- Settles O59: the ward and tile clocks, run one after the other, move counters, cached copies and fields only. -/
theorem emptyQueuePassesTime : Obligations.EmptyQueuePassesTime := by
  unfold Obligations.EmptyQueuePassesTime
  intro s hp
  rw [step_emptyQueue hp]
  refine ⟨fun hv => congrArg Host.Outcome.next (State.passTime_noVaux hv),
    fun hv hc => congrArg Host.Outcome.next (State.passTime_coreDown hv hc), fun hv hc ht => ⟨s.passTime, rfl, ?_⟩⟩
  have elapsed := State.passTime_coreUp hv hc ht
  have time : s.passTime.supTime = (s.supTime + 1) % 2 ^ 64 := congrArg State.supTime elapsed.frame
  refine ⟨time, ?_, fun t => ?_⟩
  · rw [time]
    exact elapsed.frame
  · obtain ⟨_, _, _, same⟩ := elapsed.tile t
    rw [same]
    exact ⟨rfl, rfl, rfl, rfl⟩

end Sys2Proof.Machine

namespace Sys2Proof.Machine

/-! ### Tile instructions that begin and retire (04 R116; 05 R150) -/

/-- The performance counters are no part of what a retirement is said of. -/
theorem retiredAs_of_counted {y x : Tile} {pc : W64} {a : Vector (BitVec 48) 4} {b : BitVec 4} (h : retiredAs { y with pmc := a, ovf := b } x pc) :
    retiredAs y x pc := h

theorem retiredAs_pc {y x : Tile} {pc : W64} (h : retiredAs y x pc) : x.pc = pc := by rw [h]
theorem retiredAs_g {y x : Tile} {pc : W64} (h : retiredAs y x pc) : x.g = y.g := by rw [h]

namespace State
variable {s u w : State} {c : Instr} {t : TileId} {y : Tile}

/-- The body of an instruction that begins, is not ILLEGAL and has its level. -/
theorem exec_body {bad priv : Bool} {body : State → State} (hc : exec c s = .next (s.tileOp c t bad priv body)) (hb : s.begins c t u)
    (hbad : bad = false) (hp : priv = false ∨ (u.tile t).k = true) : exec c s = .next (body u) := by
  have level : (priv && !(u.tile t).k) = false := by rcases hp with h | h <;> simp [h]
  rw [hc, tileOp_begins hb, hbad, level]
  rfl

/-- A command that changes its tile to `y`, but for the performance counters, and then retires it. -/
theorem retires_of_retireAs {alone : Bool} {pc : W64} {a : Vector (BitVec 48) 4} {b : BitVec 4} (he : exec c s = .next (w.retireAs t alone pc))
    (hw : onlyTile u w t) (hy : w.tile t = { y with pmc := a, ovf := b }) : retires c s u t y pc := by
  obtain ⟨only, retired⟩ := retireAs_cases w t alone pc
  rw [hy] at retired
  exact ⟨_, he, onlyTile_trans hw only, retiredAs_of_counted retired⟩

/-- The same of a change of the tile alone. -/
theorem retires_of_updTile {alone : Bool} {pc : W64} {g : Tile → Tile} (he : exec c s = .next ((u.updTile t g).retireAs t alone pc))
    (hy : g (u.tile t) = y) : retires c s u t y pc :=
  retires_of_retireAs he (onlyTile_updTile u t g) (by rw [tile_updTile, hy])

/-- The same of a change of the tile that an event of the performance counters follows. -/
theorem retires_of_countTile {alone : Bool} {pc : W64} {ev k : Nat} (he : exec c s = .next ((w.countTile t ev k).retireAs t alone pc))
    (hw : onlyTile u w t) (hy : w.tile t = y) : retires c s u t y pc := by
  obtain ⟨only, a, b, tile⟩ := countTile_cases w t ev k
  exact retires_of_retireAs he (onlyTile_trans hw only) (by rw [tile, hy])

/-- A command that leaves its tile in a wait, or changes it in another way, and does not retire. -/
theorem changes_of_updTile {g : Tile → Tile} (he : exec c s = .next (u.updTile t g)) (hy : g (u.tile t) = y) :
    ∃ v, exec c s = .next v ∧ onlyTile u v t ∧ v.tile t = y :=
  ⟨_, he, onlyTile_updTile u t g, by rw [tile_updTile, hy]⟩

/-- The PC of a tile that has changed in other fields. -/
theorem pc_updTile {g : Tile → Tile} (h : ∀ x, (g x).pc = x.pc) : ((u.updTile t g).tile t).pc = (u.tile t).pc := by
  rw [tile_updTile, h]

theorem pc_countTile (w : State) (t : TileId) (ev k : Nat) : ((w.countTile t ev k).tile t).pc = (w.tile t).pc := by
  obtain ⟨-, a, b, tile⟩ := countTile_cases w t ev k
  rw [tile]

/-- An access that no watchpoint meets (19 R512). -/
theorem watch_unmet {load store : Bool} {a : W64} {n : Nat} (h : w.wpHits t load store a.toNat n = []) : w.watch t load store a n = w := by
  unfold watch
  rw [h]

end State

end Sys2Proof.Machine

namespace Sys2Proof.Machine

/-! ### Control registers (04 R124, R125; 05 R168) -/

/-- A write of a control register after the instruction's own counts, of a register that these counts do not move. -/
theorem retires_of_writeCr {s u : State} {c : Instr} {t : TileId} {y : Tile} {pc : W64} {alone : Bool} {n : Nat} {v : W64}
    (he : exec c s = .next ((u.retireAs t alone pc).updTile t (fun x => State.writeCr x n v)))
    (hw : ∀ x, retiredAs (u.tile t) x pc → retiredAs y (State.writeCr x n v) pc) : retires c s u t y pc := by
  obtain ⟨only, retired⟩ := State.retireAs_cases u t alone pc
  refine ⟨_, he, onlyTile_trans only (onlyTile_updTile ..), ?_⟩
  rw [State.tile_updTile]
  exact hw _ retired

theorem ofNat_div_eq_extractLsb' (v : W64) (i w : Nat) : BitVec.ofNat w (v.toNat / 2 ^ i) = v.extractLsb' i w := by
  refine BitVec.eq_of_toNat_eq ?_
  rw [BitVec.toNat_ofNat, BitVec.extractLsb'_toNat, Nat.shiftRight_eq_div_pow]

namespace State
variable {s u : State} {t : TileId} {f : SysForm}

theorem exec_mfcr (hk : (u.tile t).k = true) (ha : f.ra = 0) (hl : crListed f.imm.toNat = true) (hb : s.begins (.mfcr t f) t u) :
    exec (.mfcr t f) s = .next ((u.updTile t (fun y => y.wg f.rd (u.readCr t f.imm.toNat))).retireAs t true ((u.tile t).pc + 4)) := by
  have body := exec_body (s := s) (c := .mfcr t f) rfl hb (by simp [ha, hl]) (.inr hk)
  rwa [retireAlone, pc_updTile (fun x => Tile.wg_pc x f.rd _)] at body

theorem exec_mtcr (hk : (u.tile t).k = true) (hd : f.rd = 0) (hl : crListed f.imm.toNat = true) (hb : s.begins (.mtcr t f) t u) :
    exec (.mtcr t f) s = .next ((u.retireAs t true ((u.tile t).pc + 4)).updTile t (fun y => writeCr y f.imm.toNat ((u.tile t).rg f.ra))) :=
  exec_body (s := s) (c := .mtcr t f) rfl hb (by simp [hd, hl]) (.inr hk)

/-- MFCR reads a listed register at level K. -/
theorem mfcr_computes (hk : (u.tile t).k = true) (ha : f.ra = 0) (hb : s.begins (.mfcr t f) t u) {n : Nat} {v : W64} (hl : crListed n = true)
    (hv : u.readCr t n = v) (hn : f.imm.toNat = n) : computes (.mfcr t f) s u t f.rd v := by
  subst hn
  exact retires_of_updTile (exec_mfcr hk ha hl hb) (by rw [hv])

/-- MTCR writes a listed register at level K, after its own counts. -/
theorem mtcr_retires (hk : (u.tile t).k = true) (hd : f.rd = 0) (hb : s.begins (.mtcr t f) t u) {n : Nat} {z : Tile} (hl : crListed n = true)
    (hz : ∀ x, retiredAs (u.tile t) x ((u.tile t).pc + 4) → retiredAs z (writeCr x n ((u.tile t).rg f.ra)) ((u.tile t).pc + 4))
    (hn : f.imm.toNat = n) : retires (.mtcr t f) s u t z ((u.tile t).pc + 4) := by
  subst hn
  exact retires_of_writeCr (exec_mtcr hk hd hl hb) hz

end State

section
open State

/-- Settles O8: each register is read as `readCr` lists it, and written as `writeCr` does, which moves no field that retirement
moves. -/
theorem controlRegistersReadAndWrite : Obligations.ControlRegistersReadAndWrite := by
  unfold Obligations.ControlRegistersReadAndWrite
  intro s u t f hk
  refine ⟨fun ha hb => ?_, fun hd hb => ?_⟩
  · intro r
    have reads : ∀ n v, crListed n = true → u.readCr t n = v → r n v := fun n v hl hv => mfcr_computes hk ha hb hl hv
    exact ⟨reads 0 _ rfl rfl, reads 1 _ rfl rfl, reads 2 _ rfl rfl, reads 3 _ rfl rfl, reads 4 _ rfl rfl, reads 5 _ rfl rfl, reads 6 _ rfl rfl,
      reads 8 _ rfl rfl, reads 9 _ rfl rfl, reads 0x11 _ rfl rfl, reads 0x12 _ rfl rfl, reads 0x0B _ rfl rfl, reads 0x14 _ rfl rfl⟩
  · intro v w
    have writes : ∀ n z, crListed n = true → (∀ x, retiredAs (u.tile t) x ((u.tile t).pc + 4) → retiredAs z (writeCr x n v) ((u.tile t).pc + 4)) → w n z :=
      fun n z hl hz => mtcr_retires hk hd hb hl hz
    have mask : BitVec.ofNat 3 (v.toNat / 256) = v.extractLsb' 8 3 := ofNat_div_eq_extractLsb' v 8 3
    have mode : BitVec.ofNat 2 v.toNat = v.extractLsb' 0 2 := by simpa using ofNat_div_eq_extractLsb' v 0 2
    have flags : BitVec.ofNat 5 (v.toNat / 16) = v.extractLsb' 4 5 := ofNat_div_eq_extractLsb' v 4 5
    refine ⟨writes 0 _ rfl fun x hx => ?_, writes 1 _ rfl fun x hx => ?_, writes 2 _ rfl fun x hx => hx, writes 3 _ rfl fun x hx => ?_,
      writes 4 _ rfl fun x hx => ?_, writes 5 _ rfl fun x hx => ?_, writes 6 _ rfl fun x hx => hx, writes 8 _ rfl fun x hx => ?_,
      writes 9 _ rfl fun x hx => hx, writes 0x0B _ rfl fun x hx => ?_⟩
    · rw [← mask, hx]
      rfl
    · rw [hx]
      rfl
    · rw [hx]
      rfl
    · rw [hx]
      rfl
    · rw [hx]
      rfl
    · rw [hx]
      rfl
    · rw [← mode, ← flags, hx]
      rfl

end
end Sys2Proof.Machine

namespace Sys2Proof.Machine

/-! ### Loads (04 R120, R121; 05 R155, R156) -/

/-! #### Bytes of lines and of local store -/

theorem ofLe_lt (l : List Byte) : ofLe l < 256 ^ l.length := by
  induction l with
  | nil => exact Nat.one_pos
  | cons b l ih =>
    have := b.isLt
    rw [ofLe, List.length_cons, Nat.pow_succ]
    omega

theorem Tile.lsRead_lt (y : Tile) (n : Nat) : ∀ o, y.lsRead o n < 256 ^ n := by
  induction n with
  | zero => exact fun _ => Nat.one_pos
  | succ n ih =>
    intro o
    have := (y.ls.get 0 o).isLt
    have := ih (o + 1)
    rw [Tile.lsRead, Nat.pow_succ]
    omega

theorem two_pow_mul_eight (n : Nat) : 2 ^ (8 * n) = 256 ^ n := by rw [Nat.pow_mul]

theorem lineBytes_lt (d : Line512) (o n : Nat) : lineBytes d o n < 256 ^ n := by
  rw [← two_pow_mul_eight]
  exact Nat.mod_lt _ (Nat.two_pow_pos _)

theorem mul_two_pow_lt {v a b c : Nat} (hv : v < 2 ^ a) (h : a + b ≤ c) : v * 2 ^ b < 2 ^ c := by
  refine (Nat.mul_lt_mul_of_pos_right hv (Nat.two_pow_pos b)).trans_le ?_
  rw [← Nat.pow_add]
  exact Nat.pow_le_pow_right (by decide) h

/-- Bytes put in a line are read back from it. -/
theorem lineBytes_placeBytes {o n v : Nat} (h : o + n ≤ 64) (hv : v < 256 ^ n) : lineBytes (placeBytes o n v) o n = v := by
  rw [← two_pow_mul_eight] at hv
  have fits : v * 2 ^ (8 * o) < 2 ^ 512 := mul_two_pow_lt hv (by omega)
  rw [lineBytes, placeBytes, Nat.mod_eq_of_lt hv, BitVec.toNat_ofNat, Nat.mod_eq_of_lt fits, Nat.shiftRight_eq_div_pow,
    Nat.mul_div_cancel _ (Nat.two_pow_pos _), Nat.mod_eq_of_lt hv]

theorem getLsbD_rangeMask (o n i : Nat) : (rangeMask o n).getLsbD i = (decide (i < 64) && decide (o ≤ i) && decide (i < o + n)) := by
  rw [rangeMask, ← Nat.shiftLeft_eq, BitVec.getLsbD_ofNat, Nat.testBit_shiftLeft, Nat.testBit_two_pow_sub_one, Bool.and_assoc]
  grind

theorem rangeMask_ne_zero {o n : Nat} (ho : o < 64) (hn : 0 < n) : rangeMask o n ≠ 0 := fun h => by
  have bit := getLsbD_rangeMask o n o
  rw [h] at bit
  simp [ho, hn] at bit

theorem opSize_cases (op : Nat) : opSize op = 1 ∨ opSize op = 2 ∨ opSize op = 4 ∨ opSize op = 8 := by
  unfold opSize
  split_ifs <;> decide

theorem opSize_pos (op : Nat) : 0 < opSize op := by
  have := opSize_cases op
  omega

/-! #### The load instructions -/

/-- Command `c` is the load of major opcode `op` into register `rd` of tile `y`. -/
structure Loads (c : Instr) (t : TileId) (y : Tile) (ra rd : BitVec 5) (imm : W64) (n op : Nat) (into : Nat → Tile) : Prop where
  word : tileWord c = some (t, false)
  size : n = opSize op
  accesses : State.Accesses c t ra imm n .read (if op = 0x16 then .reaches else .narrow) (fun u a => u.doLoad t op rd a)
  value : ∀ v < 256 ^ n, into v = y.loadInto op rd v
  whole : n = 8 → op = 0x16

theorem Loads.of_loadOp {c : Instr} {t : TileId} {f : IForm} (op : Nat) {y : Tile} {into : Nat → Tile} (hw : tileWord c = some (t, false))
    (hc : ∀ s, exec c s = .next (s.loadOp c t f op)) (hv : ∀ v < 256 ^ opSize op, into v = y.loadInto op f.rd v) (h8 : opSize op = 8 → op = 0x16) :
    Loads c t y f.ra f.rd (f.imm.signExtend 64) (opSize op) op into :=
  ⟨hw, rfl, State.loadOp_accesses hw hc, hv, h8⟩

theorem setWidth_ofNat_of_lt {w v : Nat} (h : v < 2 ^ w) : (BitVec.ofNat w v).setWidth 64 = BitVec.ofNat 64 v := by
  refine BitVec.eq_of_toNat_eq ?_
  rw [BitVec.toNat_setWidth, BitVec.toNat_ofNat, BitVec.toNat_ofNat, Nat.mod_eq_of_lt h]

/-- FLH puts its two bytes above two of zeros (05 R155). -/
theorem ofNat_append_zero (v : Nat) : (BitVec.ofNat 16 v ++ (0 : BitVec 16) : W32) = BitVec.ofNat 32 (v * 65536) := by
  refine BitVec.eq_of_toNat_eq ?_
  have low : (v % 2 ^ 16) <<< 16 ||| 0 = v * 65536 % 2 ^ 32 := by
    rw [Nat.or_zero, Nat.shiftLeft_eq]
    omega
  rwa [BitVec.toNat_append, BitVec.toNat_ofNat, BitVec.toNat_ofNat]

/-- The loads, each by its opcode (05 R155). -/
theorem loads_of_dataAccess {c : Instr} {t : TileId} {y : Tile} {ra : BitVec 5} {imm : W64} {n : Nat} {into : Nat → Tile}
    (h : dataAccess c = some (t, ra, imm, n)) (hl : loadsInto c y = some into) : ∃ rd op, Loads c t y ra rd imm n op into := by
  unfold loadsInto at hl
  split at hl
  case h_1 f =>
    cases h
    cases hl
    exact ⟨_, _, .of_loadOp 0x10 rfl (fun _ => rfl) (fun v _ => rfl) nofun⟩
  case h_2 f =>
    cases h
    cases hl
    exact ⟨_, _, .of_loadOp 0x11 rfl (fun _ => rfl) (fun v hv => congrArg (y.wg f.rd) (setWidth_ofNat_of_lt (w := 8) hv)) nofun⟩
  case h_3 f =>
    cases h
    cases hl
    exact ⟨_, _, .of_loadOp 0x12 rfl (fun _ => rfl) (fun v _ => rfl) nofun⟩
  case h_4 f =>
    cases h
    cases hl
    exact ⟨_, _, .of_loadOp 0x13 rfl (fun _ => rfl) (fun v hv => congrArg (y.wg f.rd) (setWidth_ofNat_of_lt (w := 16) hv)) nofun⟩
  case h_5 f =>
    cases h
    cases hl
    exact ⟨_, _, .of_loadOp 0x14 rfl (fun _ => rfl) (fun v _ => rfl) nofun⟩
  case h_6 f =>
    cases h
    cases hl
    exact ⟨_, _, .of_loadOp 0x15 rfl (fun _ => rfl) (fun v hv => congrArg (y.wg f.rd) (setWidth_ofNat_of_lt (w := 32) hv)) nofun⟩
  case h_7 f =>
    cases h
    cases hl
    exact ⟨_, _, .of_loadOp 0x16 rfl (fun _ => rfl) (fun v _ => rfl) (fun _ => rfl)⟩
  case h_8 f =>
    cases h
    cases hl
    exact ⟨_, _, .of_loadOp 0x17 rfl (fun _ => rfl) (fun v _ => rfl) nofun⟩
  case h_9 f =>
    cases h
    cases hl
    exact ⟨_, _, .of_loadOp 0x18 rfl (fun _ => rfl) (fun v _ => congrArg (y.wf f.rd) (ofNat_append_zero v)) nofun⟩
  case h_10 => cases hl

theorem Tile.loadInto_pc (y : Tile) (op : Nat) (rd : BitVec 5) (v : Nat) : (y.loadInto op rd v).pc = y.pc := by
  unfold Tile.loadInto
  split_ifs
  · rfl
  · rfl
  · exact Tile.wg_pc ..

namespace State
variable {s u : State} {c : Instr} {t : TileId} {ra rd : BitVec 5} {imm a : W64} {n op o : Nat} {into : Nat → Tile}

/-! #### What a load finds (04 R120, R121; 10 R277) -/

theorem doLoad_local (ha : areaOf a.toNat = .ls o) (hm : (u.tile t).marked o (opSize op) = false) (hs : (u.tile t).lsSound o (opSize op) = true) :
    u.doLoad t op rd a = u.finishLoad t op rd a ((u.tile t).lsRead o (opSize op)) false := by
  simp [doLoad, ha, lsCorrect_of_sound hs, hm, lsError_of_sound hs]

theorem doLoad_page {p : Nat} (ha : areaOf a.toNat = .page p) : u.doLoad t op rd a = u.finishLoad t op rd a (u.readCr t p).toNat false := by
  rw [doLoad, ha]

/-- Scratch that holds no error reads as it stands (11 R310). -/
theorem scratchRead_sound {q : QuarterId} {w : Option WardId} {p : Nat} (htag : (u.quarter q).scratchTagBad.get false (p / 64) = false)
    (herr : ∀ i < n, (u.quarter q).scratchErrs.get 0 (p + i) = 0) :
    u.scratchRead q w p n = (ofLe ((List.range n).map (fun i => (u.quarter q).scratch.get 0 (p + i))), (u.quarter q).scratchPoison.get false (p / 8), u) := by
  have tag : u.scratchTag q w (p / 64) = u := by
    rw [scratchTag, htag]
    rfl
  unfold scratchRead
  extract_lets s1 s2
  have s1u : s1 = u := tag
  have s2u : s2 = u := by
    unfold s2
    rw [s1u]
    refine foldl_of_fixed fun i hi => ?_
    exact if_pos (herr i (List.mem_range.mp hi))
  rw [s2u]

/-- Without an entry in the store buffer, all bytes are read elsewhere. -/
theorem and_not_sbMask_none (m : Mask64) : m &&& ~~~ sbMask none = m := BitVec.and_allOnes

theorem doLoad_scratch {w : WardId} {p : Nat} (ha : areaOf a.toNat = .scratch o) (hw : u.tileWard t = some w)
    (hp : u.scratchPlace w (tileQuarter t) o = p) (hfit : p % 64 + opSize op ≤ 64) (hsb : u.sbFor t true ⟨false, p / 64⟩ = none)
    (htag : (u.quarter (tileQuarter t)).scratchTagBad.get false (p / 64) = false)
    (herr : ∀ i < opSize op, (u.quarter (tileQuarter t)).scratchErrs.get 0 (p + i) = 0)
    (hpo : (u.quarter (tileQuarter t)).scratchPoison.get false (p / 8) = false) :
    u.doLoad t op rd a = u.finishLoad t op rd a (ofLe ((List.range (opSize op)).map (fun i => (u.quarter (tileQuarter t)).scratch.get 0 (p + i)))) false := by
  have need : ¬ rangeMask (p % 64) (opSize op) &&& ~~~ sbMask none = 0 := by
    rw [and_not_sbMask_none]
    exact rangeMask_ne_zero (Nat.mod_lt p (by decide)) (opSize_pos op)
  have value : ofLe ((List.range (opSize op)).map (fun i => (u.quarter (tileQuarter t)).scratch.get 0 (p + i))) < 256 ^ opSize op := by
    simpa using ofLe_lt ((List.range (opSize op)).map (fun i => (u.quarter (tileQuarter t)).scratch.get 0 (p + i)))
  simp only [doLoad, ha, hw, Option.getD_some, hp, hsb, if_neg need, scratchRead_sound htag herr, hpo, sbOver, sbBad, Option.any_none, Bool.or_false,
    lineBytes_placeBytes hfit value]

/-- Where the access of ward memory goes that its window translates (01 R27). -/
theorem dataXlat_eq {w : WardId} {x : Xlat} {k : AccKind} (hw : u.tileWard t = some w) (hx : u.translate w a.toNat n k = .inr x) :
    u.dataXlat t a n k = (w, x) := by
  simp [dataXlat, hw, hx]

/-- A fresh copy of the line in L1D serves the load (10 R277). -/
theorem wardRead_l1d {w : WardId} {x : Xlat} {z : L1Line} (hn : 0 < n) (hsb : u.sbFor t false x.line = none)
    (hz : (u.tile t).l1d.find? (fun z => decide (z.line = x.line) && (rangeMask (x.addr % 64) n &&& z.valid == rangeMask (x.addr % 64) n)) = some z)
    (hst : z.stale = false) (hpo : z.v.poison = false) : u.wardRead t w x n = (some (lineBytes z.v.data (x.addr % 64) n, false), u) := by
  have read : u.l1dRead t x.line (rangeMask (x.addr % 64) n) = (some z.v, u) := by
    rw [l1dRead, hz]
    simp [hst]
  unfold wardRead
  simp only [show (⟨x.host, x.addr / 64⟩ : LineAddr) = x.line from rfl, hsb, and_not_sbMask_none, if_neg (rangeMask_ne_zero (Nat.mod_lt x.addr (by decide : 0 < 64)) hn), read,
    sbOver, sbBad, Option.any_none, Bool.or_false, hpo]

theorem doLoad_ward {w : WardId} {x : Xlat} {v : Nat} (ha : areaOf a.toNat = .ward) (hw : u.tileWard t = some w)
    (hx : u.translate w a.toNat (opSize op) .read = .inr x) (hr : u.wardRead t w x (opSize op) = (some (v, false), u)) :
    u.doLoad t op rd a = u.finishLoad t op rd a v false := by
  simp only [doLoad, ha, dataXlat_eq hw hx, hr]

/-! #### The checks that a load passes -/

theorem areaOf_scratch (ha : a.toNat = qsBase + o) (ho : o < 3145728) : areaOf a.toNat = .scratch o := by
  have above : lsBase + lsSize ≤ qsBase ∧ cpBase + 2048 ≤ qsBase := by decide
  rw [areaOf, if_neg (by omega), if_neg (by omega), if_neg (by omega), if_pos (by omega), ha, Nat.add_sub_cancel_left]

theorem dataFault_page {p : Nat} {k : AccKind} (hk : (u.tile t).k = true) (ha : a.toNat % 8 = 0) (hp : areaOf a.toNat = .page p)
    (hl : crListed p = true) : u.dataFault t a 8 k .reaches = none := by
  simp [dataFault, hk, ha, hp, hl]

theorem dataFault_scratch {w : WardId} {k : AccKind} {page : PageUse} (ha : a.toNat % n = 0) (hp : areaOf a.toNat = .scratch o)
    (hw : u.tileWard t = some w) (ho : o + n ≤ u.scratchSize w (tileQuarter t)) : u.dataFault t a n k page = none := by
  simp [dataFault, ha, hp, hw, ho]

theorem dataFault_ward {w : WardId} {x : Xlat} {k : AccKind} {page : PageUse} (ha : a.toNat % n = 0) (hp : areaOf a.toNat = .ward)
    (hw : u.tileWard t = some w) (hx : u.translate w a.toNat n k = .inr x) : u.dataFault t a n k page = none := by
  simp [dataFault, ha, hp, hw, hx]

/-! #### A load that reads -/

theorem finishLoad_unmet {v : Nat} (hwp : u.wpHits t true false a.toNat (opSize op) = []) :
    u.finishLoad t op rd a v false = (u.updTile t (fun y => y.loadInto op rd v)).retireNext t := by
  rw [finishLoad, if_neg Bool.false_ne_true, watch_unmet hwp]

/-- A load that passes its checks, meets no watchpoint and finds the value `v`. -/
theorem retires_of_loads (h : Loads c t (u.tile t) ra rd imm n op into) (hb : s.begins c t u)
    (hwp : u.wpHits t true false ((u.tile t).rg ra + imm).toNat n = [])
    (hf : u.dataFault t ((u.tile t).rg ra + imm) n .read (if op = 0x16 then .reaches else .narrow) = none) {v : Nat} (hv : v < 256 ^ n)
    (hd : u.doLoad t op rd ((u.tile t).rg ra + imm) = u.finishLoad t op rd ((u.tile t).rg ra + imm) v false) :
    retires c s u t (into v) ((u.tile t).pc + 4) := by
  have run : exec c s = .next ((u.updTile t (fun y => y.loadInto op rd v)).retireAs t false ((u.tile t).pc + 4)) := by
    rw [h.accesses.exec_go h.word hb hf, hd, finishLoad_unmet (h.size ▸ hwp), retireNext, retire, pc_updTile (fun x => Tile.loadInto_pc x op rd v)]
  exact retires_of_updTile run (h.value v hv).symm

/-- PTEST of an aligned, sound word of local store, which no watchpoint meets. -/
theorem ptest_computes {f : IForm} (hb : s.begins (.ptest t f) t u) (h8 : ((u.tile t).rg f.ra + f.imm.signExtend 64).toNat % 8 = 0)
    (ha : areaOf ((u.tile t).rg f.ra + f.imm.signExtend 64).toNat = .ls o)
    (hwp : u.wpHits t true false ((u.tile t).rg f.ra + f.imm.signExtend 64).toNat 8 = []) (hs : (u.tile t).lsSound o 8 = true) :
    computes (.ptest t f) s u t f.rd (if (u.tile t).marked o 8 then 1 else 0) := by
  have test : u.doPtest t f.rd ((u.tile t).rg f.ra + f.imm.signExtend 64) = (u.updTile t (fun y => y.wg f.rd (boolWord ((u.tile t).marked o 8)))).retireNext t := by
    simp only [doPtest, ha, lsCorrect_of_sound hs, lsError_of_sound hs, Bool.false_eq_true, if_false, finishPtest, watch_unmet hwp]
  have run := (ptest_accesses t f).exec_go rfl hb (dataFault_local h8 ha)
  rw [test, retireNext, retire, pc_updTile (fun x => Tile.wg_pc x f.rd _)] at run
  exact retires_of_updTile run rfl

end State

section
open State

/-- Settles O10: a load passes its checks, finds its value in the area that its address names, and binds it. -/
theorem loadsReadTheirBytes : Obligations.LoadsReadTheirBytes := by
  unfold Obligations.LoadsReadTheirBytes
  refine ⟨fun s u t f hb => ?_, fun c s u t ra imm n into hd hl hb => ?_⟩
  · intro y a h8 h1 h2 hwp hs
    exact ptest_computes hb h8 (areaOf_ls h1 h2) hwp hs
  · obtain ⟨rd, op, loads⟩ := loads_of_dataAccess hd hl
    have size : n = opSize op := loads.size
    have sizes := size ▸ opSize_cases op
    intro y a hwp reads
    refine ⟨?_, ?_, ?_, ?_⟩
    · rintro ⟨ha, h1, h2, hm, hs⟩
      exact retires_of_loads loads hb hwp (dataFault_local ha (areaOf_ls h1 h2)) (Tile.lsRead_lt _ _ _)
        (size ▸ doLoad_local (areaOf_ls h1 h2) (size ▸ hm) (size ▸ hs))
    · intro cr hcr ha hk h8 _
      have low : cr ≤ 0x17 := by
        simp [crListed] at hcr
        omega
      have place : areaOf a.toNat = .page cr := by
        rw [areaOf_page (by omega) (by omega), ha, Nat.add_sub_cancel_left, Nat.mul_div_cancel_left _ (by decide)]
      have aligned : a.toNat % 8 = 0 := by
        rw [ha]
        unfold cpBase
        omega
      have free : u.dataFault t a n .read (if op = 0x16 then .reaches else .narrow) = none := by
        rw [h8, if_pos (loads.whole h8)]
        exact dataFault_page hk aligned place hcr
      exact retires_of_loads loads hb hwp free (by rw [h8]; exact (u.readCr t cr).isLt) (doLoad_page place)
    · intro w o p hw ha ho hfit hlt hp hsb htag herr hpo
      have aligned : a.toNat % n = 0 := by
        rw [ha]
        unfold qsBase
        rcases sizes with rfl | rfl | rfl | rfl <;> omega
      have line : p % 64 + n ≤ 64 := by
        have place : p = (u.scratchList w (tileQuarter t)).getD (o / 262144) 0 * 262144 + o % 262144 := hp.symm
        rcases sizes with rfl | rfl | rfl | rfl <;> omega
      have value : ofLe ((List.range n).map (fun i => (u.quarter (tileQuarter t)).scratch.get 0 (p + i))) < 256 ^ n := by
        simpa using ofLe_lt ((List.range n).map (fun i => (u.quarter (tileQuarter t)).scratch.get 0 (p + i)))
      exact retires_of_loads loads hb hwp (dataFault_scratch aligned (areaOf_scratch ha hlt) hw hfit) value
        (size ▸ doLoad_scratch (areaOf_scratch ha hlt) hw hp (size ▸ line) hsb htag (size ▸ herr) hpo)
    · rintro w x z ⟨ha, hlt, hw, hx⟩ hsb hz hst hpo -
      exact retires_of_loads loads hb hwp (dataFault_ward ha (areaOf_ward hlt) hw hx) (lineBytes_lt _ _ _)
        (size ▸ doLoad_ward (areaOf_ward hlt) hw (size ▸ hx) (wardRead_l1d (opSize_pos op) hsb (size ▸ hz) hst hpo))

end
end Sys2Proof.Machine

namespace Sys2Proof.Machine

/-! ### Stores (04 R122; 05 R155; 10 R272) -/

/-! #### A store into local store -/

theorem getD_leBytes {n i : Nat} (h : i < n) (v : Nat) : (leBytes n v).getD i 0 = BitVec.ofNat 8 (v >>> (8 * i)) := by
  induction n generalizing i v with
  | zero => omega
  | succ n ih =>
    cases i with
    | zero => rfl
    | succ i =>
      rw [leBytes, List.getD_cons_succ, ih (by omega), Nat.mul_succ, Nat.add_comm (8 * i) 8, Nat.shiftRight_add, Nat.shiftRight_eq_div_pow v 8]

section
variable (y : Tile) (o n v : Nat)

theorem Tile.lsStore_eq : y.lsStore o n v =
    { y with ls := (y.lsStore o n v).ls, lsPoison := (y.lsStore o n v).lsPoison, lsBad := (y.lsStore o n v).lsBad,
             lsFix := (y.lsStore o n v).lsFix } := by
  unfold Tile.lsStore
  dsimp only
  split_ifs
  · rw [Tile.markWords_eq, Tile.lsWriteBytes_eq]
  · rw [Tile.lsWriteBytes_eq]

theorem Tile.lsStore_ls (j : Nat) :
    (y.lsStore o n v).ls.get 0 j = if o ≤ j ∧ j < o + n then BitVec.ofNat 8 (v >>> (8 * (j - o))) else y.ls.get 0 j := by
  have written : (y.lsStore o n v).ls = (y.lsWriteBytes o (leBytes n v)).ls := by
    unfold Tile.lsStore
    dsimp only
    split_ifs
    · rw [Tile.markWords_ls]
    · rfl
  rw [written, Tile.lsWriteBytes_get, leBytes_length]
  split_ifs with h
  · exact getD_leBytes (by omega) v
  · rfl

/-- A whole word loses its mark (04 R122). -/
theorem Tile.lsStore_lsPoison (j : Nat) :
    (y.lsStore o n v).lsPoison.get false j = (y.lsPoison.get false j && !(n == 8 && j == o / 8)) := by
  have bytes : (y.lsWriteBytes o (leBytes n v)).lsPoison = y.lsPoison := by rw [Tile.lsWriteBytes_eq]
  unfold Tile.lsStore
  dsimp only
  split_ifs with h
  · unfold Tile.markWords Tile.markWords
    by_cases hj : j = o / 8
    · subst hj
      simp [h]
    · rw [Tbl.get_put_other _ _ _ _ _ _ hj, bytes]
      simp [hj]
  · rw [bytes]
    simp [h]

theorem Tile.lsStore_pc : (y.lsStore o n v).pc = y.pc := by rw [Tile.lsStore_eq]

/-- Only the low `n` bytes are stored. -/
theorem leBytes_mod (n v : Nat) : leBytes n (v % 256 ^ n) = leBytes n v := by
  induction n generalizing v with
  | zero => rfl
  | succ n ih =>
    have low : BitVec.ofNat 8 (v % (256 ^ n * 256)) = BitVec.ofNat 8 v := by
      refine BitVec.eq_of_toNat_eq ?_
      rw [BitVec.toNat_ofNat, BitVec.toNat_ofNat]
      exact Nat.mod_mod_of_dvd _ (Nat.dvd_mul_left 256 _)
    have high : v % (256 ^ n * 256) / 256 = v / 256 % 256 ^ n := by
      rw [Nat.mul_comm, Nat.mod_mul, Nat.add_mul_div_left _ _ (by decide), Nat.div_eq_of_lt (Nat.mod_lt _ (by decide)), Nat.zero_add]
    rw [Nat.pow_succ, leBytes, leBytes, low, high, ih]

theorem Tile.lsStore_mod : y.lsStore o n (v % 256 ^ n) = y.lsStore o n v := by
  rw [Tile.lsStore, Tile.lsStore, leBytes_mod]

end

namespace State
variable {s u w : State} {c : Instr} {t : TileId} {ra : BitVec 5} {imm a : W64} {n op o v : Nat} {y : Tile}

/-- A command that stores in its tile's local store, and then retires; `z` is the tile with the same local store from which it
stores. -/
theorem storesLocal_of_retireAs {alone : Bool} {z : Tile} (he : exec c s = .next (w.retireAs t alone (y.pc + 4))) (hw : onlyTile u w t)
    (hy : w.tile t = { y with ls := (z.lsStore o n v).ls, lsPoison := (z.lsStore o n v).lsPoison, lsBad := (z.lsStore o n v).lsBad,
                              lsFix := (z.lsStore o n v).lsFix }) (hls : z.ls = y.ls) (hlp : z.lsPoison = y.lsPoison) :
    storesLocal c s u t y o n v :=
  ⟨_, _, _, _, retires_of_retireAs he hw hy, hls ▸ Tile.lsStore_ls z o n v, hlp ▸ Tile.lsStore_lsPoison z o n v⟩

/-! #### The store instructions -/

/-- Command `c` is the store of major opcode `op` of the low `n` bytes of `val` by tile `y`. -/
structure Stores (c : Instr) (t : TileId) (ra : BitVec 5) (imm : W64) (n op : Nat) (y : Tile) (v val : Nat) : Prop where
  word : tileWord c = some (t, false)
  size : n = opSize op
  accesses : ∃ rs, y.storeValue op rs = v
    ∧ Accesses c t ra imm n .write (if op = 0x1D then .reaches else .narrow) (fun u a => u.doStore t op ((u.tile t).storeValue op rs) a)
  value : v % 256 ^ n = val % 256 ^ n

theorem Stores.of_storeOp {f : SForm} {val : Nat} (op : Nat) (hw : tileWord c = some (t, false)) (hc : ∀ s, exec c s = .next (s.storeOp c t f op))
    (hv : y.storeValue op f.rs % 256 ^ opSize op = val % 256 ^ opSize op) :
    Stores c t f.ra (f.imm.signExtend 64) (opSize op) op y (y.storeValue op f.rs) val :=
  ⟨hw, rfl, ⟨_, rfl, storeOp_accesses hw hc⟩, hv⟩

/-- The stores, each by its opcode (05 R155). -/
theorem stores_of_dataAccess {val : Nat} (h : dataAccess c = some (t, ra, imm, n)) (hl : storesFrom c y = some val) :
    ∃ op v, Stores c t ra imm n op y v val := by
  unfold storesFrom at hl
  split at hl
  case h_1 f =>
    cases h
    cases hl
    exact ⟨_, _, .of_storeOp 0x1A rfl (fun _ => rfl) (Nat.mod_mod _ _)⟩
  case h_2 f =>
    cases h
    cases hl
    exact ⟨_, _, .of_storeOp 0x1B rfl (fun _ => rfl) (Nat.mod_mod _ _)⟩
  case h_3 f =>
    cases h
    cases hl
    exact ⟨_, _, .of_storeOp 0x1C rfl (fun _ => rfl) (Nat.mod_mod _ _)⟩
  case h_4 f =>
    cases h
    cases hl
    exact ⟨_, _, .of_storeOp 0x1D rfl (fun _ => rfl) (Nat.mod_mod _ _)⟩
  case h_5 f =>
    cases h
    cases hl
    exact ⟨_, _, .of_storeOp 0x1E rfl (fun _ => rfl) rfl⟩
  case h_6 f =>
    cases h
    cases hl
    exact ⟨_, _, .of_storeOp 0x1F rfl (fun _ => rfl) rfl⟩
  case h_7 => cases hl

theorem exec_doStore {val : Nat} (h : Stores c t ra imm n op (u.tile t) v val) (hb : s.begins c t u)
    (hf : u.dataFault t ((u.tile t).rg ra + imm) n .write (if op = 0x1D then .reaches else .narrow) = none) :
    exec c s = .next (u.doStore t op v ((u.tile t).rg ra + imm)) := by
  obtain ⟨rs, rfl, acc⟩ := h.accesses
  exact acc.exec_go h.word hb hf

theorem doStore_local (ha : areaOf a.toNat = .ls o) (hwp : u.wpHits t false true a.toNat (opSize op) = []) :
    u.doStore t op v a = (u.updTile t (fun y => y.lsStore o (opSize op) v)).retireAs t false ((u.tile t).pc + 4) := by
  simp only [doStore, ha, watch_unmet hwp, retireNext, retire, pc_updTile (fun x => Tile.lsStore_pc x o (opSize op) v)]

/-! #### A store into the store buffer (10 R272) -/

theorem rangeMask_ne_full (o : Nat) {n : Nat} (hn : n < 64) : rangeMask o n ≠ fullMask := fun h => by
  have first := getLsbD_rangeMask o n 0
  have last := getLsbD_rangeMask o n 63
  rw [h] at first last
  simp [fullMask] at first last
  omega

/-- The watchpoints of an access do not depend on the tiles (19 R512). -/
theorem wpHits_updTile (g : Tile → Tile) (load store : Bool) (p m : Nat) : (u.updTile t g).wpHits t load store p m = u.wpHits t load store p m := rfl

theorem sbFor_of_sb {v : State} {r : TileId} (h : (v.tile r).sb = (u.tile r).sb) (scr : Bool) (l : LineAddr) : v.sbFor r scr l = u.sbFor r scr l := by
  rw [sbFor, sbFor, h]

theorem sb_retireAs (alone : Bool) (pc : W64) : ((w.retireAs t alone pc).tile t).sb = (w.tile t).sb := by
  obtain ⟨-, retired⟩ := retireAs_cases w t alone pc
  rw [retired]

/-- An entry that is not full stays (10 R273). -/
theorem drainFull_of_open {scr : Bool} {l : LineAddr} {e : SbEntry} (h : w.sbFor t scr l = some e) (he : e.mask ≠ fullMask) : w.drainFull t scr l = w := by
  simp only [drainFull, h, if_neg he]

/-- A store of ward memory that has room in the store buffer, and after which its line's entry is open. -/
theorem doStore_ward {wd : WardId} {x : Xlat} {g : Tile → Tile} {e : SbEntry} (ha : areaOf a.toNat = .ward) (hw : u.tileWard t = some wd)
    (hx : u.translate wd a.toNat (opSize op) .write = .inr x) (hwp : u.wpHits t false true a.toNat (opSize op) = [])
    (hroom : (u.sbFor t false x.line).isSome = true ∨ (u.tile t).sb.length < 16)
    (hput : u.sbPut t false x.line wd x (x.addr % 64) (opSize op) v = u.updTile t g) (hpc : ∀ y, (g y).pc = y.pc)
    (hopen : (u.updTile t g).sbFor t false x.line = some e) (he : e.mask ≠ fullMask) :
    u.doStore t op v a = (u.updTile t g).retireAs t false ((u.tile t).pc + 4) := by
  have room : u.sbRoom t false x.line = (true, u) := by
    rw [sbRoom, if_pos (by simpa using hroom)]
  have stays : ((u.updTile t g).retireAs t false ((u.tile t).pc + 4)).drainFull t false x.line = (u.updTile t g).retireAs t false ((u.tile t).pc + 4) :=
    drainFull_of_open ((sbFor_of_sb (sb_retireAs _ _) _ _).trans hopen) he
  simp only [doStore, ha, dataXlat_eq hw hx, show (⟨x.host, x.addr / 64⟩ : LineAddr) = x.line from rfl, room, hput, Bool.not_true, Bool.false_eq_true,
    if_false, watch_unmet ((wpHits_updTile g false true a.toNat (opSize op)).trans hwp), retireNext, retire, pc_updTile hpc, stays]

theorem placeBytes_mod (o n v : Nat) : placeBytes o n (v % 256 ^ n) = placeBytes o n v := by
  rw [placeBytes, placeBytes, two_pow_mul_eight, Nat.mod_mod]

theorem placeBytes_congr {val : Nat} (h : v % 256 ^ n = val % 256 ^ n) (o : Nat) : placeBytes o n v = placeBytes o n val := by
  rw [← placeBytes_mod o n v, h, placeBytes_mod]

/-- The line's entry is the one that was just opened. -/
theorem sbFor_append {e : SbEntry} {g : Tile → Tile} {scr : Bool} {l : LineAddr} (hg : (g (u.tile t)).sb = (u.tile t).sb ++ [e])
    (hn : u.sbFor t scr l = none) (hs : e.scratch = scr) (hl : e.line = l) : (u.updTile t g).sbFor t scr l = some e := by
  rw [sbFor] at hn
  rw [sbFor, tile_updTile, hg, List.find?_append, hn]
  simp [hs, hl]

/-- The line's entry is the one that was joined, as it now is. -/
theorem sbFor_map {e e2 : SbEntry} {g : Tile → Tile} {scr : Bool} {l : LineAddr} (hg : (g (u.tile t)).sb = (u.tile t).sb.map (fun z => if z = e then e2 else z))
    (he : u.sbFor t scr l = some e) (hs : e2.scratch = e.scratch) (hl : e2.line = e.line) : (u.updTile t g).sbFor t scr l = some e2 := by
  rw [sbFor] at he
  have same : (fun z => (z.scratch == scr) && decide (z.line = l)) ∘ (fun z => if z = e then e2 else z) = fun z : SbEntry => (z.scratch == scr) && decide (z.line = l) := by
    funext z
    by_cases hz : z = e
    · simp [hz, hs, hl]
    · simp [hz]
  rw [sbFor, tile_updTile, hg, List.find?_map, same, he]
  simp

end State

section
open State

/-- Settles O11: a store goes to local store, or to an entry of the store buffer that it leaves open. -/
theorem storesPutTheirBytes : Obligations.StoresPutTheirBytes := by
  unfold Obligations.StoresPutTheirBytes
  intro c s u t ra imm n val hd hl hb y a hwp
  obtain ⟨op, v, store⟩ := stores_of_dataAccess hd hl
  obtain rfl : n = opSize op := store.size
  have small : opSize op < 64 := by
    have := opSize_cases op
    omega
  refine ⟨fun ha h1 h2 => ?_, ?_⟩
  · have area := areaOf_ls h1 h2
    have same : ∀ z : Tile, z.lsStore (a.toNat - lsBase) (opSize op) v = z.lsStore (a.toNat - lsBase) (opSize op) val := fun z => by
      rw [← Tile.lsStore_mod, store.value, Tile.lsStore_mod]
    have run : exec c s = .next (u.doStore t op v a) := exec_doStore store hb (dataFault_local ha area)
    simp only [doStore_local area hwp, same] at run
    exact storesLocal_of_retireAs run (onlyTile_updTile ..) ((tile_updTile ..).trans (Tile.lsStore_eq ..)) rfl rfl
  · rintro w x ⟨ha, hlt, hw, hx⟩ o
    have run := exec_doStore store hb (dataFault_ward ha (areaOf_ward hlt) hw hx)
    have bytes : placeBytes o (opSize op) v = placeBytes o (opSize op) val := placeBytes_congr store.value o
    refine ⟨fun hn hlen => ?_, fun e he hopen => ?_⟩
    · have put : u.sbPut t false x.line w x o (opSize op) v = u.updTile t (fun y => { y with
          sb := y.sb ++ [⟨false, x.line, rangeMask o (opSize op), placeBytes o (opSize op) val, w, x.sealed, x.relaxed, x.ido, false⟩] }) := by
        simp only [sbPut, hn, bytes]
      rw [doStore_ward (areaOf_ward hlt) hw hx hwp (.inr hlen) put (fun _ => rfl) (sbFor_append rfl hn rfl rfl) (rangeMask_ne_full o small)] at run
      exact retires_of_updTile run rfl
    · have put : u.sbPut t false x.line w x o (opSize op) v = u.updTile t (fun y => { y with
          sb := y.sb.map (fun z => if z = e then
            { e with mask := e.mask ||| rangeMask o (opSize op), data := mergeLine e.data (placeBytes o (opSize op) val) (rangeMask o (opSize op)) }
            else z) }) := by
        simp only [sbPut, he, bytes]
      rw [doStore_ward (areaOf_ward hlt) hw hx hwp (.inl (by rw [he]; rfl)) put (fun _ => rfl) (sbFor_map rfl he rfl rfl) hopen] at run
      exact retires_of_updTile run rfl

end
end Sys2Proof.Machine

namespace Sys2Proof.Machine

/-! ### Atomics (04 R144, R145; 05 R162, R163) -/

/-! #### An atomic on local store -/

/-- A write to a register does not touch local store. -/
theorem Tile.wg_with_ls (y : Tile) (r : BitVec 5) (x : W64) (ls : Tbl Byte) (lp lb lf : Tbl Bool) :
    ({ y with ls := ls, lsPoison := lp, lsBad := lb, lsFix := lf } : Tile).wg r x =
      { y.wg r x with ls := ls, lsPoison := lp, lsBad := lb, lsFix := lf } := by
  unfold Tile.wg
  split_ifs <;> rfl

theorem Tile.rg_congr {x y : Tile} (h : x.g = y.g) (r : BitVec 5) : x.rg r = y.rg r := by rw [Tile.rg, Tile.rg, h]

theorem Tile.wg_g_congr {x y : Tile} (h : x.g = y.g) (r : BitVec 5) (v : W64) : (x.wg r v).g = (y.wg r v).g := by
  unfold Tile.wg
  split_ifs
  · exact h
  · rw [h]

theorem Tile.wg_ls (y : Tile) (r : BitVec 5) (x : W64) : y.ls = (y.wg r x).ls := by rw [Tile.wg_eq]
theorem Tile.wg_lsPoison (y : Tile) (r : BitVec 5) (x : W64) : y.lsPoison = (y.wg r x).lsPoison := by rw [Tile.wg_eq]

namespace State
variable {s u v w : State} {c : Instr} {t : TileId} {a : W64} {n o : Nat} {f : AtForm} {op : AtOp}

theorem exec_doAtomic (hw : tileWord c = some (t, f.bad)) (hc : ∀ s, exec c s = .next (s.atomicOp c t f op)) (hbad : f.bad = false)
    (hb : s.begins c t u) (hn : n = if f.size = 1 then 8 else 4) (hf : u.dataFault t ((u.tile t).rg f.ra) n .atomic .other = none) :
    exec c s = .next (u.doAtomic t f.hint.toNat ((u.tile t).atReq op f) f.rd ((u.tile t).rg f.ra)) := by
  have run := (atomicOp_accesses (op := op) hw hc).exec_go (hbad ▸ hw) hb (by rwa [add_zero, ← hn])
  rwa [add_zero] at run

theorem finishAtomic_unmet {r : AtReq} {rd : BitVec 5} {old ev : Nat} (hwp : w.wpHits t true true a.toNat r.size = []) :
    w.finishAtomic t r rd a old ev =
      ((if ev = 0 then w else w.countTile t ev 1).updTile t (fun y => y.wg rd (r.result old))).retireAs t true ((w.tile t).pc + 4) := by
  have pc : ((if ev = 0 then w else w.countTile t ev 1).tile t).pc = (w.tile t).pc := by
    split_ifs
    · rfl
    · exact pc_countTile w t ev 1
  rw [finishAtomic, watch_unmet hwp, retireAlone, pc_updTile (fun x => Tile.wg_pc x rd _), pc]

theorem doAtomic_local {hint : Nat} {r : AtReq} {rd : BitVec 5} (ha : areaOf a.toNat = .ls o) (hm : (u.tile t).marked o r.size = false)
    (hs : (u.tile t).lsSound o r.size = true) :
    u.doAtomic t hint r rd a = (u.updTile t (fun y => y.lsStore o r.size (r.apply ((u.tile t).lsRead o r.size)))).finishAtomic t r rd a ((u.tile t).lsRead o r.size) 0 := by
  simp only [doAtomic, ha, lsCorrect_of_sound hs, hm, lsError_of_sound hs, Bool.false_eq_true, if_false]

/-- An atomic on an aligned, unmarked, sound place of local store (04 R144). -/
theorem atomic_storesLocal (hw : tileWord c = some (t, f.bad)) (hc : ∀ s, exec c s = .next (s.atomicOp c t f op)) (hbad : f.bad = false)
    (hb : s.begins c t u) (hn : n = if f.size = 1 then 8 else 4) (hl : u.localData t ((u.tile t).rg f.ra) n)
    (hwp : u.wpHits t true true ((u.tile t).rg f.ra).toNat n = []) :
    let y := u.tile t
    let o := (y.rg f.ra).toNat - lsBase
    let r := y.atReq op f
    storesLocal c s u t (y.wg f.rd (r.result (y.lsRead o n))) o n (r.apply (y.lsRead o n)) := by
  intro y o r
  obtain ⟨ha, h1, h2, hm, hs⟩ := hl
  have size : r.size = n := (atReq_size y op f).trans hn.symm
  have area := areaOf_ls h1 h2
  have run := exec_doAtomic hw hc hbad hb hn (dataFault_local ha area)
  rw [doAtomic_local area (size ▸ hm) (size ▸ hs), size, finishAtomic_unmet (by rw [wpHits_updTile, size]; exact hwp), if_pos rfl,
    pc_updTile (fun x => Tile.lsStore_pc x _ _ _)] at run
  have pc : (y.wg f.rd (r.result (y.lsRead o n))).pc = (u.tile t).pc := Tile.wg_pc _ _ _
  refine storesLocal_of_retireAs (pc ▸ run) (onlyTile_trans (onlyTile_updTile ..) (onlyTile_updTile ..)) ?_ (Tile.wg_ls y f.rd _) (Tile.wg_lsPoison y f.rd _)
  rw [tile_updTile, tile_updTile, Tile.lsStore_eq, Tile.wg_with_ls]

/-! #### What an atomic finds in the quarter cache (11 R293, R306–R308) -/

variable {q : QuarterId} {l : LineAddr} {i set : Nat}

theorem tagScan_of_sound (h : ∀ k, ((u.quarter q).ways.get CWay.free k).tagBad = false) (set : Nat) : u.tagScan q set = u :=
  foldl_of_fixed fun _ _ => if_neg (by rw [Quarter.way, h]; nofun)

/-- A line whose mask and bytes read without an error, and whose needed bytes are valid, is hit. -/
theorem qProbe_hit {need : Mask64} (htag : ∀ k, ((u.quarter q).ways.get CWay.free k).tagBad = false) (hf : u.qFind q l = some i)
    (hm : ((u.quarter q).way (setOf l) i).maskErrs = []) (he : ((u.quarter q).way (setOf l) i).errs = [])
    (hv : need &&& ((u.quarter q).way (setOf l) i).valid = need) : u.qProbe q l need = (.hit i ((u.quarter q).way (setOf l) i), u) := by
  have mask : u.checkMask q (setOf l) i = u := by
    rw [checkMask, hm]
    rfl
  have bytes : u.checkBytes q (setOf l) i need = (true, u) := by
    rw [checkBytes, he]
    rfl
  have look : u.qLook q l = (some i, u) := by
    unfold qLook
    rw [tagScan_of_sound htag]
    dsimp only
    rw [hf]
    exact congrArg (Prod.mk (some i)) mask
  unfold qProbe
  rw [look]
  dsimp only
  rw [bytes]
  exact (if_neg (by simp)).trans (if_pos hv)

/-- The way that is found holds the line. -/
theorem line_of_qFind (h : u.qFind q l = some i) : ((u.quarter q).way (setOf l) i).line = l := by
  have found := List.find?_some h
  simp only [Bool.and_eq_true, decide_eq_true_eq] at found
  exact found.2

/-! #### Copies in the L1 caches (10 R277; 05 R170) -/

/-- State `v` differs from `s` in the tiles' L1 copies of lines. -/
def CopiesOnly (s v : State) : Prop :=
  v = { s with tiles := v.tiles } ∧ ∀ r, ∃ d i b, v.tile r = { s.tile r with l1d := d, l1i := i, fetchBuf := b }

theorem CopiesOnly.refl (s : State) : CopiesOnly s s := ⟨rfl, fun _ => ⟨_, _, _, rfl⟩⟩

theorem CopiesOnly.trans (h : CopiesOnly s u) (k : CopiesOnly u v) : CopiesOnly s v := by
  obtain ⟨h1, h2⟩ := h
  obtain ⟨k1, k2⟩ := k
  refine ⟨by rw [k1, h1], fun r => ?_⟩
  obtain ⟨d, i, b, e⟩ := h2 r
  obtain ⟨d2, i2, b2, e2⟩ := k2 r
  exact ⟨d2, i2, b2, by rw [e2, e]⟩

theorem copiesOnly_setTile {r : TileId} {y : Tile} (h : ∃ d i b, y = { s.tile r with l1d := d, l1i := i, fetchBuf := b }) :
    CopiesOnly s (s.setTile r y) := by
  refine ⟨rfl, fun r2 => ?_⟩
  by_cases hr : r2 = r
  · subst hr
    rwa [tile_setTile]
  · exact ⟨_, _, _, tile_setTile_other s r r2 y hr⟩

theorem copiesOnly_foldl {α : Type} {g : State → α → State} (hg : ∀ u a, CopiesOnly u (g u a)) (l : List α) : CopiesOnly s (l.foldl g s) :=
  List.foldlRecOn (motive := CopiesOnly s) l g (.refl s) fun u hu a _ => hu.trans (hg u a)

theorem copiesOnly_staleCopies (self : Option TileId) : CopiesOnly s (s.staleCopies q l self) := by
  refine copiesOnly_foldl (fun u r => ?_) _
  dsimp only
  split_ifs
  · exact copiesOnly_setTile ⟨_, _, _, rfl⟩
  · exact copiesOnly_setTile ⟨_, _, _, rfl⟩
  · exact .refl u

theorem copiesOnly_storeCopies (e : SbEntry) : CopiesOnly s (s.storeCopies q t e) :=
  (copiesOnly_setTile ⟨_, _, _, rfl⟩).trans (copiesOnly_staleCopies _)

/-! #### A store into a way (11 R298, R302) -/

theorem injects_unarmed (h : u.isF (F.QC_INJ_ARM q.val) = false) (tagArray : Bool) (set w : Nat) : u.injects q tagArray set w = (false, u) := by
  rw [injects, h]
  rfl

/-- Where no injection is armed, a way takes what is written, but for its stored codes (11 R318). -/
theorem writeWay_unarmed (h : u.isF (F.QC_INJ_ARM q.val) = false) (set i : Nat) (x : CWay) (written : Mask64) :
    ∃ y : CWay, y.st = x.st ∧ y.data = x.data
      ∧ u.writeWay q set i x written = u.updQuarter q (fun z => { z with ways := z.ways.put CWay.free (set * 16 + i) y }) := by
  unfold writeWay
  extract_lets old y tagWrite
  have tag : (if tagWrite = true then u.injects q true set i else (false, u)) = (false, u) := by rw [injects_unarmed h, ite_self]
  have data : (if written = 0 then (false, u) else u.injects q false set i) = (false, u) := by rw [injects_unarmed h, ite_self]
  rw [tag]
  dsimp only
  rw [data]
  refine ⟨_, ?_, ?_, rfl⟩
  · split_ifs <;> rfl
  · split_ifs <;> rfl

/-- A store that is performed in its way: the way takes its bytes, and the copies of the line follow. -/
theorem storeWay_unarmed (h : u.isF (F.QC_INJ_ARM q.val) = false) (set i : Nat) (t : TileId) (e : SbEntry) (st : CState) (upg : Mask64) :
    ∃ v, u.storeWay q set i t e st upg = v ∧ v = { u with quarters := v.quarters, tiles := v.tiles }
      ∧ (∀ r, ∃ d i b, v.tile r = { u.tile r with l1d := d, l1i := i, fetchBuf := b })
      ∧ ((v.quarter q).way set i).st = st ∧ ((v.quarter q).way set i).data = mergeLine ((u.quarter q).way set i).data e.data e.mask := by
  obtain ⟨y, hst, hdata, he⟩ := writeWay_unarmed h set i
    { (u.quarter q).way set i with
      st := st, data := mergeLine ((u.quarter q).way set i).data e.data e.mask, valid := ((u.quarter q).way set i).valid ||| e.mask,
      poison := (((u.quarter q).way set i).poison && e.mask != fullMask) || e.poison, upgMask := upg, hold := false } e.mask
  generalize hw : (u.updQuarter q (fun z => { z with ways := z.ways.put CWay.free (set * 16 + i) y })).touchWay q set i = w
  have made : u.storeWay q set i t e st upg = w.storeCopies q t e := by
    rw [← hw, ← he]
    rfl
  have only : w = { u with quarters := w.quarters } := by
    rw [← hw]
    rfl
  have way : (w.quarter q).way set i = y := by
    rw [← hw, touchWay, updQuarter, quarter_setQuarter, updQuarter, quarter_setQuarter, Quarter.way, Tbl.get_put]
  have kept : ∀ r, w.tile r = u.tile r := fun r => by
    rw [only]
    rfl
  obtain ⟨same, tiles⟩ := copiesOnly_storeCopies (s := w) (q := q) (t := t) e
  generalize w.storeCopies q t e = v at made same tiles
  have quarters : v.quarter q = w.quarter q := by
    rw [same]
    rfl
  refine ⟨v, made, ?_, fun r => ?_, ?_, ?_⟩
  · rw [same, only]
  · rw [← kept]
    exact tiles r
  · rw [quarters, way, hst]
  · rw [quarters, way, hdata]

/-! #### An atomic in the quarter cache (04 R145; 12 R336) -/

/-- The watchpoints that an access hits depend on the watchpoints' registers and on the plan (19 R512). -/
theorem wpHits_congr (hf : ∀ g : Fld, 0x8000000 ≤ g.off → v.getF g = u.getF g) (hp : v.plan = u.plan) (load store : Bool) (p m : Nat) :
    v.wpHits t load store p m = u.wpHits t load store p m := by
  have cover : ∀ scope target, v.scopeCovers scope target t = u.scopeCovers scope target t := fun scope target => by
    rw [scopeCovers, scopeCovers, tileWard_congr hp]
  have set : ∀ g : Fld, 0x8000000 ≤ g.off → v.isF g = u.isF g := fun g hg => by rw [isF, isF, hf g hg]
  have far : ∀ d k, 0x8000000 ≤ 0x8000000 + d + 16 * k := fun d k => by omega
  unfold wpHits
  refine List.filter_congr fun k _ => ?_
  simp only [hf (F.LNT_WP_CTRL_LOG2SIZE k) (far _ _), hf (F.LNT_WP_ADDR_VALUE k) (far _ _), hf (F.LNT_WP_CTRL_SCOPE k) (far _ _),
    hf (F.LNT_WP_CTRL_TARGET k) (far _ _), set (F.LNT_WP_CTRL_EN k) (far _ _), set (F.LNT_WP_CTRL_LOAD k) (far _ _),
    set (F.LNT_WP_CTRL_STORE k) (far _ _), cover]

theorem getF_qcCount {g : Fld} (h : g.key ≠ (F.QC_CNT_VALUE q.val n).key) : (u.qcCount q n).getF g = u.getF g := getF_bumpF_other h 1

/-- An atomic on a line held in E or M is performed in the way that holds it. -/
theorem nearAtomicAt_performs {x : CWay} {r : AtReq} {rd : BitVec 5} (hx : (u.quarter q).way (setOf l) i = x) (hl : x.line = l) (hq : q = tileQuarter t) (hn : r.size = n)
    (hpo : x.poison = false) (harm : u.isF (F.QC_INJ_ARM q.val) = false) (hwp : u.wpHits t true true a.toNat n = []) :
    let v := u.nearAtomicAt t i x r rd a
    let old := lineBytes x.data r.off n
    (v.tile t).pc = (u.tile t).pc + 4 ∧ (∀ g, (v.tile t).rg g = ((u.tile t).wg rd (r.result old)).rg g)
      ∧ ((v.quarter q).way (setOf l) i).st = .m
      ∧ ((v.quarter q).way (setOf l) i).data = mergeLine x.data (placeBytes r.off n (r.apply old)) (rangeMask r.off n)
      ∧ v.dram = u.dram ∧ v.net = u.net := by
  intro v old
  subst hq hl hn
  generalize hu1 : (if u.firstTry t then u.qcCount (tileQuarter t) 0 else u) = u1
  have counted : FieldsOnly u u1 ∧ (∀ g : Fld, 0x8000000 ≤ g.off → u1.getF g = u.getF g) ∧ u1.isF (F.QC_INJ_ARM (tileQuarter t).val) = false := by
    rw [← hu1]
    split_ifs
    · have apart : ∀ g : Fld, 0x8000000 ≤ g.off → g.key ≠ (F.QC_CNT_VALUE (tileQuarter t).val 0).key := fun g hg => by
        simp only [Fld.key, F.QC_CNT_VALUE]
        omega
      refine ⟨fieldsOnly_setF _ _, fun g hg => getF_qcCount (apart g hg), ?_⟩
      rw [isF, getF_qcCount (by simp only [Fld.key, F.QC_CNT_VALUE, F.QC_INJ_ARM]; omega)]
      exact harm
    · exact ⟨⟨_, rfl⟩, fun _ _ => rfl, harm⟩
  obtain ⟨⟨fl, only⟩, fields, arm⟩ := counted
  obtain ⟨u2, hu2, same, tiles, state, data⟩ := storeWay_unarmed arm (setOf x.line) i t
    ⟨false, x.line, rangeMask r.off r.size, placeBytes r.off r.size (r.apply old), x.ward, x.sealed, false, false, false⟩ .m x.upgMask
  have way : (u1.quarter (tileQuarter t)).way (setOf x.line) i = x := by
    rw [only]
    exact hx
  rw [way] at data
  have met : u2.wpHits t true true a.toNat r.size = [] := by
    have first : u1.wpHits t true true a.toNat r.size = [] := (wpHits_congr fields (by rw [only]) _ _ _ _).trans hwp
    rw [same]
    exact first
  have made : v = ((u2.countTile t 17 1).updTile t (fun y => y.wg rd (r.result old))).retireAs t true ((u2.tile t).pc + 4) := by
    have finish := finishAtomic_unmet (t := t) (rd := rd) (old := old) (ev := 17) met
    rw [if_neg (by decide), ← hu2, ← hu1] at finish
    rw [← hu2, ← hu1, ← finish]
    show u.nearAtomicAt t i x r rd a = _
    rw [nearAtomicAt, hpo]
    rfl
  obtain ⟨d, l1i, b, tile⟩ := tiles t
  obtain ⟨rest, pmc, ovf, count⟩ := countTile_cases u2 t 17 1
  obtain ⟨after, retired⟩ := retireAs_cases ((u2.countTile t 17 1).updTile t (fun y => y.wg rd (r.result old))) t true ((u2.tile t).pc + 4)
  have frame := (onlyTile_trans (onlyTile_trans rest (onlyTile_updTile ..)) after).1
  rw [← made] at retired frame
  have kept : u1.tile t = u.tile t := by
    rw [only]
    rfl
  rw [tile_updTile, count, tile, kept] at retired
  refine ⟨?_, fun g => ?_, ?_, ?_, ?_, ?_⟩
  · exact retiredAs_pc retired
  · have regs : (v.tile t).g = ((u.tile t).wg rd (r.result old)).g := by
      refine (retiredAs_g retired).trans (Tile.wg_g_congr ?_ rd _)
      rfl
    exact Tile.rg_congr regs g
  · rw [frame]
    exact state
  · rw [frame]
    exact data
  · rw [frame, same, only]
  · rw [frame, same, only]

/-- What an atomic to a line that the quarter holds in E or M comes to, when it is not sent to the home (12 R336). -/
theorem wardAtomic_near {w : WardId} {x : Xlat} {mode : Nat} {r : AtReq} {rd : BitVec 5} (hsb : (u.tile t).sb = [])
    (hout : u.uncachedWrite t x.line = false) (hc : u.cached (tileQuarter t) w x.host = true)
    (hp : u.qProbe (tileQuarter t) x.line (rangeMask (x.addr % 64) { r with off := x.addr % 64 : AtReq }.size) =
      (.hit i ((u.quarter (tileQuarter t)).way (setOf x.line) i), u))
    (hst : ((u.quarter (tileQuarter t)).way (setOf x.line) i).st = .e ∨ ((u.quarter (tileQuarter t)).way (setOf x.line) i).st = .m)
    (hask : u.quarterAsks (tileQuarter t) x.line = false) (hbuf : u.bufOf (tileQuarter t) x.line = none) (hmode : x.host = true ∨ mode ≠ 2) :
    u.wardAtomic t w x mode r rd a =
      u.nearAtomicAt t i ((u.quarter (tileQuarter t)).way (setOf x.line) i) { r with off := x.addr % 64 } rd a := by
  have drained : u.drainWhere t (fun e => !e.scratch && decide (e.line = x.line)) = (true, u) := by
    rw [drainWhere, hsb]
    rfl
  have quiet : ((u.quarter (tileQuarter t)).way (setOf x.line) i).asking = false := by
    unfold CWay.asking
    rcases hst with h | h <;> rw [h] <;> rfl
  have local_ : ¬ (mode = 2 ∧ (!x.host) = true) := by
    rcases hmode with h | h <;> simp [h]
  unfold wardAtomic
  simp only [show (⟨x.host, x.addr / 64⟩ : LineAddr) = x.line from rfl, drained, hout, hc, hp]
  simp only [quiet, hask, hbuf, if_neg local_, if_pos hst, Bool.not_true, Bool.or_false, Bool.false_eq_true, if_false, Option.isSome_none]

theorem doAtomic_ward {hint : Nat} {r : AtReq} {rd : BitVec 5} {w : WardId} {x : Xlat} (ha : areaOf a.toNat = .ward) (hw : u.tileWard t = some w)
    (hx : u.translate w a.toNat r.size .atomic = .inr x) : u.doAtomic t hint r rd a = u.wardAtomic t w x (u.atomicMode w hint) r rd a := by
  simp only [doAtomic, ha, dataXlat_eq hw hx]

theorem not_bad_of (hrsv : f.rsv = 0) (hhint : f.hint ≠ 3) : f.bad = false := by
  rw [AtForm.bad, hrsv, beq_false_of_ne hhint]
  rfl

/-- Each atomic instruction and the operation that it performs. -/
theorem atomics_cases {P : Instr → AtOp → Prop} (h : ∀ c op, tileWord c = some (t, f.bad) → (∀ s, exec c s = .next (s.atomicOp c t f op)) → P c op) :
    ∀ c op, (c, op) ∈ [(Instr.atomicSwap t f, AtOp.swap), (.atomicCas t f, .cas), (.atomicAdd t f, .add), (.atomicAnd t f, .and), (.atomicOr t f, .or),
      (.atomicXor t f, .xor), (.atomicMin t f, .min), (.atomicMax t f, .max), (.atomicMinu t f, .minu), (.atomicMaxu t f, .maxu)] → P c op := by
  intro c op hm
  simp only [List.mem_cons, List.not_mem_nil, or_false, Prod.mk.injEq] at hm
  rcases hm with ⟨rfl, rfl⟩ | ⟨rfl, rfl⟩ | ⟨rfl, rfl⟩ | ⟨rfl, rfl⟩ | ⟨rfl, rfl⟩ | ⟨rfl, rfl⟩ | ⟨rfl, rfl⟩ | ⟨rfl, rfl⟩ | ⟨rfl, rfl⟩ | ⟨rfl, rfl⟩ <;>
    exact h _ _ rfl (fun _ => rfl)

end State

section
open State

/-- Settles O12: in local store the bytes are exchanged at once; in a way held in E or M they are merged, and no injection, copy or
watchpoint stands in the way. -/
theorem atomicsExchangeTheirWords : Obligations.AtomicsExchangeTheirWords := by
  unfold Obligations.AtomicsExchangeTheirWords
  refine ⟨fun s u t f hrsv hhint => ?_, fun s u t f w x i hrsv hhint => ?_⟩
  · have good := not_bad_of hrsv hhint
    intro y a o does
    have each : ∀ c op (g : (w : Nat) → BitVec w → BitVec w → BitVec w → BitVec w), tileWord c = some (t, f.bad) → (∀ s, exec c s = .next (s.atomicOp c t f op)) →
        (∀ w x b e, atomNew (w := w) op x b e = g w x b e) → does c g := fun c op g hw hc hg hb => by
      refine ⟨fun wide hl hwp => ?_, fun narrow hl hwp => ?_⟩
      · have stores := atomic_storesLocal hw hc good hb (by rw [if_pos wide]) hl hwp
        simp only [AtReq.result, AtReq.apply, Tile.atReq, wide, decide_true, if_true, hg] at stores
        exact stores
      · have word : f.size ≠ 1 := by rw [narrow]; decide
        have stores := atomic_storesLocal hw hc good hb (by rw [if_neg word]) hl hwp
        simp only [AtReq.result, AtReq.apply, Tile.atReq, word, decide_false, Bool.false_eq_true, if_false, hg] at stores
        exact stores
    refine ⟨each _ .swap (fun _ _ b _ => b) rfl (fun _ => rfl) fun _ _ _ _ => rfl, each _ .cas (fun _ x b e => if x = e then b else x) rfl (fun _ => rfl) fun _ _ _ _ => rfl,
      each _ .add (fun _ x b _ => x + b) rfl (fun _ => rfl) fun _ _ _ _ => rfl, each _ .and (fun _ x b _ => x &&& b) rfl (fun _ => rfl) fun _ _ _ _ => rfl,
      each _ .or (fun _ x b _ => x ||| b) rfl (fun _ => rfl) fun _ _ _ _ => rfl, each _ .xor (fun _ x b _ => x ^^^ b) rfl (fun _ => rfl) fun _ _ _ _ => rfl,
      each _ .min (fun _ x b _ => if x.toInt < b.toInt then x else b) rfl (fun _ => rfl) ?_,
      each _ .max (fun _ x b _ => if x.toInt < b.toInt then b else x) rfl (fun _ => rfl) ?_,
      each _ .minu (fun _ x b _ => if x.toNat < b.toNat then x else b) rfl (fun _ => rfl) ?_,
      each _ .maxu (fun _ x b _ => if x.toNat < b.toNat then b else x) rfl (fun _ => rfl) ?_⟩
    all_goals
      intro w x b e
      simp only [atomNew, BitVec.slt_iff_toInt_lt, BitVec.ult_iff_lt, BitVec.lt_def]
  · have good := not_bad_of hrsv hhint
    rintro y q a n o m wy ⟨ha, hlt, hw, hx⟩ hwp hsb hc htag hf hst hv he hm hpo hout harm hask hbuf hmode
    refine atomics_cases fun c op hword hexec hb => ?_
    intro r old
    have size : (y.atReq op f).size = n := atReq_size y op f
    have run := exec_doAtomic hword hexec good hb rfl (dataFault_ward ha (areaOf_ward hlt) hw hx)
    have probe : u.qProbe q x.line (rangeMask o (y.atReq op f).size) = (.hit i wy, u) := by
      rw [size]
      exact qProbe_hit htag hf hm he hv
    rw [doAtomic_ward (areaOf_ward hlt) hw (size ▸ hx), wardAtomic_near (r := y.atReq op f) hsb hout hc probe hst hask hbuf hmode] at run
    have performs := nearAtomicAt_performs (u := u) (t := t) (a := a) (r := r) (rd := f.rd) (x := wy) rfl (line_of_qFind hf) rfl size hpo harm hwp
    exact ⟨_, run, performs⟩

end
end Sys2Proof.Machine

namespace Sys2Proof.Machine

/-! ### Messages (04 R138, R143; 05 R164–R166) -/

namespace State
variable {s u w : State} {c : Instr} {t d : TileId} {f : MsgForm} {a : W64} {n al o : Nat}

/-! #### Operands in local store -/

/-- An operand of a message or scheduling instruction that lies in local store raises nothing (05 R164, R165). -/
theorem lsOperand_none (h : a.toNat % al = 0) (hl : n = 0 ∨ inLs a.toNat n = true) : lsOperand a n al = none := by
  rw [lsOperand, if_neg (by simpa using h), if_pos hl]

/-! #### SEND -/

theorem exec_sendOp (hb : s.begins (.send t f) t u) (hd : f.rd = 0) (hlen : f.len.toNat ≤ 64) (ha : ((u.tile t).rg f.rb).toNat % 8 = 0)
    (hl : f.len.toNat = 0 ∨ inLs ((u.tile t).rg f.rb).toNat f.len.toNat = true)
    (hs : (u.tile t).lsSound (((u.tile t).rg f.rb).toNat - lsBase) f.len.toNat = true) (hdst : ((u.tile t).rg f.ra).toNat = d.val) :
    exec (.send t f) s = .next (u.doSend t ((u.tile t).rg f.rb) f.len.toNat d) := by
  have body := exec_body (s := s) (c := .send t f) rfl hb (by simp [MsgForm.badSend, hd, hlen]) (.inl rfl)
  have same : (Fin.ofNat 256 d.val : TileId) = d := Fin.ext (Nat.mod_eq_of_lt d.isLt)
  have near : ¬ 256 ≤ d.val := Nat.not_le.mpr d.isLt
  simpa only [lsOperand_none ha hl, lsError_of_sound hs, Bool.false_eq_true, and_false, if_false, hdst, if_neg near, same] using body

/-- SEND's one message: the payload, and the poison flag of its marks (06 R186, R188). -/
def sentMsg (u : State) (t : TileId) (a : W64) (n : Nat) (wd : WardId) (r : Route) : Msg :=
  ⟨t, wd, r.gate != 0xFF, if r.gate = 0xFF then 0 else r.gate, decide (n ≠ 0) && (u.tile t).marked (a.toNat - lsBase) n, (u.tile t).lsBytes a n⟩

variable {wd : WardId} {r : Route}

theorem doSend_credit (hw : u.tileWard t = some wd) (hr : u.route wd d = some r) (hc : u.hasCredit (.tile t) wd.val = true)
    (hs : (u.tile t).lsSound (a.toNat - lsBase) n = true) :
    u.doSend t a n d = (({ u with net := u.net ++ [mkPkt .msg 0 (.tile t) (.tile d) wd wd.val 0 (u.sentMsg t a n wd r).poison
      (.message (u.sentMsg t a n wd r)) noLine] } : State).countTile t 10 1).retireAs t true ((u.tile t).pc + 4) := by
  have sent := doSend.eq_def u t a n d
  simp only [hw, hr, hc, if_true, lsCorrect_of_sound hs] at sent
  rw [sent, sendPkt_msg rfl, retireAlone, pc_countTile]
  rfl

theorem doSend_noCredit (hw : u.tileWard t = some wd) (hr : u.route wd d = some r) (hc : u.hasCredit (.tile t) wd.val = false) :
    u.doSend t a n d = u.updTile t (fun y => { y with mode := .inSend a n d }) := by
  simp only [doSend, hw, hr, hc, Bool.false_eq_true, if_false]

theorem doSend_noRoute (hw : u.tileWard t = some wd) (hr : u.route wd d = none) : u.doSend t a n d = u.except t 12 0 := by
  simp only [doSend, hw, hr]

/-! #### RECV -/

theorem exec_recvOp (hb : s.begins (.recv t f) t u) (hrb : f.rb = 0) (hlen : f.len = 0) (ha : ((u.tile t).rg f.ra).toNat % 8 = 0)
    (hl : inLs ((u.tile t).rg f.ra).toNat 64 = true) : exec (.recv t f) s = .next (u.doRecv t ((u.tile t).rg f.ra) f.rd) := by
  have body := exec_body (s := s) (c := .recv t f) rfl hb (by simp [MsgForm.badRecv, hrb, hlen]) (.inl rfl)
  simpa only [lsOperand_none ha (.inr hl)] using body

end State

/-- A message's payload, rounded up to 8 bytes with zeros (05 R165). -/
def Msg.padded (m : Msg) : List Byte := m.bytes ++ List.replicate (8 * ((m.bytes.length + 7) / 8) - m.bytes.length) 0

theorem Msg.padded_length (m : Msg) : m.padded.length = 8 * ((m.bytes.length + 7) / 8) := by
  rw [Msg.padded, List.length_append, List.length_replicate]
  omega

theorem Msg.getD_padded (m : Msg) (i : Nat) : m.padded.getD i 0 = m.bytes.getD i 0 := by
  rw [Msg.padded]
  by_cases h : i < m.bytes.length
  · rw [List.getD_append _ _ _ _ h]
  · rw [List.getD_append_right _ _ _ _ (Nat.le_of_not_lt h), List.getD_eq_default _ _ (Nat.le_of_not_lt h)]
    simp only [List.getD_eq_getElem?_getD, List.getElem?_replicate]
    split_ifs <;> rfl

/-- The words that are marked, or whose mark is taken away, and no others. -/
theorem Tile.markWords_get (n : Nat) : ∀ (y : Tile) (o : Nat) (b : Bool) (k : Nat), o % 8 = 0 →
    (y.markWords o b n).lsPoison.get false k = if o / 8 ≤ k ∧ k < o / 8 + n then b else y.lsPoison.get false k := by
  induction n with
  | zero =>
    intro y o b k _
    rw [if_neg (by omega)]
    rfl
  | succ n ih =>
    intro y o b k ho
    rw [Tile.markWords, ih _ _ _ _ (by omega)]
    by_cases hk : k = o / 8
    · subst hk
      rw [if_neg (by omega), if_pos (by omega)]
      exact Tbl.get_put ..
    · rw [Tbl.get_put_other _ _ _ _ _ _ hk]
      refine if_congr (by omega) rfl rfl

namespace State
variable {s u w : State} {c : Instr} {t d : TileId} {f : MsgForm} {a : W64} {n al o : Nat}

theorem doRecv_empty {rd : BitVec 5} (h : (u.tile t).inbox = []) : u.doRecv t a rd = u.updTile t (fun y => { y with mode := .inRecv a rd }) := by
  rw [doRecv, h]

/-- Local store with the message `m` written at `o`, with or without marks (05 R165, 04 R143). -/
def inLocalStore (y : Tile) (o : Nat) (m : Msg) : Tile := (y.lsWriteBytes o m.padded).markWords o m.poison ((m.bytes.length + 7) / 8)

theorem inLocalStore_eq (y : Tile) (o : Nat) (m : Msg) : inLocalStore y o m =
    { y with ls := (inLocalStore y o m).ls, lsPoison := (inLocalStore y o m).lsPoison, lsBad := (inLocalStore y o m).lsBad,
             lsFix := (inLocalStore y o m).lsFix } := by
  unfold inLocalStore
  generalize hz : y.lsWriteBytes o m.padded = z
  have written := Tile.lsWriteBytes_eq m.padded y o
  rw [hz] at written
  generalize hx : z.markWords o m.poison ((m.bytes.length + 7) / 8) = x
  have marked := Tile.markWords_eq m.poison ((m.bytes.length + 7) / 8) z o
  rw [hx] at marked
  calc x = { z with lsPoison := x.lsPoison } := marked
    _ = { { y with ls := z.ls, lsBad := z.lsBad, lsFix := z.lsFix } with lsPoison := x.lsPoison } := congrArg (fun q : Tile => { q with lsPoison := x.lsPoison }) written
    _ = { y with ls := x.ls, lsPoison := x.lsPoison, lsBad := x.lsBad, lsFix := x.lsFix } := by
      rw [show x.ls = z.ls by rw [marked], show x.lsBad = z.lsBad by rw [marked], show x.lsFix = z.lsFix by rw [marked]]

theorem inLocalStore_ls (y : Tile) (o : Nat) (m : Msg) (j : Nat) :
    (inLocalStore y o m).ls.get 0 j = if o ≤ j ∧ j < o + 8 * ((m.bytes.length + 7) / 8) then m.bytes.getD (j - o) 0 else y.ls.get 0 j := by
  rw [inLocalStore, Tile.markWords_ls, Tile.lsWriteBytes_get, m.padded_length, m.getD_padded]

theorem inLocalStore_lsPoison (y : Tile) {o : Nat} (m : Msg) (h : o % 8 = 0) (k : Nat) :
    (inLocalStore y o m).lsPoison.get false k = if o / 8 ≤ k ∧ k < o / 8 + (m.bytes.length + 7) / 8 then m.poison else y.lsPoison.get false k := by
  rw [inLocalStore, Tile.markWords_get _ _ _ _ _ h, Tile.lsWriteBytes_eq]

/-- The tile after RECV has taken the message `m`. -/
def received (y : Tile) (a : W64) (rd : BitVec 5) (m : Msg) (rest : List Msg) : Tile :=
  { (inLocalStore y (a.toNat - lsBase) m).wg rd (recvWord m) with inbox := rest }

theorem received_eq (y : Tile) (a : W64) (rd : BitVec 5) (m : Msg) (rest : List Msg) : received y a rd m rest =
    { y.wg rd (recvWord m) with
      ls := (inLocalStore y (a.toNat - lsBase) m).ls, lsPoison := (inLocalStore y (a.toNat - lsBase) m).lsPoison,
      lsBad := (inLocalStore y (a.toNat - lsBase) m).lsBad, lsFix := (inLocalStore y (a.toNat - lsBase) m).lsFix, inbox := rest } :=
  congrArg (fun z : Tile => { z with inbox := rest })
    ((congrArg (Tile.wg · rd (recvWord m)) (inLocalStore_eq y (a.toNat - lsBase) m)).trans (Tile.wg_with_ls ..))

theorem doRecv_cons {rd : BitVec 5} {m : Msg} {rest : List Msg} (h : (u.tile t).inbox = m :: rest) :
    u.doRecv t a rd = ((u.updTile t (fun y => received y a rd m rest)).countTile t 11 1).retireAs t true ((u.tile t).pc + 4) := by
  have pc : ∀ y, (received y a rd m rest).pc = y.pc := fun y => by rw [received_eq, Tile.wg_pc]
  have taken := doRecv.eq_def u t a rd
  simp only [h] at taken
  calc u.doRecv t a rd = ((u.updTile t (fun y => received y a rd m rest)).countTile t 11 1).retireAlone t := taken
    _ = _ := by rw [retireAlone, pc_countTile, pc_updTile pc]

end State

section
open State

/-- Settles O13: the operands lie in local store; SEND's message is one packet of the tile's crossing, which needs a credit, and RECV
writes its message before it retires. -/
theorem messagesLeaveAndAreTaken : Obligations.MessagesLeaveAndAreTaken := by
  unfold Obligations.MessagesLeaveAndAreTaken
  refine ⟨fun s u t d f w hb hd hlen => ?_, fun s u t f hb hrb hlen => ?_⟩
  · intro y a n ha hl hs hdst hw
    have run := exec_sendOp hb hd hlen ha hl hs hdst
    refine ⟨fun r hr hc => ?_, fun r hr hc => ?_, fun hr hc => ?_⟩
    · rw [doSend_credit hw hr hc hs] at run
      obtain ⟨counted, p, o, tile⟩ := countTile_cases { u with net := u.net ++ [mkPkt .msg 0 (.tile t) (.tile d) w w.val 0 (u.sentMsg t a n w r).poison
        (.message (u.sentMsg t a n w r)) noLine] } t 10 1
      obtain ⟨v, hv, only, retired⟩ := retires_of_retireAs run counted tile
      exact ⟨v, hv, only.1, only.2, retired⟩
    · rw [doSend_noCredit hw hr hc] at run
      exact changes_of_updTile run rfl
    · rw [doSend_noRoute hw hr] at run
      exact traps_of_exec (by decide) (by decide) (by decide) hc run
  · intro y a o ha hl
    have run := exec_recvOp hb hrb hlen ha hl
    refine ⟨fun m rest hin => ?_, fun hin => ?_⟩
    · intro n head
      rw [doRecv_cons hin] at run
      have place : o % 8 = 0 := by
        show (a.toNat - lsBase) % 8 = 0
        unfold lsBase
        omega
      have words : n / 8 = (m.bytes.length + 7) / 8 := Nat.mul_div_cancel_left _ (by decide)
      refine ⟨_, _, _, _, retires_of_countTile run (onlyTile_updTile ..) ((tile_updTile ..).trans (received_eq y a f.rd m rest)), inLocalStore_ls y _ m, fun k => ?_⟩
      rw [inLocalStore_lsPoison y m place, words]
    · rw [doRecv_empty hin] at run
      exact changes_of_updTile run rfl

end
end Sys2Proof.Machine

namespace Sys2Proof.Machine

/-! ### GETWORK, PUTTOK and PSET (04 R139, R143; 05 R164, R166) -/

/-- A bit that has been put reads as it was put. -/
theorem putBitN_testBit_self (v i : Nat) (b : Bool) : (putBitN v i b).testBit i = b := by
  unfold putBitN
  split_ifs with h
  · exact eq_of_beq h
  · rw [Nat.testBit_xor, Nat.testBit_two_pow_self]
    cases b <;> simp_all

namespace State
variable {s u : State} {c : Instr} {t : TileId} {f : MsgForm} {a : W64} {wd : WardId}

/-- A command that changes its tile, but for the PC, and then retires it alone at the next instruction. -/
theorem retires_of_retireAlone {y : Tile} {g : Tile → Tile} (he : exec c s = .next ((u.updTile t g).retireAlone t)) (hy : g (u.tile t) = y)
    (hpc : y.pc = (u.tile t).pc) : retires c s u t y ((u.tile t).pc + 4) := by
  rw [retireAlone, tile_updTile, hy, hpc] at he
  exact retires_of_updTile he hy

theorem exec_getworkOp (hb : s.begins (.getwork t f) t u) (hrb : f.rb = 0) (hlen : f.len = 0) (ha : ((u.tile t).rg f.ra).toNat % 32 = 0)
    (hl : inLs ((u.tile t).rg f.ra).toNat 96 = true) (hi : (u.tile t).item = none) :
    exec (.getwork t f) s = .next (if u.subscribed t = [] then (u.updTile t (fun y => y.wg f.rd 0)).retireAlone t
      else { u with gwQueue := u.gwQueue.erase t ++ [t] }.updTile t (fun y => { y with mode := .inGetwork ((u.tile t).rg f.ra) f.rd })) := by
  have body := exec_body (s := s) (c := .getwork t f) rfl hb (by simp [MsgForm.badRecv, hrb, hlen]) (.inl rfl)
  have held : u.endItem t = u := by simp only [endItem, hi]
  simpa only [lsOperand_none ha (.inr hl), held] using body

theorem exec_puttokOp (hb : s.begins (.puttok t f) t u) (hrd : f.rd = 0) (hrb : f.rb = 0) (hlen : f.len = 0) (ha : ((u.tile t).rg f.ra).toNat % 32 = 0)
    (hl : inLs ((u.tile t).rg f.ra).toNat 32 = true) (hs : (u.tile t).lsSound (((u.tile t).rg f.ra).toNat - lsBase) 32 = true)
    (hw : u.tileWard t = some wd) (hn : u.nodeFault wd (tokenOf ((u.tile t).lsBytes ((u.tile t).rg f.ra) 32)) = false) :
    exec (.puttok t f) s = .next (u.doPuttok t ((u.tile t).rg f.ra)) := by
  have body := exec_body (s := s) (c := .puttok t f) rfl hb (by simp [MsgForm.badPut, hrd, hrb, hlen]) (.inl rfl)
  simpa only [lsOperand_none ha (.inr hl), lsError_of_sound hs, Bool.false_eq_true, if_false, hw, hn] using body

/-- The token that PUTTOK sends: that of local store, with the tile's ward and the poison flag of its marks (07 R196). -/
def putToken (u : State) (t : TileId) (a : W64) (wd : WardId) : Token :=
  { tokenOf ((u.tile t).lsBytes a 32) with
    tflags := BitVec.ofNat 8 (putBitN (tokenOf ((u.tile t).lsBytes a 32)).tflags.toNat 0 ((u.tile t).marked (a.toNat - lsBase) 32))
    sward := BitVec.ofNat 8 wd.val }

theorem putToken_sward : (u.putToken t a wd).sward.toNat = wd.val := by
  rw [putToken, BitVec.toNat_ofNat]
  omega

theorem putToken_poison : (u.putToken t a wd).tflags.getLsbD 0 = (u.tile t).marked (a.toNat - lsBase) 32 := by
  rw [putToken, BitVec.getLsbD_ofNat, putBitN_testBit_self, decide_eq_true (by decide), Bool.true_and]

/-- PUTTOK waits, and its token leaves while the crossing has a credit (04 R141). -/
theorem doPuttok_credit (hw : u.tileWard t = some wd) (hp : u.puttokOut t = false) (hc : u.hasCredit (.tile t) wd.val = true)
    (hs : (u.tile t).lsSound (a.toNat - lsBase) 32 = true) :
    u.doPuttok t a = { u with net := u.net ++ [mkPkt .msg 1 (.tile t) lampStop wd wd.val 0
      ((u.tile t).marked (a.toNat - lsBase) 32) (.token (u.putToken t a wd) (.puttok t)) noLine] }.updTile t (fun y => { y with mode := .inPuttok a }) := by
  generalize hx : u.updTile t (fun y => { y with mode := .inPuttok a }) = x
  have tile : x.tile t = { u.tile t with mode := .inPuttok a } := by rw [← hx, tile_updTile]
  have net : x.net = u.net := by rw [← hx]; rfl
  have out : x.puttokOut t = false := by rw [← hx]; exact hp
  have credit : x.hasCredit (.tile t) wd.val = true := by rw [← hx]; exact hc
  have sound : x.lsCorrect t (a.toNat - lsBase) 32 = x := lsCorrect_of_sound (by rw [tile]; exact hs)
  simp only [doPuttok, hw, hx, out, credit, sound, Bool.not_true, Bool.or_self, Bool.false_eq_true, if_false, tile]
  refine (sendPkt_msg rfl).trans ?_
  rw [net, ← hx]
  rfl

theorem exec_pset (hb : s.begins (.pset t f) t u) (hrd : f.rd = 0) (hrb : f.rb = 0) (hlen : f.len = 0) (ha : ((u.tile t).rg f.ra).toNat % 8 = 0)
    (hl : inLs ((u.tile t).rg f.ra).toNat 8 = true) :
    exec (.pset t f) s = .next ((u.updTile t (fun y => { y with lsPoison := y.lsPoison.put false ((((u.tile t).rg f.ra).toNat - lsBase) / 8) true })).retireAlone t) := by
  have body := exec_body (s := s) (c := .pset t f) rfl hb (by simp [MsgForm.badPut, hrd, hrb, hlen]) (.inl rfl)
  simpa only [lsOperand_none ha (.inr hl)] using body

end State

section
open State

/-- Settles O14: each operand lies in local store; GETWORK retires with 0 or joins the queue, PUTTOK waits behind the packet of its
token, and PSET puts one mark. -/
theorem workInstructionsIssue : Obligations.WorkInstructionsIssue := by
  unfold Obligations.WorkInstructionsIssue
  intro s u t f hrb hlen y a
  refine ⟨fun hb ha hl hi => ?_, fun w hb hrd ha hl hs hw hp hc hn => ?_, fun hb hrd ha hl => ?_⟩
  · have run := exec_getworkOp hb hrb hlen ha hl hi
    constructor
    · intro hsub
      rw [if_pos hsub] at run
      exact retires_of_retireAlone run rfl (Tile.wg_pc ..)
    · intro hsub
      rw [if_neg hsub] at run
      exact ⟨_, run, rfl, (onlyTile_updTile _ t _).2, tile_updTile ..⟩
  · have run := exec_puttokOp hb hrd hrb hlen ha hl hs hw hn
    rw [doPuttok_credit hw hp hc hs] at run
    exact ⟨_, u.putToken t a w, run, tile_updTile .., (onlyTile_updTile _ t _).2, rfl, rfl, rfl, rfl, putToken_sward, putToken_poison⟩
  · refine ⟨_, retires_of_retireAlone (exec_pset hb hrd hrb hlen ha hl) rfl rfl, fun k => ?_⟩
    by_cases hk : k = (a.toNat - lsBase) / 8
    · rw [hk, Tbl.get_put, beq_self_eq_true, Bool.true_or]
    · rw [Tbl.get_put_other _ _ _ _ _ _ hk, beq_eq_false_iff_ne.mpr hk, Bool.false_or]

end
end Sys2Proof.Machine

namespace Sys2Proof.Machine

/-! ### Pending interrupts and register writes by a port (04 R126, R128) -/

namespace State
variable {s u : State} {c : Instr} {t : TileId} {p : Port}

theorem bN_lt (b : Bool) : bN b < 2 := by cases b <;> decide
theorem bN_eq_one (b : Bool) : decide (bN b = 1) = b := by cases b <;> rfl

/-- STATUS as a number (04 R126). -/
theorem tileStatus_toNat (s : State) (t : TileId) : (s.tileStatus t).toNat = bN (s.tile t).k + 2 * bN (s.tile t).ie + 256 * (s.tile t).im.toNat
    + 0x10000 * bN (decide ((s.tile t).inbox ≠ [])) + 0x20000 * bN (decide ((s.tile t).timecmp.toNat ≤ s.supTime)) + 0x40000 * bN (s.tile t).ipDoorbell := by
  have k := bN_lt (s.tile t).k
  have ie := bN_lt (s.tile t).ie
  have inbox := bN_lt (decide ((s.tile t).inbox ≠ []))
  have timer := bN_lt (decide ((s.tile t).timecmp.toNat ≤ s.supTime))
  have bell := bN_lt (s.tile t).ipDoorbell
  have im := (s.tile t).im.isLt
  rw [tileStatus, BitVec.toNat_ofNat]
  omega

theorem tileStatus_pending (s : State) (t : TileId) : bitN (s.tileStatus t).toNat 16 = !(s.tile t).inbox.isEmpty
    ∧ bitN (s.tileStatus t).toNat 17 = decide ((s.tile t).timecmp.toNat ≤ s.supTime) ∧ bitN (s.tileStatus t).toNat 18 = (s.tile t).ipDoorbell := by
  have k := bN_lt (s.tile t).k
  have ie := bN_lt (s.tile t).ie
  have inbox := bN_lt (decide ((s.tile t).inbox ≠ []))
  have timer := bN_lt (decide ((s.tile t).timecmp.toNat ≤ s.supTime))
  have bell := bN_lt (s.tile t).ipDoorbell
  have im := (s.tile t).im.isLt
  have filled : (!(s.tile t).inbox.isEmpty) = decide ((s.tile t).inbox ≠ []) := by cases (s.tile t).inbox <;> rfl
  rw [filled, ← bN_eq_one (decide ((s.tile t).inbox ≠ [])), ← bN_eq_one (decide ((s.tile t).timecmp.toNat ≤ s.supTime)), ← bN_eq_one (s.tile t).ipDoorbell,
    tileStatus_toNat, bitN, bitN, bitN, Nat.testBit_eq_decide_div_mod_eq, Nat.testBit_eq_decide_div_mod_eq, Nat.testBit_eq_decide_div_mod_eq]
  simp only [decide_eq_decide, Nat.reducePow]
  omega

/-- The interrupts in the order in which they are taken: inbox, timer, doorbell (04 R128). -/
theorem pendingInt_eq (s : State) (t : TileId) : s.pendingInt t =
    if (s.tile t).im.getLsbD 0 && !(s.tile t).inbox.isEmpty then some 0x20
    else if (s.tile t).im.getLsbD 1 && decide ((s.tile t).timecmp.toNat ≤ s.supTime) then some 0x21
    else if (s.tile t).im.getLsbD 2 && (s.tile t).ipDoorbell then some 0x22 else none := by
  obtain ⟨inbox, timer, bell⟩ := tileStatus_pending s t
  unfold pendingInt
  dsimp only
  rw [inbox, timer, bell, Bool.and_comm (!_), Bool.and_comm (decide _), Bool.and_comm (s.tile t).ipDoorbell]
  rfl

/-- A write that a port may carry out does what the register does. -/
theorem hostWrite_of_carries {off v : Nat} {vf : Option Nat} {own : Bool} {f : State → State} (h : s.carries p vf own) : s.hostWrite p off vf v own f = f s := by
  rcases h with ⟨rfl, ho, hw⟩ | ⟨w, rfl, ho, hv, hw, hr, hown⟩
  · exact hostWrite_s ho hw
  · obtain ⟨a, rfl⟩ := Option.ne_none_iff_exists'.mp hv
    simp [hostWrite, ho, hw, hr, hown]

/-! ### Fences (05 R167; 10 R280, R281) -/

variable {f : FenceForm} {sc : FScope} {fm : FForm} {ls : List LineAddr}

/-- A fence of scope C. -/
theorem retires_fenceC (hc : exec c s = .next (s.fenceOp c t f .c fm)) (hf : f.bad = false) (hb : s.begins c t u) :
    retires c s u t (u.tile t) ((u.tile t).pc + 4) :=
  retires_of_retireAs (exec_body hc hb hf (.inl rfl)) (onlyTile_refl u t) rfl

/-- With nothing in the store buffer there is nothing to drain, and only the quarter's early lines to wait for. -/
theorem fenceLines_empty (h : (u.tile t).sb = []) (sc : FScope) : u.fenceLines t sc = if sc = .s then u.earlyLines (tileQuarter t) else [] := by
  cases sc <;> simp [fenceLines, h]

theorem drainWhere_empty (h : (u.tile t).sb = []) (q : SbEntry → Bool) : u.drainWhere t q = (true, u) := by
  rw [drainWhere, h]
  rfl

/-- A fence of scope Q or S that finds the store buffer empty. -/
theorem waits_fence (hc : exec c s = .next (s.fenceOp c t f sc fm)) (hf : f.bad = false) (hsc : sc ≠ .c) (hsb : (u.tile t).sb = []) (hb : s.begins c t u) :
    ∃ v, exec c s = .next v ∧ onlyTile u v t ∧ v.tile t = { u.tile t with mode := .inFence sc fm (if sc = .s then u.earlyLines (tileQuarter t) else []) } := by
  have body := exec_body hc hb hf (.inl rfl)
  simp only [drainWhere_empty hsb, fenceLines_empty hsb, ite_self] at body
  cases sc with
  | c => exact absurd rfl hsc
  | q => exact changes_of_updTile body rfl
  | s => exact changes_of_updTile body rfl

theorem linesDone_of (h : ∀ l ∈ ls, s.quarterEarly (tileQuarter t) l = false) : s.linesDone t ls = true :=
  List.all_eq_true.mpr fun l hl => by rw [h l hl]; rfl

theorem releaseDone_of (h : ∀ l ∈ ls, s.quarterEarly (tileQuarter t) l = false) (hsb : (s.tile t).sb = []) (ho : s.tileStoresOut t = false) :
    s.releaseDone t ls = true := by
  rw [releaseDone, hsb, ho, linesDone_of h]
  rfl

theorem retires_of_acquireEnd (he : exec c s = .next (u.acquireEnd t)) : retires c s u t { u.tile t with l1d := [] } ((u.tile t).pc + 4) :=
  retires_of_retireAlone he rfl rfl

end State

section
open State

/-- Settles O15, in three parts: the fences by their scope, the end of a fence by its form, and then WAIT, SYNC.I, the timer and the
doorbell. -/
theorem fencesWaitsAndDoorbells : Obligations.FencesWaitsAndDoorbells := by
  unfold Obligations.FencesWaitsAndDoorbells
  refine ⟨fun s u t f => ⟨fun hrd hra hrb hrsv => ?_, fun sc fm ls hm hl => ?_⟩,
    fun s u t f => ⟨fun hrd hra himm => ?_, fun hm him htime hact => ?_, fun p => ⟨heldBack_of_hostWrite rfl, fun hp => ⟨fun hw hst => ?_, fun hst => ?_⟩⟩⟩⟩
  · have bad : f.bad = false := by simp [FenceForm.bad, hrd, hra, hrb, hrsv]
    refine ⟨retires_fenceC rfl bad, retires_fenceC rfl bad, retires_fenceC rfl bad, fun hsb => ?_⟩
    exact ⟨waits_fence rfl bad nofun hsb, waits_fence rfl bad nofun hsb, waits_fence rfl bad nofun hsb,
      waits_fence rfl bad nofun hsb, waits_fence rfl bad nofun hsb, waits_fence rfl bad nofun hsb⟩
  · have run : exec (.fenceComplete t) s = .next (s.fenceStep t) := rfl
    refine ⟨?_, ?_, ?_⟩
    · rintro rfl
      rw [fenceStep, hm] at run
      simp only [linesDone_of hl, if_true] at run
      exact retires_of_acquireEnd run
    · rintro rfl hsb ho
      rw [fenceStep, hm] at run
      simp only [releaseDone_of hl hsb ho, if_true] at run
      exact retires_of_retireAs run (onlyTile_refl s t) rfl
    · rintro rfl hsb ho rfl
      rw [fenceStep, hm] at run
      simp only [releaseDone_of hl hsb ho, if_true, reduceCtorEq, if_false] at run
      exact retires_of_acquireEnd run
  · have bad : (!sysZero f) = false := by simp [sysZero, hrd, hra, himm]
    refine ⟨fun code hb hi => ?_, fun hb hi => ?_, fun hb => ?_⟩
    · have run := exec_body (c := .wait t f) rfl hb bad (.inl rfl)
      simp only [hi, Option.isSome_some, if_true] at run
      exact retires_of_retireAs run (onlyTile_refl u t) rfl
    · have run := exec_body (c := .wait t f) rfl hb bad (.inl rfl)
      simp only [hi, Option.isSome_none, Bool.false_eq_true, if_false] at run
      exact changes_of_updTile run rfl
    · exact retires_of_retireAlone (exec_body (c := .syncI t f) rfl hb bad (.inl rfl)) rfl rfl
  · have pending : (s.pendingInt t).isSome = true := by
      rw [pendingInt_eq, him, decide_eq_true htime, Bool.and_self, if_pos rfl]
      split_ifs <;> rfl
    have run : exec (.timecmpReached t) s = .next (if (s.tile t).timecmp.toNat ≤ s.supTime && s.coreActive then s.endWait t else s) := rfl
    rw [decide_eq_true htime, hact, Bool.and_self, if_pos rfl, endWait, if_pos ⟨hm, pending⟩] at run
    exact retires_of_retireAs run (onlyTile_refl s t) rfl
  · have run : exec (.doorbell p t) s = .next _ := congrArg Host.Outcome.next (hostWrite_of_carries hp)
    have still : ((s.updTile t (fun y => { y with ipDoorbell := true })).tile t).mode ≠ .inWait := by rw [tile_updTile]; exact hw
    rw [doorbell, if_neg hst, endWait, if_neg (fun h => still h.1)] at run
    exact changes_of_updTile run rfl
  · have run : exec (.doorbell p t) s = .next _ := congrArg Host.Outcome.next (hostWrite_of_carries hp)
    rwa [doorbell, if_pos hst] at run

end
end Sys2Proof.Machine

namespace Sys2Proof.Machine

/-! ### Tile reset and RUN (04 R117, R146) -/

namespace State
variable {s : State} {t : TileId} {p : Port}

/-- The fields of a tile's register block stand at addresses of their own. -/
theorem discard_keys (t : Nat) : (F.TIL_CTRL_RUN t).key ≠ (F.TIL_AVE_CNT_DISCARD t).key ∧ (F.TIL_ENTRY_VALUE t).key ≠ (F.TIL_AVE_CNT_DISCARD t).key := by
  simp only [Fld.key, F.TIL_CTRL_RUN, F.TIL_AVE_CNT_DISCARD, F.TIL_ENTRY_VALUE]
  omega

theorem resetting_run_key (w : WardId) (t : Nat) : (F.WRD_STATUS_RESETTING w.val).key ≠ (F.TIL_CTRL_RUN t).key := by
  have := w.isLt
  simp only [Fld.key, F.TIL_CTRL_RUN, F.WRD_STATUS_RESETTING]
  omega

/-- What PUTTOK has sent leaves without a trace in the tiles and the fields. -/
theorem dropPuttok_tiles (s : State) (t : TileId) : (s.dropPuttok t).tiles = s.tiles := by
  unfold dropPuttok
  refine (foldl_keeps tiles (fun u w => ?_) _ _).trans rfl
  dsimp only
  split_ifs <;> rfl

theorem dropPuttok_fld (s : State) (t : TileId) : (s.dropPuttok t).fld = s.fld := by
  unfold dropPuttok
  refine (foldl_keeps fld (fun u w => ?_) _ _).trans rfl
  dsimp only
  split_ifs <;> rfl

/-- The steps of R146 after PUTTOK's token has left and before the registers are cleared. -/
def settleReset (s : State) (t : TileId) : State :=
  ({ s.discardInbox t with gwQueue := s.gwQueue.erase t }.forgetAccesses t).liftTileHalts t

theorem settleReset_tiles (s : State) (t : TileId) : (s.settleReset t).tiles = s.tiles := rfl
theorem settleReset_getF (s : State) (t : TileId) (f : Fld) : (s.settleReset t).getF f = (s.discardInbox t).getF f := rfl

/-- The state that a reset of a tile without an item leaves but for the tile itself. -/
def resetSettled (s : State) (t : TileId) : State := (s.dropPuttok t).settleReset t

theorem resetSettled_tile (s : State) (t r : TileId) : (s.resetSettled t).tile r = s.tile r :=
  tile_congr ((settleReset_tiles _ t).trans (dropPuttok_tiles s t)) r

theorem resetSettled_getF_other {f : Fld} (h : f.key ≠ (F.TIL_AVE_CNT_DISCARD t.val).key) : (s.resetSettled t).getF f = s.getF f := by
  rw [resetSettled, settleReset_getF, discardInbox, getF_bumpF_other h, getF_congr (dropPuttok_fld s t)]

theorem resetSettled_discarded : (s.resetSettled t).getF (F.TIL_AVE_CNT_DISCARD t.val) =
    min (2 ^ 16 - 1) (s.getF (F.TIL_AVE_CNT_DISCARD t.val) + (s.tile t).inbox.length) := by
  rw [resetSettled, settleReset_getF, discardInbox, getF_bumpF, getF_congr (dropPuttok_fld s t), tile_congr (dropPuttok_tiles s t)]
  rfl

/-- The last step of a reset: the tile's registers are cleared (04 R117). -/
def clearTile (s : State) (t : TileId) : State :=
  let s := s.updTile t (fun y => y.resetRegs (BitVec.ofNat 64 (s.getF (F.TIL_ENTRY_VALUE t.val))) (s.isF (F.TIL_CTRL_RUN t.val)))
  s.updTile t (fun y => { y with halted := s.haltCovers t })

theorem clearTile_tile (s : State) (t : TileId) : ∃ h, (s.clearTile t).tile t =
    { (s.tile t).resetRegs (BitVec.ofNat 64 (s.getF (F.TIL_ENTRY_VALUE t.val))) (s.isF (F.TIL_CTRL_RUN t.val)) with halted := h } :=
  ⟨_, by rw [clearTile, tile_updTile, tile_updTile]⟩

theorem clearTile_only (s : State) (t : TileId) : onlyTile s (s.clearTile t) t := by
  unfold clearTile
  exact onlyTile_trans (onlyTile_updTile ..) (onlyTile_updTile ..)

theorem getF_of_onlyTile {u v : State} (h : onlyTile u v t) (f : Fld) : v.getF f = u.getF f := by
  rw [h.1]
  rfl

theorem resetTile_idle (hi : (s.tile t).item = none) (hw : (s.tile t).workIn = none) : s.resetTile t false = (s.resetSettled t).clearTile t := by
  have held : s.failAll t 3 = s := by simp only [failAll, failHeld, hi, hw]
  simp only [resetTile, held, resetSettled, Bool.false_eq_true, if_false]
  generalize s.dropPuttok t = d
  rfl

/-- The reset of a tile that holds no item (04 R117, R146). -/
theorem resetTile_resets (hi : (s.tile t).item = none) (hw : (s.tile t).workIn = none) :
    (∃ h, (s.resetTile t false).tile t =
      { (s.tile t).resetRegs (BitVec.ofNat 64 (s.getF (F.TIL_ENTRY_VALUE t.val))) (s.isF (F.TIL_CTRL_RUN t.val)) with halted := h })
    ∧ (∀ r, r ≠ t → (s.resetTile t false).tile r = s.tile r) ∧ ∀ f, (s.resetTile t false).getF f = (s.resetSettled t).getF f := by
  have run : (s.resetSettled t).isF (F.TIL_CTRL_RUN t.val) = s.isF (F.TIL_CTRL_RUN t.val) :=
    congrArg (· != 0) (resetSettled_getF_other (discard_keys t.val).1)
  have entry := resetSettled_getF_other (s := s) (discard_keys t.val).2
  have tiles := resetSettled_tile s t
  rw [resetTile_idle hi hw]
  generalize s.resetSettled t = d at *
  obtain ⟨h, tile⟩ := clearTile_tile d t
  have only := clearTile_only d t
  rw [tiles, run, entry] at tile
  exact ⟨⟨h, tile⟩, fun r hr => (only.2 r hr).trans (tiles r), getF_of_onlyTile only⟩

/-- RUN starts a held tile (04 R117). -/
theorem setRun_starts {w : WardId} (hm : (s.tile t).mode = .held) (hw : s.tileWard t = some w) (hr : s.resettingWard w = false) :
    s.setRun t true = (s.setB (F.TIL_CTRL_RUN t.val) true).updTile t (fun y => { y with mode := .running, halted := s.haltCovers t }) := by
  have steady : (s.setB (F.TIL_CTRL_RUN t.val) true).resettingWard w = false := by
    rw [resettingWard, isF, setB, getF_setF_other _ _ _ _ (resetting_run_key w t.val)]
    exact hr
  have held : ((s.setB (F.TIL_CTRL_RUN t.val) true).tile t).mode = .held := hm
  have ward : (s.setB (F.TIL_CTRL_RUN t.val) true).tileWard t = some w := hw
  have halts : (s.setB (F.TIL_CTRL_RUN t.val) true).haltCovers t = s.haltCovers t := rfl
  simp only [setRun, held, ward, steady, halts, Option.any_some, decide_true, Bool.not_false, Bool.and_self, if_true]

end State

section
open State

/-- Settles O16: a reset of a tile without an item discards the inbox and clears the registers, and a write of RUN starts a held tile. -/
theorem tileResetAndRun : Obligations.TileResetAndRun := by
  unfold Obligations.TileResetAndRun
  refine fun s p t => ⟨⟨heldBack_of_hostWrite rfl, fun run => heldBack_of_hostWrite rfl⟩, fun hp => ?_⟩
  have reset : exec (.tileReset p t) s = .next (s.ctrlReset t) := congrArg Host.Outcome.next (hostWrite_of_carries hp)
  have runs : ∀ run, exec (.tilRunWrite p t run) s = .next (s.setRun t run) := fun run => congrArg Host.Outcome.next (hostWrite_of_carries hp)
  refine ⟨fun hr => ?_, fun hr hi hw => ?_, fun w hm hh hw hr => ?_, ?_⟩
  · rw [reset, ctrlReset, if_pos hr]
  · rw [ctrlReset, if_neg (by rw [hr]; decide)] at reset
    obtain ⟨⟨h, tile⟩, others, fields⟩ := resetTile_resets hi hw
    refine ⟨_, reset, ?_⟩
    rw [tile, fields, fields, resetSettled_getF_other (discard_keys t.val).1, resetSettled_discarded]
    exact ⟨Tile.rg_init, fun r => Vector.getElem_replicate .., rfl, rfl, rfl, rfl, rfl, rfl, rfl, rfl, rfl, rfl, rfl, others, rfl⟩
  · have run := runs true
    rw [setRun_starts hm hw hr, hh] at run
    exact ⟨_, run, getF_setF .., tile_updTile .., (onlyTile_updTile (s.setB (F.TIL_CTRL_RUN t.val) true) t _).2⟩
  · exact ⟨_, runs false, getF_setF .., rfl⟩

end
end Sys2Proof.Machine

namespace Sys2Proof.Machine

/-! ### A fetch leaves the g registers as they are (04 R128, R136) -/

namespace State
variable {s u v : State} {t : TileId} {q : QuarterId} {l : LineAddr} {set n : Nat}

/-- The g registers of every tile. -/
def gRegs (s : State) (t : TileId) : Vector W64 32 := (s.tile t).g

theorem gRegs_of_tiles (h : v.tiles = s.tiles) : v.gRegs = s.gRegs := funext fun r => by rw [gRegs, tile_congr h, gRegs]

theorem gRegs_of_copies (h : CopiesOnly s v) : v.gRegs = s.gRegs := funext fun r => by
  obtain ⟨_, _, _, tile⟩ := h.2 r
  rw [gRegs, tile, gRegs]

theorem gRegs_updTile {f : Tile → Tile} (h : ∀ y, (f y).g = y.g) : (s.updTile t f).gRegs = s.gRegs := funext fun r => by
  by_cases hr : r = t
  · rw [hr, gRegs, tile_updTile, h, gRegs]
  · rw [gRegs, tile_updTile_other _ _ _ _ hr, gRegs]

theorem gRegs_ite {c : Prop} [Decidable c] {x y : State} (hx : x.gRegs = s.gRegs) (hy : y.gRegs = s.gRegs) : (if c then x else y).gRegs = s.gRegs := by
  split_ifs <;> assumption

theorem gRegs_updQuarter (f : Quarter → Quarter) : (s.updQuarter q f).gRegs = s.gRegs := rfl

theorem gRegs_event (ev : Event) : (s.event ev).gRegs = s.gRegs := funext fun r => by rw [gRegs, (beaconOnly_event ev).tile, gRegs]
theorem gRegs_countTile (ev k : Nat) : (s.countTile t ev k).gRegs = s.gRegs := funext fun r => by
  obtain ⟨⟨-, others⟩, a, b, tile⟩ := countTile_cases s t ev k
  by_cases hr : r = t
  · rw [hr, gRegs, tile, gRegs]
  · rw [gRegs, others r hr, gRegs]

theorem gRegs_qcEvent (cls errKind kind w : Nat) (ward : Option WardId) : (s.qcEvent q cls errKind kind set w ward).gRegs = s.gRegs := by
  unfold qcEvent
  extract_lets s1 s2 s3
  have k1 : s1.gRegs = s.gRegs := gRegs_ite rfl rfl
  have k2 : s2.gRegs = s.gRegs := gRegs_ite k1 k1
  have k3 : s3.gRegs = s.gRegs := k2
  rw [gRegs_event, k3]

theorem gRegs_snd {α : Type} {p : α × State} {a : α} (e : p = (a, u)) (h : p.2.gRegs = s.gRegs) : u.gRegs = s.gRegs := by rwa [e] at h

theorem gRegs_ite_snd {α : Type} {c : Prop} [Decidable c] {x y : α × State} (hx : x.2.gRegs = s.gRegs) (hy : y.2.gRegs = s.gRegs) :
    (if c then x else y).2.gRegs = s.gRegs := by
  split_ifs <;> assumption

theorem gRegs_injects (tagArray : Bool) (w : Nat) : (s.injects q tagArray set w).2.gRegs = s.gRegs := gRegs_ite_snd rfl rfl

theorem gRegs_writeWay (w : Nat) (c : CWay) (written : Mask64) : (s.writeWay q set w c written).gRegs = s.gRegs := by
  unfold writeWay
  extract_lets old c2 tagWrite
  split
  next hit u e =>
    have tags : u.gRegs = s.gRegs := gRegs_snd e (gRegs_ite_snd (gRegs_injects true w) rfl)
    split
    next hit2 v e2 =>
      exact (gRegs_updQuarter _).trans (gRegs_snd e2 (gRegs_ite_snd (x := (false, u)) tags ((gRegs_injects false w).trans tags)))

theorem gRegs_putWay (w : Nat) (c : CWay) : (s.putWay q set w c).gRegs = s.gRegs := gRegs_writeWay w c 0

theorem gRegs_clearWay (w : Nat) : (s.clearWay q set w).gRegs = s.gRegs :=
  gRegs_ite ((gRegs_of_copies (copiesOnly_staleCopies _)).trans (gRegs_putWay w _)) (gRegs_putWay w _)

theorem gRegs_tagScan : (s.tagScan q set).gRegs = s.gRegs := by
  unfold tagScan
  refine foldl_keeps gRegs (fun u w => gRegs_ite ((gRegs_qcEvent ..).trans ?_) rfl) _ s
  exact gRegs_ite ((gRegs_updQuarter _).trans (gRegs_clearWay w)) (gRegs_clearWay w)

theorem gRegs_checkMask (w : Nat) : (s.checkMask q set w).gRegs = s.gRegs := by
  unfold checkMask
  refine foldl_keeps gRegs (fun u e => gRegs_ite rfl ?_) _ s
  extract_lets rest
  split
  · exact gRegs_putWay w _
  · exact (gRegs_qcEvent ..).trans (gRegs_putWay w _)
  · exact (gRegs_qcEvent ..).trans (gRegs_putWay w _)

theorem gRegs_qLook : (s.qLook q l).2.gRegs = s.gRegs := by
  unfold qLook
  extract_lets s1
  have scanned : s1.gRegs = s.gRegs := gRegs_tagScan
  clear_value s1
  split
  · exact scanned
  · exact (gRegs_checkMask _).trans scanned

theorem gRegs_checkBytes (w : Nat) (need : Mask64) : (s.checkBytes q set w need).2.gRegs = s.gRegs := by
  unfold checkBytes
  refine foldl_keeps (fun p : Bool × State => p.2.gRegs) (fun p e => ?_) _ (true, s)
  dsimp only
  refine gRegs_ite_snd rfl ?_
  split
  · exact gRegs_writeWay w _ _
  · exact (gRegs_qcEvent ..).trans (gRegs_writeWay w _ _)
  · exact gRegs_ite_snd ((gRegs_qcEvent ..).trans (gRegs_clearWay w)) ((gRegs_qcEvent ..).trans (gRegs_putWay w _))

theorem gRegs_qProbe (need : Mask64) : (s.qProbe q l need).2.gRegs = s.gRegs := by
  unfold qProbe
  dsimp only
  split
  next e => exact gRegs_snd e gRegs_qLook
  next w u e =>
    have found : (u.checkBytes q (setOf l) w need).2.gRegs = s.gRegs := (gRegs_checkBytes w need).trans (gRegs_snd e gRegs_qLook)
    exact gRegs_ite_snd found (gRegs_ite_snd found found)

theorem gRegs_issue (e : LEntry) : (s.issue e).gRegs = s.gRegs := by
  have opened : (s.openEntry e).2.gRegs = s.gRegs := by
    unfold openEntry
    dsimp only
    split
    · exact gRegs_ite rfl rfl
    · rfl
  have sent : ∀ (u : State) (x : Nat), (u.sendReq x e.req).gRegs = u.gRegs := fun u x => gRegs_ite rfl rfl
  have taken : (s.takeEntry e).gRegs = s.gRegs := by
    unfold takeEntry
    dsimp only
    refine gRegs_ite ?_ ((sent ..).trans opened)
    split
    · exact opened
    · exact (gRegs_of_tiles rfl).trans (gRegs_ite opened opened)
  exact gRegs_ite taken rfl

/-! #### The steps of a fetch -/

theorem gRegs_lineRead (wd : WardId) (x : Xlat) (need : Mask64) : (s.lineRead t wd x need).2.gRegs = s.gRegs := by
  unfold lineRead
  dsimp only
  refine gRegs_ite_snd ?_ (gRegs_ite_snd rfl (gRegs_issue _))
  split
  · rfl
  · split
    next e =>
      have probed := gRegs_snd e (gRegs_qProbe need)
      refine gRegs_ite ((gRegs_putWay ..).trans ?_) ?_ <;>
        exact (gRegs_updQuarter _).trans (gRegs_ite probed probed)
    next e =>
      have probed := gRegs_snd e (gRegs_qProbe need)
      exact gRegs_ite_snd probed ((gRegs_issue _).trans ((gRegs_countTile ..).trans probed))
    next e =>
      have probed := gRegs_snd e (gRegs_qProbe need)
      exact gRegs_ite_snd probed ((gRegs_issue _).trans ((gRegs_countTile ..).trans probed))

theorem gRegs_lsCorrect (o : Nat) : (s.lsCorrect t o n).gRegs = s.gRegs := by
  unfold lsCorrect
  refine foldl_keeps gRegs (fun u i => (gRegs_event _).trans (gRegs_updTile ?_)) _ s
  exact fun _ => rfl

theorem gRegs_l1iRead (need : Mask64) : (s.l1iRead t l need).2.gRegs = s.gRegs := by
  unfold l1iRead
  split
  · rfl
  · exact gRegs_ite_snd (gRegs_ite_snd rfl (gRegs_updTile fun _ => rfl)) rfl

theorem gRegs_fetched {w w2 : W32} (h : s.fetched t w2 = .ok u w) : u.gRegs = s.gRegs := by
  cases h
  exact gRegs_ite (gRegs_updTile fun _ => rfl) rfl

theorem gRegs_fetchLs {o : Nat} {w : W32} (h : s.fetchLs t o = .ok u w) : u.gRegs = s.gRegs := by
  unfold fetchLs at h
  extract_lets s1 line fresh at h
  have corrected : s1.gRegs = s.gRegs := gRegs_lsCorrect o
  have read : ∀ v : State, fresh v = .ok u w → u.gRegs = v.gRegs := fun v hv => by
    refine (gRegs_fetched hv).trans (gRegs_updTile ?_)
    exact fun _ => rfl
  clear_value s1 fresh
  split at h
  · exact (read _ h).trans corrected
  · have counted : s1.free.2.gRegs = s1.gRegs := rfl
    simp only at h
    generalize s1.free = x at counted h
    split_ifs at h
    · exact (read _ h).trans corrected
    · exact (gRegs_fetched h).trans corrected
    · exact (gRegs_fetched h).trans (counted.trans corrected)
    · exact (read _ h).trans (counted.trans corrected)

/-- A fetch changes no g register of its tile. -/
theorem gRegs_fetch {w : W32} (h : s.fetch t = .ok u w) : u.gRegs = s.gRegs := by
  unfold fetch at h
  extract_lets pc at h
  split at h
  · cases h
  · split_ifs at h with hl
    · exact gRegs_fetchLs h
    · split at h
      · cases h
      · split at h
        · cases h
        · extract_lets l need at h
          split at h
          next e =>
            have read := gRegs_snd e (gRegs_l1iRead need)
            split_ifs at h
            refine (gRegs_fetched h).trans ((gRegs_updTile ?_).trans read)
            exact fun _ => rfl
          next e =>
            have read := gRegs_snd e (gRegs_l1iRead need)
            extract_lets s1 at h
            have counted : s1.gRegs = s.gRegs := (gRegs_countTile ..).trans read
            split at h
            next e2 =>
              have line := gRegs_snd e2 (gRegs_lineRead ..)
              extract_lets s2 at h
              have pushed : s2.gRegs = s.gRegs := by
                refine (gRegs_updTile ?_).trans (line.trans counted)
                exact fun _ => rfl
              split_ifs at h
              exact (gRegs_fetched h).trans pushed
            next => cases h

theorem begins_rg {c : Instr} (h : s.begins c t u) (r : BitVec 5) : (s.tile t).rg r = (u.tile t).rg r := by
  obtain ⟨w, ⟨-, -, fetched⟩, -⟩ := h
  exact (Tile.rg_congr (congrFun (gRegs_fetch fetched) t) r).symm

end State
end Sys2Proof.Machine

namespace Sys2Proof.Machine

/-! ### Words that are ILLEGAL (05 R150) -/

/-- Command `c` runs an instruction of tile `t` that is ILLEGAL where `bad` says so. -/
def runsTile (c : Instr) (t : TileId) (bad : Bool) : Prop :=
  ∀ s, ∃ illegal priv body, exec c s = .next (s.tileOp c t illegal priv body) ∧ (bad = true → illegal = true)

theorem not_sysZero (f : SysForm) : (!sysZero f) = (f.rd != 0 || f.ra != 0 || f.imm != 0) := by
  rw [sysZero, Bool.not_and, Bool.not_and]
  rfl

theorem shiBad_of {i : BitVec 16} (h : i.toNat / 256 ≠ 0 ∨ i.toNat / 64 % 4 = 3) : shiBad i = true := by
  rw [shiBad, Bool.or_eq_true, decide_eq_true_eq, decide_eq_true_eq]
  omega

/-- Every tile instruction runs, and is ILLEGAL where R150 makes its word so. -/
theorem runsTile_of_tileWord {c : Instr} {t : TileId} {bad : Bool} (h : tileWord c = some (t, bad)) : runsTile c t bad := by
  unfold tileWord at h
  split at h <;> cases h <;> refine fun s => ⟨_, _, _, rfl, fun h => ?_⟩
  case h_28.refl => exact shiBad_of (by simpa using h)
  case h_29.refl =>
    have high := of_decide_eq_true h
    exact decide_eq_true (by omega)
  case h_108.refl f => rw [not_sysZero, h, Bool.true_or]
  all_goals simpa [RForm.bad, RForm.badJr, FpForm.bad, R4Form.bad, rmBad, AtForm.bad, MsgForm.badSend, MsgForm.badRecv, MsgForm.badPut, FenceForm.bad,
    not_sysZero, or_assoc] using h

/-! ### Exceptions of an instruction and interrupts (04 R118, R127, R128, R130) -/

namespace State
variable {s u : State} {c : Instr} {t : TileId} {f : SysForm}

theorem exec_illegal (h : tileWord c = some (t, true)) (hb : s.begins c t u) : exec c s = .next (u.except t 1 0) := by
  obtain ⟨illegal, priv, body, run, bad⟩ := runsTile_of_tileWord h s
  rw [run, tileOp_begins hb, bad rfl, if_pos rfl]

theorem exec_unlisted {bad : Bool} {w : W32} (h : tileWord c = some (t, bad)) (hf : s.fetches t u w) (hw : decodeTile t w = none) :
    exec c s = .next (u.except t 1 0) := by
  obtain ⟨illegal, priv, body, run, -⟩ := runsTile_of_tileWord h s
  rw [run, tileOp_unlisted hf hw]

/-- A privileged instruction at level T (04 R118). -/
theorem exec_priv {bad priv : Bool} {body : State → State} (hc : exec c s = .next (s.tileOp c t bad priv body)) (hb : s.begins c t u) (hbad : bad = false)
    (hp : priv = true) (hk : (u.tile t).k = false) : exec c s = .next (u.except t 2 0) := by
  rw [hc, tileOp_begins hb, hbad, hp, hk]
  rfl

theorem traps_except {code : Nat} (h4 : code ≠ 4) (h5 : code ≠ 5) (h9 : code ≠ 9) (hc : u.canEnter t code) (he : exec c s = .next (u.except t code 0)) :
    traps c s u t code (BitVec.ofNat 64 code) 0 (u.tile t).pc :=
  traps_of_exec h4 h5 h9 hc he

theorem listed_of_le {n : Nat} (h : n ≤ 5) : crListed n = true ∧ crAtT n = false := by
  interval_cases n <;> decide

/-- The interrupt that is pending at a running tile is taken (04 R128). -/
theorem takeInterrupt_running {code : Nat} (hr : s.canRun t = true) (hm : (s.tile t).mode = .running) (hi : (s.tile t).ie = true)
    (hs : (s.tile t).stepping = false) (hp : s.pendingInt t = some code) : s.takeInterrupt t = s.takeException t code 0 0 0 (s.tile t).pc := by
  have ready : s.intReady t = true := by rw [intReady, hi, hs, hp]; rfl
  have boundary : s.abandon t = (true, s) := by rw [abandon, hm]
  simp only [takeInterrupt, endWait_running hm, hr, ready, hp, boundary, Bool.and_self, if_true]

theorem takeInterrupt_none (hm : (s.tile t).mode = .running) (hp : s.pendingInt t = none) : s.takeInterrupt t = s := by
  have idle : s.intReady t = false := by rw [intReady, hp]; exact Bool.and_false _
  simp only [takeInterrupt, endWait_running hm, idle, Bool.and_false, Bool.false_eq_true, if_false]

end State

section
open State

/-- Settles O6: every exception and interrupt is one `takeException` of the state after the fetch, which enters its handler. -/
theorem trapsAndInterruptsEnterTheirHandlers : Obligations.TrapsAndInterruptsEnterTheirHandlers := by
  unfold Obligations.TrapsAndInterruptsEnterTheirHandlers
  refine ⟨⟨fun c s u t h hb hc => ?_, fun c s u t bad w h hf hw hc => ?_,
      fun s u t f hk hc => ⟨fun hrd hra himm hst hb => ?_, fun hrd hl hn hb => ?_, fun hra hn hb => ?_⟩⟩,
    fun s u t f hrd hra => ⟨fun hb hc => ?_, fun himm hb hc => ?_⟩, fun s t hr hm hi hs => ?_⟩
  · exact traps_except (by decide) (by decide) (by decide) hc (exec_illegal h hb)
  · exact traps_except (by decide) (by decide) (by decide) hc (exec_unlisted h hf hw)
  · have bad : (!sysZero f || !eretStack ((s.tile t).rg 2)) = false := by rw [not_sysZero, hrd, hra, himm, begins_rg hb, hst]; rfl
    exact traps_except (by decide) (by decide) (by decide) hc (exec_priv (c := .eret t f) rfl hb bad rfl hk)
  · have bad : (f.rd != 0 || !crListed f.imm.toNat) = false := by rw [hrd, hl]; rfl
    have priv : (f.imm.toNat != 0x0B) = true := bne_iff_ne.mpr fun h => hn (BitVec.eq_of_toNat_eq h)
    exact traps_except (by decide) (by decide) (by decide) hc (exec_priv (c := .mtcr t f) rfl hb bad priv hk)
  · obtain ⟨listed, level⟩ := listed_of_le hn
    have bad : (f.ra != 0 || !crListed f.imm.toNat) = false := by rw [hra, listed]; rfl
    exact traps_except (by decide) (by decide) (by decide) hc (exec_priv (c := .mfcr t f) rfl hb bad (by rw [level]; rfl) hk)
  · have bad : (f.rd != 0 || f.ra != 0) = false := by rw [hrd, hra]; rfl
    obtain ⟨only, enters⟩ := takeException_enters u t 0x0A f.imm.toNat 0 (u.tile t).pc (by decide) (by decide) (by decide) hc
    exact ⟨_, exec_body (c := .trap t f) rfl hb bad (.inl rfl), only, enters⟩
  · have bad : (!sysZero f) = false := by rw [not_sysZero, hrd, hra, himm]; rfl
    exact traps_except (by decide) (by decide) (by decide) hc (exec_body (c := .brk t f) rfl hb bad (.inl rfl))
  · intro y inbox timer bell takes
    have taken : ∀ code, code ≠ 4 → code ≠ 5 → code ≠ 9 → s.pendingInt t = some code → takes code := fun code h4 h5 h9 hp hc =>
      traps_of_exec h4 h5 h9 hc (congrArg Host.Outcome.next (takeInterrupt_running hr hm hi hs hp))
    have pending := pendingInt_eq s t
    refine ⟨fun h => ?_, fun h h2 => ?_, fun h h2 h3 => ?_, fun h h2 h3 => ?_⟩
    · exact taken 0x20 (by decide) (by decide) (by decide) (pending.trans (if_pos h))
    · exact taken 0x21 (by decide) (by decide) (by decide) (pending.trans ((if_neg (Bool.eq_false_iff.mp h)).trans (if_pos h2)))
    · exact taken 0x22 (by decide) (by decide) (by decide)
        (pending.trans ((if_neg (Bool.eq_false_iff.mp h)).trans ((if_neg (Bool.eq_false_iff.mp h2)).trans (if_pos h3))))
    · have nothing := pending.trans ((if_neg (Bool.eq_false_iff.mp h)).trans ((if_neg (Bool.eq_false_iff.mp h2)).trans (if_neg (Bool.eq_false_iff.mp h3))))
      exact congrArg Host.Outcome.next (takeInterrupt_none hm nothing)

end
end Sys2Proof.Machine

namespace Sys2Proof.Machine

/-! ### Items and tokens leave the tiles and the network as they are (07 R210, R211, R223) -/

namespace State
variable {s u v : State} {t : TileId}

/-- State `v` differs from `s` in the registers, in what the host is told, and at Lamplighter. -/
def LampOnly (s v : State) : Prop :=
  ∃ fld out alert link queue mgmt lamp arrivals,
    v = { s with fld := fld, out := out, smbAlert := alert, link := link, logQueue := queue, mgmt := mgmt, lamp := lamp, arrivals := arrivals }

theorem LampOnly.refl (s : State) : LampOnly s s := ⟨_, _, _, _, _, _, _, _, rfl⟩

theorem LampOnly.trans (h : LampOnly s u) (k : LampOnly u v) : LampOnly s v := by
  obtain ⟨_, _, _, _, _, _, _, _, rfl⟩ := h
  obtain ⟨_, _, _, _, _, _, _, _, rfl⟩ := k
  exact ⟨_, _, _, _, _, _, _, _, rfl⟩

theorem LampOnly.tiles (h : LampOnly s v) : v.tiles = s.tiles := by
  obtain ⟨_, _, _, _, _, _, _, _, rfl⟩ := h
  rfl

theorem LampOnly.net (h : LampOnly s v) : v.net = s.net := by
  obtain ⟨_, _, _, _, _, _, _, _, rfl⟩ := h
  rfl

theorem BeaconOnly.lampOnly (h : BeaconOnly s v) : LampOnly s v := by
  obtain ⟨_, _, _, _, _, _, rfl⟩ := h
  exact ⟨_, _, _, _, _, _, _, _, rfl⟩

theorem lampOnly_ite {p : Prop} [Decidable p] {a b : State} (ha : LampOnly s a) (hb : LampOnly s b) : LampOnly s (if p then a else b) := by
  split_ifs
  · exact ha
  · exact hb

theorem lampOnly_foldl {α : Type} {g : State → α → State} (hg : ∀ u a, LampOnly u (g u a)) (l : List α) : LampOnly s (l.foldl g s) :=
  List.foldlRecOn (motive := LampOnly s) l g (.refl s) fun u hu a _ => hu.trans (hg u a)

theorem lampOnly_setF (f : Fld) (x : Nat) : LampOnly s (s.setF f x) := (beaconOnly_setF f x).lampOnly

theorem lampOnly_setLampw (w : WardId) (x : LampWard) : LampOnly s (s.setLampw w x) := ⟨_, _, _, _, _, _, _, _, rfl⟩

theorem lampOnly_emitOuts (w : WardId) (key tag : BitVec 32) (poison : Bool) (payload : BitVec 128) (src : TokSrc) :
    LampOnly s (s.emitOuts w key tag poison payload src) := by
  unfold emitOuts
  split
  · exact .refl s
  · exact lampOnly_foldl (fun u o => lampOnly_ite (.refl u) (lampOnly_ite (beaconOnly_raiseMsix _ _).lampOnly ⟨_, _, _, _, _, _, _, _, rfl⟩)) _

theorem lampOnly_pushTrace (it : Item) (kind dest waited : Nat) : LampOnly s (s.pushTrace it kind dest waited) :=
  lampOnly_ite (lampOnly_setLampw _ _) (.refl s)

theorem lampOnly_failNotice (it : Item) (reason : Nat) : LampOnly s (s.failNotice it reason) :=
  lampOnly_ite (.refl s) ((((lampOnly_emitOuts _ _ _ _ _ _).trans (lampOnly_setF _ _)).trans (lampOnly_setF _ _)).trans (lampOnly_pushTrace _ _ _ _))

theorem lampOnly_failItem (it : Item) (reason : Nat) : LampOnly s (s.failItem it reason) := (lampOnly_setLampw _ _).trans (lampOnly_failNotice _ _)

theorem failHeld_tile (s : State) (t : TileId) (reason : Nat) : (s.failHeld t reason).tile t = { s.tile t with item := none } := by
  unfold failHeld
  split
  next h => rw [← h]
  next it h => rw [tile_congr (lampOnly_failItem it reason).tiles, tile_updTile]

/-! ### An event of a ward stands in the groups of the device (16 R436) -/

theorem keepsFld_latchAt {f : Fld} {base : Nat} (hf : f.off < base ∧ f.lo < 128) (ev : Event) : KeepsFld f s (s.latchAt base ev) := by
  have put : ∀ (u : State) (g : Fld) (x : Nat), base ≤ g.off → KeepsFld f u (u.setF g x) := fun u g x hg => keepsFld_setF (by simp only [Fld.key]; omega) x
  have rec_ : ∀ (u : State) (sub lo w x : Nat), KeepsFld f u (u.setF (recF base ev.group sub lo w) x) := fun u sub lo w x =>
    put u _ x (by simp only [recF]; omega)
  unfold latchAt
  refine KeepsFld.trans (u := if bitN (s.getF ⟨base, 0, 49⟩) ev.group then _ else _) (keepsFld_ite ?_ ?_) (keepsFld_ite (rec_ ..) (keepsFld_ite (rec_ ..) (rec_ ..)))
  · exact (keepsFld_ite (rec_ ..) (.refl f s)).trans (rec_ ..)
  · exact ((((((((put _ _ _ (Nat.le_refl _)).trans (rec_ ..)).trans (rec_ ..)).trans (rec_ ..)).trans (rec_ ..)).trans (rec_ ..)).trans
      (rec_ ..)).trans (rec_ ..)).trans (rec_ ..)

theorem groups_event (ev : Event) (hg : ev.group < 49) : ((s.event ev).getF F.FLT_BEACON_GROUPS).testBit ev.group = true := by
  have bit : ((s.latchAt 0x30000 ev).getF F.FLT_BEACON_GROUPS).testBit ev.group = true := groups_latchAt 0x30000 ev hg
  have wards := keepsFld_foldl (f := F.FLT_BEACON_GROUPS) (s := s.latchAt 0x30000 ev)
    (g := fun u w => if inScope ev w then u.latchAt (0x34000 + 0x1000 * w.val) ev else u)
    (fun u w => keepsFld_ite (keepsFld_latchAt ⟨by simp only [F.FLT_BEACON_GROUPS]; omega, by decide⟩ ev) (.refl _ u)) (List.finRange 8)
  unfold event
  dsimp only
  generalize (List.finRange 8).foldl _ (s.latchAt 0x30000 ev) = x at wards
  obtain ⟨u, kept, reacted⟩ := react_told (s := x) ev
  have queued : ∀ e, (u.queueLog e).getF F.FLT_BEACON_GROUPS = u.getF F.FLT_BEACON_GROUPS := fun e => by
    unfold queueLog
    split_ifs <;> rfl
  have after : (x.react ev).getF F.FLT_BEACON_GROUPS = u.getF F.FLT_BEACON_GROUPS := by
    rcases reacted with h | h
    · rw [h]
    · rw [h, queued]
  rw [(keepsFld_tellHost ev).fld, after, kept.fld, wards.fld, bit]

/-! ### A tile strands (04 R132, R134) -/

theorem strand_tile (s : State) (t : TileId) (why second : Nat) (fr : Vector W64 8) : (s.strand t why second fr).tile t =
    { s.tile t with mode := .stranded, shf := fr, strandWhy := BitVec.ofNat 2 why, secondCode := BitVec.ofNat 6 second, stepDone := (s.tile t).stepping,
                    vectoring := none, item := none } := by
  rw [strand, (beaconOnly_event _).tile, failHeld_tile, tile_updTile]

theorem strand_groups (s : State) (t : TileId) (why second : Nat) (fr : Vector W64 8) :
    ((s.strand t why second fr).getF F.FLT_BEACON_GROUPS).testBit (t.val / 16) = true :=
  groups_event _ (by have := t.isLt; dsimp only; omega)

theorem takeException_strands {code tn : Nat} {bad epc : W64} (h4 : code ≠ 4) (h5 : code ≠ 5) (h78 : ¬(code = 7 ∨ code = 8)) (h9 : code ≠ 9)
    (hg : validStack ((s.tile t).rg 2) = false) : ∃ a b, s.takeException t code 0 tn bad epc =
      (s.setTile t { s.tile t with pmc := a, ovf := b }).strand t 1 0 (s.trapFrame t epc (causeWord code 0 tn) bad) := by
  obtain ⟨a, b, counted⟩ := Tile.countEv_cases (s.tile t) (if code < 0x20 then 14 else 15) 1
  have unrecorded : s.recordTileFault t code 0 bad = s := by rw [recordTileFault, if_neg (by omega)]
  have stack : validStack (({ s.tile t with pmc := a, ovf := b } : Tile).rg 2) = false := hg
  have frame : ∀ y : Tile, y = { s.tile t with pmc := a, ovf := b } → (s.setTile t y).trapFrame t epc (causeWord code 0 tn) bad =
      s.trapFrame t epc (causeWord code 0 tn) bad := by
    rintro y rfl
    simp only [trapFrame, tileStatus, tile_setTile, setTile_supTime]
    rfl
  refine ⟨a, b, ?_⟩
  unfold takeException
  dsimp only
  rw [unrecorded, if_neg h78, if_neg h9, counted, stack, if_neg Bool.false_ne_true, frame _ rfl]

/-- An exception that finds g2 invalid: the frame goes to TIL_SHF and local store stays (04 R132, R134). -/
theorem except_strands {code : Nat} (h4 : code ≠ 4) (h5 : code ≠ 5) (h78 : ¬(code = 7 ∨ code = 8)) (h9 : code ≠ 9)
    (hg : validStack ((u.tile t).rg 2) = false) :
    let y := u.tile t
    let x := (u.except t code 0).tile t
    x.mode = .stranded ∧ x.strandWhy = 1 ∧ x.shf = #v[y.pc, u.tileStatus t, BitVec.ofNat 64 code, 0, y.rg 1, y.rg 3, y.rg 4, y.rg 5]
      ∧ x.ls = y.ls ∧ x.g = y.g ∧ x.item = none ∧ ((u.except t code 0).getF F.FLT_BEACON_GROUPS).testBit (t.val / 16) = true := by
  obtain ⟨a, b, strands⟩ := takeException_strands (tn := 0) (bad := 0) (epc := (u.tile t).pc) h4 h5 h78 h9 hg
  intro y
  rw [except, strands, strand_groups, strand_tile, tile_setTile]
  exact ⟨rfl, rfl, rfl, rfl, rfl, rfl, rfl⟩

/-! ### ERET (04 R131) -/

theorem eretStack_iff (g2 : W64) : eretStack g2 = true ↔ g2 % 16 = 0 ∧ lsBase ≤ g2.toNat ∧ g2.toNat ≤ 0xFFFFF0000003FFC0 := by
  have aligned : g2 % 16 = 0 ↔ g2.toNat % 16 = 0 := by
    rw [← BitVec.toNat_inj, BitVec.toNat_umod]
    rfl
  simp only [eretStack, Bool.and_eq_true, beq_iff_eq, decide_eq_true_eq, aligned, and_assoc]
  rfl

theorem word_congr {x y : Tile} (h : x.ls = y.ls) (o : Nat) : x.word o = y.word o := by
  rw [Tile.word, Tile.word, Tile.lsRead_congr 8 x y o fun j _ _ => by rw [h]]

/-- The registers that ERET takes from the words of the frame at g2 (04 R131). -/
def framed (y : Tile) (w : Nat → W64) : Tile :=
  let z := (((y.wg 1 (w 4)).wg 3 (w 5)).wg 4 (w 6)).wg 5 (w 7)
  z.wg 2 (z.rg 2 + 64)

theorem framed_rg (y : Tile) (w : Nat → W64) (r : BitVec 5) : (framed y w).rg r =
    if r = 1 then w 4 else if r = 2 then y.rg 2 + 64 else if r = 3 then w 5 else if r = 4 then w 6 else if r = 5 then w 7 else y.rg r := by
  simp only [framed, Tile.rg_wg]
  split_ifs <;> simp_all

theorem framed_eq (y : Tile) (w : Nat → W64) : framed y w = { y with g := (framed y w).g } := rfl

theorem returnException_tile {w : Nat → W64} (hw : ∀ i, (s.tile t).word (((s.tile t).rg 2).toNat - lsBase + 8 * i) = w i) :
    (s.returnException t).tile t = { framed (s.tile t) w with
      k := (w 1).getLsbD 0, ie := (w 1).getLsbD 1, im := (w 1).extractLsb' 8 3, pc := w 0, mode := .running } := by
  have read : ∀ i, BitVec.ofNat 64 ((s.tile t).lsRead (((s.tile t).rg 2).toNat - lsBase + 8 * i) 8) = w i := hw
  rw [returnException, tile_setTile]
  simp only [ofNat_bitsN, read]
  rfl

/-- A tile that retires alone. -/
def retiredTile (y : Tile) (pc : W64) (old : Bool) (a : Vector (BitVec 48) 4) (b : BitVec 4) : Tile :=
  { y with pc := pc, retired := y.retired + 1, trace := (y.pc :: y.trace).take 16, stepDone := y.stepping, mode := .running, older := old, pmc := a, ovf := b }

theorem retiredTile_of_retiredAs {x y : Tile} {pc : W64} (h : retiredAs y x pc) : ∃ old a b, x = retiredTile y pc old a b := ⟨_, _, _, h⟩

/-- ERET with a whole and sound frame retires and returns to it. -/
theorem retires_eret {y : Tile} (hy : u.tile t = y) {w : Nat → W64} (hw : ∀ i, y.word ((y.rg 2).toNat - lsBase + 8 * i) = w i)
    (hv : (u.retireAlone t).returnException t = v) :
    onlyTile u v t
      ∧ retiredAs { y with g := (v.tile t).g, k := (w 1).getLsbD 0, ie := (w 1).getLsbD 1, im := (w 1).extractLsb' 8 3 } (v.tile t) (w 0)
      ∧ ∀ r, (v.tile t).rg r = (framed y w).rg r := by
  obtain ⟨only, retired⟩ := retireAs_cases u t true ((u.tile t).pc + 4)
  rw [hy] at retired
  have tile : (u.retireAlone t).tile t = (u.retireAs t true (y.pc + 4)).tile t := by rw [retireAlone, hy]
  obtain ⟨old, a, b, hx⟩ := retiredTile_of_retiredAs retired
  generalize (u.retireAs t true (y.pc + 4)).tile t = x at hx tile
  have regs : ∀ r, x.rg r = y.rg r := Tile.rg_congr (by rw [hx]; rfl)
  have words : ∀ i, x.word ((x.rg 2).toNat - lsBase + 8 * i) = w i := fun i => by rw [word_congr (y := y) (by rw [hx]; rfl), regs, hw]
  have back := returnException_tile (s := u.retireAlone t) (t := t) (w := w) (by rw [tile]; exact words)
  have both : onlyTile u ((u.retireAlone t).returnException t) t := onlyTile_trans only (onlyTile_setTile ..)
  rw [tile, hv] at back
  rw [hv] at both
  obtain ⟨g, frame⟩ : ∃ g, framed x w = { x with g := g } := ⟨_, framed_eq x w⟩
  refine ⟨both, ?_, fun r => ?_⟩
  · rw [back, frame, hx]
    rfl
  · have same : (v.tile t).rg r = (framed x w).rg r := Tile.rg_congr (by rw [back]) r
    rw [same, framed_rg, framed_rg, regs, regs]

theorem exec_eret {f : SysForm} (hb : s.begins (.eret t f) t u) (hf : sysZero f = true) (hg : eretStack ((u.tile t).rg 2) = true) (hk : (u.tile t).k = true)
    (hs : (u.tile t).lsSound (((u.tile t).rg 2).toNat - lsBase) 64 = true) : exec (.eret t f) s = .next ((u.retireAlone t).returnException t) := by
  have bad : (!sysZero f || !eretStack ((s.tile t).rg 2)) = false := by
    rw [hf, begins_rg hb, hg]
    rfl
  have run := exec_body (c := .eret t f) rfl hb bad (.inr hk)
  simpa only [lsCorrect_of_sound hs, lsError_of_sound hs, Bool.false_eq_true, if_false] using run

theorem exec_eret_illegal {f : SysForm} (hb : s.begins (.eret t f) t u) (hg : eretStack ((u.tile t).rg 2) = false) :
    exec (.eret t f) s = .next (u.except t 1 0) := by
  have bad : (!sysZero f || !eretStack ((s.tile t).rg 2)) = true := by rw [begins_rg hb, hg, Bool.not_false, Bool.or_true]
  have run : exec (.eret t f) s = .next (s.tileOp (.eret t f) t _ true _) := rfl
  rw [run, tileOp_begins hb, bad, if_pos rfl]

end State

section
open State

/-- Settles O7: an exception without a valid stack strands the tile, and ERET retires before it takes its frame. -/
theorem framesAreSavedAndRestored : Obligations.FramesAreSavedAndRestored := by
  unfold Obligations.FramesAreSavedAndRestored
  refine ⟨fun s u t f hb hrd hra himm hg => ?_, fun s u t f hb hrd hra himm => ?_⟩
  · have bad : (!sysZero f) = false := by rw [not_sysZero, hrd, hra, himm]; rfl
    obtain ⟨mode, why, shf, ls, g, item, groups⟩ := except_strands (u := u) (t := t) (code := 0x0B) (by decide) (by decide) (by decide) (by decide) hg
    exact ⟨_, exec_body (c := .brk t f) rfl hb bad (.inl rfl), mode, why, shf, ls, g, item, groups⟩
  · intro y whole w
    have illegal : ¬whole → exec (.eret t f) s = .next (u.except t 1 0) := fun hw =>
      exec_eret_illegal hb (Bool.eq_false_iff.mpr fun h => hw ((eretStack_iff _).mp h))
    refine ⟨fun hw hk hs => ?_, fun hw hc => ?_, fun hw hg => ?_⟩
    · have zero : sysZero f = true := by rw [sysZero, hrd, hra, himm]; rfl
      obtain ⟨only, retired, regs⟩ := retires_eret (u := u) (t := t) (y := y) rfl (w := w) (fun _ => rfl) rfl
      exact ⟨_, exec_eret hb zero ((eretStack_iff _).mpr hw) hk hs, only, retired, fun r => (regs r).trans (framed_rg ..)⟩
    · exact traps_except (by decide) (by decide) (by decide) hc (illegal hw)
    · obtain ⟨mode, why, shf, ls, g, -, -⟩ := except_strands (u := u) (t := t) (code := 1) (by decide) (by decide) (by decide) (by decide) hg
      exact ⟨_, illegal hw, mode, why, shf, ls, g⟩

end
end Sys2Proof.Machine

namespace Sys2Proof.Machine

/-! ### Tokens at the matching store (07 R198–R201) -/

namespace State
variable {s u v : State} {w : WardId} {tk : Token} {nd : PlanNode} {src : TokSrc}

/-- The node that a token names. -/
def tokNode (s : State) (w : WardId) (tk : Token) : Option PlanNode := if tk.byKey then s.nodeByKey w tk.node else s.nodeByIndex w tk.node.toNat

theorem offerTok_noNode (h : s.tokNode w tk = none) : s.offerTok w tk none = (true, s.bumpF (F.LMPW_DISCARD_NO_NODE w.val) 1) := by
  have resolved : s.resolveTok w tk none = .inr (F.LMPW_DISCARD_NO_NODE w.val) := by
    unfold resolveTok
    rw [show (if tk.byKey then s.nodeByKey w tk.node else s.nodeByIndex w tk.node.toNat) = none from h]
  rw [offerTok, resolved]

theorem offerTok_badPort (h : s.tokNode w tk = some nd) (hp : nd.arity ≤ tk.port.toNat) :
    s.offerTok w tk none = (true, s.bumpF (F.LMPW_DISCARD_BAD_PORT w.val) 1) := by
  have resolved : s.resolveTok w tk none = .inr (F.LMPW_DISCARD_BAD_PORT w.val) := by
    unfold resolveTok
    rw [show (if tk.byKey then s.nodeByKey w tk.node else s.nodeByIndex w tk.node.toNat) = some nd from h]
    exact if_pos hp
  rw [offerTok, resolved]

theorem offerTok_stored (h : s.tokNode w tk = some nd) (hp : tk.port.toNat < nd.arity) (hd : tk.delayed = false) (ht : s.storeTakes w = true)
    (hr : s.storeTurn w = true) : s.offerTok w tk none = (true, { s with storeServed := some w }.storeToken w nd tk) := by
  have resolved : s.resolveTok w tk none = .inl nd := by
    unfold resolveTok
    rw [show (if tk.byKey then s.nodeByKey w tk.node else s.nodeByIndex w tk.node.toNat) = some nd from h]
    exact if_neg (Nat.not_le.mpr hp)
  rw [offerTok, resolved]
  simp only [hd, ht, hr, Bool.false_eq_true, if_false, Bool.and_self, if_true]

theorem tokDone_other (h : ∀ t, src ≠ .puttok t) : s.tokDone src = s := by
  cases src with
  | puttok t => exact absurd rfl (h t)
  | _ => rfl

/-- A token that is accepted where no other of its source waits. -/
theorem arriveTok_accepted (hw : ∀ x ∈ (s.lampw w).waiting, x.2 ≠ src) (ho : s.offerTok w tk none = (true, v)) : s.arriveTok w tk src = v.tokDone src := by
  have quiet : (s.lampw w).waiting.any (fun x => x.2 == src) = false := List.any_eq_false.mpr fun x hx => by simpa using hw x hx
  simp only [arriveTok, quiet, Bool.false_eq_true, if_false, ho]

/-! #### What a token does in the store -/

/-- The token as it is held. -/
def heldTok (nd : PlanNode) (tk : Token) : HeldTok := ⟨nd.index, tk.port.toNat, tk.tag, tk.payload, tk.poisoned, tk.last, false⟩

/-- With a token at one port alone, an ALL node of two ports and more cannot fire (R199). -/
theorem takes_none {lw : LampWard} {h : HeldTok} {l : List HeldTok} (hl : ∀ x ∈ l, x.node ≠ nd.index) (ha : 2 ≤ nd.arity) (ht : lw.tokens = l ++ [h]) (tag : BitVec 32) :
    lw.takes nd tag = none := by
  obtain ⟨p, hp, hne⟩ : ∃ p < nd.arity, p ≠ h.port := by
    by_cases h0 : h.port = 0
    · exact ⟨1, ha, by omega⟩
    · exact ⟨0, by omega, by omega⟩
  have nobody : ∀ x ∈ lw.tokens, ¬(x.node = nd.index ∧ x.port = p) := by
    rw [ht]
    intro x hx ⟨node, port⟩
    rcases List.mem_append.mp hx with hx | hx
    · exact hl x hx node
    · rw [List.mem_singleton.mp hx] at port
      exact hne port.symm
  have old : lw.oldest nd.index p tag = none := List.find?_eq_none.mpr fun x hx => by have := nobody x hx; simp; tauto
  have still : lw.standing nd.index p = none := List.find?_eq_none.mpr fun x hx => by have := nobody x hx; simp; tauto
  unfold LampWard.takes
  dsimp only
  rw [if_neg]
  intro all
  have := List.all_eq_true.mp all _ (List.mem_map_of_mem (List.mem_range.mpr hp))
  rw [old, still] at this
  exact Bool.false_ne_true this

theorem storeToken_all (hr : nd.rule = 0) (ha : 2 ≤ nd.arity) (hg : tk.global = false) (hl : ∀ x ∈ (s.lampw w).tokens, x.node ≠ nd.index) :
    s.storeToken w nd tk = s.setLampw w { s.lampw w with tokens := (s.lampw w).tokens ++ [heldTok nd tk] } := by
  have nofire : ∀ (u : State) (n : Nat), (u.lampw w).tokens = (s.lampw w).tokens ++ [heldTok nd tk] → u.fireAll w nd n = u := fun u n hu => by
    cases n with
    | zero => rfl
    | succ n =>
      have nothing : (u.lampw w).tokens.findSome? (fun h => if !h.standing && h.node == nd.index then
          ((u.lampw w).takes nd h.tag).map (fun z => (h.tag, z)) else none) = none := by
        refine List.findSome?_eq_none_iff.mpr fun x _ => ?_
        rw [takes_none hl ha hu]
        exact ite_self _
      rw [fireAll]
      dsimp only
      rw [nothing]
  have rule : ¬nd.rule = 1 := by omega
  simp only [storeToken, hg, Bool.false_eq_true, if_false, if_neg rule]
  exact nofire _ _ (congrArg LampWard.tokens (lampw_setLampw ..))

theorem storeToken_any (hr : nd.rule = 1) (hg : tk.global = false) (hl : ∀ x ∈ (s.lampw w).tokens, x.node ≠ nd.index) :
    s.storeToken w nd tk = s.queueItem (firedItem w nd tk.tag [heldTok nd tk] s.supTime) := by
  have nobody : ∀ p, (s.lampw w).standing nd.index p = none := fun p => List.find?_eq_none.mpr fun x hx => by simp [hl x hx]
  have others : ∀ l : List Nat, l.filterMap (fun p => (s.lampw w).standing nd.index p) = [] := fun l =>
    List.filterMap_eq_nil_iff.mpr fun p _ => nobody p
  simp only [storeToken, hg, Bool.false_eq_true, if_false, if_pos hr, others]
  rfl

/-- An item of a tile class enters its ready queue. -/
theorem queueItem_ready {it : Item} (h : engineClass it.cls = false) (hw : it.ward = w) :
    ∃ d, s.queueItem it = s.setLampw w { s.lampw w with ready := (s.lampw w).ready ++ [it], obsDepthMax := d } := by
  rw [queueItem, h, Bool.false_and, if_neg Bool.false_ne_true, hw]
  exact ⟨_, rfl⟩

theorem firedItem_one (w : WardId) (nd : PlanNode) (tk : Token) (now : Nat) :
    let it := firedItem w nd tk.tag [heldTok nd tk] now
    it.slots = 1 ∧ it.last = tk.last ∧ (tk.port.toNat < 4 → it.operands.getD tk.port.toNat 0 = tk.payload) := by
  refine ⟨rfl, Bool.or_false _, fun hp => ?_⟩
  have port : (heldTok nd tk).port = tk.port.toNat := rfl
  simp only [firedItem, List.getD_eq_getElem?_getD, List.getElem?_map, List.getElem?_range hp, Option.map_some, Option.getD_some, List.find?_cons, port,
    beq_self_eq_true]
  rfl

/-! #### What a token leaves as it is -/

theorem lampOnly_queueItem (it : Item) : LampOnly s (s.queueItem it) := lampOnly_ite (lampOnly_failNotice _ _) (lampOnly_setLampw _ _)

theorem lampOnly_fireAll (nd : PlanNode) (n : Nat) : LampOnly s (s.fireAll w nd n) := by
  induction n generalizing s with
  | zero => exact .refl s
  | succ n ih =>
    rw [fireAll]
    dsimp only
    split
    · exact .refl s
    · exact ((lampOnly_setLampw _ _).trans (lampOnly_queueItem _)).trans ih

theorem lampOnly_storeToken : LampOnly s (s.storeToken w nd tk) := by
  unfold storeToken
  dsimp only
  exact lampOnly_ite (lampOnly_ite (lampOnly_setLampw _ _) (lampOnly_queueItem _)) ((lampOnly_setLampw _ _).trans (lampOnly_fireAll _ _))

/-- A token without a delay that finds room at its ward's turn is accepted or discarded; no tile and no packet changes. -/
theorem offerTok_accepts (hd : tk.delayed = false) (ht : s.storeTakes w = true) (hr : s.storeTurn w = true) :
    ∃ v, s.offerTok w tk none = (true, v) ∧ v.tiles = s.tiles ∧ v.net = s.net := by
  cases hn : s.tokNode w tk with
  | none => exact ⟨_, offerTok_noNode hn, rfl, rfl⟩
  | some nd =>
    by_cases hp : tk.port.toNat < nd.arity
    · exact ⟨_, offerTok_stored hn hp hd ht hr, lampOnly_storeToken.tiles, lampOnly_storeToken.net⟩
    · exact ⟨_, offerTok_badPort hn (Nat.not_lt.mp hp), rfl, rfl⟩

/-- The poison of its packet leaves a token's other flags (06 R188). -/
theorem orPoison_delayed (po : Bool) : (tk.orPoison po).delayed = tk.delayed := by
  have other : (putBitN tk.tflags.toNat 0 (tk.poisoned || po)).testBit 4 = tk.tflags.toNat.testBit 4 := by
    unfold putBitN
    split_ifs
    · rfl
    · rw [Nat.testBit_xor, Nat.testBit_two_pow_of_ne (by decide), Bool.xor_false]
  rw [Token.delayed, Token.orPoison, BitVec.getLsbD_ofNat, other, decide_eq_true (by decide), Bool.true_and]
  rfl

/-! ### The commands -/

theorem exec_tokenArrive_own {k : Nat} (h : s.arrivals[k]? = some (w, tk, src)) (hg : tk.gated = false) :
    exec (.tokenArrive (s.net.length + k)) s = .next ({ s with arrivals := s.arrivals.eraseIdx k }.arriveTok w tk src) := by
  have run : exec (.tokenArrive (s.net.length + k)) s = execTokenArrive (s.net.length + k) s := rfl
  rw [run, execTokenArrive, if_neg (Nat.not_lt.mpr (Nat.le_add_right _ _)), Nat.add_sub_cancel_left, h]
  simp only [hg, Bool.false_eq_true, if_false]

theorem exec_tokenArrive_packet {i : Nat} {p : Packet} (hi : i < s.net.length) (h : s.arrived i = some p) (hp : p.payload = .token tk src) (hd : p.dead = false)
    (hm : p.prev ≠ p.cur) (hg : tk.gated = false) : exec (.tokenArrive i) s = .next ((s.dropPkt i).arriveTok p.ward (tk.orPoison p.poison) src) := by
  have run : exec (.tokenArrive i) s = execTokenArrive i s := rfl
  rw [run, execTokenArrive, if_pos hi, h]
  simp only [hp, hd, hg, Bool.false_eq_true, if_false, takePkt_of_moved (arrived_eq_some h).1 hm]

/-- PUTTOK's token is accepted, and the instruction completes (04 R141). -/
theorem arriveTok_puttok {t : TileId} {a : W64} (hw : ∀ x ∈ (s.lampw w).waiting, x.2 ≠ .puttok t) (hm : (s.tile t).mode = .inPuttok a) (hd : tk.delayed = false)
    (ht : s.storeTakes w = true) (hr : s.storeTurn w = true) :
    retiredAs (s.tile t) ((s.arriveTok w tk (.puttok t)).tile t) ((s.tile t).pc + 4) ∧ (s.arriveTok w tk (.puttok t)).net = s.net
      ∧ ∀ r, r ≠ t → (s.arriveTok w tk (.puttok t)).tile r = s.tile r := by
  obtain ⟨v, accepted, tiles, net⟩ := offerTok_accepts hd ht hr
  have same : ∀ r, v.tile r = s.tile r := tile_congr tiles
  have done : s.arriveTok w tk (.puttok t) = v.retireAs t true ((s.tile t).pc + 4) := by
    rw [arriveTok_accepted hw accepted, tokDone, puttokDone, same, hm]
    dsimp only
    rw [retireAlone, same]
  obtain ⟨⟨frame, others⟩, retired⟩ := retireAs_cases v t true ((s.tile t).pc + 4)
  rw [same] at retired
  rw [done]
  exact ⟨retired, (congrArg State.net frame).trans net, fun r hr => (others r hr).trans (same r)⟩

/-- The first token that waits is served (R204, R220). -/
theorem admitWaiting_head {rest : List (Token × TokSrc)} (hw : (s.lampw w).waiting = (tk, src) :: rest) (ho : s.offerTok w tk none = (true, v))
    (hs : ∀ t, src ≠ .puttok t) : s.admitWaiting w = v.setLampw w { v.lampw w with waiting := (v.lampw w).waiting.erase (tk, src) } := by
  rw [admitWaiting, hw]
  simp only [admitWaiting.go, ho, tokDone_other hs]

theorem admitWaiting_stored {x : LampWard} {rest : List (Token × TokSrc)} (hw : (s.lampw w).waiting = (tk, src) :: rest)
    (ho : s.offerTok w tk none = (true, u.setLampw w x)) (hx : x.waiting = (tk, src) :: rest) (hs : ∀ t, src ≠ .puttok t) :
    s.admitWaiting w = (u.setLampw w x).setLampw w { x with waiting := rest } := by
  rw [admitWaiting_head hw ho hs, lampw_setLampw, hx, List.erase_cons_head]

/-! #### Dispatch (R205, R206) -/

variable {t : TileId} {it : Item} {pool : Fin 16}

/-- The item as it is dispatched, with its sequence number and its wait. -/
def dispatched (s : State) (it : Item) : Item := { it with seq := (s.lampw it.ward).seq, waited := min 0xFFFFFFFF (s.supTime - it.readyAt) }

/-- The ward's place at Lamplighter after that; the standing tokens and the wait counts are left open. -/
def afterTake (s : State) (it : Item) (onTile : Bool) (who : Nat) (tokens : List HeldTok) (buckets : Tbl Nat) : LampWard :=
  { s.lampw it.ward with
    ready := (s.lampw it.ward).ready.erase it, running := (s.lampw it.ward).running ++ [⟨s.dispatched it, onTile, who⟩]
    seq := (s.lampw it.ward).seq + 1, tokens := tokens, obsBuckets := buckets }

theorem takeItem_untraced (ht : (s.lampw it.ward).traceQ = []) (he : s.isF (F.LMPW_CTRL_TRACE_EN it.ward.val) = false) (onTile : Bool) (who : Nat) :
    ∃ tokens buckets, s.takeItem it onTile who =
      (s.dispatched it, { s with dispatchServed := some it.ward }.setLampw it.ward (s.afterTake it onTile who tokens buckets)) := by
  have untraced : ∀ (u : State) (j : Item) (kind dest waited : Nat), u.fld = s.fld → j.ward = it.ward → u.pushTrace j kind dest waited = u :=
    fun u j kind dest waited hu hj => by rw [pushTrace, hj, isF, getF_congr hu, ← isF, he, if_neg Bool.false_ne_true]
  have unpumped : ∀ u : State, (u.lampw it.ward).traceQ = [] → u.tracePump it.ward = u := fun u hu => by rw [tracePump, hu]; rfl
  unfold takeItem
  extract_lets wd lw waited it2 tokens b s1
  rw [untraced s1 it2 _ _ _ rfl rfl, unpumped s1 ((congrArg LampWard.traceQ (lampw_setLampw ..)).trans ht)]
  exact ⟨_, _, rfl⟩

/-- The two packets of the work record (06 R186; 07 R205). -/
def workPackets (t : TileId) (w : WardId) : List Packet :=
  [mkPkt .msg 2 lampStop (.tile t) w w.val 0 false (.work true) noLine, mkPkt .msg 2 lampStop (.tile t) w w.val 0 false (.work false) noLine]

theorem exec_workDispatchTile (hq : ∀ x, (s.lampw x).traceQ = []) (he : s.isF (F.LMPW_CTRL_TRACE_EN it.ward.val) = false)
    (hs : s.dispatchStopped it.ward = false) (ht : s.dispatchTurn it.ward = true) (hp : s.poolTile it.ward pool.val = some t)
    (hn : s.nextItem it.ward pool.val = some it) :
    ∃ tokens buckets, exec (.workDispatchTile it.ward pool) s = .next
      (({ s with dispatchServed := some it.ward, net := s.net ++ workPackets t it.ward }.setLampw it.ward (s.afterTake it true t.val tokens buckets)).updTile t
        (fun y => { y with workIn := some (s.dispatched it), workParts := 0, workBad := 0, lastPool := some pool })) := by
  obtain ⟨tokens, buckets, taken⟩ := takeItem_untraced (hq it.ward) he true t.val
  have run : exec (.workDispatchTile it.ward pool) s = execWorkDispatchTile it.ward pool s := rfl
  refine ⟨tokens, buckets, ?_⟩
  rw [run, execWorkDispatchTile, tracePumpAll_idle hq]
  simp only [ht, if_true, dispatchTile, hs, Bool.false_eq_true, if_false, hp, hn, taken]
  rw [sendPkt_msg rfl, sendPkt_msg rfl, workPackets]
  simp only [List.append_assoc, List.cons_append, List.nil_append]
  rfl

/-! #### The tick (R213, R215) -/

theorem ripen_empty (h : (s.lampw w).delays = []) : s.ripen w = s := by
  rw [ripen, h]
  rfl

theorem ripenAll_empty (h : ∀ w, (s.lampw w).delays = []) : (List.finRange 8).foldl ripen s = s := List.foldl_fixed' (fun w => ripen_empty (h w)) _

theorem fireDue_empty (h : ∀ w, (s.lampw w).delays = []) : s.fireDue = s := by
  have nothing : ∀ w, s.fireOne w = (false, s) := fun w => by
    rw [fireOne, h w]
    exact ite_self _
  have nobody : rotateWard s.storeServed (fun w => (s.fireOne w).1) = none := by
    refine List.find?_eq_none.mpr fun w _ => ?_
    rw [nothing]
    exact Bool.false_ne_true
  rw [fireDue, fireRipe, nobody]
  exact List.foldl_fixed' (fun w => by rw [nothing]) _

end State

section
open State

/-- Settles O20: a token that is accepted enters the store, where it is held or fires; then the wait list, the dispatch and the tick. -/
theorem tokensFireAndItemsAreDispatched : Obligations.TokensFireAndItemsAreDispatched := by
  unfold Obligations.TokensFireAndItemsAreDispatched
  refine ⟨fun s w k tk src hk hg hd hw hs => ?_, fun s i p tk t a hi hp hpl hdead hm hg hd hw hmode ht hr => ?_,
    fun s w tk src rest nd hw hs hd hg ht hr hn hp hrule ha hl => ?_, fun s w pool t it hq he hst ht hp hn hw => ?_, fun s hv hd hq => ?_⟩
  · intro c gone nd?
    have run := exec_tokenArrive_own hk hg
    have arrive : ∀ {v}, gone.offerTok w tk none = (true, v) → exec c s = .next v := fun {v} ho => by
      rw [run, arriveTok_accepted (s := gone) hw ho, tokDone_other hs]
    refine ⟨fun hn => arrive (offerTok_noNode hn), fun nd hn hp => arrive (offerTok_badPort hn hp), fun nd hn hp ht hr hglob => ?_⟩
    have stored := arrive (offerTok_stored (s := gone) hn hp hd ht hr)
    refine ⟨fun hrule ha hl => ?_, fun hrule hcls hport hl => ?_⟩
    · exact stored.trans (congrArg Host.Outcome.next (storeToken_all (s := { gone with storeServed := some w }) hrule ha hglob hl))
    · have fired := stored.trans (congrArg Host.Outcome.next (storeToken_any (s := { gone with storeServed := some w }) hrule hglob hl))
      obtain ⟨d, ready⟩ := queueItem_ready (s := { gone with storeServed := some w }) (it := firedItem w nd tk.tag [heldTok nd tk] s.supTime) (w := w) hcls rfl
      obtain ⟨slots, last, operand⟩ := firedItem_one w nd tk s.supTime
      exact ⟨_, _, fired.trans (congrArg Host.Outcome.next ready), rfl, congrArg LampWard.ready (lampw_setLampw ..),
        (congrArg LampWard.tokens (lampw_setLampw ..)).trans rfl, rfl, rfl, rfl, rfl, operand hport, last, slots, rfl⟩
  · have run := exec_tokenArrive_packet hi hp hpl hdead hm hg
    obtain ⟨retired, net, others⟩ := arriveTok_puttok (s := s.dropPkt i) (tk := tk.orPoison p.poison) hw hmode ((orPoison_delayed _).trans hd) ht hr
    exact ⟨_, run, retired, net, others⟩
  · have accepted := (offerTok_stored (s := s) hn hp hd ht hr).trans
      (congrArg (Prod.mk true) (storeToken_all (s := { s with storeServed := some w }) (w := w) hrule ha hg hl))
    exact congrArg Host.Outcome.next (admitWaiting_stored hw accepted hw hs)
  · subst hw
    obtain ⟨tokens, buckets, run⟩ := exec_workDispatchTile hq he hst ht hp hn
    refine ⟨_, s.dispatched it, run, tile_updTile .., rfl, (onlyTile_updTile _ t _).2, congrArg LampWard.ready (lampw_setLampw ..),
      congrArg LampWard.running (lampw_setLampw ..), congrArg LampWard.seq (lampw_setLampw ..), rfl, rfl⟩
  · have ticked : exec .tick s = execTick s := rfl
    rw [ticked, execTick, if_pos hv]
    dsimp only
    rw [ripenAll_empty, fireDue_empty, tracePumpAll_idle, ite_self]
    · exact hq
    · exact hd
    · exact hd

end
end Sys2Proof.Machine

namespace Sys2Proof

/-! ### Words of tile instructions (05 R148–R168) -/

section
open Machine

/-! #### Each format's fields are those of its word, and its word is that of its fields (05 R149) -/

/-- What the fields of format RForm read in a word. -/
def RForm.ofWord (w : W32) : RForm := ⟨rdOf w, raOf w, rbOf w, rcOf w⟩

theorem RForm.fields_word (op fn : BitVec 6) (f : RForm) : RForm.ofWord (f.word op fn) = f
    ∧ opOf (f.word op fn) = op.toNat ∧ (f.word op fn).extractLsb' 0 6 = fn := by
  simp (disch := decide) only [ofWord, word, opOf, rdOf, raOf, rbOf, rcOf, BitVec.extractLsb'_append_eq_of_le, BitVec.extractLsb'_append_eq_of_add_le,
    Nat.reduceSub, BitVec.extractLsb'_eq_self, and_self]

theorem RForm.word_fields (w : W32) : (RForm.ofWord w).word (w.extractLsb' 26 6) (w.extractLsb' 0 6) = w := by
  simp (disch := decide) only [ofWord, word, rdOf, raOf, rbOf, rcOf, BitVec.extractLsb'_append_extractLsb'_eq_extractLsb']
  exact BitVec.extractLsb'_eq_self

/-- What the fields of format IForm read in a word. -/
def IForm.ofWord (w : W32) : IForm := ⟨rdOf w, raOf w, immOf w⟩

theorem IForm.fields_word (op : BitVec 6) (f : IForm) : IForm.ofWord (f.word op) = f ∧ opOf (f.word op) = op.toNat := by
  simp (disch := decide) only [ofWord, word, opOf, rdOf, raOf, immOf, BitVec.extractLsb'_append_eq_of_le, BitVec.extractLsb'_append_eq_of_add_le,
    Nat.reduceSub, BitVec.extractLsb'_eq_self, and_self]

theorem IForm.word_fields (w : W32) : (IForm.ofWord w).word (w.extractLsb' 26 6) = w := by
  simp (disch := decide) only [ofWord, word, rdOf, raOf, immOf, BitVec.extractLsb'_append_extractLsb'_eq_extractLsb']
  exact BitVec.extractLsb'_eq_self

/-- What the fields of format SForm read in a word. -/
def SForm.ofWord (w : W32) : SForm := ⟨rdOf w, raOf w, immOf w⟩

theorem SForm.fields_word (op : BitVec 6) (f : SForm) : SForm.ofWord (f.word op) = f ∧ opOf (f.word op) = op.toNat := by
  simp (disch := decide) only [ofWord, word, opOf, rdOf, raOf, immOf, BitVec.extractLsb'_append_eq_of_le, BitVec.extractLsb'_append_eq_of_add_le,
    Nat.reduceSub, BitVec.extractLsb'_eq_self, and_self]

theorem SForm.word_fields (w : W32) : (SForm.ofWord w).word (w.extractLsb' 26 6) = w := by
  simp (disch := decide) only [ofWord, word, rdOf, raOf, immOf, BitVec.extractLsb'_append_extractLsb'_eq_extractLsb']
  exact BitVec.extractLsb'_eq_self

/-- What the fields of format BForm read in a word. -/
def BForm.ofWord (w : W32) : BForm := ⟨rdOf w, raOf w, immOf w⟩

theorem BForm.fields_word (op : BitVec 6) (f : BForm) : BForm.ofWord (f.word op) = f ∧ opOf (f.word op) = op.toNat := by
  simp (disch := decide) only [ofWord, word, opOf, rdOf, raOf, immOf, BitVec.extractLsb'_append_eq_of_le, BitVec.extractLsb'_append_eq_of_add_le,
    Nat.reduceSub, BitVec.extractLsb'_eq_self, and_self]

theorem BForm.word_fields (w : W32) : (BForm.ofWord w).word (w.extractLsb' 26 6) = w := by
  simp (disch := decide) only [ofWord, word, rdOf, raOf, immOf, BitVec.extractLsb'_append_extractLsb'_eq_extractLsb']
  exact BitVec.extractLsb'_eq_self

/-- What the fields of format FpForm read in a word. -/
def FpForm.ofWord (w : W32) : FpForm := ⟨rdOf w, raOf w, rbOf w, w.extractLsb' 3 3, w.extractLsb' 0 3⟩

theorem FpForm.fields_word (fn : BitVec 5) (f : FpForm) : FpForm.ofWord (f.word fn) = f ∧ opOf (f.word fn) = 0x30 ∧ rcOf (f.word fn) = fn := by
  simp (disch := decide) only [ofWord, word, opOf, rdOf, raOf, rbOf, rcOf, BitVec.extractLsb'_append_eq_of_le, BitVec.extractLsb'_append_eq_of_add_le,
    Nat.reduceSub, BitVec.extractLsb'_eq_self, BitVec.reduceToNat, and_self]

theorem FpForm.word_fields {w : W32} (h : w.extractLsb' 26 6 = 0x30#6) : (FpForm.ofWord w).word (rcOf w) = w := by
  simp (disch := decide) only [ofWord, word, rdOf, raOf, rbOf, rcOf, ← h, BitVec.extractLsb'_append_extractLsb'_eq_extractLsb']
  exact BitVec.extractLsb'_eq_self

/-- What the fields of format R4Form read in a word. -/
def R4Form.ofWord (w : W32) : R4Form := ⟨rdOf w, raOf w, rbOf w, rcOf w, w.extractLsb' 3 3, w.extractLsb' 0 3⟩

theorem R4Form.fields_word (op : BitVec 6) (f : R4Form) : R4Form.ofWord (f.word op) = f ∧ opOf (f.word op) = op.toNat := by
  simp (disch := decide) only [ofWord, word, opOf, rdOf, raOf, rbOf, rcOf, BitVec.extractLsb'_append_eq_of_le, BitVec.extractLsb'_append_eq_of_add_le,
    Nat.reduceSub, BitVec.extractLsb'_eq_self, and_self]

theorem R4Form.word_fields (w : W32) : (R4Form.ofWord w).word (w.extractLsb' 26 6) = w := by
  simp (disch := decide) only [ofWord, word, rdOf, raOf, rbOf, rcOf, BitVec.extractLsb'_append_extractLsb'_eq_extractLsb']
  exact BitVec.extractLsb'_eq_self

/-- What the fields of format AtForm read in a word. -/
def AtForm.ofWord (w : W32) : AtForm := ⟨rdOf w, raOf w, rbOf w, w.extractLsb' 4 1, w.extractLsb' 5 2, w.extractLsb' 7 4⟩

theorem AtForm.fields_word (fn : BitVec 4) (f : AtForm) : AtForm.ofWord (f.word fn) = f
    ∧ opOf (f.word fn) = 0x36 ∧ (f.word fn).extractLsb' 0 4 = fn := by
  simp (disch := decide) only [ofWord, word, opOf, rdOf, raOf, rbOf, BitVec.extractLsb'_append_eq_of_le, BitVec.extractLsb'_append_eq_of_add_le,
    Nat.reduceSub, BitVec.extractLsb'_eq_self, BitVec.reduceToNat, and_self]

theorem AtForm.word_fields {w : W32} (h : w.extractLsb' 26 6 = 0x36#6) : (AtForm.ofWord w).word (w.extractLsb' 0 4) = w := by
  simp (disch := decide) only [ofWord, word, rdOf, raOf, rbOf, ← h, BitVec.extractLsb'_append_extractLsb'_eq_extractLsb']
  exact BitVec.extractLsb'_eq_self

/-- What the fields of format MsgForm read in a word. -/
def MsgForm.ofWord (w : W32) : MsgForm := ⟨rdOf w, raOf w, rbOf w, w.extractLsb' 4 7⟩

theorem MsgForm.fields_word (fn : BitVec 4) (f : MsgForm) : MsgForm.ofWord (f.word fn) = f
    ∧ opOf (f.word fn) = 0x38 ∧ (f.word fn).extractLsb' 0 4 = fn := by
  simp (disch := decide) only [ofWord, word, opOf, rdOf, raOf, rbOf, BitVec.extractLsb'_append_eq_of_le, BitVec.extractLsb'_append_eq_of_add_le,
    Nat.reduceSub, BitVec.extractLsb'_eq_self, BitVec.reduceToNat, and_self]

theorem MsgForm.word_fields {w : W32} (h : w.extractLsb' 26 6 = 0x38#6) : (MsgForm.ofWord w).word (w.extractLsb' 0 4) = w := by
  simp (disch := decide) only [ofWord, word, rdOf, raOf, rbOf, ← h, BitVec.extractLsb'_append_extractLsb'_eq_extractLsb']
  exact BitVec.extractLsb'_eq_self

/-- What the fields of format FenceForm read in a word. -/
def FenceForm.ofWord (w : W32) : FenceForm := ⟨rdOf w, raOf w, rbOf w, w.extractLsb' 4 7⟩

theorem FenceForm.fields_word (form scope : BitVec 2) (f : FenceForm) : FenceForm.ofWord (f.word form scope) = f
    ∧ opOf (f.word form scope) = 0x3C ∧ (f.word form scope).extractLsb' 2 2 = form ∧ (f.word form scope).extractLsb' 0 2 = scope := by
  simp (disch := decide) only [ofWord, word, opOf, rdOf, raOf, rbOf, BitVec.extractLsb'_append_eq_of_le, BitVec.extractLsb'_append_eq_of_add_le,
    Nat.reduceSub, BitVec.extractLsb'_eq_self, BitVec.reduceToNat, and_self]

theorem FenceForm.word_fields {w : W32} (h : w.extractLsb' 26 6 = 0x3C#6) : (FenceForm.ofWord w).word (w.extractLsb' 2 2) (w.extractLsb' 0 2) = w := by
  simp (disch := decide) only [ofWord, word, rdOf, raOf, rbOf, ← h, BitVec.extractLsb'_append_extractLsb'_eq_extractLsb']
  exact BitVec.extractLsb'_eq_self

/-- What the fields of format SysForm read in a word. -/
def SysForm.ofWord (w : W32) : SysForm := ⟨rdOf w, raOf w, w.extractLsb' 0 12⟩

theorem SysForm.fields_word (sub : BitVec 4) (f : SysForm) : SysForm.ofWord (f.word sub) = f
    ∧ opOf (f.word sub) = 0x3E ∧ (f.word sub).extractLsb' 12 4 = sub := by
  simp (disch := decide) only [ofWord, word, opOf, rdOf, raOf, BitVec.extractLsb'_append_eq_of_le, BitVec.extractLsb'_append_eq_of_add_le,
    Nat.reduceSub, BitVec.extractLsb'_eq_self, BitVec.reduceToNat, and_self]

theorem SysForm.word_fields {w : W32} (h : w.extractLsb' 26 6 = 0x3E#6) : (SysForm.ofWord w).word (w.extractLsb' 12 4) = w := by
  simp (disch := decide) only [ofWord, word, rdOf, raOf, ← h, BitVec.extractLsb'_append_extractLsb'_eq_extractLsb']
  exact BitVec.extractLsb'_eq_self

/-- The function code of a fence is its form and its scope (05 R167). -/
theorem fenceCode (w : W32) : (w.extractLsb' 0 4).toNat = 4 * (w.extractLsb' 2 2).toNat + (w.extractLsb' 0 2).toNat := by
  simp only [BitVec.extractLsb'_toNat, Nat.shiftRight_eq_div_pow]
  omega

theorem topBits_append (w : W32) : w.extractLsb' 26 6 ++ w.extractLsb' 0 26 = w :=
  (BitVec.extractLsb'_append_extractLsb'_eq_extractLsb' rfl).trans BitVec.extractLsb'_eq_self

theorem topBits_of_opOf {w : W32} {n : Nat} (h : opOf w = n) : w.extractLsb' 26 6 = BitVec.ofNat 6 n := by
  rw [← h, opOf, BitVec.ofNat_toNat, BitVec.setWidth_eq]

section
variable {w : W32} (t : TileId)

/-! #### What `decodeTile` reads, by the major opcode -/

theorem decodeTile_int (h : opOf w = 0x01) : decodeTile t w = intOps[(w.extractLsb' 0 6).toNat]?.map (fun c => c t (RForm.ofWord w)) := by
  simp (disch := omega) only [decodeTile, if_pos, RForm.ofWord]

theorem decodeTile_imm (h : 0x02 ≤ opOf w ∧ opOf w ≤ 0x09) : decodeTile t w = immOps[opOf w - 0x02]?.map (fun c => c t (IForm.ofWord w)) := by
  simp (disch := omega) only [decodeTile, if_pos, if_neg, IForm.ofWord]

theorem decodeTile_load (h : 0x10 ≤ opOf w ∧ opOf w ≤ 0x19) : decodeTile t w = loadOps[opOf w - 0x10]?.map (fun c => c t (IForm.ofWord w)) := by
  simp (disch := omega) only [decodeTile, if_pos, if_neg, IForm.ofWord]

theorem decodeTile_store (h : 0x1A ≤ opOf w ∧ opOf w ≤ 0x1F) : decodeTile t w = storeOps[opOf w - 0x1A]?.map (fun c => c t (SForm.ofWord w)) := by
  simp (disch := omega) only [decodeTile, if_pos, if_neg, SForm.ofWord]

theorem decodeTile_branch (h : 0x20 ≤ opOf w ∧ opOf w ≤ 0x25) : decodeTile t w = branchOps[opOf w - 0x20]?.map (fun c => c t (BForm.ofWord w)) := by
  simp (disch := omega) only [decodeTile, if_pos, if_neg, BForm.ofWord]

theorem decodeTile_jump (h : 0x26 ≤ opOf w ∧ opOf w ≤ 0x27) : decodeTile t w = jumpOps[opOf w - 0x26]?.map (fun c => c t (w.extractLsb' 0 26)) := by
  simp (disch := omega) only [decodeTile, if_pos, if_neg]

theorem decodeTile_regJump (h : opOf w = 0x28) : decodeTile t w = regJumpOps[(w.extractLsb' 0 6).toNat]?.map (fun c => c t (RForm.ofWord w)) := by
  simp (disch := omega) only [decodeTile, if_pos, if_neg, RForm.ofWord]

theorem decodeTile_fp (h : opOf w = 0x30) : decodeTile t w = fpOps[(rcOf w).toNat]?.map (fun c => c t (FpForm.ofWord w)) := by
  simp (disch := omega) only [decodeTile, if_pos, if_neg, FpForm.ofWord]

theorem decodeTile_fma (h : 0x31 ≤ opOf w ∧ opOf w ≤ 0x34) : decodeTile t w = fmaOps[opOf w - 0x31]?.map (fun c => c t (R4Form.ofWord w)) := by
  simp (disch := omega) only [decodeTile, if_pos, if_neg, R4Form.ofWord]

theorem decodeTile_atomic (h : opOf w = 0x36) : decodeTile t w = atomicOps[(w.extractLsb' 0 4).toNat]?.map (fun c => c t (AtForm.ofWord w)) := by
  simp (disch := omega) only [decodeTile, if_pos, if_neg, AtForm.ofWord]

theorem decodeTile_msg (h : opOf w = 0x38) : decodeTile t w = msgOps[(w.extractLsb' 0 4).toNat]?.map (fun c => c t (MsgForm.ofWord w)) := by
  simp (disch := omega) only [decodeTile, if_pos, if_neg, MsgForm.ofWord]

theorem decodeTile_sys (h : opOf w = 0x3E) : decodeTile t w = sysOps[(w.extractLsb' 12 4).toNat]?.map (fun c => c t (SysForm.ofWord w)) := by
  simp (disch := omega) only [decodeTile, if_pos, if_neg, SysForm.ofWord]

theorem decodeTile_fence (h : opOf w = 0x3C) : decodeTile t w = if (w.extractLsb' 0 4).toNat < 4 then none else
    (fenceOps[(w.extractLsb' 0 4).toNat / 4 - 1]?.bind (fun l => l[(w.extractLsb' 0 4).toNat % 4]?)).map (fun c => c t (FenceForm.ofWord w)) := by
  simp (disch := omega) only [decodeTile, if_pos, if_neg, FenceForm.ofWord]

/-- The major opcodes that no table lists. -/
def unlistedOps : List Nat :=
  [0x00, 0x0A, 0x0B, 0x0C, 0x0D, 0x0E, 0x0F, 0x29, 0x2A, 0x2B, 0x2C, 0x2D, 0x2E, 0x2F, 0x35, 0x37, 0x39, 0x3A, 0x3B, 0x3D, 0x3F]

/-- A word whose major opcode no table lists (05 R150). -/
theorem decodeTile_unlisted (h : opOf w ∈ unlistedOps) : decodeTile t w = none := by
  unfold decodeTile
  generalize opOf w = op at h
  fin_cases h <;> rfl

/-! #### What the word of an instruction decodes to -/

theorem decodeTile_int_word (fn : BitVec 6) (f : RForm) : decodeTile t (f.word 1#6 fn) = intOps[fn.toNat]?.map (fun c => c t f) := by
  obtain ⟨fields, op, code⟩ := f.fields_word 1#6 fn
  rw [decodeTile_int t op, fields, code]

theorem decodeTile_imm_word {op : BitVec 6} (f : IForm) (h : 0x02 ≤ op.toNat ∧ op.toNat ≤ 0x09) :
    decodeTile t (f.word op) = immOps[op.toNat - 0x02]?.map (fun c => c t f) := by
  obtain ⟨fields, same⟩ := f.fields_word op
  rw [decodeTile_imm t (same.symm ▸ h), fields, same]

theorem decodeTile_load_word {op : BitVec 6} (f : IForm) (h : 0x10 ≤ op.toNat ∧ op.toNat ≤ 0x19) :
    decodeTile t (f.word op) = loadOps[op.toNat - 0x10]?.map (fun c => c t f) := by
  obtain ⟨fields, same⟩ := f.fields_word op
  rw [decodeTile_load t (same.symm ▸ h), fields, same]

theorem decodeTile_store_word {op : BitVec 6} (f : SForm) (h : 0x1A ≤ op.toNat ∧ op.toNat ≤ 0x1F) :
    decodeTile t (f.word op) = storeOps[op.toNat - 0x1A]?.map (fun c => c t f) := by
  obtain ⟨fields, same⟩ := f.fields_word op
  rw [decodeTile_store t (same.symm ▸ h), fields, same]

theorem decodeTile_branch_word {op : BitVec 6} (f : BForm) (h : 0x20 ≤ op.toNat ∧ op.toNat ≤ 0x25) :
    decodeTile t (f.word op) = branchOps[op.toNat - 0x20]?.map (fun c => c t f) := by
  obtain ⟨fields, same⟩ := f.fields_word op
  rw [decodeTile_branch t (same.symm ▸ h), fields, same]

theorem decodeTile_regJump_word (fn : BitVec 6) (f : RForm) : decodeTile t (f.word 0x28#6 fn) = regJumpOps[fn.toNat]?.map (fun c => c t f) := by
  obtain ⟨fields, op, code⟩ := f.fields_word 0x28#6 fn
  rw [decodeTile_regJump t op, fields, code]

theorem decodeTile_fp_word (fn : BitVec 5) (f : FpForm) : decodeTile t (f.word fn) = fpOps[fn.toNat]?.map (fun c => c t f) := by
  obtain ⟨fields, op, code⟩ := f.fields_word fn
  rw [decodeTile_fp t op, fields, code]

theorem decodeTile_fma_word {op : BitVec 6} (f : R4Form) (h : 0x31 ≤ op.toNat ∧ op.toNat ≤ 0x34) :
    decodeTile t (f.word op) = fmaOps[op.toNat - 0x31]?.map (fun c => c t f) := by
  obtain ⟨fields, same⟩ := f.fields_word op
  rw [decodeTile_fma t (same.symm ▸ h), fields, same]

theorem decodeTile_atomic_word (fn : BitVec 4) (f : AtForm) : decodeTile t (f.word fn) = atomicOps[fn.toNat]?.map (fun c => c t f) := by
  obtain ⟨fields, op, code⟩ := f.fields_word fn
  rw [decodeTile_atomic t op, fields, code]

theorem decodeTile_msg_word (fn : BitVec 4) (f : MsgForm) : decodeTile t (f.word fn) = msgOps[fn.toNat]?.map (fun c => c t f) := by
  obtain ⟨fields, op, code⟩ := f.fields_word fn
  rw [decodeTile_msg t op, fields, code]

theorem decodeTile_sys_word (sub : BitVec 4) (f : SysForm) : decodeTile t (f.word sub) = sysOps[sub.toNat]?.map (fun c => c t f) := by
  obtain ⟨fields, op, code⟩ := f.fields_word sub
  rw [decodeTile_sys t op, fields, code]

theorem decodeTile_jump_word {op : BitVec 6} (off : BitVec 26) (h : 0x26 ≤ op.toNat ∧ op.toNat ≤ 0x27) :
    decodeTile t (op ++ off) = jumpOps[op.toNat - 0x26]?.map (fun c => c t off) := by
  have same : opOf (op ++ off) = op.toNat := by rw [opOf, BitVec.extractLsb'_append_eq_left]
  rw [decodeTile_jump t (same.symm ▸ h), same, BitVec.extractLsb'_append_eq_right]

theorem decodeTile_fence_word (form scope : BitVec 2) (f : FenceForm) (h : form ≠ 0) :
    decodeTile t (f.word form scope) = (fenceOps[form.toNat - 1]?.bind (fun l => l[scope.toNat]?)).map (fun c => c t f) := by
  obtain ⟨fields, op, hform, hscope⟩ := f.fields_word form scope
  have code := fenceCode (f.word form scope)
  rw [hform, hscope] at code
  have high : form.toNat ≠ 0 := fun e => h (BitVec.eq_of_toNat_eq e)
  rw [decodeTile_fence t op, fields, code, if_neg (by omega), Nat.mul_add_div (by decide), Nat.mul_add_mod, Nat.div_eq_of_lt scope.isLt,
    Nat.mod_eq_of_lt scope.isLt, Nat.add_zero]

/-! #### Each table lists the instructions of its codes -/

/-- The word `w` is that of instruction `c` of tile `t`. -/
def Spells (c : Instr) (t : TileId) (w : W32) : Prop := encodeTile c = some w ∧ ∃ bad, tileWord c = some (t, bad)

section
variable {n : Nat}

theorem spells_intOps {c} (h : intOps[n]? = some c) (f : RForm) : Spells (c t f) t (f.word 1#6 (BitVec.ofNat 6 n)) := by
  obtain ⟨hn, rfl⟩ := List.getElem?_eq_some_iff.mp h
  change n < 21 at hn
  interval_cases n <;> exact ⟨rfl, _, rfl⟩

theorem spells_immOps {c} (h : immOps[n]? = some c) (f : IForm) : Spells (c t f) t (f.word (BitVec.ofNat 6 (0x02 + n))) := by
  obtain ⟨hn, rfl⟩ := List.getElem?_eq_some_iff.mp h
  change n < 8 at hn
  interval_cases n <;> exact ⟨rfl, _, rfl⟩

theorem spells_loadOps {c} (h : loadOps[n]? = some c) (f : IForm) : Spells (c t f) t (f.word (BitVec.ofNat 6 (0x10 + n))) := by
  obtain ⟨hn, rfl⟩ := List.getElem?_eq_some_iff.mp h
  change n < 10 at hn
  interval_cases n <;> exact ⟨rfl, _, rfl⟩

theorem spells_storeOps {c} (h : storeOps[n]? = some c) (f : SForm) : Spells (c t f) t (f.word (BitVec.ofNat 6 (0x1A + n))) := by
  obtain ⟨hn, rfl⟩ := List.getElem?_eq_some_iff.mp h
  change n < 6 at hn
  interval_cases n <;> exact ⟨rfl, _, rfl⟩

theorem spells_branchOps {c} (h : branchOps[n]? = some c) (f : BForm) : Spells (c t f) t (f.word (BitVec.ofNat 6 (0x20 + n))) := by
  obtain ⟨hn, rfl⟩ := List.getElem?_eq_some_iff.mp h
  change n < 6 at hn
  interval_cases n <;> exact ⟨rfl, _, rfl⟩

theorem spells_regJumpOps {c} (h : regJumpOps[n]? = some c) (f : RForm) : Spells (c t f) t (f.word 0x28#6 (BitVec.ofNat 6 n)) := by
  obtain ⟨hn, rfl⟩ := List.getElem?_eq_some_iff.mp h
  change n < 2 at hn
  interval_cases n <;> exact ⟨rfl, _, rfl⟩

theorem spells_fpOps {c} (h : fpOps[n]? = some c) (f : FpForm) : Spells (c t f) t (f.word (BitVec.ofNat 5 n)) := by
  obtain ⟨hn, rfl⟩ := List.getElem?_eq_some_iff.mp h
  change n < 22 at hn
  interval_cases n <;> exact ⟨rfl, _, rfl⟩

theorem spells_fmaOps {c} (h : fmaOps[n]? = some c) (f : R4Form) : Spells (c t f) t (f.word (BitVec.ofNat 6 (0x31 + n))) := by
  obtain ⟨hn, rfl⟩ := List.getElem?_eq_some_iff.mp h
  change n < 4 at hn
  interval_cases n <;> exact ⟨rfl, _, rfl⟩

theorem spells_atomicOps {c} (h : atomicOps[n]? = some c) (f : AtForm) : Spells (c t f) t (f.word (BitVec.ofNat 4 n)) := by
  obtain ⟨hn, rfl⟩ := List.getElem?_eq_some_iff.mp h
  change n < 10 at hn
  interval_cases n <;> exact ⟨rfl, _, rfl⟩

theorem spells_msgOps {c} (h : msgOps[n]? = some c) (f : MsgForm) : Spells (c t f) t (f.word (BitVec.ofNat 4 n)) := by
  obtain ⟨hn, rfl⟩ := List.getElem?_eq_some_iff.mp h
  change n < 5 at hn
  interval_cases n <;> exact ⟨rfl, _, rfl⟩

theorem spells_sysOps {c} (h : sysOps[n]? = some c) (f : SysForm) : Spells (c t f) t (f.word (BitVec.ofNat 4 n)) := by
  obtain ⟨hn, rfl⟩ := List.getElem?_eq_some_iff.mp h
  change n < 7 at hn
  interval_cases n <;> exact ⟨rfl, _, rfl⟩

theorem spells_jumpOps {c} (h : jumpOps[n]? = some c) (off : BitVec 26) : Spells (c t off) t (BitVec.ofNat 6 (0x26 + n) ++ off) := by
  obtain ⟨hn, rfl⟩ := List.getElem?_eq_some_iff.mp h
  change n < 2 at hn
  interval_cases n <;> exact ⟨rfl, _, rfl⟩

theorem spells_fenceOps {m : Nat} {l c} (hl : fenceOps[n]? = some l) (h : l[m]? = some c) (f : FenceForm) :
    Spells (c t f) t (f.word (BitVec.ofNat 2 (n + 1)) (BitVec.ofNat 2 m)) := by
  obtain ⟨hn, rfl⟩ := List.getElem?_eq_some_iff.mp hl
  obtain ⟨hm, rfl⟩ := List.getElem?_eq_some_iff.mp h
  change n < 3 at hn
  have three : m < 3 := by interval_cases n <;> exact hm
  interval_cases n <;> interval_cases m <;> exact ⟨rfl, _, rfl⟩

end

/-- The word of a tile instruction decodes to it, by the list of its opcode. -/
theorem decodeTile_of_tileWord {c : Instr} {bad : Bool} (h : tileWord c = some (t, bad)) : ∃ w, encodeTile c = some w ∧ decodeTile t w = some c := by
  cases c with
  | add _ f | sub _ f | and _ f | or _ f | xor _ f | sll _ f | srl _ f | sra _ f | slt _ f | sltu _ f | mul _ f | mulh _ f | mulhu _ f | div _ f
  | divu _ f | rem _ f | remu _ f | min _ f | max _ f | minu _ f | maxu _ f =>
    cases h
    exact ⟨_, rfl, decodeTile_int_word t _ f⟩
  | addi _ f | andi _ f | ori _ f | xori _ f | slti _ f | sltiu _ f | shi _ f | insh _ f =>
    cases h
    exact ⟨_, rfl, decodeTile_imm_word t f (by decide)⟩
  | lb _ f | lbu _ f | lh _ f | lhu _ f | lw _ f | lwu _ f | ld _ f | flw _ f | flh _ f | ptest _ f =>
    cases h
    exact ⟨_, rfl, decodeTile_load_word t f (by decide)⟩
  | sb _ f | sh _ f | sw _ f | sd _ f | fsw _ f | fsh _ f =>
    cases h
    exact ⟨_, rfl, decodeTile_store_word t f (by decide)⟩
  | beq _ f | bne _ f | blt _ f | bge _ f | bltu _ f | bgeu _ f =>
    cases h
    exact ⟨_, rfl, decodeTile_branch_word t f (by decide)⟩
  | j _ off | jal _ off =>
    cases h
    exact ⟨_, rfl, decodeTile_jump_word t off (by decide)⟩
  | jr _ f | jalr _ f =>
    cases h
    exact ⟨_, rfl, decodeTile_regJump_word t _ f⟩
  | faddS _ f | fsubS _ f | fmulS _ f | fdivS _ f | fsqrtS _ f | fminS _ f | fmaxS _ f | fnegS _ f | fabsS _ f | feqS _ f | fltS _ f | fleS _ f
  | fcvtLS _ f | fcvtLuS _ f | fcvtSL _ f | fcvtSLu _ f | fcvtBfS _ f | fmvGF _ f | fmvFG _ f | faddB _ f | fmulB _ f | fsubB _ f =>
    cases h
    exact ⟨_, rfl, decodeTile_fp_word t _ f⟩
  | fmaddS _ f | fmsubS _ f | fnmaddS _ f | fmaddB _ f =>
    cases h
    exact ⟨_, rfl, decodeTile_fma_word t f (by decide)⟩
  | atomicSwap _ f | atomicCas _ f | atomicAdd _ f | atomicAnd _ f | atomicOr _ f | atomicXor _ f | atomicMin _ f | atomicMax _ f | atomicMinu _ f
  | atomicMaxu _ f =>
    cases h
    exact ⟨_, rfl, decodeTile_atomic_word t _ f⟩
  | send _ f | recv _ f | getwork _ f | puttok _ f | pset _ f =>
    cases h
    exact ⟨_, rfl, decodeTile_msg_word t _ f⟩
  | fenceCAcquire _ f | fenceQAcquire _ f | fenceSAcquire _ f | fenceCRelease _ f | fenceQRelease _ f | fenceSRelease _ f | fenceCReleaseAcquire _ f
  | fenceQReleaseAcquire _ f | fenceSReleaseAcquire _ f =>
    cases h
    exact ⟨_, rfl, decodeTile_fence_word t _ _ f (by decide)⟩
  | mfcr _ f | mtcr _ f | eret _ f | trap _ f | brk _ f | wait _ f | syncI _ f =>
    cases h
    exact ⟨_, rfl, decodeTile_sys_word t _ f⟩
  | _ => nomatch h

/-- A major opcode is that of a list, or no table lists it. -/
theorem opOf_cases (w : W32) : opOf w = 0x01 ∨ (0x02 ≤ opOf w ∧ opOf w ≤ 0x09) ∨ (0x10 ≤ opOf w ∧ opOf w ≤ 0x19)
    ∨ (0x1A ≤ opOf w ∧ opOf w ≤ 0x1F) ∨ (0x20 ≤ opOf w ∧ opOf w ≤ 0x25) ∨ (0x26 ≤ opOf w ∧ opOf w ≤ 0x27) ∨ opOf w = 0x28 ∨ opOf w = 0x30
    ∨ (0x31 ≤ opOf w ∧ opOf w ≤ 0x34) ∨ opOf w = 0x36 ∨ opOf w = 0x38 ∨ opOf w = 0x3C ∨ opOf w = 0x3E ∨ opOf w ∈ unlistedOps := by
  have bound : opOf w < 64 := BitVec.isLt _
  simp only [unlistedOps, List.mem_cons, List.not_mem_nil, or_false]
  omega

/-- The instruction of a code in a list, when every operation of the list spells the word with those fields. -/
theorem spells_of_listed {F : Type} {ops : List (TileId → F → Instr)} {n : Nat} {f : F} {c : Instr} (h : ops[n]?.map (fun g => g t f) = some c)
    (hs : ∀ {g}, ops[n]? = some g → Spells (g t f) t w) : Spells c t w := by
  obtain ⟨g, hg, rfl⟩ := Option.map_eq_some_iff.mp h
  exact hs hg

/-- A word that decodes is the word of its instruction: a list names the operation, and the fields are the word's. -/
theorem spells_of_decodeTile {c : Instr} (h : decodeTile t w = some c) : Spells c t w := by
  rcases opOf_cases w with op | op | op | op | op | op | op | op | op | op | op | op | op | op
  · refine spells_of_listed t ((decodeTile_int t op).symm.trans h) fun hg => ?_
    have spelt := spells_intOps t hg (RForm.ofWord w)
    rwa [← topBits_of_opOf op, BitVec.ofNat_toNat, BitVec.setWidth_eq, RForm.word_fields] at spelt
  · refine spells_of_listed t ((decodeTile_imm t op).symm.trans h) fun hg => ?_
    have spelt := spells_immOps t hg (IForm.ofWord w)
    rwa [Nat.add_sub_of_le op.1, ← topBits_of_opOf rfl, IForm.word_fields] at spelt
  · refine spells_of_listed t ((decodeTile_load t op).symm.trans h) fun hg => ?_
    have spelt := spells_loadOps t hg (IForm.ofWord w)
    rwa [Nat.add_sub_of_le op.1, ← topBits_of_opOf rfl, IForm.word_fields] at spelt
  · refine spells_of_listed t ((decodeTile_store t op).symm.trans h) fun hg => ?_
    have spelt := spells_storeOps t hg (SForm.ofWord w)
    rwa [Nat.add_sub_of_le op.1, ← topBits_of_opOf rfl, SForm.word_fields] at spelt
  · refine spells_of_listed t ((decodeTile_branch t op).symm.trans h) fun hg => ?_
    have spelt := spells_branchOps t hg (BForm.ofWord w)
    rwa [Nat.add_sub_of_le op.1, ← topBits_of_opOf rfl, BForm.word_fields] at spelt
  · refine spells_of_listed t ((decodeTile_jump t op).symm.trans h) fun hg => ?_
    have spelt := spells_jumpOps t hg (w.extractLsb' 0 26)
    rwa [Nat.add_sub_of_le op.1, ← topBits_of_opOf rfl, topBits_append] at spelt
  · refine spells_of_listed t ((decodeTile_regJump t op).symm.trans h) fun hg => ?_
    have spelt := spells_regJumpOps t hg (RForm.ofWord w)
    rwa [← topBits_of_opOf op, BitVec.ofNat_toNat, BitVec.setWidth_eq, RForm.word_fields] at spelt
  · refine spells_of_listed t ((decodeTile_fp t op).symm.trans h) fun hg => ?_
    have spelt := spells_fpOps t hg (FpForm.ofWord w)
    rwa [BitVec.ofNat_toNat, BitVec.setWidth_eq, FpForm.word_fields (topBits_of_opOf op)] at spelt
  · refine spells_of_listed t ((decodeTile_fma t op).symm.trans h) fun hg => ?_
    have spelt := spells_fmaOps t hg (R4Form.ofWord w)
    rwa [Nat.add_sub_of_le op.1, ← topBits_of_opOf rfl, R4Form.word_fields] at spelt
  · refine spells_of_listed t ((decodeTile_atomic t op).symm.trans h) fun hg => ?_
    have spelt := spells_atomicOps t hg (AtForm.ofWord w)
    rwa [BitVec.ofNat_toNat, BitVec.setWidth_eq, AtForm.word_fields (topBits_of_opOf op)] at spelt
  · refine spells_of_listed t ((decodeTile_msg t op).symm.trans h) fun hg => ?_
    have spelt := spells_msgOps t hg (MsgForm.ofWord w)
    rwa [BitVec.ofNat_toNat, BitVec.setWidth_eq, MsgForm.word_fields (topBits_of_opOf op)] at spelt
  · rw [decodeTile_fence t op] at h
    split_ifs at h with short
    obtain ⟨g, hg, rfl⟩ := Option.map_eq_some_iff.mp h
    obtain ⟨l, hl, hg⟩ := Option.bind_eq_some_iff.mp hg
    have code := fenceCode w
    have bound : (w.extractLsb' 0 2).toNat < 4 := BitVec.isLt _
    have spelt := spells_fenceOps t hl hg (FenceForm.ofWord w)
    have form : (w.extractLsb' 0 4).toNat / 4 - 1 + 1 = (w.extractLsb' 2 2).toNat := by omega
    have low : (w.extractLsb' 0 4).toNat % 4 = (w.extractLsb' 0 2).toNat := by omega
    rwa [form, low, BitVec.ofNat_toNat, BitVec.setWidth_eq, BitVec.ofNat_toNat, BitVec.setWidth_eq,
      FenceForm.word_fields (topBits_of_opOf op)] at spelt
  · refine spells_of_listed t ((decodeTile_sys t op).symm.trans h) fun hg => ?_
    have spelt := spells_sysOps t hg (SysForm.ofWord w)
    rwa [BitVec.ofNat_toNat, BitVec.setWidth_eq, SysForm.word_fields (topBits_of_opOf op)] at spelt
  · rw [decodeTile_unlisted t op] at h
    cases h

end

/-- Settles O60: the format of an opcode ties a word to its fields, and the opcode's list ties the code in the word to the operation. -/
theorem wordsAndInstructionsAgree : Obligations.WordsAndInstructionsAgree := by
  unfold Obligations.WordsAndInstructionsAgree
  exact ⟨fun c t bad h => decodeTile_of_tileWord t h, fun c t w h => spells_of_decodeTile t h,
    fun t => ⟨decodeTile_unlisted t (by decide), decodeTile_unlisted t (by decide)⟩, fun t w h => decodeTile_unlisted t h⟩

end
end Sys2Proof

namespace Sys2Proof.Machine

/-! ### Integer operations (05 R151–R154) -/

section
variable (a b : W64)

/-! #### What the operations compute (05 R152, R153) -/

theorem toNat_and_63 : (b &&& 63).toNat = b.toNat % 64 := Nat.and_two_pow_sub_one_eq_mod b.toNat 6

theorem opSll_eq : opSll a b = a <<< (b &&& 63) := by rw [BitVec.shiftLeft_eq', toNat_and_63, opSll]
theorem opSrl_eq : opSrl a b = a >>> (b &&& 63) := by rw [BitVec.ushiftRight_eq', toNat_and_63, opSrl]
theorem opSra_eq : opSra a b = a.sshiftRight' (b &&& 63) := by rw [BitVec.sshiftRight', toNat_and_63, opSra]

theorem boolWord_slt : boolWord (a.slt b) = if a.toInt < b.toInt then 1 else 0 := if_congr BitVec.slt_iff_toInt_lt rfl rfl
theorem boolWord_ult : boolWord (a.ult b) = if a.toNat < b.toNat then 1 else 0 := if_congr BitVec.ult_iff_lt rfl rfl

theorem opMin_eq : opMin a b = if a.toInt < b.toInt then a else b := if_congr BitVec.slt_iff_toInt_lt rfl rfl
theorem opMax_eq : opMax a b = if a.toInt < b.toInt then b else a := if_congr BitVec.slt_iff_toInt_lt rfl rfl
theorem opMinu_eq : opMinu a b = if a.toNat < b.toNat then a else b := if_congr BitVec.ult_iff_lt rfl rfl
theorem opMaxu_eq : opMaxu a b = if a.toNat < b.toNat then b else a := if_congr BitVec.ult_iff_lt rfl rfl

/-- The upper half of a signed product. -/
theorem opMulh_eq : opMulh a b = BitVec.extractLsb' 64 64 (a.signExtend 128 * b.signExtend 128) := by
  refine BitVec.eq_of_toNat_eq ?_
  rw [BitVec.signExtend, BitVec.signExtend, ← BitVec.ofInt_mul, BitVec.extractLsb'_toNat, opMulh, BitVec.toNat_ofInt, BitVec.toNat_ofInt,
    Nat.shiftRight_eq_div_pow]
  omega

/-- The upper half of an unsigned product. -/
theorem opMulhu_eq : opMulhu a b = BitVec.extractLsb' 64 64 (a.setWidth 128 * b.setWidth 128) := by
  refine BitVec.eq_of_toNat_eq ?_
  have small : a.toNat * b.toNat < 2 ^ 128 := (Nat.mul_lt_mul'' a.isLt b.isLt).trans_eq (by norm_num)
  rw [BitVec.extractLsb'_toNat, BitVec.toNat_mul, BitVec.toNat_setWidth_of_le (by decide), BitVec.toNat_setWidth_of_le (by decide),
    Nat.mod_eq_of_lt small, Nat.shiftRight_eq_div_pow, opMulhu, BitVec.toNat_ofNat]

theorem opDiv_eq : opDiv a b = if b = 0 then BitVec.allOnes 64 else a.sdiv b := by
  refine if_congr Iff.rfl rfl (BitVec.eq_of_toInt_eq ?_)
  rw [BitVec.toInt_sdiv, BitVec.toInt_ofInt]

theorem opDivu_eq : opDivu a b = if b = 0 then BitVec.allOnes 64 else a / b := by
  refine if_congr Iff.rfl rfl ?_
  rw [← BitVec.toNat_udiv, BitVec.ofNat_toNat, BitVec.setWidth_eq]

theorem opRem_eq : opRem a b = if b = 0 then a else a.srem b := by
  refine if_congr Iff.rfl rfl ?_
  rw [← BitVec.toInt_srem, BitVec.ofInt_toInt]

theorem opRemu_eq : opRemu a b = if b = 0 then a else a % b := by
  refine if_congr Iff.rfl rfl ?_
  rw [← BitVec.toNat_umod, BitVec.ofNat_toNat, BitVec.setWidth_eq]

end

section
variable (a : W64) (i : BitVec 16)

/-! #### The immediate forms (05 R154) -/

theorem boolWord_slt_sext16 : boolWord (a.slt (sext16 i)) = if a.toInt < i.toInt then 1 else 0 := by
  rw [boolWord_slt, sext16, BitVec.toInt_signExtend_of_le (by decide)]

theorem shiKind_iff {k : Nat} (hk : k < 4) : i.toNat / 64 % 4 = k ↔ i.extractLsb' 6 2 = BitVec.ofNat 2 k := by
  rw [← BitVec.toNat_inj, BitVec.extractLsb'_toNat, BitVec.toNat_ofNat, Nat.shiftRight_eq_div_pow, Nat.mod_eq_of_lt hk]

/-- SHI's kind and amount are fields of its immediate. -/
theorem opShi_eq : opShi a i = if i.extractLsb' 6 2 = 0 then a <<< i.extractLsb' 0 6 else if i.extractLsb' 6 2 = 1 then a >>> i.extractLsb' 0 6
    else a.sshiftRight' (i.extractLsb' 0 6) := by
  have amount : (BitVec.ofNat 64 (i.toNat % 64)).toNat % 64 = (i.extractLsb' 0 6).toNat := by
    rw [BitVec.extractLsb'_toNat, BitVec.toNat_ofNat, Nat.shiftRight_zero]
    omega
  unfold opShi opSll opSrl opSra
  dsimp only
  rw [amount]
  exact if_congr (shiKind_iff i (by decide)) rfl (if_congr (shiKind_iff i (by decide)) rfl rfl)

theorem shiBad_eq_false {i : BitVec 16} (high : i.extractLsb' 8 8 = 0) (kind : i.extractLsb' 6 2 ≠ 3) : shiBad i = false := by
  have low : i.toNat / 256 % 256 = 0 := by
    rw [← BitVec.toNat_inj, BitVec.extractLsb'_toNat, Nat.shiftRight_eq_div_pow] at high
    exact high
  have small : ¬ 256 ≤ i.toNat := by omega
  have other : ¬ i.toNat / 64 % 4 = 3 := fun h => kind ((shiKind_iff i (by decide)).mp h)
  rw [shiBad, decide_eq_false small, decide_eq_false other, Bool.false_or]

/-- INSH puts its immediate in the bits that it selects, and leaves the others. -/
theorem getLsbD_opInsh (old : W64) (sh : Nat) {j : Nat} (hj : j < 64) :
    (opInsh old sh i).getLsbD j = if j / 16 = sh then i.getLsbD (j % 16) else old.getLsbD j := by
  have mask : (BitVec.ofNat 64 (65535 * 2 ^ (16 * sh))).getLsbD j = decide (j / 16 = sh) := by
    have ones : (65535 : Nat) = 2 ^ 16 - 1 := rfl
    rw [BitVec.getLsbD_ofNat, ones, Nat.testBit_mul_two_pow, Nat.testBit_two_pow_sub_one]
    simp only [hj, decide_true, Bool.true_and, ← Bool.decide_and]
    exact decide_eq_decide.mpr (by omega)
  rw [opInsh, zext16, BitVec.getLsbD_or, BitVec.getLsbD_and, BitVec.getLsbD_not, mask, BitVec.getLsbD_shiftLeft, BitVec.getLsbD_setWidth]
  by_cases h : j / 16 = sh
  · have place : j - 16 * sh = j % 16 := by omega
    have above : ¬ j < 16 * sh := by omega
    have bound : j % 16 < 64 := by omega
    simp [h, hj, place, above, bound]
  · have outside : j < 16 * sh ∨ i.getLsbD (j - 16 * sh) = false := by
      rcases Nat.lt_or_ge j (16 * sh) with low | high
      · exact .inl low
      · exact .inr (BitVec.getLsbD_of_ge _ _ (by omega))
    rcases outside with out | out <;> simp [h, hj, out]

end

section
variable {s u : State} {t : TileId} {c : Instr}

/-! #### The instructions -/

theorem aluOp_computes {f : RForm} (hf : f.rsv = 0) {op : W64 → W64 → W64} {v : W64} (hc : exec c s = .next (s.aluOp c t f op))
    (hv : op ((u.tile t).rg f.ra) ((u.tile t).rg f.rb) = v) (h : s.begins c t u) : computes c s u t f.rd v := by
  subst hv
  have legal : f.bad = false := by rw [RForm.bad, hf]; rfl
  refine State.regOp_retires h (fun y => y.wg f.rd (op (y.rg f.ra) (y.rg f.rb))) (fun y => y.wg_pc _ _) ?_
  rw [hc, State.aluOp, legal]

theorem immOp_computes {f : IForm} {bad : Bool} (hf : bad = false) {op : W64 → BitVec 16 → W64} {v : W64} (hc : exec c s = .next (s.immOp c t f bad op))
    (hv : op ((u.tile t).rg f.ra) f.imm = v) (h : s.begins c t u) : computes c s u t f.rd v := by
  subst hv hf
  exact State.regOp_retires h (fun y => y.wg f.rd (op (y.rg f.ra) f.imm)) (fun y => y.wg_pc _ _) hc

theorem shi_computes {f : IForm} {k : BitVec 2} (high : f.imm.extractLsb' 8 8 = 0) (kind : f.imm.extractLsb' 6 2 = k) (hk : k ≠ 3)
    (h : s.begins (.shi t f) t u) : computes (.shi t f) s u t f.rd (let a := (u.tile t).rg f.ra
      if k = 0 then a <<< f.imm.extractLsb' 0 6 else if k = 1 then a >>> f.imm.extractLsb' 0 6 else a.sshiftRight' (f.imm.extractLsb' 0 6)) :=
  immOp_computes (shiBad_eq_false high (kind ▸ hk)) rfl (by rw [opShi_eq, kind]) h

theorem insh_computes {f : IForm} (hf : f.ra.extractLsb' 2 3 = 0) (h : s.begins (.insh t f) t u) :
    computes (.insh t f) s u t f.rd (opInsh ((u.tile t).rg f.rd) f.ra.toNat f.imm) := by
  have legal : f.ra.toNat < 4 := by
    rw [← BitVec.toNat_inj, BitVec.extractLsb'_toNat, Nat.shiftRight_eq_div_pow] at hf
    have shift : f.ra.toNat / 4 % 8 = 0 := hf
    omega
  refine State.regOp_retires h (fun y => y.wg f.rd (opInsh (y.rg f.rd) f.ra.toNat f.imm)) (fun y => y.wg_pc _ _) ?_
  rw [← decide_eq_false (Nat.not_le.mpr legal)]
  rfl

end

/-- Settles O2: each instruction runs its operation on its operands, and each operation is what R152 to R154 ask. -/
theorem integerOperationsCompute : Obligations.IntegerOperationsCompute := by
  unfold Obligations.IntegerOperationsCompute
  refine ⟨fun y r q v => ⟨y.rg_zero, y.wg_zero v, y.rg_wg r q v⟩, fun s u t f hf => ?_, fun s u t f => ?_⟩
  · exact ⟨aluOp_computes hf rfl rfl, aluOp_computes hf rfl rfl, aluOp_computes hf rfl rfl, aluOp_computes hf rfl rfl, aluOp_computes hf rfl rfl,
      aluOp_computes hf rfl (opSll_eq ..), aluOp_computes hf rfl (opSrl_eq ..), aluOp_computes hf rfl (opSra_eq ..),
      aluOp_computes hf rfl (boolWord_slt ..), aluOp_computes hf rfl (boolWord_ult ..),
      aluOp_computes hf rfl rfl, aluOp_computes hf rfl (opMulh_eq ..), aluOp_computes hf rfl (opMulhu_eq ..),
      aluOp_computes hf rfl (opDiv_eq ..), aluOp_computes hf rfl (opDivu_eq ..), aluOp_computes hf rfl (opRem_eq ..), aluOp_computes hf rfl (opRemu_eq ..),
      aluOp_computes hf rfl (opMin_eq ..), aluOp_computes hf rfl (opMax_eq ..), aluOp_computes hf rfl (opMinu_eq ..), aluOp_computes hf rfl (opMaxu_eq ..)⟩
  · exact ⟨immOp_computes rfl rfl rfl, immOp_computes rfl rfl rfl, immOp_computes rfl rfl rfl, immOp_computes rfl rfl rfl,
      immOp_computes rfl rfl (boolWord_slt_sext16 ..), immOp_computes rfl rfl (boolWord_ult ..),
      fun high => ⟨fun kind => shi_computes high kind (by decide), fun kind => shi_computes high kind (by decide),
        fun kind => shi_computes high kind (by decide)⟩,
      fun high => ⟨_, insh_computes high, fun j hj => getLsbD_opInsh f.imm _ _ hj⟩⟩

end Sys2Proof.Machine

namespace Sys2Proof.Machine

/-! ### Floating-point operations (05 R158–R161) -/

section
variable {f : Fmt} {m : Nat} {a b c : Num}

/-! #### Results of NaNs (05 R158) -/

theorem eq_nan_of_isNan (h : a.isNan = true) : ∃ sg, a = .nan sg := by
  cases a with
  | nan sg => exact ⟨sg, rfl⟩
  | inf | fin => nomatch h

theorem sigFlag_pair (a b : Num) : sigFlag [a, b] = if a.isSig || b.isSig then 1 else 0 := by
  rw [sigFlag, List.any_cons, List.any_cons, List.any_nil, Bool.or_false]

theorem addNum_nan (h : a.isNan = true ∨ b.isNan = true) : addNum f m a b = (f.nanBits, sigFlag [a, b]) := by
  rcases h with h | h <;> obtain ⟨sg, rfl⟩ := eq_nan_of_isNan h
  · cases b <;> rfl
  · cases a <;> rfl

theorem mulNum_nan (h : a.isNan = true ∨ b.isNan = true) : mulNum f m a b = (f.nanBits, sigFlag [a, b]) := by
  rcases h with h | h <;> obtain ⟨sg, rfl⟩ := eq_nan_of_isNan h
  · cases b <;> rfl
  · cases a <;> rfl

theorem divNum_nan (h : a.isNan = true ∨ b.isNan = true) : divNum f m a b = (f.nanBits, sigFlag [a, b]) := by
  rcases h with h | h <;> obtain ⟨sg, rfl⟩ := eq_nan_of_isNan h
  · cases b <;> rfl
  · cases a <;> rfl

/-- The flags of a fused sum of a NaN depend on the product, its bits do not. -/
theorem fmaNum_nan (h : a.isNan = true ∨ b.isNan = true ∨ c.isNan = true) : (fmaNum f m a b c).1 = f.nanBits := by
  rcases h with h | h | h <;> obtain ⟨sg, rfl⟩ := eq_nan_of_isNan h
  · cases b <;> rfl
  · cases a <;> rfl
  · unfold fmaNum
    extract_lets zero
    by_cases hz : zero = true
    · rw [if_pos hz]
    · rw [if_neg hz]
      cases a <;> cases b <;> simp [Num.isNan]

theorem sqrtNum_nan (h : a.isNan = true) : sqrtNum f m a = (f.nanBits, if a.isSig = true then 1 else 0) := by
  obtain ⟨sg, rfl⟩ := eq_nan_of_isNan h
  rfl

theorem convNum_nan (h : a.isNan = true) : (convNum f m a).1 = f.nanBits := by
  obtain ⟨sg, rfl⟩ := eq_nan_of_isNan h
  rfl

end

/-! #### Words that are not ILLEGAL (05 R149, R150, R159) -/

section
variable {f : FpForm} {rounds usesRb : Bool}

theorem rmBad_rounds {rm : BitVec 3} (h4 : rm ≠ 4) (h5 : rm ≠ 5) (h6 : rm ≠ 6) : rmBad true rm = false := by
  rw [rmBad, if_pos rfl, beq_false_of_ne h4, beq_false_of_ne h5, beq_false_of_ne h6]
  rfl

theorem rmBad_zero {rm : BitVec 3} (h : rm = 0) : rmBad false rm = false := by
  rw [h]
  rfl

theorem FpForm.legal (hr : f.rsv = 0) (hm : rmBad rounds f.rm = false) (hb : usesRb = true ∨ f.rb = 0) : f.bad rounds usesRb = false := by
  rcases hb with rfl | hb <;> simp [FpForm.bad, *]

end

section
variable {s u : State} {t : TileId} {c : Instr} {rd : BitVec 5} {bad : Bool}

/-! #### What the instructions write -/

/-- An instruction that changes registers of its tile only. -/
theorem regOp_computesF {g : Tile → Tile} {val : W32} {flags : Nat} (legal : bad = false) (hc : exec c s = .next (s.regOp c t bad g))
    (hp : ∀ y, (g y).pc = y.pc) (hv : g (u.tile t) = ((u.tile t).wf rd val).addFlags flags) (h : s.begins c t u) : computesF c s u t rd val flags := by
  subst legal
  rw [computesF, ← hv]
  exact State.regOp_retires h g hp hc

theorem regOp_computesG {g : Tile → Tile} {val : W64} {flags : Nat} (legal : bad = false) (hc : exec c s = .next (s.regOp c t bad g))
    (hp : ∀ y, (g y).pc = y.pc) (hv : g (u.tile t) = ((u.tile t).wg rd val).addFlags flags) (h : s.begins c t u) : computesG c s u t rd val flags := by
  subst legal
  rw [computesG, ← hv]
  exact State.regOp_retires h g hp hc

theorem putS_computesF {g : Tile → FpRes} {v : FpRes} (legal : bad = false) (hc : exec c s = .next (s.regOp c t bad (fun y => y.putS rd (g y))))
    (hv : g (u.tile t) = v) : s.begins c t u → computesF c s u t rd (BitVec.ofNat 32 v.1) v.2 :=
  regOp_computesF legal hc (fun _ => rfl) (hv ▸ rfl)

theorem putB_computesF {g : Tile → FpRes} {v : FpRes} (legal : bad = false) (hc : exec c s = .next (s.regOp c t bad (fun y => y.putB rd (g y))))
    (hv : g (u.tile t) = v) : s.begins c t u → computesF c s u t rd (BitVec.ofNat 32 (v.1 * 65536)) v.2 :=
  regOp_computesF legal hc (fun _ => rfl) (hv ▸ rfl)

theorem putG_pc (y : Tile) (v : W64) (fl : Nat) : (y.putG rd v fl).pc = y.pc := y.wg_pc rd v

theorem addFlags_zero (y : Tile) : y.addFlags 0 = y := by
  rw [Tile.addFlags, BitVec.or_zero]

theorem wf_computesF {g : Tile → W32} {val : W32} (legal : bad = false) (hc : exec c s = .next (s.regOp c t bad (fun y => y.wf rd (g y))))
    (hv : g (u.tile t) = val) : s.begins c t u → computesF c s u t rd val 0 :=
  regOp_computesF legal hc (fun _ => rfl) (hv ▸ (addFlags_zero _).symm)

theorem wg_computesG {g : Tile → W64} {val : W64} (legal : bad = false) (hc : exec c s = .next (s.regOp c t bad (fun y => y.wg rd (g y))))
    (hv : g (u.tile t) = val) : s.begins c t u → computesG c s u t rd val 0 :=
  regOp_computesG legal hc (fun y => y.wg_pc rd _) (hv ▸ (addFlags_zero _).symm)

/-- A comparison: a NaN among the operands gives 0 and the flag of that case. -/
theorem fpCmp_computesG {f : FpForm} {flag : Nat} (legal : f.bad false true = false) (quiet : Bool) (op : Int → Bool)
    (hc : exec c s = .next (s.fpCmp c t f quiet op)) (hf : (if quiet then sigFlag [(u.tile t).num f.ra, (u.tile t).num f.rb] else 1) = flag)
    (h : s.begins c t u) :
    let a := (u.tile t).num f.ra
    let b := (u.tile t).num f.rb
    computesG c s u t f.rd (if a.isNan || b.isNan then 0 else if op (cmpNum a b) then 1 else 0) (if a.isNan || b.isNan then flag else 0) := by
  intro a b
  subst hf
  refine regOp_computesG legal hc (fun y => ?_) ?_ h
  · dsimp only
    rw [apply_ite Tile.pc, putG_pc, putG_pc, ite_self]
  · by_cases nan : (a.isNan || b.isNan) = true
    · exact (if_pos nan).trans (by rw [if_pos nan, if_pos nan]; rfl)
    · exact (if_neg nan).trans (by rw [if_neg nan, if_neg nan]; rfl)

end

/-- Settles O4: each instruction is legal in its mode and writes its result, rounded in `mode?`, with the flags. -/
theorem floatingOperationsRoundOnce : Obligations.FloatingOperationsRoundOnce := by
  unfold Obligations.FloatingOperationsRoundOnce
  refine fun s u t => ⟨fun f hr h4 h5 h6 => ?_, fun f hr h4 h5 h6 => ?_⟩
  · have two : f.bad true true = false := FpForm.legal hr (rmBad_rounds h4 h5 h6) (.inl rfl)
    refine ⟨putS_computesF two rfl rfl, putS_computesF two rfl rfl, putS_computesF two rfl rfl, putS_computesF two rfl rfl,
      putB_computesF two rfl rfl, putB_computesF two rfl rfl, putB_computesF two rfl rfl, fun hb => ?_⟩
    have one : f.bad true false = false := FpForm.legal hr (rmBad_rounds h4 h5 h6) (.inr hb)
    exact ⟨putS_computesF one rfl rfl, putB_computesF one rfl rfl, putS_computesF one rfl rfl, putS_computesF one rfl rfl,
      regOp_computesG one rfl (fun y => putG_pc y _ _) rfl, regOp_computesG one rfl (fun y => putG_pc y _ _) rfl⟩
  · have legal : f.bad = false := by rw [R4Form.bad, hr, rmBad_rounds h4 h5 h6]; rfl
    exact ⟨putS_computesF legal rfl rfl, putS_computesF legal rfl rfl, putS_computesF legal rfl rfl, putB_computesF legal rfl rfl⟩

/-- Settles O5: a NaN decides the result of each operation, and the instructions that do not round write what they select or compare. -/
theorem floatingMovesAndNans : Obligations.FloatingMovesAndNans := by
  unfold Obligations.FloatingMovesAndNans
  refine ⟨fun m a b c => ⟨fun h => ?_, fun h => ⟨fmaNum_nan h, fmaNum_nan h⟩, fun h => ⟨sqrtNum_nan h, convNum_nan h⟩⟩, fun s u t f hr hm => ?_⟩
  · intro want
    have canonical : ∀ g : Fmt, (g.nanBits, sigFlag [a, b]) = want g.nanBits := fun g =>
      congrArg _ ((sigFlag_pair a b).trans (if_congr (Bool.or_eq_true_iff ..) rfl rfl))
    exact ⟨(addNum_nan h).trans (canonical _), (mulNum_nan h).trans (canonical _), (divNum_nan h).trans (canonical _),
      (addNum_nan h).trans (canonical _), (mulNum_nan h).trans (canonical _)⟩
  · have two : f.bad false true = false := FpForm.legal hr (rmBad_zero hm) (.inl rfl)
    refine ⟨fpCmp_computesG two true (fun c => c == 0) rfl (sigFlag_pair _ _), fpCmp_computesG two false (fun c => decide (c < 0)) rfl rfl,
      fpCmp_computesG two false (fun c => decide (c ≤ 0)) rfl rfl,
      putS_computesF two rfl rfl, putS_computesF two rfl rfl, fun hb => ?_⟩
    have one : f.bad false false = false := FpForm.legal hr (rmBad_zero hm) (.inr hb)
    exact ⟨wf_computesF one rfl rfl, wf_computesF one rfl rfl, wg_computesG one rfl rfl, wf_computesF one rfl rfl⟩

end Sys2Proof.Machine

namespace Sys2Proof.Machine

/-! ### Branches and jumps (05 R157) -/

namespace State
variable {s u v : State} {t : TileId} {q : QuarterId} {l : LineAddr} {set w : Nat}

/-! #### What a wrong path may leave (04 R136; 11 R306–R308) -/

/-- State `v` is `s` but for the tiles and what reading the quarter caches changes: their arrays, and what the Beacon tells of the errors
found there. -/
def CacheReads (s v : State) : Prop := ∃ tiles fr qs fld out alert mgmt link queue, v = { s with
  tiles := tiles, freeCtr := fr, quarters := qs, fld := fld, out := out, smbAlert := alert, mgmt := mgmt, link := link, logQueue := queue }

/-- State `v` is `s` but for what a wrong path of tile `t` leaves: of the tiles, copies of lines and their counts. -/
def WrongPath (t : TileId) (s v : State) : Prop :=
  CacheReads s v ∧ (∀ r, r ≠ t → ∃ d i b, v.tile r = { s.tile r with l1d := d, l1i := i, fetchBuf := b })
  ∧ ∃ d i b n p o, v.tile t = { s.tile t with l1d := d, l1i := i, fetchBuf := b, wpFetch := n, pmc := p, ovf := o }

theorem WrongPath.refl (t : TileId) (s : State) : WrongPath t s s :=
  ⟨⟨_, _, _, _, _, _, _, _, _, rfl⟩, fun _ _ => ⟨_, _, _, rfl⟩, _, _, _, _, _, _, rfl⟩

theorem WrongPath.trans (h : WrongPath t s u) (k : WrongPath t u v) : WrongPath t s v := by
  obtain ⟨⟨_, _, _, _, _, _, _, _, _, hs⟩, others, _, _, _, _, _, _, ht⟩ := h
  obtain ⟨⟨_, _, _, _, _, _, _, _, _, ks⟩, others2, d, i, b, n, p, o, kt⟩ := k
  refine ⟨⟨_, _, _, _, _, _, _, _, _, by rw [ks, hs]⟩, fun r hr => ?_, d, i, b, n, p, o, by rw [kt, ht]⟩
  obtain ⟨_, _, _, e⟩ := others r hr
  obtain ⟨d, i, b, e2⟩ := others2 r hr
  exact ⟨d, i, b, by rw [e2, e]⟩

theorem wrongPath_ite {c : Prop} [Decidable c] {x y : State} (hx : WrongPath t s x) (hy : WrongPath t s y) : WrongPath t s (if c then x else y) := by
  split_ifs <;> assumption

theorem wrongPath_ite_snd {α : Type} {c : Prop} [Decidable c] {x y : α × State} (hx : WrongPath t s x.2) (hy : WrongPath t s y.2) :
    WrongPath t s (if c then x else y).2 := by
  split_ifs <;> assumption

theorem wrongPath_pair {α : Type} {a : α} (h : WrongPath t s u) : WrongPath t s (a, u).2 := h

theorem wrongPath_snd {α : Type} {p : α × State} {a : α} (e : p = (a, u)) (h : WrongPath t s p.2) : WrongPath t s u := by rwa [e] at h

theorem wrongPath_foldl {α : Type} {g : State → α → State} (hg : ∀ u a, WrongPath t u (g u a)) (l : List α) : WrongPath t s (l.foldl g s) :=
  List.foldlRecOn (motive := WrongPath t s) l g (.refl t s) fun u hu a _ => hu.trans (hg u a)

/-- Nothing in a tile differs. -/
theorem wrongPath_of_tile (e : CacheReads s v) (h : ∀ r, v.tile r = s.tile r) : WrongPath t s v :=
  ⟨e, fun r _ => ⟨_, _, _, h r⟩, _, _, _, _, _, _, h t⟩

theorem BeaconOnly.wrongPath (h : BeaconOnly s v) : WrongPath t s v := by
  refine wrongPath_of_tile ?_ h.tile
  obtain ⟨_, _, _, _, _, _, rfl⟩ := h
  exact ⟨_, _, _, _, _, _, _, _, _, rfl⟩

theorem CopiesOnly.wrongPath (h : CopiesOnly s v) : WrongPath t s v := by
  obtain ⟨only, tiles⟩ := h
  refine ⟨⟨_, _, _, _, _, _, _, _, _, only⟩, fun r _ => tiles r, ?_⟩
  obtain ⟨d, i, b, e⟩ := tiles t
  exact ⟨d, i, b, _, _, _, e⟩

theorem wrongPath_updQuarter (f : Quarter → Quarter) : WrongPath t s (s.updQuarter q f) :=
  wrongPath_of_tile ⟨_, _, _, _, _, _, _, _, _, rfl⟩ fun _ => rfl

theorem wrongPath_free : WrongPath t s s.free.2 := wrongPath_of_tile ⟨_, _, _, _, _, _, _, _, _, rfl⟩ fun _ => rfl

theorem wrongPath_setF (f : Fld) (n : Nat) : WrongPath t s (s.setF f n) := (beaconOnly_setF f n).wrongPath
theorem wrongPath_bumpF (f : Fld) (n : Nat) : WrongPath t s (s.bumpF f n) := wrongPath_setF f _

/-- A change of the tile itself. -/
theorem wrongPath_of_onlyTile (h : onlyTile s v t)
    (e : ∃ d i b n p o, v.tile t = { s.tile t with l1d := d, l1i := i, fetchBuf := b, wpFetch := n, pmc := p, ovf := o }) : WrongPath t s v := by
  obtain ⟨only, others⟩ := h
  exact ⟨⟨_, _, _, _, _, _, _, _, _, only⟩, fun r hr => ⟨_, _, _, others r hr⟩, e⟩

theorem wrongPath_countTile (ev k : Nat) : WrongPath t s (s.countTile t ev k) := by
  obtain ⟨only, a, b, tile⟩ := countTile_cases s t ev k
  exact wrongPath_of_onlyTile only ⟨_, _, _, _, _, _, tile⟩

/-! #### Reading the quarter cache -/

theorem wrongPath_qcEvent (cls errKind kind set w : Nat) (ward : Option WardId) : WrongPath t s (s.qcEvent q cls errKind kind set w ward) := by
  unfold qcEvent
  extract_lets s1 s2 s3
  have k1 : WrongPath t s s1 := wrongPath_ite (wrongPath_bumpF _ _) (wrongPath_bumpF _ _)
  have k2 : WrongPath t s s2 := wrongPath_ite (k1.trans (wrongPath_bumpF _ _)) k1
  have k3 : WrongPath t s s3 := ((k2.trans (wrongPath_setF _ _)).trans (wrongPath_setF _ _)).trans (wrongPath_setF _ _)
  exact k3.trans (beaconOnly_event _).wrongPath

theorem wrongPath_injects (tagArray : Bool) (set w : Nat) : WrongPath t s (s.injects q tagArray set w).2 :=
  wrongPath_ite_snd (((wrongPath_setF _ _).trans (wrongPath_setF _ _)).trans (wrongPath_setF _ _)) (.refl t s)

theorem wrongPath_writeWay (set w : Nat) (c : CWay) (written : Mask64) : WrongPath t s (s.writeWay q set w c written) := by
  unfold writeWay
  extract_lets old c2 tagWrite
  split
  next hit u e =>
    have tags : WrongPath t s u := wrongPath_snd e (wrongPath_ite_snd (wrongPath_injects true set w) (.refl t s))
    split
    next hit2 v e2 =>
      have data : WrongPath t s v := wrongPath_snd e2 (wrongPath_ite_snd (x := (false, u)) tags (tags.trans (wrongPath_injects false set w)))
      exact data.trans (wrongPath_updQuarter _)

theorem wrongPath_putWay (set w : Nat) (c : CWay) : WrongPath t s (s.putWay q set w c) := wrongPath_writeWay set w c 0

theorem wrongPath_clearWay (set w : Nat) : WrongPath t s (s.clearWay q set w) :=
  wrongPath_ite ((wrongPath_putWay set w _).trans (copiesOnly_staleCopies _).wrongPath) (wrongPath_putWay set w _)

theorem wrongPath_tagScan (set : Nat) : WrongPath t s (s.tagScan q set) := by
  refine wrongPath_foldl (fun u w => wrongPath_ite (.trans ?_ (wrongPath_qcEvent ..)) (.refl t u)) _
  exact wrongPath_ite ((wrongPath_clearWay set w).trans (wrongPath_updQuarter _)) (wrongPath_clearWay set w)

theorem wrongPath_checkMask (set w : Nat) : WrongPath t s (s.checkMask q set w) := by
  refine wrongPath_foldl (fun u e => wrongPath_ite (.refl t u) ?_) _
  extract_lets rest
  split
  · exact wrongPath_putWay set w _
  · exact (wrongPath_putWay set w _).trans (wrongPath_qcEvent ..)
  · exact (wrongPath_putWay set w _).trans (wrongPath_qcEvent ..)

theorem wrongPath_qLook : WrongPath t s (s.qLook q l).2 := by
  unfold qLook
  extract_lets s1
  have scanned : WrongPath t s s1 := wrongPath_tagScan _
  clear_value s1
  split
  · exact scanned
  · exact scanned.trans (wrongPath_checkMask _ _)

theorem wrongPath_checkBytes (set w : Nat) (need : Mask64) : WrongPath t s (s.checkBytes q set w need).2 := by
  refine List.foldlRecOn (motive := fun p : Bool × State => WrongPath t s p.2) _ _ (.refl t s) fun p hp e _ => hp.trans ?_
  dsimp only
  refine wrongPath_ite_snd (.refl t p.2) ?_
  split
  · exact wrongPath_writeWay set w _ _
  · exact wrongPath_pair ((wrongPath_writeWay set w _ _).trans (wrongPath_qcEvent ..))
  · exact wrongPath_ite_snd (wrongPath_pair ((wrongPath_clearWay set w).trans (wrongPath_qcEvent ..)))
      (wrongPath_pair ((wrongPath_putWay set w _).trans (wrongPath_qcEvent ..)))

theorem wrongPath_qProbe (need : Mask64) : WrongPath t s (s.qProbe q l need).2 := by
  unfold qProbe
  dsimp only
  split
  next e => exact wrongPath_snd e wrongPath_qLook
  next w u e =>
    have found : WrongPath t s (u.checkBytes q (setOf l) w need).2 := (wrongPath_snd e wrongPath_qLook).trans (wrongPath_checkBytes _ w need)
    exact wrongPath_ite_snd found (wrongPath_ite_snd found found)

/-! #### The fills of the wrong path -/

theorem wrongPath_touch (n set w : Nat) : WrongPath t s ((s.qcCount q n).touchWay q set w) := (wrongPath_bumpF _ _).trans (wrongPath_updQuarter _)

/-- A line that is filled and counted. -/
theorem wrongPath_fill (x : L1Line) : WrongPath t s (s.updTile t (fun y =>
    ({ y with l1i := pushL1 y.l1i x, wpFetch := y.wpFetch + 1 } : Tile).countEv 5 1)) := by
  obtain ⟨p, o, e⟩ := Tile.countEv_cases { s.tile t with l1i := pushL1 (s.tile t).l1i x, wpFetch := (s.tile t).wpFetch + 1 } 5 1
  exact wrongPath_of_onlyTile (onlyTile_updTile ..) ⟨_, _, _, _, _, _, by rw [tile_updTile, e]⟩

theorem wrongPath_wrongFill (a n : Nat) : WrongPath t s (s.wrongFill t a n) := by
  induction n generalizing s a with
  | zero => exact .refl t s
  | succ n ih =>
    dsimp only [wrongFill]
    split
    · exact .refl t s
    · split
      · exact .refl t s
      · refine wrongPath_ite (.refl t s) ?_
        split
        next e =>
          have probed := wrongPath_snd e (wrongPath_qProbe (t := t) fullMask)
          exact wrongPath_ite (probed.trans (wrongPath_touch ..)) ((probed.trans (wrongPath_touch ..)).trans ((wrongPath_fill _).trans (ih _)))
        next e => exact wrongPath_snd e (wrongPath_qProbe fullMask)

theorem wrongPath_mispredict (wrong : W64) : WrongPath t s (s.mispredict t wrong) :=
  wrongPath_ite wrongPath_free ((wrongPath_free.trans (wrongPath_countTile 6 1)).trans (wrongPath_wrongFill _ _))

/-! #### Going on at the target (05 R148, R157) -/

variable {c : Instr} {pc : W64} {y : Tile}

theorem CacheReads.onlyTile (h : CacheReads s u) (k : onlyTile u v t) : CacheReads s v := by
  obtain ⟨_, _, _, _, _, _, _, _, _, rfl⟩ := h
  exact ⟨_, _, _, _, _, _, _, _, _, k.1⟩

/-- A tile that retires after what a wrong path left in it. -/
theorem retiredAs_of_wrongPath {x : Tile} {d i : List L1Line} {b : Option L1Line} {n : BitVec 48} {p : Vector (BitVec 48) 4} {o : BitVec 4}
    (h : retiredAs { y with l1d := d, l1i := i, fetchBuf := b, wpFetch := n, pmc := p, ovf := o } x pc) :
    retiredAs { y with l1d := x.l1d, l1i := x.l1i, fetchBuf := x.fetchBuf, wpFetch := x.wpFetch } x pc := by
  unfold retiredAs at h ⊢
  rw [h]

/-- A command that retires its tile after a wrong path; `x` is the state with the link written. -/
theorem jumps_of_retire {x : State} (he : exec c s = .next (x.retire t pc)) (hw : WrongPath t u v) (hx : Machine.onlyTile v x t)
    (ht : ∃ d i b n p o, x.tile t = { y with l1d := d, l1i := i, fetchBuf := b, wpFetch := n, pmc := p, ovf := o }) : jumps c s u t y pc := by
  obtain ⟨reads, others, -⟩ := hw
  obtain ⟨_, _, _, _, _, _, tile⟩ := ht
  obtain ⟨retire, retired⟩ : Machine.onlyTile x (x.retire t pc) t ∧ retiredAs (x.tile t) ((x.retire t pc).tile t) pc := retireAs_cases x t false pc
  rw [tile] at retired
  generalize x.retire t pc = z at he retire retired
  have only := onlyTile_trans hx retire
  refine ⟨z, he, ?_, fun r hr => ?_, retiredAs_of_wrongPath retired⟩
  · obtain ⟨_, _, _, _, _, _, _, _, _, e⟩ := reads.onlyTile only
    rw [e]
  · obtain ⟨_, _, _, e⟩ := others r hr
    rw [only.2 r hr, e]

theorem jumps_of_mispredict {wrong : W64} (he : exec c s = .next ((u.mispredict t wrong).retire t pc)) : jumps c s u t (u.tile t) pc :=
  jumps_of_retire he (wrongPath_mispredict wrong) (onlyTile_refl _ t) (wrongPath_mispredict wrong).2.2

theorem branchOp_jumps {f : BForm} {cond : W64 → W64 → Bool} {q : Prop} [Decidable q] (hc : exec c s = .next (s.branchOp c t f cond))
    (hq : cond ((u.tile t).rg f.ra) ((u.tile t).rg f.rb) = true ↔ q) (h : s.begins c t u) :
    jumps c s u t (u.tile t) (if q then ((u.tile t).pc + 4 * f.off.signExtend 64) &&& ~~~ 3#64 else (u.tile t).pc + 4) := by
  have run := exec_body hc h rfl (.inl rfl)
  dsimp only at run
  have aim : branchTarget (u.tile t).pc f.off = ((u.tile t).pc + 4 * f.off.signExtend 64) &&& ~~~ 3#64 := by
    rw [branchTarget, target, sext16, BitVec.mul_comm]
    rfl
  by_cases taken : q
  · rw [if_pos taken, ← aim]
    rw [if_pos (hq.mpr taken)] at run
    exact jumps_of_mispredict run
  · rw [if_neg taken]
    rw [if_neg (mt hq.mp taken)] at run
    exact jumps_of_mispredict run

/-- A jump that writes no link. -/
theorem jumpOp_jumps {bad : Bool} {tgt : Tile → W64} (hbad : bad = false) (hc : exec c s = .next (s.jumpOp c t bad false tgt)) (hv : tgt (u.tile t) = pc)
    (h : s.begins c t u) : jumps c s u t (u.tile t) pc := by
  have run := exec_body hc h hbad (.inl rfl)
  subst hv
  exact jumps_of_mispredict run

/-- A jump that writes its link after its target has been read. -/
theorem jumpOp_links {bad : Bool} {tgt : Tile → W64} (hbad : bad = false) (hc : exec c s = .next (s.jumpOp c t bad true tgt)) (hv : tgt (u.tile t) = pc)
    (h : s.begins c t u) : jumps c s u t ((u.tile t).wg 1 ((u.tile t).pc + 4)) pc := by
  have run := exec_body hc h hbad (.inl rfl)
  subst hv
  have path := wrongPath_mispredict (s := u) (t := t) ((u.tile t).pc + 4)
  refine jumps_of_retire (x := (u.mispredict t ((u.tile t).pc + 4)).updTile t (fun x => x.wg 1 (x.pc + 4))) run path (onlyTile_updTile ..) ?_
  obtain ⟨-, -, d, i, b, n, p, o, e⟩ := path
  refine ⟨d, i, b, n, p, o, ?_⟩
  rw [tile_updTile, e]
  rfl

end State

section
open State

/-- Settles O3: a branch or jump retires at its target after what a mispredicted path leaves, and a link is written in between. -/
theorem branchesAndJumpsGoOn : Obligations.BranchesAndJumpsGoOn := by
  unfold Obligations.BranchesAndJumpsGoOn
  refine fun s u t => ⟨fun f => ?_, fun off => ?_, fun f hr hd hb => ?_⟩
  · have ge : ∀ a b : W64, (!a.slt b) = true ↔ b.toInt ≤ a.toInt := fun a b => by
      rw [Bool.not_eq_true', ← Bool.not_eq_true, BitVec.slt_iff_toInt_lt, Int.not_lt]
    have geu : ∀ a b : W64, (!a.ult b) = true ↔ b.toNat ≤ a.toNat := fun a b => by
      rw [Bool.not_eq_true', ← Bool.not_eq_true, BitVec.ult_iff_lt, BitVec.lt_def, Nat.not_lt]
    exact ⟨branchOp_jumps rfl beq_iff_eq, branchOp_jumps rfl bne_iff_ne, branchOp_jumps rfl BitVec.slt_iff_toInt_lt,
      branchOp_jumps rfl (ge _ _), branchOp_jumps rfl BitVec.ult_iff_lt, branchOp_jumps rfl (geu _ _)⟩
  · have aim : jumpTarget (u.tile t).pc off = ((u.tile t).pc + 4 * off.signExtend 64) &&& ~~~ 3#64 := by
      rw [jumpTarget, target, BitVec.mul_comm]
      rfl
    exact ⟨jumpOp_jumps rfl rfl aim, jumpOp_links rfl rfl aim⟩
  · have legal : f.badJr = false := by rw [RForm.badJr, hr, hd, hb]; rfl
    exact ⟨jumpOp_jumps legal rfl rfl, jumpOp_links legal rfl rfl⟩

end
end Sys2Proof.Machine

namespace Sys2Proof.Machine

/-! ### Packets on their path and at their tile (06 R173, R180, R190–R193; 07 R205) -/

/-! #### One hop in the mesh (06 R173, R176) -/

theorem stepToward_nearer {a b : Nat} (h : a ≠ b) : stepToward a b - b + (b - stepToward a b) + 1 = a - b + (b - a) := by
  unfold stepToward
  split_ifs <;> omega

theorem stepToward_lt {a b n : Nat} (ha : a < n) (hb : b < n) : stepToward a b < n := by
  unfold stepToward
  split_ifs <;> omega

/-- The tile of column `m` in quarter `q`. -/
theorem tileAt_place {q m : Nat} (hq : q < 16) (hm : m < 16) :
    (Fin.ofNat 256 (16 * q + m)).val / 16 = q ∧ (Fin.ofNat 256 (16 * q + m)).val % 16 = m := by
  rw [Fin.val_ofNat]
  omega

/-- In another column than its destination's, a packet goes along the quarter. -/
theorem nextHop_along (a : Node) {b c : TileId} (h : c.val % 16 ≠ b.val % 16) :
    ∃ n : TileId, nextHop a (.tile b) (.tile c) = .tile n ∧ n.val / 16 = c.val / 16 ∧ n.val % 16 = stepToward (c.val % 16) (b.val % 16) :=
  ⟨_, if_pos h, tileAt_place (by omega) (stepToward_lt (by omega) (by omega))⟩

/-- In the column of its destination, a packet goes across the quarters. -/
theorem nextHop_across (a : Node) {b c : TileId} (h : c.val % 16 = b.val % 16) :
    ∃ n : TileId, nextHop a (.tile b) (.tile c) = .tile n ∧ n.val / 16 = stepToward (c.val / 16) (b.val / 16) ∧ n.val % 16 = c.val % 16 :=
  ⟨_, if_neg (not_not_intro h), tileAt_place (stepToward_lt (by omega) (by omega)) (by omega)⟩

/-- The hops between two tiles of the mesh: the columns and the quarters that lie between them. -/
def meshDist (x y : TileId) : Nat :=
  (x.val % 16 - y.val % 16) + (y.val % 16 - x.val % 16) + (x.val / 16 - y.val / 16) + (y.val / 16 - x.val / 16)

theorem nextHop_nearer (a : Node) {b c : TileId} (h : c ≠ b) :
    ∃ n : TileId, nextHop a (.tile b) (.tile c) = .tile n ∧ meshDist n b + 1 = meshDist c b ∧ (c.val % 16 ≠ b.val % 16 → n.val / 16 = c.val / 16) := by
  unfold meshDist
  by_cases hm : c.val % 16 = b.val % 16
  · obtain ⟨n, hop, quarter, column⟩ := nextHop_across a hm
    have nearer := stepToward_nearer (a := c.val / 16) (b := b.val / 16) fun e => h (Fin.ext (by omega))
    exact ⟨n, hop, by rw [quarter, column]; omega, absurd hm⟩
  · obtain ⟨n, hop, quarter, column⟩ := nextHop_along a hm
    have nearer := stepToward_nearer hm
    exact ⟨n, hop, by rw [quarter, column]; omega, fun _ => quarter⟩

namespace State
variable {s u : State} {i : Nat} {p : Packet} {t : TileId} {m : Msg} {pr : Probe} {it : Item} {a : W64} {rd : BitVec 5} {nd : PlanNode}

/-! #### A packet goes on (06 R180) -/

/-- The oldest packet of its buffer goes on when the next buffer has room. -/
theorem advance_head (h : s.net[i]? = some p) (hc : p.cur ≠ p.dst) (hs : p.stuck = false) (hh : isHead s.net i p = true) :
    s.advance i = if bufCount s.net p.cur (nextHop p.src p.dst p.cur) p.chan p.lane < bufLimit p.chan p.lane then
      { s with net := s.net.eraseIdx i ++ [{ p with prev := p.cur, cur := nextHop p.src p.dst p.cur }] } else s := by
  have goes : ¬(p.cur == p.dst || p.stuck || !isHead s.net i p) = true := by simp [hc, hs, hh]
  unfold advance
  rw [h]
  exact if_neg goes

theorem tiles_advance (s : State) (i : Nat) : (s.advance i).tiles = s.tiles := by
  unfold advance
  split
  · rfl
  · dsimp only
    split_ifs <;> rfl

/-- A running tile has no blocked instruction that a freed buffer lets go on. -/
theorem retrySender_running {n : Node} (h : ∀ t, n = .tile t → (s.tile t).mode = .running) : s.retrySender n = s := by
  unfold retrySender
  split
  · rfl
  · rw [h _ rfl]
    exact ite_self _

theorem advanceAll_running (h : s.net[i]? = some p) (hm : ∀ t, p.cur = .tile t → (s.tile t).mode = .running) : s.advanceAll i = s.advance i := by
  have still : ∀ t, p.cur = .tile t → ((s.advance i).tile t).mode = .running := fun t ht => by
    rw [tile_congr (tiles_advance s i)]
    exact hm t ht
  unfold advanceAll
  simp only [h, retrySender_running still, ite_self]

/-! #### A packet at its tile -/

/-- Packet `p` at place `i` has come by the network to tile `t`, where it is addressed. -/
structure AtTile (s : State) (i : Nat) (p : Packet) (t : TileId) : Prop where
  arrived : s.arrived i = some p
  dst : p.dst = .tile t
  moved : p.prev ≠ p.cur

theorem AtTile.taken (h : AtTile s i p t) : s.takePkt i = s.dropPkt i := takePkt_of_moved (arrived_eq_some h.arrived).1 h.moved

theorem AtTile.from_elsewhere (h : AtTile s i p t) : p.prev ≠ p.dst := (arrived_eq_some h.arrived).2 ▸ h.moved

theorem msgDiscards_eq {w : WardId} (h : s.tileWard t = some w) : s.msgDiscards p t = (s.resettingWard p.ward || s.resettingWard w) := by
  rw [msgDiscards, h]

/-- What a message at its tile meets (06 R190; 04 R138). -/
theorem AtTile.message (h : AtTile s i p t) (hp : p.payload = .message m) (hg : m.gated = false) (hd : p.dead = false) :
    s.deliverMsg i = if s.msgDiscards p t then (s.dropPkt i).bumpF (F.TIL_AVE_CNT_DISCARD t.val) 1
      else if (s.tile t).inbox.length < 16 then (s.dropPkt i).inboxPut t { m with poison := m.poison || p.poison } else s := by
  unfold deliverMsg
  simp only [h.arrived, hp, h.dst, hg, hd, h.taken, Bool.false_and, Bool.false_or, Bool.false_eq_true, if_false]

/-! #### A work record is complete (04 R139; 07 R205) -/

theorem workRecord_length (it : Item) (arity : Nat) : (workRecord it arity).length = 96 := by
  simp only [workRecord, List.length_append, leBytes_length, List.length_cons, List.length_nil, List.length_flatMap, List.map_const', List.length_range,
    List.sum_replicate, smul_eq_mul]

/-- Local store with a work record without marks at `o`. -/
def withRecord (y : Tile) (o : Nat) (it : Item) (arity : Nat) : Tile := (y.lsWriteBytes o (workRecord it arity)).markWords o false 12

theorem withRecord_ls (y : Tile) (o : Nat) (it : Item) (arity j : Nat) :
    (withRecord y o it arity).ls.get 0 j = if o ≤ j ∧ j < o + 96 then (workRecord it arity).getD (j - o) 0 else y.ls.get 0 j := by
  rw [withRecord, Tile.markWords_ls, Tile.lsWriteBytes_get, workRecord_length]

theorem withRecord_regs (y : Tile) (o : Nat) (it : Item) (arity : Nat) : (withRecord y o it arity).g = y.g ∧ (withRecord y o it arity).pc = y.pc := by
  rw [withRecord, Tile.markWords_eq, Tile.lsWriteBytes_eq]
  exact ⟨rfl, rfl⟩

/-- The tile that has been handed the item `it` by GETWORK, before that retires. -/
def handed (y : Tile) (a : W64) (rd : BitVec 5) (it : Item) (nd : PlanNode) : Tile :=
  { (withRecord y (a.toNat - lsBase) it nd.arity).wg rd nd.entry with item := some it, workIn := none, workParts := 0, workBad := 0 }

theorem handed_ls (y : Tile) (j : Nat) : (handed y a rd it nd).ls.get 0 j =
    if a.toNat - lsBase ≤ j ∧ j < a.toNat - lsBase + 96 then (workRecord it nd.arity).getD (j - (a.toNat - lsBase)) 0 else y.ls.get 0 j :=
  (congrArg (Tbl.get 0 · j) (Tile.wg_ls ..).symm).trans (withRecord_ls ..)

theorem handed_g (y : Tile) : (handed y a rd it nd).g = (y.wg rd nd.entry).g := Tile.wg_g_congr (withRecord_regs ..).1 rd nd.entry

theorem handed_pc (y : Tile) : (handed y a rd it nd).pc = y.pc := (Tile.wg_pc ..).trans (withRecord_regs ..).2

/-- The record of an item whose operands and packets are not poisoned is written, the tile's place in the queue is given up, and GETWORK
retires. -/
theorem finishGetwork_retires (hm : (s.tile t).mode = .inGetwork a rd) (hw : (s.tile t).workIn = some it) (hb : (s.tile t).workBad = 0)
    (hi : it.ppoison = 0) (hn : s.nodeByKey it.ward it.key = some nd) :
    onlyTile { s with gwQueue := s.gwQueue.erase t } (s.finishGetwork t) t
      ∧ retiredAs (handed (s.tile t) a rd it nd) ((s.finishGetwork t).tile t) ((s.tile t).pc + 4) := by
  have unmarked : ∀ (y : Tile) (o : Nat), (List.range 4).foldl (fun y p => if it.ppoison.getLsbD p then y.markWords (o + 32 + 16 * p) true 2 else y) y = y :=
    fun y o => foldl_of_fixed fun p _ => by
      rw [hi]
      exact if_neg (ne_true_of_eq_false BitVec.getLsbD_zero)
  generalize hx : ({ s with gwQueue := s.gwQueue.erase t } : State).updTile t (fun y => handed y a rd it nd) = x
  have given : onlyTile { s with gwQueue := s.gwQueue.erase t } x t := hx ▸ onlyTile_updTile _ t _
  have tile : x.tile t = handed (s.tile t) a rd it nd := hx ▸ tile_updTile ..
  have written : s.finishGetwork t = (x.countTile t 8 1).retireAlone t := by
    rw [← hx]
    unfold finishGetwork
    simp only [hm, hw, hn, hb, unmarked, Option.map_some, Option.getD_some]
    rfl
  rw [retireAlone, pc_countTile, tile, handed_pc] at written
  obtain ⟨counted, pmc, ovf, same⟩ := countTile_cases x t 8 1
  obtain ⟨only, retired⟩ := retireAs_cases (x.countTile t 8 1) t true ((s.tile t).pc + 4)
  rw [same, tile] at retired
  rw [written]
  exact ⟨onlyTile_trans (onlyTile_trans given counted) only, retiredAs_of_counted retired⟩

/-- The tile once one more part of its work record has come. -/
def partCame (y : Tile) : Tile := { y with workParts := y.workParts + 1 }

/-- The packet at place `i` has given tile `t` a part of its work record. -/
def takePart (s : State) (i : Nat) (t : TileId) : State := (s.dropPkt i).updTile t partCame

theorem AtTile.lastPart (h : AtTile s i p t) (hp : p.payload = .work false) (hpo : p.poison = false) (hd : p.dead = false)
    (hw : (s.tile t).workIn = some it) (hn : (s.tile t).workParts = 1) : s.deliverMsg i = (s.takePart i t).finishGetwork t := by
  have waits : ((s.dropPkt i).tile t).workIn = some it := hw
  have parts : ((s.takePart i t).tile t).workParts = 2 := by
    rw [takePart, tile_updTile]
    exact congrArg (· + 1) hn
  unfold deliverMsg
  simp only [h.arrived, hp, h.dst, hd, h.taken, waits, hpo, Option.isNone_some, Bool.or_self, Bool.false_eq_true, if_false]
  exact if_pos parts

/-- The second part of a work record at its waiting tile completes GETWORK. -/
theorem AtTile.getwork_retires (h : AtTile s i p t) (hp : p.payload = .work false) (hpo : p.poison = false) (hd : p.dead = false)
    (hw : (s.tile t).workIn = some it) (hn : (s.tile t).workParts = 1) (hb : (s.tile t).workBad = 0) (hm : (s.tile t).mode = .inGetwork a rd)
    (hi : it.ppoison = 0) (hnd : s.nodeByKey it.ward it.key = some nd) :
    onlyTile { s with net := s.net.eraseIdx i, gwQueue := s.gwQueue.erase t } (s.deliverMsg i) t
      ∧ retiredAs (handed (partCame (s.tile t)) a rd it nd) ((s.deliverMsg i).tile t) ((s.tile t).pc + 4) := by
  have parts : (s.takePart i t).tile t = partCame (s.tile t) := tile_updTile ..
  obtain ⟨only, retired⟩ := finishGetwork_retires (s := s.takePart i t) (by rw [parts]; exact hm) (by rw [parts]; exact hw) (by rw [parts]; exact hb) hi hnd
  rw [parts] at retired
  rw [h.lastPart hp hpo hd hw hn]
  exact ⟨onlyTile_trans (b := { s.takePart i t with gwQueue := s.gwQueue.erase t }) ⟨rfl, (onlyTile_updTile (s.dropPkt i) t partCame).2⟩ only, retired⟩

/-! #### Probes (06 R192, R193) -/

theorem AtTile.absorbed (h : AtTile s i p t) (hp : p.payload = .probe pr) (hk : p.kind = 3) (hm : s.isF (F.TIL_AVE_MIRROR_MIRROR t.val) = false) :
    s.probeArrives i = (s.dropPkt i).bumpF (F.TIL_AVE_MIRROR_ABSORBED t.val) 1 := by
  unfold probeArrives
  simp only [h.arrived, hp, h.dst, hk, hm, h.taken, Bool.false_eq_true, if_false]

/-- A probe is reflected once its crossing has a credit of the probe lane (06 R179). -/
theorem AtTile.mirrored (h : AtTile s i p t) (hp : p.payload = .probe pr) (hk : p.kind = 3) (hc : p.chan = .msg)
    (hm : s.isF (F.TIL_AVE_MIRROR_MIRROR t.val) = true) : s.probeArrives i = if s.hasCredit (.tile t) 8 then
      { s with net := s.net.eraseIdx i ++ [{ p with kind := 4, src := p.dst, dst := p.src, prev := p.dst, cur := p.dst, ward := (s.tileWard t).getD 0 }] }
      else s := by
  have far : (p.prev == Node.tile t) = false := beq_eq_false_iff_ne.mpr (h.dst ▸ h.from_elsewhere)
  unfold probeArrives
  simp only [h.arrived, hp, h.dst, hk, hm, h.taken, far, Bool.or_false, if_true]
  exact if_congr Iff.rfl (sendPkt_msg hc) rfl

/-- The parts of one register are apart. -/
theorem getF_setF_part (s : State) (off : Nat) {lo lo2 : Nat} (w w2 v : Nat) (h : lo2 ≠ lo) :
    (s.setF ⟨off, lo, w⟩ v).getF ⟨off, lo2, w2⟩ = s.getF ⟨off, lo2, w2⟩ :=
  getF_setF_other _ _ _ _ fun e => h (Nat.add_left_cancel e)

/-- The result register after the return of a probe (06 R193). -/
def probeResult (s : State) (t : TileId) (pattern trip : Nat) (mismatch poison : Bool) : State :=
  ((((s.setF (F.TIL_AVE_PROBE_RES_RETURNED t.val) pattern).setF (F.TIL_AVE_PROBE_RES_TRIP t.val) trip).setF (F.TIL_AVE_PROBE_RES_DONE t.val) 1).setB
    (F.TIL_AVE_PROBE_RES_MISMATCH t.val) mismatch).setB (F.TIL_AVE_PROBE_RES_POISON t.val) poison

section
variable (s : State) (t : TileId) (pattern trip : Nat) (mismatch poison : Bool)

theorem fieldsOnly_probeResult : FieldsOnly s (s.probeResult t pattern trip mismatch poison) := (fieldsOnly_setF _ _).setF.setF.setF.setF

theorem tile_probeResult (r : TileId) : (s.probeResult t pattern trip mismatch poison).tile r = s.tile r := tile_congr rfl r

/-- The parts of the register are set one after another, and none covers another. -/
theorem getF_probeResult :
    (s.probeResult t pattern trip mismatch poison).getF (F.TIL_AVE_PROBE_RES_RETURNED t.val) = pattern % 2 ^ 32
      ∧ (s.probeResult t pattern trip mismatch poison).getF (F.TIL_AVE_PROBE_RES_TRIP t.val) = trip % 2 ^ 16
      ∧ (s.probeResult t pattern trip mismatch poison).getF (F.TIL_AVE_PROBE_RES_DONE t.val) = 1 := by
  simp [probeResult, setB, getF_setF_part, F.TIL_AVE_PROBE_RES_RETURNED, F.TIL_AVE_PROBE_RES_TRIP, F.TIL_AVE_PROBE_RES_DONE,
    F.TIL_AVE_PROBE_RES_MISMATCH, F.TIL_AVE_PROBE_RES_POISON]

end

/-- The reflection of the tile's last probe is recorded with its pattern and its trip. -/
theorem AtTile.returned (h : AtTile s i p t) (hp : p.payload = .probe pr) (hk : p.kind = 4) (ho : (s.tile t).probeOut = true)
    (hs : pr.serial = (s.tile t).probeSerial) :
    ∃ mismatch, s.probeReturns i = ((s.dropPkt i).updTile t (fun y => { y with probeOut := false })).probeResult t pr.pattern.toNat
      (min 0xFFFF (s.supTime - pr.sentAt)) mismatch p.poison := by
  have mine : (((s.dropPkt i).tile t).probeOut && pr.serial == ((s.dropPkt i).tile t).probeSerial) = true :=
    Bool.and_eq_true_iff.mpr ⟨ho, beq_iff_eq.mpr hs⟩
  unfold probeReturns
  simp only [h.arrived, hp, h.dst, hk, h.taken, mine, if_true]
  exact ⟨_, rfl⟩

end State

section
open State

/-- Settles O18: a hop in the mesh is one step along a row or column; what arrives at a tile is taken off the network and then does the
one thing that its payload and the tile's state ask. -/
theorem packetsTravelAndArrive : Obligations.PacketsTravelAndArrive := by
  unfold Obligations.PacketsTravelAndArrive
  refine ⟨⟨fun s i p h hc hs hh hm => ?_, fun a b c h => nextHop_nearer (.tile a) h⟩, fun s i p t ha hd hmoved => ?_⟩
  · have run : exec (.packetAdvance i) s = .next (s.advance i) := congrArg Host.Outcome.next (advanceAll_running h hm)
    rw [run, advance_head h hc hs hh]
    exact ⟨fun room => by rw [if_pos room], fun full => by rw [if_neg (Nat.not_lt.mpr full)]⟩
  have here : AtTile s i p t := ⟨ha, hd, hmoved⟩
  have delivers : exec (.msgDeliver i) s = .next (s.deliverMsg i) := rfl
  have arrives : exec (.probeArrive i) s = .next (s.probeArrives i) := rfl
  refine ⟨fun m w hp hg hdead hw => ?_, fun it a rd nd hp hpo hdead hwork hn hb hmode hi hnd => ?_, fun pr hp hk => ?_, fun pr hp hk ho hs => ?_⟩
  · rw [delivers, here.message hp hg hdead, msgDiscards_eq hw]
    refine ⟨fun h1 h2 room hmode => ?_, fun h1 => ?_, fun h1 h2 full => ?_⟩
    · rw [h1, h2, if_neg (by decide), if_pos room, inboxPut_running (s := s.dropPkt i) hmode]
      exact ⟨_, rfl, rfl, (onlyTile_updTile (s.dropPkt i) t _).2, tile_updTile ..⟩
    · rw [h1, Bool.true_or, if_pos rfl]
      rfl
    · rw [h1, h2, if_neg (by decide), if_neg (by omega)]
  · obtain ⟨⟨frame, others⟩, retired⟩ := here.getwork_retires hp hpo hdead hwork hn hb hmode hi hnd
    refine ⟨_, delivers, ?_, ?_, ?_, retiredAs_pc retired, fun r => Tile.rg_congr ?_ r, fun j => ?_, congrArg State.net frame,
      congrArg State.gwQueue frame, others⟩
    · rw [retired]
      rfl
    · rw [retired]
      rfl
    · rw [retired]
    · exact (retiredAs_g retired).trans <| (handed_g _).trans (Tile.wg_g_congr (x := partCame (s.tile t)) (y := s.tile t) rfl rd nd.entry)
    · rw [retired]
      exact handed_ls _ j
  · refine ⟨fun hm => ?_, fun hm hc => ?_⟩
    · rw [arrives, here.absorbed hp hk hm]
      rfl
    · rw [arrives, here.mirrored hp hk hc hm]
      exact ⟨fun credit => by rw [if_pos credit], fun spent => by rw [if_neg (ne_true_of_eq_false spent)]⟩
  · obtain ⟨mismatch, back⟩ := here.returned hp hk ho hs
    have run : exec (.probeReturn i) s = .next _ := congrArg Host.Outcome.next back
    generalize hu : (s.dropPkt i).updTile t (fun y => { y with probeOut := false }) = u at run
    have tile : u.tile t = { s.tile t with probeOut := false } := hu ▸ tile_updTile ..
    obtain ⟨returned, trip, done⟩ := u.getF_probeResult t pr.pattern.toNat (min 0xFFFF (s.supTime - pr.sentAt)) mismatch p.poison
    refine ⟨_, run, ?_, (tile_probeResult ..).trans tile, ?_, ?_, done⟩
    · obtain ⟨fl, only⟩ := u.fieldsOnly_probeResult t pr.pattern.toNat (min 0xFFFF (s.supTime - pr.sentAt)) mismatch p.poison
      rw [only, ← hu]
      rfl
    · rw [returned, Nat.mod_eq_of_lt pr.pattern.isLt]
    · rw [trip, Nat.mod_eq_of_lt (by omega)]

end
end Sys2Proof.Machine

namespace Sys2Proof.Machine

/-! ### Descriptors complete (09 R247, R249, R251, R253; 07 R210, R220) -/

namespace State
variable {s u v : State} {e : EngId} {d : Desc} {rest : List Desc} {r : EngRun} {it : Item} {nd : PlanNode} {o : OutEntry}

/-! #### What a completion counts and records -/

/-- Descriptor `d`, which ran as `r`, has left the front of its engine's queue: its record stands in ENG_LAST, and it is counted. -/
structure Completed (s v : State) (e : EngId) (d : Desc) (rest : List Desc) (r : EngRun) : Prop where
  queue : (v.engine e).queue = rest
  run : (v.engine e).run = none
  record : (v.engine e).lastRec = recordOf e d r
  counted : v.getF (F.ENG_CNT_DESCS e.val) = min (2 ^ (F.ENG_CNT_DESCS e.val).w - 1) (s.getF (F.ENG_CNT_DESCS e.val) + 1)

/-- What is done after the completion to other parts of the state leaves it a completion. -/
theorem Completed.congr (h : Completed s u e d rest r) (he : v.engine e = u.engine e)
    (hf : v.getF (F.ENG_CNT_DESCS e.val) = u.getF (F.ENG_CNT_DESCS e.val)) : Completed s v e d rest r :=
  ⟨he ▸ h.queue, he ▸ h.run, he ▸ h.record, hf.trans h.counted⟩

/-- What is to be said of a completion, in the order of `Obligations.EnginesCompleteTheirDescriptors`. -/
theorem Completed.facts (h : Completed s v e d rest r) : (v.engine e).queue = rest ∧ (v.engine e).run = none ∧ (v.engine e).lastRec = recordOf e d r
    ∧ v.getF (F.ENG_CNT_DESCS e.val) = min (2 ^ (F.ENG_CNT_DESCS e.val).w - 1) (s.getF (F.ENG_CNT_DESCS e.val) + 1) :=
  ⟨h.queue, h.run, h.record, h.counted⟩

/-- A completion writes the counters and the engine, whose front descriptor goes. -/
theorem countDone_eq (s : State) (e : EngId) (d : Desc) (r : EngRun) : ∃ fl, s.countDone e d r = { s with fld := fl }.setEngine e
    { s.engine e with queue := (s.engine e).queue.drop 1, run := none, fetched := .empty, lastRec := recordOf e d r } := by
  unfold countDone
  dsimp only
  split_ifs
  · exact ⟨_, rfl⟩
  · exact ⟨_, rfl⟩

theorem engine_countDone (s : State) (e : EngId) (d : Desc) (r : EngRun) : (s.countDone e d r).engine e =
    { s.engine e with queue := (s.engine e).queue.drop 1, run := none, fetched := .empty, lastRec := recordOf e d r } := by
  obtain ⟨fl, eq⟩ := countDone_eq s e d r
  rw [eq]
  exact engine_setEngine ..

theorem cntDescs_key_ne (n : Nat) : (F.ENG_CNT_DESCS n).key ≠ (F.ENG_CNT_SECOND n).key ∧ (F.ENG_CNT_DESCS n).key ≠ (F.ENG_CNT_THIRD n).key
    ∧ (F.ENG_CNT_DESCS n).key ≠ (F.ENG_RING_DONE_DONE n).key := by
  simp only [Fld.key, F.ENG_CNT_DESCS, F.ENG_CNT_SECOND, F.ENG_CNT_THIRD, F.ENG_RING_DONE_DONE]
  omega

theorem getF_countDone_descs (s : State) (e : EngId) (d : Desc) (r : EngRun) : (s.countDone e d r).getF (F.ENG_CNT_DESCS e.val) =
    min (2 ^ (F.ENG_CNT_DESCS e.val).w - 1) (s.getF (F.ENG_CNT_DESCS e.val) + 1) := by
  obtain ⟨second, third, -⟩ := cntDescs_key_ne e.val
  unfold countDone
  dsimp only
  rw [getF_congr (setEngine_fld ..)]
  split_ifs
  · rw [getF_bumpF_other third, getF_bumpF_other second, getF_bumpF]
  · rw [getF_bumpF_other second, getF_bumpF]

theorem completed_countDone (h : (s.engine e).queue = d :: rest) (r : EngRun) : Completed s (s.countDone e d r) e d rest r where
  queue := by rw [engine_countDone, h, List.drop_one, List.tail_cons]
  run := by rw [engine_countDone]
  record := by rw [engine_countDone]
  counted := getF_countDone_descs ..

theorem completed_ringDone (h : (s.engine e).queue = d :: rest) (r : EngRun) (n : Nat) :
    Completed s ((s.countDone e d r).setF (F.ENG_RING_DONE_DONE e.val) n) e d rest r := by
  obtain ⟨-, -, done⟩ := cntDescs_key_ne e.val
  exact (completed_countDone h r).congr rfl (getF_setF_other _ _ _ _ done)

theorem completed_endEngineItem (h : (s.engine e).queue = d :: rest) (r : EngRun) (it : Item) : Completed s (s.endEngineItem e d r it) e d rest r :=
  (completed_countDone h r).congr rfl rfl

theorem engIrq_of_not (h : d.irq = false) : s.engIrq e d = s := if_neg (ne_true_of_eq_false h)

/-! #### The completion through each path -/

/-- A ring's completion whose record is written: DONE rises (09 R251). -/
theorem emitDone_ring (ht : s.tokensOut (.engine e) = false) (hp : d.path = .ring) (hi : d.irq = false) (hb : r.ringBack ≠ 0)
    (hw : s.engHas e (fun x => x.role == 2) = false) :
    s.emitDone e d r = (s.countDone e d r).setF (F.ENG_RING_DONE_DONE e.val) (s.getF (F.ENG_RING_DONE_DONE e.val) + 1) := by
  unfold emitDone
  simp only [ht, hp, hw, if_neg hb, Bool.false_eq_true, if_false, engIrq_of_not hi]

/-- A fed descriptor without REPLY and IRQ (09 R249). -/
theorem emitDone_feed (ht : s.tokensOut (.engine e) = false) (hp : d.path = .feed) (hi : d.irq = false) (hr : d.replyBit = false) :
    s.emitDone e d r = s.countDone e d r := by
  unfold emitDone
  simp only [ht, hp, hr, Bool.false_eq_true, if_false, engIrq_of_not hi]

/-- An item's descriptor whose tokens have been accepted (07 R210). -/
theorem emitDone_lamp_ends (ht : s.tokensOut (.engine e) = false) (hp : d.path = .lamp) (hi : d.item = some it) (hb : r.ringBack ≠ 0) :
    s.emitDone e d r = s.endEngineItem e d r it := by
  unfold emitDone
  simp only [ht, hp, hi, if_neg hb, Bool.false_eq_true, if_false]

theorem endEngineItem_arrivals : (s.endEngineItem e d r it).arrivals = s.arrivals := by
  obtain ⟨fl, eq⟩ := countDone_eq s e d r
  rw [endEngineItem, eq]
  rfl

theorem endEngineItem_running : ((s.endEngineItem e d r it).lampw it.ward).running =
    (s.lampw it.ward).running.filter (fun x => x.item.seq != it.seq) := by
  obtain ⟨fl, eq⟩ := countDone_eq s e d r
  rw [endEngineItem, eq]
  exact congrArg LampWard.running (lampw_setLampw ..)

/-- The token of an OUT entry that names a node of its own ward (07 R197, R210). -/
def outToken (o : OutEntry) (w : WardId) (tag : BitVec 32) (poison : Bool) (payload : BitVec 128) : Token :=
  ⟨o.target, o.port, BitVec.ofNat 8 (bN poison + 8), BitVec.ofNat 8 w.val, 0, tag, 0, payload⟩

theorem outToken_poison (o : OutEntry) (w : WardId) (tag : BitVec 32) (poison : Bool) (payload : BitVec 128) :
    (outToken o w tag poison payload).tflags.getLsbD 0 = poison := by
  have bit : ∀ b : Bool, (BitVec.ofNat 8 (bN b + 8)).getLsbD 0 = b := by decide
  exact bit poison

/-- A node with a single OUT entry, without VECTOR and GATE, emits one token. -/
theorem emitOuts_one {w : WardId} {key tag : BitVec 32} {poison : Bool} {payload : BitVec 128} {src : TokSrc} (hn : s.nodeByKey w key = some nd)
    (ho : nd.outs = [o]) (hval : o.valid = true) (hvec : o.vectorFlag = false) (hg : o.gateFlag = false) :
    s.emitOuts w key tag poison payload src = { s with arrivals := s.arrivals ++ [(w, outToken o w tag poison payload, src)] } := by
  rw [emitOuts, hn]
  simp only [ho, List.foldl_cons, List.foldl_nil, hval, hvec, hg, Bool.not_true, Bool.false_eq_true, if_false]
  rfl

theorem tokensOut_of_arrival {w : WardId} {tk : Token} {src : TokSrc} (h : (w, tk, src) ∈ s.arrivals) : s.tokensOut src = true :=
  Bool.or_eq_true_iff.mpr (.inl (List.any_eq_true.mpr ⟨_, h, beq_self_eq_true src⟩))

/-- The run of the engine's front descriptor stands as `r`. -/
def ranAs (s : State) (e : EngId) (r : EngRun) : State := s.setEngine e { s.engine e with run := some r }

@[simp] theorem engine_ranAs (s : State) (e : EngId) (r : EngRun) : (s.ranAs e r).engine e = { s.engine e with run := some r } := engine_setEngine ..

/-- An item's descriptor that has not emitted: its token leaves, and the descriptor stays until it is accepted (07 R210, R220). -/
theorem emitDone_lamp_emits (ht : s.tokensOut (.engine e) = false) (hp : d.path = .lamp) (hi : d.item = some it) (hb : r.ringBack = 0)
    (hn : s.nodeByKey it.ward it.key = some nd) (ho : nd.outs = [o]) (hval : o.valid = true) (hvec : o.vectorFlag = false) (hg : o.gateFlag = false) :
    s.emitDone e d r = { s.ranAs e { r with ringBack := 1 } with
      arrivals := s.arrivals ++ [(it.ward, outToken o it.ward it.tag (r.cflags.testBit 0) (recordOf e d r), .engine e)] } := by
  have emits := emitOuts_one (s := s.ranAs e { r with ringBack := 1 }) (tag := it.tag) (poison := bitN r.cflags 0) (payload := recordOf e d r) (src := .engine e)
    hn ho hval hvec hg
  have out : ((s.ranAs e { r with ringBack := 1 }).emitOuts it.ward it.key it.tag (bitN r.cflags 0) (recordOf e d r) (.engine e)).tokensOut (.engine e) = true := by
    rw [emits]
    exact tokensOut_of_arrival (List.mem_append_right _ (List.mem_singleton_self _))
  unfold emitDone
  simp only [ht, hp, hi, if_pos hb, Bool.false_eq_true, if_false]
  exact (if_pos out).trans emits

/-! #### The front descriptor -/

theorem exec_engineComplete (h : s.power.coreUp = true) : exec (.engineComplete e) s = .next (s.completeDesc e) :=
  congrArg Host.Outcome.next (if_pos h)

theorem completeDesc_ran (hq : (s.engine e).queue = d :: rest) (hr : (s.engine e).run = some r) (hc : s.engCommitted e = true) :
    s.completeDesc e = s.emitDone e d r := by
  rw [completeDesc, hq]
  dsimp only
  rw [hr]
  exact if_pos hc

/-- How a descriptor ends that is refused by its header: status PARAM, marked in the completion's flags (09 R254). -/
def paramRun : EngRun := ⟨1, 1, 0, [], 0, 0⟩

theorem completeDesc_wrongOp (hq : (s.engine e).queue = d :: rest) (hr : (s.engine e).run = none) (ha : d.aborted = none) (hp : d.descPoison = false)
    (ho : opType d.op ≠ some (engType e.val)) :
    s.completeDesc e = (s.ranAs e paramRun).emitDone e d paramRun := by
  have ends : s.endDesc e 1 0 0 [] 0 = s.ranAs e paramRun := rfl
  rw [completeDesc, hq]
  simp only [hr, ha, if_neg ho, hp, Bool.false_eq_true, if_false, ends, engine_ranAs]

end State

section
open State

/-- Settles O25: a run whose lines are committed goes to `emitDone`, which counts and records it at the end of each path; an OP of
another engine type is given the run of PARAM first. -/
theorem enginesCompleteTheirDescriptors : Obligations.EnginesCompleteTheirDescriptors := by
  unfold Obligations.EnginesCompleteTheirDescriptors
  intro s e d rest hq hup ht
  have runs : exec (.engineComplete e) s = .next (s.completeDesc e) := exec_engineComplete hup
  refine ⟨fun r hr hc hp hi hb hw => ?_, fun r hr hc hp hi hreply => ?_, fun r it nd o hr hc hp hi hn ho hval hvec hg => ⟨fun hb => ?_, fun hb => ?_⟩,
    fun hr ha hpo hop hp hi hreply => ?_⟩
  · rw [completeDesc_ran hq hr hc, emitDone_ring ht hp hi hb hw] at runs
    exact ⟨_, ⟨runs, (completed_ringDone hq r _).facts⟩, getF_setF ..⟩
  · rw [completeDesc_ran hq hr hc, emitDone_feed ht hp hi hreply] at runs
    exact ⟨_, runs, (completed_countDone hq r).facts⟩
  · rw [completeDesc_ran hq hr hc, emitDone_lamp_emits ht hp hi hb hn ho hval hvec hg] at runs
    have engine := s.engine_ranAs e { r with ringBack := 1 }
    exact ⟨_, _, runs, rfl, rfl, rfl, rfl, rfl, outToken_poison .., (congrArg Engine.queue engine).trans hq, congrArg Engine.run engine, rfl⟩
  · rw [completeDesc_ran hq hr hc, emitDone_lamp_ends ht hp hi hb] at runs
    exact ⟨_, ⟨runs, (completed_endEngineItem hq r it).facts⟩, endEngineItem_arrivals, endEngineItem_running⟩
  · have queue : ((s.ranAs e paramRun).engine e).queue = d :: rest := (congrArg Engine.queue (engine_ranAs ..)).trans hq
    rw [completeDesc_wrongOp hq hr ha hpo hop, emitDone_feed (s := s.ranAs e paramRun) ht hp hi hreply] at runs
    exact ⟨_, runs, (completed_countDone queue paramRun).facts⟩

end
end Sys2Proof.Machine

namespace Sys2Proof.Machine

/-! ### The registers of an engine (09 R248, R250, R252, R253, R269) -/

namespace State
variable {s : State} {p : Port} {e : EngId} {t : TileId} {w : WardId}

/-- A read that a port may carry out answers the register's value, at the offset where the port sees the register. -/
theorem hostRead_of_carries {off vf : Nat} {own : Bool} {f : State → Nat × State} (h : s.carries p (some vf) own) :
    s.hostRead p off vf own f = (f s).2.emit (.readData p (if p = .s then off else vf) (f s).1) := by
  rcases h with ⟨rfl, ho, hw⟩ | ⟨w, rfl, ho, -, hw, hr, hown⟩
  · simp [hostRead, ho, hw]
  · simp [hostRead, ho, hw, hr, hown]

/-! #### ENG_LAST -/

theorem engVf_last (e : EngId) : engVf e 0x40 = some (0x80040 + 0x1000 * e.val) := congrArg some (by omega)

/-- Where a port sees ENG_LAST0. -/
theorem last0_offset (p : Port) (e : EngId) :
    (if p = .s then (F.ENG_LAST0_VALUE e.val).off else 0x80040 + 0x1000 * e.val) = (if p = .s then 0x300040 else 0x80040) + 0x1000 * e.val := by
  simp only [F.ENG_LAST0_VALUE]
  split_ifs <;> omega

theorem engine_captureLast (s : State) (e : EngId) :
    ((s.captureLast e).engine e).capture = (s.engine e).lastRec ∧ ((s.captureLast e).engine e).lastRec = (s.engine e).lastRec := by
  simp [captureLast]

/-! #### TAIL -/

/-- TAIL may stand up to the ring's size beyond DONE. -/
theorem writeTail_within {val : Nat} (h : val < 65536)
    (room : (val + 65536 - s.getF (F.ENG_RING_DONE_DONE e.val)) % 65536 ≤ s.ringSize e) :
    s.writeTail e val = s.setF (F.ENG_RING_TAIL_TAIL e.val) val := by
  unfold writeTail
  rw [Nat.mod_eq_of_lt h]
  exact if_pos room

/-- Further on it is held there, and CLAMPED shows it. -/
theorem writeTail_beyond {val : Nat} (h : val < 65536)
    (full : s.ringSize e < (val + 65536 - s.getF (F.ENG_RING_DONE_DONE e.val)) % 65536) :
    s.writeTail e val = (s.setF (F.ENG_RING_TAIL_TAIL e.val) (s.getF (F.ENG_RING_DONE_DONE e.val) + s.ringSize e)).setF (F.ENG_CTRL_CLAMPED e.val) 1 := by
  unfold writeTail
  rw [Nat.mod_eq_of_lt h]
  exact if_neg (Nat.not_le.mpr full)

theorem ringTail_key_ne_clamped (n : Nat) : (F.ENG_RING_TAIL_TAIL n).key ≠ (F.ENG_CTRL_CLAMPED n).key := by
  simp only [Fld.key, F.ENG_RING_TAIL_TAIL, F.ENG_CTRL_CLAMPED]
  omega

/-! #### FEED_EN and FEED_TILE -/

/-- A tile that runs has no instruction in which the feed held it. -/
theorem feedGone_running (h : (s.tile t).mode = .running) : s.feedGone t = s := by
  have still : s.retrySender (.tile t) = s := retrySender_running fun r hr => by cases hr; exact h
  unfold feedGone
  rw [h]
  exact (congrArg _ still).trans (ite_self s)

/-- The feed of engine `e`: FEED_TILE names `t`, and FEED_EN is `b`. -/
def withFeed (s : State) (e : EngId) (t : TileId) (b : Bool) : State :=
  (s.setF (F.ENG_CTRL_FEED_TILE e.val) t.val).setB (F.ENG_CTRL_FEED_EN e.val) b

theorem getF_withFeed_tile (s : State) (e : EngId) (t : TileId) (b : Bool) : (s.withFeed e t b).getF (F.ENG_CTRL_FEED_TILE e.val) = t.val :=
  calc (s.withFeed e t b).getF (F.ENG_CTRL_FEED_TILE e.val)
    _ = (s.setF (F.ENG_CTRL_FEED_TILE e.val) t.val).getF (F.ENG_CTRL_FEED_TILE e.val) := getF_setF_part _ _ _ _ _ (by decide)
    _ = t.val % 2 ^ 8 := getF_setF ..
    _ = t.val := Nat.mod_eq_of_lt t.isLt

theorem getF_withFeed_en (s : State) (e : EngId) (t : TileId) (b : Bool) : (s.withFeed e t b).getF (F.ENG_CTRL_FEED_EN e.val) = bN b := by
  have one_bit : bN b % 2 ^ 1 = bN b := by cases b <;> rfl
  exact (getF_setF ..).trans one_bit

/-- CLAMPED is a part of ENG_CTRL apart from the others. -/
theorem getF_clamped_part {lo n : Nat} (h : lo ≠ 3) :
    (s.setF (F.ENG_CTRL_CLAMPED e.val) 1).getF ⟨0x300000 + 0x1000 * e.val + 0x0, lo, n⟩ = s.getF ⟨0x300000 + 0x1000 * e.val + 0x0, lo, n⟩ :=
  getF_setF_part _ _ _ _ _ h

section
variable (hw : s.engineWard e = some w) (hm : (s.tile (Fin.ofNat 256 (s.getF (F.ENG_CTRL_FEED_TILE e.val)))).mode = .running)
include hw hm

/-- FEED_EN is taken for a tile of the engine's own ward. -/
theorem setFeed_own (ht : s.tileWard t = some w) : s.setFeed e true t = s.withFeed e t true := by
  have gone := feedGone_running (s := s.withFeed e t true) hm
  unfold setFeed
  simp only [hw, ht, Option.isSome_some, decide_true, Bool.and_self, Bool.not_true, Bool.and_false, Bool.false_eq_true, if_false]
  exact gone

/-- For any other tile it stays 0, and CLAMPED shows it. -/
theorem setFeed_foreign (ht : s.tileWard t ≠ some w) : s.setFeed e true t = (s.withFeed e t false).setF (F.ENG_CTRL_CLAMPED e.val) 1 := by
  have gone := feedGone_running (s := s.withFeed e t false) hm
  unfold setFeed
  simp only [hw, decide_eq_false ht, Bool.and_false, Bool.not_false, Bool.and_self, if_true]
  exact congrArg (setF · (F.ENG_CTRL_CLAMPED e.val) 1) gone

end

/-! #### Reset -/

/-- An engine with nothing in flight has no request to end. -/
theorem abortWhere_ofEngine (h : s.engHas e (fun _ => true) = false) : s.abortWhere (ofEngine e) = s := by
  obtain ⟨held, waiting⟩ := Bool.or_eq_false_iff.mp h
  have waits : s.ledger.waiting.filter (fun x => !ofEngine e x) = s.ledger.waiting :=
    List.filter_eq_self.mpr fun x hx => by simpa using List.any_eq_false.mp waiting x hx
  unfold abortWhere
  rw [waits]
  refine List.foldlRecOn (motive := fun u => u = s) _ _ rfl fun u hu c hc => ?_
  subst hu
  split
  · next x hx =>
    have other : ofEngine e x = false := by simpa [hx] using List.any_eq_false.mp held c hc
    rw [other, Bool.false_and, if_neg Bool.false_ne_true]
  · rfl

/-- A descriptor that a reset ends before it has run: ABORTED, and no line of it is committed (09 R269). -/
def abortedUnrun (d : Desc) : Desc := { d with aborted := some (d.aborted.getD (BitVec.allOnes 64)) }

/-- An engine that runs nothing, after its reset. -/
def abortedAll (x : Engine) : Engine := { x with queue := x.queue.map abortedUnrun, run := none, fetched := .empty }

/-- The reset of an engine that runs nothing and has nothing in flight ends the descriptors of its queue. -/
theorem resetEngine_idle (hr : (s.engine e).run = none) (h : s.engHas e (fun _ => true) = false) :
    s.resetEngine e false = s.setEngine e (abortedAll (s.engine e)) := by
  have quiet : s.emitting e = false := by simp [emitting, hr]
  unfold resetEngine
  simp only [quiet, hr, Bool.false_and, Bool.false_eq_true, if_false]
  exact abortWhere_ofEngine h

end State

section
open State

/-- Settles O23: each row is a register write or read that a port carries out or holds back; what it does is said by the lemmas on
TAIL, the feed and the reset. -/
theorem engineRegistersControl : Obligations.EngineRegistersControl := by
  unfold Obligations.EngineRegistersControl
  intro s p e
  refine ⟨fun val => ⟨heldBack_of_hostWrite rfl, fun runs hval => ⟨fun room => ?_, fun full => ?_⟩⟩, heldBack_of_hostWrite rfl, fun runs => ?_,
    fun t w => ⟨heldBack_of_hostWrite rfl, fun runs hw hm => ?_⟩, heldBack_of_hostWrite rfl, fun runs hrun hidle => ?_, fun runs => ?_⟩
  · exact congrArg Host.Outcome.next ((hostWrite_of_carries runs).trans (writeTail_within hval room))
  · refine ⟨_, congrArg Host.Outcome.next ((hostWrite_of_carries runs).trans (writeTail_beyond hval full)), rfl, ?_, getF_setF ..⟩
    exact (getF_setF_other _ _ _ _ (ringTail_key_ne_clamped e.val)).trans (getF_setF ..)
  · exact congrArg Host.Outcome.next (hostWrite_of_carries runs)
  · have run : exec (.feedEnWrite p e true t) s = .next (s.setFeed e true t) := congrArg Host.Outcome.next (hostWrite_of_carries runs)
    by_cases ht : s.tileWard t = some w
    · rw [setFeed_own hw hm ht] at run
      exact ⟨_, run, rfl, getF_withFeed_tile .., fun _ => getF_withFeed_en .., fun no => absurd ht no⟩
    · rw [setFeed_foreign hw hm ht] at run
      exact ⟨_, run, rfl, (getF_clamped_part (by decide)).trans (getF_withFeed_tile ..), fun yes => absurd yes ht,
        fun _ => ⟨(getF_clamped_part (by decide)).trans (getF_withFeed_en ..), getF_setF ..⟩⟩
  · have engine := s.engine_setEngine e (abortedAll (s.engine e))
    exact ⟨_, congrArg Host.Outcome.next ((hostWrite_of_carries runs).trans (resetEngine_idle hrun hidle)), rfl,
      congrArg Engine.run engine, congrArg Engine.queue engine⟩
  · dsimp only at runs
    rw [engVf_last] at runs
    refine ⟨_, congrArg Host.Outcome.next (hostRead_of_carries runs), (engine_captureLast s e).1, (engine_captureLast s e).2, ?_, rfl⟩
    exact congrArg (fun a => s.out ++ [Out.readData p a _]) (last0_offset p e)

end
end Sys2Proof.Machine

namespace Sys2Proof.Machine

/-! ### A store leaves the store buffer (10 R272, R273; 11 R298, R310, R312) -/

namespace State
variable {s u v : State} {t : TileId} {q : QuarterId} {e : SbEntry} {l : LineAddr} {set i k : Nat}

/-- Entry `e` has left the store buffer of tile `t`. -/
def dropStore (s : State) (t : TileId) (e : SbEntry) : State := s.updTile t (fun y => { y with sb := y.sb.erase e })

theorem dropStore_sb (s : State) (t : TileId) (e : SbEntry) : ((s.dropStore t e).tile t).sb = (s.tile t).sb.erase e := by
  rw [dropStore, tile_updTile]

theorem dropStore_mode (s : State) (t : TileId) (e : SbEntry) : ((s.dropStore t e).tile t).mode = (s.tile t).mode := by
  rw [dropStore, tile_updTile]

theorem wakeTile_of_mode (h : ∀ l m, (u.tile t).mode ≠ .inMemory l m) : u.wakeTile t = u := by
  cases hm : (u.tile t).mode with
  | inMemory l m => exact absurd hm (h l m)
  | _ => rw [wakeTile, hm]

/-- A drain that leaves its tile's mode as it is wakes no access of the tile. -/
theorem exec_drain (hk : (s.tile t).sb[k]? = some e) (hm : ∀ l m, (s.tile t).mode ≠ .inMemory l m) (hd : (s.drainEntry t e).2 = v)
    (hv : (v.tile t).mode = (s.tile t).mode) : exec (.storeBufferDrain t k) s = .next v := by
  show execStoreBufferDrain t k s = _
  rw [execStoreBufferDrain, hk]
  dsimp only
  rw [hd, wakeTile_of_mode (by rwa [hv])]

/-- A drain that changes nothing else of its tile's mode and store buffer takes its entry out of the buffer. -/
theorem drains_of_dropStore (hk : (s.tile t).sb[k]? = some e) (hm : ∀ l m, (s.tile t).mode ≠ .inMemory l m)
    (hd : (s.drainEntry t e).2 = v.dropStore t e) (mode : (v.tile t).mode = (s.tile t).mode) (buffer : (v.tile t).sb = (s.tile t).sb) :
    exec (.storeBufferDrain t k) s = .next (v.dropStore t e) ∧ ((v.dropStore t e).tile t).sb = (s.tile t).sb.erase e :=
  ⟨exec_drain hk hm hd ((dropStore_mode v t e).trans mode), by rw [dropStore_sb, buffer]⟩

/-! #### To scratch (11 R309, R310) -/

/-- The bytes of scratch after a masked write of line `ln`, as far as byte `n` of the line. -/
def scratchPut (b : Tbl Byte) (ln : Nat) (mask : Mask64) (d : Line512) (n : Nat) : Tbl Byte :=
  (List.range n).foldl (fun b i => if mask.getLsbD i then b.put 0 (ln * 64 + i) (byteAt d i) else b) b

theorem get_scratchPut (b : Tbl Byte) (ln : Nat) (mask : Mask64) (d : Line512) {n : Nat} (hn : n ≤ 64) (j : Nat) :
    (scratchPut b ln mask d n).get 0 j = if j / 64 = ln ∧ j % 64 < n ∧ mask.getLsbD (j % 64) = true then byteAt d (j % 64) else b.get 0 j := by
  induction n with
  | zero => exact (if_neg fun h => absurd h.2.1 (Nat.not_lt_zero _)).symm
  | succ n ih =>
    have last : scratchPut b ln mask d (n + 1) =
        if mask.getLsbD n then (scratchPut b ln mask d n).put 0 (ln * 64 + n) (byteAt d n) else scratchPut b ln mask d n := by
      rw [scratchPut, List.range_succ, List.foldl_append]
      rfl
    have ih := ih (by omega)
    rw [last]
    by_cases hj : j = ln * 64 + n
    · have place : j / 64 = ln ∧ j % 64 = n := by omega
      rw [place.1, place.2] at ih ⊢
      cases hm : mask.getLsbD n
      · simpa [hm] using ih
      · simp [hj]
    · have apart : (j / 64 = ln ∧ j % 64 < n + 1 ∧ mask.getLsbD (j % 64) = true) ↔ (j / 64 = ln ∧ j % 64 < n ∧ mask.getLsbD (j % 64) = true) :=
        and_congr_right fun _ => and_congr_left' (by omega)
      simp only [apart, ← ih]
      split_ifs
      · exact Tbl.get_put_other _ _ _ _ _ _ hj
      · rfl

theorem get_scratchPut_line (b : Tbl Byte) (ln : Nat) (mask : Mask64) (d : Line512) (j : Nat) :
    (scratchPut b ln mask d 64).get 0 j = if j / 64 = ln ∧ mask.getLsbD (j % 64) = true then byteAt d (j % 64) else b.get 0 j := by
  have inside : j % 64 < 64 := Nat.mod_lt j (by decide)
  simpa only [inside, true_and] using get_scratchPut b ln mask d (le_refl 64) j

/-- Where its entry is sound and no injection is armed, a line of scratch takes the bytes that are written. -/
theorem scratchWrite_unarmed {w : Option WardId} {ln : Nat} (htag : (u.quarter q).scratchTagBad.get false ln = false)
    (harm : u.isF (F.QC_INJ_ARM q.val) = false) (mask : Mask64) (d : Line512) :
    ∃ x, u.scratchWrite q w ln mask d = u.setQuarter q x ∧ x.scratch = scratchPut (u.quarter q).scratch ln mask d 64 := by
  have tag : u.scratchTag q w ln = u := by
    rw [scratchTag, htag]
    rfl
  unfold scratchWrite
  rw [tag]
  extract_lets u0 marks tagWrite u1
  have arm : u1.isF (F.QC_INJ_ARM q.val) = false := harm
  have tagArray : (if tagWrite = true then u1.injects q true (ln % 4096) (ln / 4096) else (false, u1)) = (false, u1) := by
    rw [injects_unarmed arm, ite_self]
  rw [tagArray]
  simp only [Bool.false_eq_true, if_false, injects_unarmed arm]
  exact ⟨_, rfl, rfl⟩

/-- A store to quarter scratch leaves for its place, which its bytes fill. -/
theorem drainEntry_scratch (he : e.scratch = true) (htag : (s.quarter (tileQuarter t)).scratchTagBad.get false e.line.n = false)
    (harm : s.isF (F.QC_INJ_ARM (tileQuarter t).val) = false) :
    ∃ v : State, (s.drainEntry t e).2 = v.dropStore t e ∧ v = { s with quarters := v.quarters }
      ∧ (v.quarter (tileQuarter t)).scratch = scratchPut (s.quarter (tileQuarter t)).scratch e.line.n e.mask e.data 64 := by
  obtain ⟨x, written, bytes⟩ := scratchWrite_unarmed (w := some e.ward) htag harm e.mask e.data
  have place : ((s.setQuarter (tileQuarter t) x).quarter (tileQuarter t)).scratch = scratchPut (s.quarter (tileQuarter t)).scratch e.line.n e.mask e.data 64 := by
    rw [quarter_setQuarter, bytes]
  refine ⟨if e.poison then (s.setQuarter (tileQuarter t) x).scratchMark (tileQuarter t) e.line.n e.mask else s.setQuarter (tileQuarter t) x, ?_, ?_, ?_⟩
  · unfold drainEntry drainEntryBy
    dsimp only
    rw [if_pos he, written]
    rfl
  · split_ifs <;> rfl
  · split_ifs
    · rw [scratchMark, updQuarter, quarter_setQuarter]
      exact place
    · exact place

/-! #### To the way that holds the line (11 R298) -/

/-- The state with the detector's trackers of a quarter. -/
def withTrackers (s : State) (q : QuarterId) (ts : List Tracker) : State := s.updQuarter q (fun x => { x with trackers := ts })

theorem way_withTrackers (s : State) (q : QuarterId) (ts : List Tracker) (set i : Nat) :
    ((s.withTrackers q ts).quarter q).way set i = (s.quarter q).way set i := by
  rw [withTrackers, updQuarter, quarter_setQuarter]
  rfl

theorem qLook_of_sound (htag : ∀ n, ((u.quarter q).ways.get CWay.free n).tagBad = false) (hf : u.qFind q l = some i)
    (hm : ((u.quarter q).way (setOf l) i).maskErrs = []) : u.qLook q l = (some i, u) := by
  have mask : u.checkMask q (setOf l) i = u := by
    rw [checkMask, hm]
    rfl
  unfold qLook
  rw [tagScan_of_sound htag]
  dsimp only
  rw [hf]
  exact congrArg (Prod.mk (some i)) mask

theorem CopiesOnly.quarter (h : CopiesOnly s v) : v.quarter q = s.quarter q := by
  obtain ⟨same, -⟩ := h
  rw [same]
  rfl

theorem writeWay_valid (x : CWay) (written : Mask64) : (((u.writeWay q set i x written).quarter q).way set i).valid = x.valid := by
  unfold writeWay
  extract_lets old y tagWrite
  generalize (if tagWrite = true then u.injects q true set i else (false, u)) = tag
  obtain ⟨tagHit, u1⟩ := tag
  dsimp only
  generalize (if written = 0 then (false, u1) else u1.injects q false set i) = data
  obtain ⟨dataHit, u2⟩ := data
  dsimp only
  rw [updQuarter, quarter_setQuarter, Quarter.way, Tbl.get_put]
  split_ifs <;> rfl

theorem storeWay_valid (t : TileId) (st : CState) (upg : Mask64) :
    (((u.storeWay q set i t e st upg).quarter q).way set i).valid = ((u.quarter q).way set i).valid ||| e.mask := by
  unfold storeWay
  extract_lets c c2
  have touched : ∀ w : State, ((w.touchWay q set i).quarter q).way set i = (w.quarter q).way set i := fun w => by
    rw [touchWay, updQuarter, quarter_setQuarter]
    rfl
  rw [(copiesOnly_storeCopies e).quarter, touched, writeWay_valid]

/-- A store to a line that the quarter holds in E or M is performed in the way, which is then in M. -/
theorem drainEntry_way (he : e.scratch = false) (hc : s.cached (tileQuarter t) e.ward e.line.host = true)
    (htag : ∀ n, ((s.quarter (tileQuarter t)).ways.get CWay.free n).tagBad = false) (hf : s.qFind (tileQuarter t) e.line = some i)
    (hm : ((s.quarter (tileQuarter t)).way (setOf e.line) i).maskErrs = []) (hout : s.uncachedWrite t e.line = false)
    (hbuf : s.bufOf (tileQuarter t) e.line = none)
    (hst : ((s.quarter (tileQuarter t)).way (setOf e.line) i).st = .e ∨ ((s.quarter (tileQuarter t)).way (setOf e.line) i).st = .m) :
    ∃ ts, (s.drainEntry t e).2 =
      (((s.withTrackers (tileQuarter t) ts).storeWay (tileQuarter t) (setOf e.line) i t e .m
        ((s.quarter (tileQuarter t)).way (setOf e.line) i).upgMask).qcCount (tileQuarter t) 0).dropStore t e := by
  unfold drainEntry drainEntryBy
  simp only [he, hout, hc, qLook_of_sound htag hf hm, hbuf, Bool.false_eq_true, if_false, Bool.not_true, Option.isSome_none]
  rcases hst with h | h
  · simp only [h, reduceCtorEq, if_false, if_true]
    exact ⟨_, rfl⟩
  · simp only [h, reduceCtorEq, if_false]
    exact ⟨_, rfl⟩

/-! #### As a write of its own (11 R312; 13 R356) -/

theorem openEntry_ward {en : LEntry} {w : WardId} (hc : en.charge = .ward w) :
    ∃ fl, s.openEntry en = (lowestFree s.ledger.entries.cells 0,
      { s.setEntry (lowestFree s.ledger.entries.cells 0) (some { en with tag := lowestFree s.ledger.entries.cells 0 }) with fld := fl }) := by
  obtain ⟨fl, peak⟩ := fieldsOnly_highF (s := s.setEntry (lowestFree s.ledger.entries.cells 0) (some { en with tag := lowestFree s.ledger.entries.cells 0 }))
    (F.LDGW_HOLD_PEAK w.val) ((s.setEntry (lowestFree s.ledger.entries.cells 0) (some { en with tag := lowestFree s.ledger.entries.cells 0 })).heldBy w)
  refine ⟨fl, ?_⟩
  rw [← peak, openEntry, hc]

/-- An entry of a ward for a line of device memory: the lowest free number, the packet, and the ward's peak (13 R356). -/
theorem takeEntry_ward {en : LEntry} {w : WardId} (hc : en.charge = .ward w) (hm : en.hostMem = false) :
    ∃ fl, s.takeEntry en = { s.setEntry (lowestFree s.ledger.entries.cells 0) (some { en with tag := lowestFree s.ledger.entries.cells 0 }) with
      fld := fl, net := s.net ++ [reqPkt (lowestFree s.ledger.entries.cells 0) en.req] } := by
  obtain ⟨fl, opened⟩ := openEntry_ward (s := s) hc
  refine ⟨fl, ?_⟩
  unfold takeEntry
  rw [opened]
  dsimp only
  rw [if_neg (ne_true_of_eq_false hm), sendReq_sent]
  rfl

/-- The write that carries a store to a line that the quarter does not cache (11 R312). -/
def storeReq (t : TileId) (e : SbEntry) : Req := { Req.make .wrInv e.line (.tile t) (some e.ward) e.sealed with mask := e.mask }

/-- The Ledger entry of that write. -/
def storeEntry (t : TileId) (e : SbEntry) : LEntry :=
  { LEntry.make (storeReq t e) (.ward e.ward) with wdata := some ⟨e.data, e.poison⟩, relaxed := e.relaxed, ido := e.ido }

/-- A store to a line of device memory that the quarter does not cache leaves as a write, when the Ledger grants it an entry. -/
theorem drainEntry_uncached (he : e.scratch = false) (hc : s.cached (tileQuarter t) e.ward e.line.host = false)
    (hout : s.uncachedWrite t e.line = false) (hearly : s.earlyHere (tileQuarter t) e.line = false) (hhost : e.line.host = false)
    (hg : s.grantsNow (storeEntry t e) = true) : (s.drainEntry t e).2 = (s.dropStore t e).takeEntry (storeEntry t e) := by
  rw [hhost] at hc
  unfold drainEntry drainEntryBy
  simp only [he, hout, hc, hearly, hhost, Bool.false_eq_true, if_false, Bool.not_false, if_true]
  exact congrArg Prod.snd (if_pos (c := s.mayTake false (storeEntry t e) = true) hg)

end State

section
open State

/-- Settles O17: an entry goes to scratch, to the way that holds its line, or into a write of its own; each time the tile's mode stays,
so no access of the tile wakes, and the buffer loses the entry alone. -/
theorem storeBufferDrainsWhole : Obligations.StoreBufferDrainsWhole := by
  unfold Obligations.StoreBufferDrainsWhole
  intro s t k e hk hm q out
  refine ⟨fun he htag harm => ?_, fun i he hc htag hf harm hout hbuf => ?_, fun w he hc hout hearly hw hhost => ?_⟩
  · obtain ⟨v, drained, frame, bytes⟩ := drainEntry_scratch he htag harm
    have same : v.tiles = s.tiles := by rw [frame]
    have dram : v.dram = s.dram := by rw [frame]
    obtain ⟨run, erased⟩ := drains_of_dropStore hk hm drained (by rw [tile_congr same]) (by rw [tile_congr same])
    refine ⟨_, ⟨run, erased, dram⟩, by rw [frame]; rfl, fun r hr => ?_, fun j => ?_⟩
    · exact (tile_updTile_other _ _ _ _ hr).trans (tile_congr same r)
    · exact (congrArg (Tbl.get 0 · j) bytes).trans (get_scratchPut_line _ _ _ _ j)
  · intro c hst hmask
    obtain ⟨ts, drained⟩ := drainEntry_way he hc htag hf hmask hout hbuf hst
    obtain ⟨v, made, frame, tiles, state, data⟩ := storeWay_unarmed (u := s.withTrackers q ts) (q := q) harm (setOf e.line) i t e .m c.upgMask
    have valid := storeWay_valid (u := s.withTrackers q ts) (q := q) (set := setOf e.line) (i := i) (e := e) t .m c.upgMask
    rw [made] at drained valid
    rw [way_withTrackers] at data valid
    obtain ⟨d, l1i, b, tile⟩ := tiles t
    have dram : v.dram = s.dram := by rw [frame]; rfl
    have net : v.net = s.net := by rw [frame]; rfl
    have mode : (v.tile t).mode = (s.tile t).mode := by rw [tile]; rfl
    have buffer : (v.tile t).sb = (s.tile t).sb := by rw [tile]; rfl
    obtain ⟨run, erased⟩ := drains_of_dropStore hk hm drained mode buffer
    exact ⟨_, ⟨run, erased, dram⟩, state, valid, data, net⟩
  · intro r en hg x
    subst hw
    have drained := drainEntry_uncached he hc hout hearly hhost hg
    obtain ⟨fl, taken⟩ := takeEntry_ward (s := s.dropStore t e) (en := storeEntry t e) rfl rfl
    have run := exec_drain hk hm (drained.trans taken) (dropStore_mode s t e)
    refine ⟨_, ⟨run, dropStore_sb s t e, rfl⟩, entry_setEntry (s.dropStore t e) x _, ?_⟩
    rw [sendReq_sent]
    rfl

end
end Sys2Proof.Machine

namespace Sys2Proof.Machine

/-! ### The registers of a quarter cache (11 R311, R313, R315, R318; 12 R335) -/

namespace State
variable {s u v : State} {q : QuarterId} {t : TileId}

/-! #### The hold window (12 R335) -/

/-- A way that keeps its tag and its bytes is written with no code made afresh, so that no injection meets the write (11 R318). -/
theorem putWay_sameTag {set w : Nat} {c : CWay} (hl : ((s.quarter q).way set w).line = c.line) (hst : ((s.quarter q).way set w).st = c.st)
    (hf : ((s.quarter q).way set w).full = c.full) (hp : ((s.quarter q).way set w).poison = c.poison) :
    s.putWay q set w c = s.updQuarter q (fun x => { x with ways := x.ways.put CWay.free (set * 16 + w) c }) := by
  simp [putWay, writeWay, hl, hst, hf, hp]

theorem holdExpire_ends {l : LineAddr} {w : Nat} (h : s.qFind q l = some w) : exec (.holdExpire q l) s = .next (s.updQuarter q (fun x => { x with
    ways := x.ways.put CWay.free (setOf l * 16 + w) { (s.quarter q).way (setOf l) w with hold := false } })) := by
  have run : exec (.holdExpire q l) s = execHoldExpire q l s := rfl
  rw [run, execHoldExpire, h]
  exact congrArg Host.Outcome.next (putWay_sameTag rfl rfl rfl rfl)

theorem way_updQuarter_put (s : State) (q : QuarterId) (set w : Nat) (c : CWay) :
    ((s.updQuarter q (fun x => { x with ways := x.ways.put CWay.free (set * 16 + w) c })).quarter q).way set w = c := by
  rw [updQuarter, quarter_setQuarter, Quarter.way, Tbl.get_put]

/-! #### The drain (11 R311) -/

/-- A quarter whose cache is empty has nothing to send. -/
theorem drainPump_of_empty (h : s.drainEmpty q = true) : s.drainPump q = s := by
  simp only [drainEmpty, Bool.and_eq_true, List.all_eq_true, Bool.not_eq_true', List.isEmpty_iff] at h
  obtain ⟨⟨⟨ways, bufs⟩, -⟩, -⟩ := h
  have none_ : (s.quarter q).ways.cells.filter (fun c => c.2.held && s.drains q c.2.line) = [] :=
    List.filter_eq_nil_iff.mpr fun c hc => by simp [ways c hc]
  simp [drainPump, none_, bufs]

/-- The tiles of a list take a change that taking twice is taking once. -/
theorem tile_foldl_updTile {g : Tile → Tile} (hg : ∀ y, g (g y) = g y) (l : List TileId) (s : State) (t : TileId) :
    (l.foldl (fun s t => s.updTile t g) s).tile t = if t ∈ l then g (s.tile t) else s.tile t := by
  induction l generalizing s with
  | nil => rfl
  | cons r l ih =>
    rw [List.foldl_cons, ih]
    by_cases hr : t = r
    · subst hr
      simp [hg]
    · simp [tile_updTile_other _ _ _ _ hr, hr]

/-- A tile without the copies in its L1 caches. -/
def dropCopies (y : Tile) : Tile := { y with l1d := [], l1i := [], fetchBuf := none }

theorem mem_tilesOf (t : TileId) (q : QuarterId) : t ∈ tilesOf q ↔ tileQuarter t = q := by
  simp only [tilesOf, tileQuarter, List.mem_map, List.mem_range, Fin.ext_iff, Fin.val_ofNat]
  have := t.isLt
  have := q.isLt
  constructor
  · rintro ⟨m, hm, e⟩
    omega
  · intro e
    exact ⟨t.val % 16, by omega, by omega⟩

theorem dropL1_only (s : State) (q : QuarterId) : ∃ x, s.dropL1 q = { s with tiles := x } :=
  List.foldlRecOn (motive := fun u : State => ∃ x, u = { s with tiles := x }) (tilesOf q) _ ⟨_, rfl⟩ fun u ⟨x, hu⟩ t _ => by
    rw [hu]
    exact ⟨_, rfl⟩

/-- The L1 caches of the quarter's tiles are empty, and every other tile is as it was. -/
theorem dropL1_tile (s : State) (q : QuarterId) (t : TileId) :
    (s.dropL1 q).tile t = if tileQuarter t = q then { s.tile t with l1d := [], l1i := [], fetchBuf := none } else s.tile t :=
  (tile_foldl_updTile (g := dropCopies) (fun _ => rfl) (tilesOf q) s t).trans (if_congr (mem_tilesOf t q) rfl rfl)

theorem dropL1_getF (s : State) (q : QuarterId) (f : Fld) : (s.dropL1 q).getF f = s.getF f := by
  obtain ⟨x, only⟩ := dropL1_only s q
  rw [only]
  rfl

theorem enable_ne_draining (q : Nat) : (F.QC_CTRL_ENABLE q).key ≠ (F.QC_STATUS_DRAINING q).key := by
  simp only [Fld.key, F.QC_CTRL_ENABLE, F.QC_STATUS_DRAINING]
  omega

/-- ENABLE falls while it is 1: the L1 copies are dropped and the drain begins. -/
theorem startDrain_begins (h : s.isF (F.QC_CTRL_ENABLE q.val) = true) :
    ∃ u : State, s.startDrain q = u.drainPump q ∧ u.getF (F.QC_CTRL_ENABLE q.val) = 0 ∧ u.getF (F.QC_STATUS_DRAINING q.val) = 1
      ∧ u = { s with fld := u.fld, tiles := u.tiles }
      ∧ ∀ t, u.tile t = if tileQuarter t = q then { s.tile t with l1d := [], l1i := [], fetchBuf := none } else s.tile t := by
  have ne := enable_ne_draining q.val
  refine ⟨_, if_pos h, ?_, ?_, ?_, dropL1_tile _ q⟩
  · rw [dropL1_getF, getF_setF_other _ _ _ _ ne, getF_setF]
    exact Nat.zero_mod _
  · rw [dropL1_getF, getF_setF]
    rfl
  · obtain ⟨x, only⟩ := dropL1_only ((s.setF (F.QC_CTRL_ENABLE q.val) 0).setF (F.QC_STATUS_DRAINING q.val) 1) q
    rw [only]
    rfl

/-! #### Quarter reset (11 R315; 04 R146) -/

/-- A field of a tile's register block that a reset reads: RUN or the entry address. -/
def ResetReads (f : Fld) : Prop := ∃ t : TileId, f = F.TIL_CTRL_RUN t.val ∨ f = F.TIL_ENTRY_VALUE t.val

theorem ResetReads.place {f : Fld} (h : ResetReads f) : 0x108000 ≤ f.off ∧ f.off < 0x400000 ∧ f.lo < 128 := by
  obtain ⟨t, rfl | rfl⟩ := h
  all_goals
    have := t.isLt
    simp only [F.TIL_CTRL_RUN, F.TIL_ENTRY_VALUE]
    omega

theorem ResetReads.ne_discard {f : Fld} (h : ResetReads f) (r : TileId) : f.key ≠ (F.TIL_AVE_CNT_DISCARD r.val).key := by
  obtain ⟨t, rfl | rfl⟩ := h
  all_goals
    simp only [Fld.key, F.TIL_CTRL_RUN, F.TIL_ENTRY_VALUE, F.TIL_AVE_CNT_DISCARD]
    omega

/-- An item that fails counts at Lamplighter and tells the host; the fields of the tiles and of the blocks above stay (07 R211). -/
theorem getF_failItem {f : Fld} (hf : 0x108000 ≤ f.off ∧ f.off < 0x400000 ∧ f.lo < 128) (it : Item) (reason : Nat) :
    (s.failItem it reason).getF f = s.getF f := by
  obtain ⟨low, high, lo⟩ := hf
  have outs : ∀ (u : State) (w : WardId) (key tag : BitVec 32) (payload : BitVec 128), (u.emitOuts w key tag true payload .failure).getF f = u.getF f := by
    intro u w key tag payload
    unfold emitOuts
    split
    · rfl
    · refine foldl_keeps (fun x : State => x.getF f) (fun x o => ?_) _ _
      dsimp only
      split
      · rfl
      · split
        · exact (keepsFld_raiseMsix ⟨high, lo⟩ _ _).fld
        · rfl
  have count : f.key ≠ (F.LMPW_FAILED_FAILED it.ward.val).key ∧ f.key ≠ (F.LMPW_FAILED_LAST_KEY it.ward.val).key := by
    have := it.ward.isLt
    simp only [Fld.key, F.LMPW_FAILED_FAILED, F.LMPW_FAILED_LAST_KEY]
    omega
  unfold failItem failNotice
  dsimp only
  split_ifs
  · rfl
  · rw [(keepsFld_pushTrace _ _ _ _).fld, getF_setF_other _ _ _ _ count.2, getF_bumpF_other count.1, outs]
    rfl

theorem killPackets_tile (s : State) (p : Packet → Bool) (t : TileId) : (s.killPackets p).tile t = s.tile t := rfl

theorem failItem_tile (s : State) (it : Item) (reason : Nat) (t : TileId) : (s.failItem it reason).tile t = s.tile t :=
  tile_congr (lampOnly_failItem it reason).tiles t

/-- The items of a tile that is reset fail; the tile loses them, and its registers are cleared later. -/
theorem failAll_fails (s : State) (t : TileId) (reason : Nat) :
    ((s.failAll t reason).tile t).ls = (s.tile t).ls ∧ (∀ r, r ≠ t → (s.failAll t reason).tile r = s.tile r)
      ∧ ∀ f, ResetReads f → (s.failAll t reason).getF f = s.getF f := by
  have held : ((s.failHeld t reason).tile t).ls = (s.tile t).ls ∧ (∀ r, r ≠ t → (s.failHeld t reason).tile r = s.tile r)
      ∧ ∀ f, ResetReads f → (s.failHeld t reason).getF f = s.getF f := by
    refine ⟨?_, fun r hr => ?_, fun f hf => ?_⟩
    · rw [failHeld_tile]
    · unfold failHeld
      split
      · rfl
      · rw [failItem_tile, tile_updTile_other _ _ _ _ hr]
    · unfold failHeld
      split
      · rfl
      · exact getF_failItem hf.place _ _
  unfold failAll
  dsimp only
  generalize s.failHeld t reason = u at held
  obtain ⟨ls, others, fields⟩ := held
  split
  · exact ⟨ls, others, fields⟩
  · refine ⟨?_, fun r hr => ?_, fun f hf => ?_⟩
    · rw [failItem_tile, killPackets_tile, tile_updTile, ← ls]
    · rw [failItem_tile, killPackets_tile, tile_updTile_other _ _ _ _ hr, others r hr]
    · exact (getF_failItem hf.place _ _).trans (fields f hf)

theorem resetTile_stages (s : State) (t : TileId) : s.resetTile t false = ((s.failAll t 3).resetSettled t).clearTile t := by
  simp only [resetTile, resetSettled, Bool.false_eq_true, if_false]
  generalize (s.failAll t 3).dropPuttok t = d
  rfl

/-- Tile `y` stands at its reset entry, as the registers of `s` give it, and keeps local store (04 R117, R146). -/
def AtReset (s : State) (t : TileId) (y : Tile) : Prop :=
  y.k = true ∧ y.ie = false ∧ y.inbox = [] ∧ y.sb = [] ∧ y.pc = BitVec.ofNat 64 (s.getF (F.TIL_ENTRY_VALUE t.val)) ∧ y.ls = (s.tile t).ls
    ∧ y.mode = (if s.isF (F.TIL_CTRL_RUN t.val) then .running else .held)

/-- The reset of one tile, whatever items it holds. -/
theorem resetTile_reaches (s : State) (t : TileId) :
    AtReset s t ((s.resetTile t false).tile t) ∧ (∀ r, r ≠ t → (s.resetTile t false).tile r = s.tile r)
      ∧ ∀ f, ResetReads f → (s.resetTile t false).getF f = s.getF f := by
  obtain ⟨ls, others, fields⟩ := failAll_fails s t 3
  rw [resetTile_stages]
  generalize s.failAll t 3 = u at *
  have settled : ∀ f, ResetReads f → (u.resetSettled t).getF f = s.getF f := fun f hf =>
    (resetSettled_getF_other (hf.ne_discard t)).trans (fields f hf)
  have tiles := resetSettled_tile u t
  have run : (u.resetSettled t).isF (F.TIL_CTRL_RUN t.val) = s.isF (F.TIL_CTRL_RUN t.val) := congrArg (· != 0) (settled _ ⟨t, .inl rfl⟩)
  have entry := settled _ ⟨t, .inr rfl⟩
  generalize u.resetSettled t = d at *
  obtain ⟨h, tile⟩ := clearTile_tile d t
  have only := clearTile_only d t
  refine ⟨?_, fun r hr => ?_, fun f hf => (getF_of_onlyTile only f).trans (settled f hf)⟩
  · rw [tile, tiles, run, entry]
    exact ⟨rfl, rfl, rfl, rfl, rfl, ls, rfl⟩
  · rw [only.2 r hr, tiles, others r hr]

theorem AtReset.congr {y : Tile} (h : AtReset u t y) (hl : (u.tile t).ls = (s.tile t).ls) (hf : ∀ f, ResetReads f → u.getF f = s.getF f) :
    AtReset s t y := by
  have run : u.isF (F.TIL_CTRL_RUN t.val) = s.isF (F.TIL_CTRL_RUN t.val) := congrArg (· != 0) (hf _ ⟨t, .inl rfl⟩)
  unfold AtReset at h
  rwa [run, hf _ ⟨t, .inr rfl⟩, hl] at h

/-- Tiles that are reset one after another all stand at their entries. -/
theorem resetTiles_reach (s : State) (l : List TileId) :
    let v := l.foldl (fun u t => u.resetTile t false) s
    (∀ t, (v.tile t).ls = (s.tile t).ls ∧ (t ∈ l → AtReset s t (v.tile t))) ∧ ∀ f, ResetReads f → v.getF f = s.getF f := by
  induction l using List.reverseRecOn with
  | nil => exact ⟨fun t => ⟨rfl, fun ht => (List.not_mem_nil ht).elim⟩, fun _ _ => rfl⟩
  | append_singleton l r ih =>
    obtain ⟨before, fields⟩ := ih
    rw [List.foldl_append, List.foldl_cons, List.foldl_nil]
    generalize l.foldl (fun u t => u.resetTile t false) s = u at *
    obtain ⟨self, rest, kept⟩ := resetTile_reaches u r
    have self := self.congr (before r).1 fields
    refine ⟨fun t => ?_, fun f hf => (kept f hf).trans (fields f hf)⟩
    by_cases ht : t = r
    · subst ht
      exact ⟨self.2.2.2.2.2.1, fun _ => self⟩
    · rw [rest t ht]
      exact ⟨(before t).1, fun hm => (before t).2 ((List.mem_append.mp hm).resolve_right fun h => ht (List.mem_singleton.mp h))⟩

/-! #### Error injection (11 R318) -/

/-- Another field of the same register. -/
theorem getF_setF_beside (s : State) {off lo lo2 : Nat} (w w2 x : Nat) (h : lo2 ≠ lo) : (s.setF ⟨off, lo, w⟩ x).getF ⟨off, lo2, w2⟩ = s.getF ⟨off, lo2, w2⟩ :=
  getF_setF_other _ _ _ _ (by simp only [Fld.key]; omega)

theorem getF_ite {p : Prop} [Decidable p] {a b : State} (f : Fld) : (if p then a else b).getF f = if p then a.getF f else b.getF f :=
  apply_ite (fun x : State => x.getF f) p a b

theorem fieldsOnly_refl (s : State) : FieldsOnly s s := ⟨s.fld, rfl⟩

theorem fieldsOnly_ite {p : Prop} [Decidable p] {a b : State} (ha : FieldsOnly s a) (hb : FieldsOnly s b) : FieldsOnly s (if p then a else b) := by
  split_ifs
  · exact ha
  · exact hb

theorem fieldsOnly_armCache (s : State) (q : QuarterId) (v : Nat) : FieldsOnly s (s.armCache q v) := by
  have put : ∀ {u : State} {p : Prop} [Decidable p] (f : Fld) (x : Nat), FieldsOnly u (if p then u.setF f x else u) := fun f x =>
    fieldsOnly_ite (fieldsOnly_setF f x) (fieldsOnly_refl _)
  unfold armCache
  extract_lets n tag b b2 s1 s2 s3
  have k1 : FieldsOnly s s1 := ((fieldsOnly_setF _ _).setF.setF.setF)
  have k2 : FieldsOnly s1 s2 := fieldsOnly_ite (fieldsOnly_refl _) (fieldsOnly_setF _ _)
  exact ((k1.trans k2).trans (put _ _)).trans (put _ _)

theorem getF_setClamped (s : State) (q lo w x : Nat) (h : lo < 128) :
    (s.setF (F.QC_STATUS_CLAMPED q) x).getF ⟨0x100000 + 0x10000 * q + 0x30, lo, w⟩ = s.getF ⟨0x100000 + 0x10000 * q + 0x30, lo, w⟩ :=
  getF_setF_other _ _ _ _ (by simp only [Fld.key, F.QC_STATUS_CLAMPED]; omega)

theorem clamped_setF (s : State) (q lo w x : Nat) (h : lo < 128) :
    (s.setF ⟨0x100000 + 0x10000 * q + 0x30, lo, w⟩ x).getF (F.QC_STATUS_CLAMPED q) = s.getF (F.QC_STATUS_CLAMPED q) :=
  getF_setF_other _ _ _ _ (by simp only [Fld.key, F.QC_STATUS_CLAMPED]; omega)

/-- The fields of QC_INJ after a write of `x`. -/
theorem armCache_fields (s : State) (q : QuarterId) (x : BitVec 64) :
    let v := s.armCache q x.toNat
    let byte := (x.extractLsb' 8 6).toNat
    v.getF (F.QC_INJ_ARRAY q.val) = (if x.getLsbD 1 then 1 else 0) ∧ v.getF (F.QC_INJ_BYTE q.val) = (if x.getLsbD 1 then min byte 40 else byte)
      ∧ v.getF (F.QC_INJ_MASK q.val) = (x.extractLsb' 16 13).toNat ∧ v.getF (F.QC_INJ_WAYS q.val) = (x.extractLsb' 32 16).toNat
      ∧ v.getF (F.QC_INJ_ARM q.val) = (if x.getLsbD 0 then 1 else s.getF (F.QC_INJ_ARM q.val)) := by
  have part : ∀ lo w, bitsN x.toNat lo w = (x.extractLsb' lo w).toNat := fun lo w => by rw [bitsN, BitVec.extractLsb'_toNat]
  have bit : ∀ i, bitN x.toNat i = x.getLsbD i := fun _ => rfl
  have fits := (x.extractLsb' 8 6).isLt
  simp only [armCache, part, bit]
  generalize x.getLsbD 1 = tag, (x.extractLsb' 8 6).toNat = byte at *
  have array : bN tag % 2 = if tag then 1 else 0 := by cases tag <;> rfl
  have clamped : (if tag then min byte 40 else byte) < 64 := by split_ifs <;> omega
  simp [getF_ite, setB, F.QC_INJ_ARM, F.QC_INJ_ARRAY, F.QC_INJ_FIRED, F.QC_INJ_WAYS, F.QC_INJ_BYTE, F.QC_INJ_MASK, getF_setF_beside, getF_setClamped,
    array, clamped]

/-- A BYTE beyond the bytes of a tag is reported as clamped. -/
theorem armCache_clamped (s : State) (q : QuarterId) {x : BitVec 64} (ht : x.getLsbD 1 = true) (hb : 40 < (x.extractLsb' 8 6).toNat) :
    (s.armCache q x.toNat).getF (F.QC_STATUS_CLAMPED q.val) = 1 := by
  have byte : ¬min (bitsN x.toNat 8 6) 40 = bitsN x.toNat 8 6 := by
    rw [BitVec.extractLsb'_toNat] at hb
    exact fun e => Nat.not_le.mpr hb (min_eq_left_iff.mp e)
  have tag : bitN x.toNat 1 = true := ht
  have one : 1 % 2 ^ (F.QC_STATUS_CLAMPED q.val).w = 1 := rfl
  simp only [armCache, tag, if_true, if_neg byte, getF_ite, F.QC_INJ_ARM, F.QC_INJ_FIRED, Nat.reduceLT, clamped_setF, getF_setF, ite_self, one]

end State

section
open State

/-- Settles O27: a write that keeps a way's tag meets no injection; the drain of an empty cache has nothing to send; a reset reaches
every tile of the quarter and no other, so that the resets do not meet. -/
theorem quarterRegistersControlTheCache : Obligations.QuarterRegistersControlTheCache := by
  unfold Obligations.QuarterRegistersControlTheCache
  intro s q ctrl
  refine ⟨fun l w hf => ⟨_, holdExpire_ends hf, rfl, way_updQuarter_put ..⟩, fun hd he => ?_, fun p x => ⟨heldBack_of_hostWrite rfl, heldBack_of_hostWrite rfl, heldBack_of_hostWrite rfl,
    heldBack_of_hostWrite rfl⟩, fun hc => ?_⟩
  · have run : exec (.qcDrainDone q) s = .next (s.stopDrain q) := rfl
    rw [run, stopDrain, drainPump_of_empty he, hd, he]
    rfl
  · obtain ⟨ho, hw⟩ := of_carries_s hc
    have disable : exec (.qcDisable .s q) s = .next (s.startDrain q) := congrArg Host.Outcome.next (hostWrite_s ho hw)
    have reset : exec (.qreset .s q) s = .next (s.resetQuarter q) := congrArg Host.Outcome.next (hostWrite_s ho hw)
    refine ⟨fun on => ?_, fun off => ?_, congrArg Host.Outcome.next (hostWrite_s ho hw), ⟨_, reset, fun t ht => ?_⟩, fun x => ?_⟩
    · obtain ⟨u, drains, rest⟩ := startDrain_begins on
      exact ⟨u, disable.trans (congrArg Host.Outcome.next drains), rest⟩
    · rw [disable, startDrain, if_neg (ne_true_of_eq_false off)]
    · exact ((resetTiles_reach s (tilesOf q)).1 t).2 ((mem_tilesOf t q).mpr ht)
    · have run : exec (.qcInjArm .s q x) s = .next (s.armCache q x.toNat) := congrArg Host.Outcome.next (hostWrite_s ho hw)
      obtain ⟨array, byte, mask, ways, arm⟩ := armCache_fields s q x
      obtain ⟨fl, only⟩ := fieldsOnly_armCache s q x.toNat
      refine ⟨_, run, by rw [only], array, byte, mask, ways, fun on => ?_, fun off => ?_, armCache_clamped s q⟩
      · rw [arm, on]
        rfl
      · rw [arm, off]
        rfl

end
end Sys2Proof.Machine

namespace Sys2Proof.Machine

/-! ### Silence is timed out (11 R314; 12 R343–R346) -/

/-- A fold in which every step keeps `I`, brings `P` for its own element and loses it for none. -/
theorem foldl_each {α β : Type} {g : β → α → β} {I : β → Prop} {P : α → β → Prop}
    (hg : ∀ b a, I b → I (g b a) ∧ P a (g b a) ∧ ∀ c, P c b → P c (g b a)) (l : List α) {b : β} (hb : I b) :
    I (l.foldl g b) ∧ ∀ a ∈ l, P a (l.foldl g b) := by
  induction l using List.reverseRecOn with
  | nil => exact ⟨hb, fun a ha => (List.not_mem_nil ha).elim⟩
  | append_singleton l c ih =>
    obtain ⟨inv, each⟩ := ih
    rw [List.foldl_append, List.foldl_cons, List.foldl_nil]
    obtain ⟨inv2, self, others⟩ := hg _ c inv
    refine ⟨inv2, fun a ha => ?_⟩
    rcases List.mem_append.mp ha with ha | ha
    · exact others a (each a ha)
    · rw [List.mem_singleton.mp ha]
      exact self

namespace State
variable {s u v : State} {h x : Nat} {t : Txn} {r : Req} {q : QuarterId}

/-! #### Answers of a home (R321, R343, R344) -/

/-- State `v` differs from `s` in packets that are sent and in the free values. -/
def Answered (s v : State) : Prop := ∃ p c, v = { s with net := s.net ++ p, freeCtr := c }

theorem Answered.refl (s : State) : Answered s s := ⟨[], s.freeCtr, by rw [List.append_nil]⟩

theorem Answered.trans (a : Answered s u) (b : Answered u v) : Answered s v := by
  obtain ⟨p, c, rfl⟩ := a
  obtain ⟨p2, c2, rfl⟩ := b
  exact ⟨p ++ p2, c2, by rw [← List.append_assoc]⟩

theorem Answered.homes (a : Answered s v) : v.homes = s.homes := by
  obtain ⟨p, c, rfl⟩ := a
  rfl

theorem Answered.fld (a : Answered s v) : v.fld = s.fld := by
  obtain ⟨p, c, rfl⟩ := a
  rfl

theorem Answered.dram (a : Answered s v) : v.dram = s.dram := by
  obtain ⟨p, c, rfl⟩ := a
  rfl

theorem Answered.quarters (a : Answered s v) : v.quarters = s.quarters := by
  obtain ⟨p, c, rfl⟩ := a
  rfl

theorem answered_foldl {α : Type} {g : State → α → State} (hg : ∀ u a, Answered u (g u a)) (l : List α) : Answered s (l.foldl g s) :=
  List.foldlRecOn (motive := Answered s) l g (.refl s) fun u hu a _ => hu.trans (hg u a)

theorem answered_reply (k : RspKind) (pl : Payload) (poison : Bool) : Answered s (s.reply h x r k pl poison) := by
  unfold reply sendPkt
  dsimp only
  split_ifs
  · exact ⟨_, _, rfl⟩
  · exact .refl s
  · exact ⟨_, _, rfl⟩

theorem answered_poisonReply (s : State) (h x : Nat) (r : Req) : Answered s (s.poisonReply h x r) := by
  have free : Answered s s.free.2 := ⟨[], _, by rw [List.append_nil]; rfl⟩
  unfold poisonReply
  dsimp only
  split
  · exact (free.trans (answered_reply _ _ _)).trans (answered_reply _ _ _)
  · exact (free.trans (answered_reply _ _ _)).trans (answered_reply _ _ _)
  all_goals exact free.trans (answered_reply _ _ _)

/-- A response to a source that no fence shuts off is sent. -/
theorem reply_open (k : RspKind) (pl : Payload) (poison : Bool) (hd : s.fencedDst .rsp (r.src.node (homeStop h)) = false) :
    s.reply h x r k pl poison = { s with net := s.net ++ [homeRsp h x r k pl poison] } := by
  have open_ : s.fencedDst (homeRsp h x r k pl poison).chan (homeRsp h x r k pl poison).dst = false := hd
  unfold reply
  dsimp only
  rw [hd, if_neg Bool.false_ne_true]
  exact if_neg (ne_true_of_eq_false open_)

theorem mem_poisonReply_read (hk : r.kind = .rdC) (hd : s.fencedDst .rsp (r.src.node (homeStop h)) = false) :
    ∃ d, homeRsp h x r .data (.line ⟨d, true⟩ none) true ∈ (s.poisonReply h x r).net := by
  refine ⟨BitVec.ofNat 512 s.free.1, ?_⟩
  unfold poisonReply
  dsimp only
  rw [hk]
  dsimp only
  rw [reply_open (s := s.free.2) _ _ _ hd]
  exact List.mem_append_right _ (List.mem_singleton.mpr rfl)

theorem mem_poisonReply_write (hk : r.kind = .wrInv ∨ r.kind = .wb) (hd : s.fencedDst .rsp (r.src.node (homeStop h)) = false) :
    homeRsp h x r .done (.empty true) true ∈ (s.poisonReply h x r).net := by
  unfold poisonReply
  dsimp only
  rcases hk with hk | hk
  all_goals
    rw [hk]
    dsimp only
    rw [reply_open (s := s.free.2) _ _ _ hd]
    exact List.mem_append_right _ (List.mem_singleton.mpr rfl)

theorem fencedDst_congr (hq : u.quarters = s.quarters) (c : Chan) (d : Node) : u.fencedDst c d = s.fencedDst c d := by
  unfold fencedDst quarter
  rw [hq]

theorem reply_net_congr (hn : u.net = s.net) (hq : u.quarters = s.quarters) (k : RspKind) (pl : Payload) (poison : Bool) :
    (u.reply h x r k pl poison).net = (s.reply h x r k pl poison).net := by
  unfold reply sendPkt
  simp only [fencedDst_congr hq, apply_ite State.net, hn]

/-- What is answered with poison depends on the packets, the fences and the free values alone. -/
theorem poisonReply_net_congr (hn : u.net = s.net) (hq : u.quarters = s.quarters) (hc : u.freeCtr = s.freeCtr) :
    (u.poisonReply h x r).net = (s.poisonReply h x r).net := by
  have junk : u.free.1 = s.free.1 := congrArg Config.freeNat hc
  have reply := fun k pl poison => reply_net_congr (h := h) (x := x) (r := r) (s := s.free.2) (u := u.free.2) hn hq k pl poison
  have quarters : ∀ k pl poison, (u.free.2.reply h x r k pl poison).quarters = (s.free.2.reply h x r k pl poison).quarters := fun k pl poison =>
    ((answered_reply (s := u.free.2) k pl poison).quarters.trans hq).trans (answered_reply (s := s.free.2) k pl poison).quarters.symm
  unfold poisonReply
  rw [junk]
  dsimp only
  split
  · exact reply_net_congr (reply _ _ _) (quarters _ _ _) _ _ _
  · exact reply_net_congr (reply _ _ _) (quarters _ _ _) _ _ _
  all_goals exact reply _ _ _

/-- An engine's stop is no quarter's. -/
theorem fencedDst_engine (s : State) (e : EngId) (d : Node) : s.fencedDst .rsp ((Source.engine e).node d) = false := by
  have away : stopQuarter (engineStop e) = none := by
    revert e
    decide
  show s.fencedDst .rsp (engineStop e) = false
  rw [fencedDst, away]
  rfl

theorem stopQuarter_rowEnd (q : QuarterId) (d : Nat) : stopQuarter (stopN (rowEnd q.val d)) = some q := by
  have west : stopQuarter (stopN q.val) = some q := by
    revert q
    decide
  have east : stopQuarter (stopN (16 + q.val)) = some q := by
    revert q
    decide
  unfold rowEnd
  split_ifs
  · exact west
  · exact east

theorem fencedDst_drain (hf : (s.quarter q).fenced = false) (h : Nat) : s.fencedDst .rsp ((Source.drain q).node (homeStop h)) = false := by
  obtain ⟨d, hd⟩ : ∃ d, homeStop h = .stop d := by
    unfold homeStop
    split_ifs
    · exact ⟨_, rfl⟩
    · exact ⟨_, rfl⟩
  have stop : (Source.drain q).node (homeStop h) = stopN (rowEnd q.val d.val) := by
    rw [hd]
    rfl
  rw [stop, fencedDst, stopQuarter_rowEnd]
  exact hf

/-! #### What an event leaves of the homes' registers (16 R436, R440) -/

@[simp] theorem reportAer_fld (fn : Func) (unc : Bool) (bit : Nat) (what : String) : (s.reportAer fn unc bit what).fld = s.fld := by
  unfold reportAer
  dsimp only
  split_ifs <;> rfl

@[simp] theorem reportRas_fld (unc : Bool) (bit : Nat) (what : String) : (s.reportRas unc bit what).fld = s.fld := by
  unfold reportRas
  dsimp only
  split_ifs <;> rfl

theorem tellHost_fld (ev : Event) : (s.tellHost ev).fld = s.fld := by
  unfold tellHost
  dsimp only
  split_ifs <;> simp

/-- A field that no reaction writes (16 R440). -/
structure Unreacted (f : Fld) : Prop where
  place : f.off < 0x400000 ∧ f.lo < 128
  status : f.key ≠ F.FLT_STATUS_FAULTN.key ∧ f.key ≠ F.FLT_STATUS_VIRAL.key ∧ f.key ≠ F.FLT_STATUS_VIRAL_OFF.key
  quarantine : ∀ w : WardId, f.key ≠ (F.WRD_STATUS_QUARANTINED w.val).key

theorem getF_enterViral {f : Fld} (hf : Unreacted f) : s.enterViral.getF f = s.getF f := by
  obtain ⟨-, viral, off⟩ := hf.status
  unfold enterViral
  split_ifs
  · rfl
  · exact getF_setF_other _ _ _ _ viral
  · exact getF_setF_other _ _ _ _ off

theorem getF_react {f : Fld} (hf : Unreacted f) (ev : Event) : (s.react ev).getF f = s.getF f := by
  have raise : ∀ (u : State) (fn : Func) (n : Nat), (u.raiseMsix fn n).getF f = u.getF f := fun u fn n => (keepsFld_raiseMsix hf.place fn n).fld
  have quar : ∀ (u : State) (w : WardId), (u.quarantine w).getF f = u.getF f := fun u w => by
    unfold quarantine
    split_ifs
    · rfl
    · exact getF_setF_other _ _ _ _ (hf.quarantine w)
  have queue : ∀ (u : State) (e : LogEntry), (u.queueLog e).getF f = u.getF f := fun u e => by
    unfold queueLog
    split_ifs <;> rfl
  have when_ : ∀ {p : Prop} [Decidable p] {a b : State}, a.getF f = b.getF f → (if p then a else b).getF f = b.getF f := fun {p _ a b} e => by
    rw [getF_ite, e, ite_self]
  unfold react
  extract_lets a vec s1 m2 s2 s3 s4 s5 s6
  have k1 : s1.getF f = s.getF f := when_ (getF_setF_other _ _ _ _ hf.status.1)
  have k2 : s2.getF f = s1.getF f := when_ rfl
  have k3 : s3.getF f = s2.getF f := when_ (getF_enterViral hf)
  have k4 : s4.getF f = s3.getF f := when_ (foldl_keeps (fun u : State => u.getF f) (fun u w => when_ (quar u w)) _ _)
  have k5 : s5.getF f = s4.getF f := when_ (raise _ _ _)
  have k6 : s6.getF f = s5.getF f := when_ (foldl_keeps (fun u : State => u.getF f) (fun u w => when_ (raise u _ _)) _ _)
  rw [when_ (queue _ _), k6, k5, k4, k3, k2, k1]

/-- A field beyond a record block is not written when an event is latched there. -/
theorem getF_latchAt_beyond {f : Fld} {base : Nat} {ev : Event} (hf : base + 0x1000 ≤ f.off) (hg : ev.group < 49) : (s.latchAt base ev).getF f = s.getF f := by
  have groups : ∀ (u : State) (n : Nat), (u.setF ⟨base, 0, 49⟩ n).getF f = u.getF f := fun u n =>
    getF_setF_other _ _ _ _ (by simp only [Fld.key]; omega)
  have rec_ : ∀ (u : State) (sub lo w n : Nat), sub < 0x20 → lo < 128 → (u.setF (recF base ev.group sub lo w) n).getF f = u.getF f := fun u sub lo w n _ _ =>
    getF_setF_other _ _ _ _ (by simp only [Fld.key, recF]; omega)
  have high : ∀ (u : State) (n : Nat), (u.highF (recF base ev.group 0 0 2) n).getF f = u.getF f := fun u n => by
    rw [highF, getF_ite, rec_ _ _ _ _ _ (by decide) (by decide), ite_self]
  simp [latchAt, bumpF, getF_ite, groups, rec_, high]

/-- A field of a home's registers. -/
def HomeField (f : Fld) : Prop := 0x200000 ≤ f.off ∧ f.off < 0x400000 ∧ f.lo < 128

theorem HomeField.unreacted {f : Fld} (hf : HomeField f) : Unreacted f := by
  obtain ⟨low, high, lo⟩ := hf
  refine ⟨⟨high, lo⟩, ?_, fun w => ?_⟩
  · simp only [Fld.key, F.FLT_STATUS_FAULTN, F.FLT_STATUS_VIRAL, F.FLT_STATUS_VIRAL_OFF]
    omega
  · have := w.isLt
    simp only [Fld.key, F.WRD_STATUS_QUARANTINED]
    omega

theorem unreacted_groups : Unreacted F.FLT_BEACON_GROUPS := ⟨by decide, by decide, by decide⟩

/-- State `v` is `s` after events: the homes' registers are as they were, and no group of the Beacon has fallen. -/
structure Told (s v : State) : Prop where
  only : BeaconOnly s v
  home : ∀ f, HomeField f → v.getF f = s.getF f
  groups : ∀ i < 49, (s.getF F.FLT_BEACON_GROUPS).testBit i = true → (v.getF F.FLT_BEACON_GROUPS).testBit i = true

theorem Told.refl (s : State) : Told s s := ⟨.refl s, fun _ _ => rfl, fun _ _ hb => hb⟩

theorem Told.trans (a : Told s u) (b : Told u v) : Told s v :=
  ⟨a.only.trans b.only, fun f hf => (b.home f hf).trans (a.home f hf), fun i hi hb => b.groups i hi (a.groups i hi hb)⟩

theorem Told.ite {p : Prop} [Decidable p] (a : Told s u) (b : Told s v) : Told s (if p then u else v) := by
  split_ifs
  · exact a
  · exact b

theorem Told.homes (a : Told s v) : v.homes = s.homes := by
  obtain ⟨_, _, _, _, _, _, rfl⟩ := a.only
  rfl

theorem Told.quarters (a : Told s v) : v.quarters = s.quarters := by
  obtain ⟨_, _, _, _, _, _, rfl⟩ := a.only
  rfl

theorem Told.net (a : Told s v) : v.net = s.net := by
  obtain ⟨_, _, _, _, _, _, rfl⟩ := a.only
  rfl

theorem Told.dram (a : Told s v) : v.dram = s.dram := by
  obtain ⟨_, _, _, _, _, _, rfl⟩ := a.only
  rfl

/-- The groups of a record block when an event is latched there. -/
theorem getF_latchAt_groups (base : Nat) (ev : Event) : (s.latchAt base ev).getF (groupsF base) =
    if (s.getF (groupsF base)).testBit ev.group then s.getF (groupsF base) else putBitN (s.getF (groupsF base)) ev.group true % 2 ^ 49 := by
  have groups : (s.setF (groupsF base) (putBitN (s.getF (groupsF base)) ev.group true)).getF (groupsF base) =
      putBitN (s.getF (groupsF base)) ev.group true % 2 ^ 49 := getF_setF ..
  have cur : (⟨base, 0, 49⟩ : Fld) = groupsF base := rfl
  simp only [latchAt, bumpF, getF_ite, getF_setF_rec, getF_highF_rec, ite_self, cur, groups, bitN]

theorem putBitN_testBit_kept {n i g : Nat} (h : n.testBit i = true) : (putBitN n g true).testBit i = true := by
  unfold putBitN
  split_ifs with hg
  · exact h
  · have other : g ≠ i := fun e => hg (by rw [e, h]; rfl)
    rw [Nat.testBit_xor, h, Nat.testBit_two_pow_of_ne other]
    rfl

theorem latchAt_groups_kept {i : Nat} (hi : i < 49) (ev : Event) (hb : (s.getF F.FLT_BEACON_GROUPS).testBit i = true) :
    ((s.latchAt 0x30000 ev).getF F.FLT_BEACON_GROUPS).testBit i = true := by
  have hb : (s.getF (groupsF 0x30000)).testBit i = true := hb
  show ((s.latchAt 0x30000 ev).getF (groupsF 0x30000)).testBit i = true
  rw [getF_latchAt_groups]
  split_ifs
  · exact hb
  · rw [Nat.testBit_mod_two_pow, putBitN_testBit_kept hb, decide_eq_true hi]
    rfl

/-- An event moves the Beacon's record blocks alone among the registers that a home's timeout is read from. -/
theorem told_event (ev : Event) (hg : ev.group < 49) : Told s (s.event ev) := by
  have reacted : ∀ {f} (u : State), Unreacted f → ((u.react ev).tellHost ev).getF f = u.getF f := fun u hf =>
    (getF_congr (tellHost_fld ev) _).trans (getF_react hf ev)
  refine ⟨beaconOnly_event ev, fun f hf => ?_, fun i hi hb => ?_⟩
  · have device : (s.latchAt 0x30000 ev).getF f = s.getF f := getF_latchAt_beyond (by have := hf.1; omega) hg
    refine (reacted _ hf.unreacted).trans (Eq.trans (foldl_keeps (fun u : State => u.getF f) (fun u w => ?_) _ _) device)
    have beyond : (u.latchAt (0x34000 + 0x1000 * w.val) ev).getF f = u.getF f := getF_latchAt_beyond (by have := hf.1; omega) hg
    rw [getF_ite, beyond, ite_self]
  · have wards := keepsFld_foldl (f := F.FLT_BEACON_GROUPS) (s := s.latchAt 0x30000 ev)
      (g := fun u w => if inScope ev w then u.latchAt (0x34000 + 0x1000 * w.val) ev else u)
      (fun u w => keepsFld_ite (keepsFld_latchAt ⟨by simp only [F.FLT_BEACON_GROUPS]; omega, by decide⟩ ev) (.refl _ u)) (List.finRange 8)
    have same : (s.event ev).getF F.FLT_BEACON_GROUPS = (s.latchAt 0x30000 ev).getF F.FLT_BEACON_GROUPS := (reacted _ unreacted_groups).trans wards.fld
    rw [same]
    exact latchAt_groups_kept hi ev hb

theorem told_toutEvent (hh : h < 16) (w : Option WardId) : Told s (s.toutEvent h w) := by
  rw [toutEvent, if_pos hh]
  exact told_event _ (by dsimp only; omega)

/-- The error record of a quarter cache stands below the homes' registers. -/
theorem told_qcEvent (q : QuarterId) (cls errKind kind set w : Nat) (ward : Option WardId) : Told s (s.qcEvent q cls errKind kind set w ward) := by
  have err : ∀ (u : State) (lo wd n : Nat), lo < 128 → Told u (u.setF ⟨0x100000 + 0x10000 * q.val + 0x20, lo, wd⟩ n) := fun u lo wd n hlo => by
    have := q.isLt
    refine ⟨beaconOnly_setF _ _, fun f hf => getF_setF_other _ _ _ _ ?_, fun i _ hb => ?_⟩
    · have := hf.1
      simp only [Fld.key]
      omega
    · rwa [getF_setF_other _ _ _ _ (by simp only [Fld.key, F.FLT_BEACON_GROUPS]; omega)]
  unfold qcEvent
  extract_lets s1 s2 s3
  have k1 : Told s s1 := (err _ _ _ _ (by decide)).ite (err _ _ _ _ (by decide))
  have k2 : Told s1 s2 := (err _ _ _ _ (by decide)).ite (.refl _)
  have k3 : Told s2 s3 := ((err _ _ _ _ (by decide)).trans (err _ _ _ _ (by decide))).trans (err _ _ _ _ (by decide))
  exact ((k1.trans k2).trans k3).trans (told_event _ (by have := q.isLt; dsimp only; omega))

/-! #### The timeout record (R343, R345, R346) -/

/-- What HOM_TOUT of home `h` records. -/
def Recorded (s v : State) (h kind who : Nat) : Prop :=
  v.getF (F.HOM_TOUT_KIND h) = kind ∧ v.getF (F.HOM_TOUT_WHO h) = who ∧ v.getF (F.HOM_TOUT_COUNT h) = min (2 ^ 16 - 1) (s.getF (F.HOM_TOUT_COUNT h) + 1)

/-- A field of HOM_TOUT. -/
def ToutField (h : Nat) (f : Fld) : Prop := f = F.HOM_TOUT_KIND h ∨ f = F.HOM_TOUT_WHO h ∨ f = F.HOM_TOUT_COUNT h

theorem Recorded.keep {kind who : Nat} (a : Recorded s u h kind who) (hf : ∀ f, ToutField h f → v.getF f = u.getF f) : Recorded s v h kind who := by
  unfold Recorded
  rw [hf _ (.inl rfl), hf _ (.inr (.inl rfl)), hf _ (.inr (.inr rfl))]
  exact a

theorem ToutField.home {f : Fld} (hf : ToutField h f) (hh : h < 16) : HomeField f := by
  rcases hf with rfl | rfl | rfl
  all_goals
    simp only [HomeField, F.HOM_TOUT_KIND, F.HOM_TOUT_WHO, F.HOM_TOUT_COUNT]
    omega

theorem toutRec_fields (s : State) (hh : h < 16) (n kind who : Nat) : FieldsOnly s (s.toutRec h n kind who) := by
  rw [toutRec, if_pos hh]
  exact (fieldsOnly_setF _ _).setF.setF.setF

theorem toutRec_recorded {kind who : Nat} (hh : h < 16) (n : Nat) (hk : kind < 8) (hw : who < 32) : Recorded s (s.toutRec h n kind who) h kind who := by
  rw [toutRec, if_pos hh]
  refine ⟨?_, ?_, ?_⟩
  · simp [F.HOM_TOUT_KIND, F.HOM_TOUT_WHO, F.HOM_TOUT_ADDR, getF_setF_beside, Nat.mod_eq_of_lt hk]
  · simp [F.HOM_TOUT_WHO, F.HOM_TOUT_ADDR, getF_setF_beside, Nat.mod_eq_of_lt hw]
  · have count : ((s.bumpF (F.HOM_TOUT_COUNT h) 1).getF (F.HOM_TOUT_COUNT h)) = min (2 ^ 16 - 1) (s.getF (F.HOM_TOUT_COUNT h) + 1) := getF_bumpF ..
    rw [← count]
    simp [F.HOM_TOUT_COUNT, F.HOM_TOUT_KIND, F.HOM_TOUT_WHO, F.HOM_TOUT_ADDR, getF_setF_beside]

/-! #### The homes' own state -/

theorem homeN_congr (hh : v.homes = s.homes) (j : Nat) : v.homeN j = s.homeN j := by
  unfold homeN
  rw [hh]

theorem dirGet_congr (hh : v.homes = s.homes) (j m : Nat) : v.dirGet j m = s.dirGet j m := by
  unfold dirGet
  rw [homeN_congr hh]

theorem homeN_updHome (s : State) (h : Nat) (f : Home → Home) (j : Nat) : (s.updHome h f).homeN j = if j = h then f (s.homeN h) else s.homeN j := by
  split_ifs with e
  · rw [e]
    exact homeN_setHomeN ..
  · exact homeN_setHomeN_other _ _ _ _ e

/-- A part of the homes that a change of one home leaves there. -/
theorem updHome_keeps {α : Type} (p : Home → α) {f : Home → Home} (hf : ∀ y, p (f y) = p y) (s : State) (h j : Nat) :
    p ((s.updHome h f).homeN j) = p (s.homeN j) := by
  rw [homeN_updHome]
  split_ifs with e
  · rw [hf, e]
  · rfl

theorem dirGet_dirPut (s : State) (h n : Nat) (d : Option DirEntry) (j m : Nat) :
    (s.dirPut h n d).dirGet j m = if j = h ∧ m = n then d else s.dirGet j m := by
  unfold dirGet dirPut
  rw [homeN_updHome]
  by_cases hj : j = h
  · subst hj
    by_cases hm : m = n
    · subst hm
      simp
    · simp [hm, Tbl.get_put_other _ _ _ _ _ _ hm]
  · simp [hj]

theorem refused_setTxn (s : State) (h : Nat) (t : Txn) (j : Nat) : ((s.setTxn h t).homeN j).refused = (s.homeN j).refused :=
  updHome_keeps Home.refused (by intro; rfl) s h j

theorem bitmap_setTxn (s : State) (h : Nat) (t : Txn) (j : Nat) : ((s.setTxn h t).homeN j).bitmap = (s.homeN j).bitmap :=
  updHome_keeps Home.bitmap (by intro; rfl) s h j

theorem dirGet_setTxn (s : State) (h : Nat) (t : Txn) (j m : Nat) : (s.setTxn h t).dirGet j m = s.dirGet j m :=
  congrArg (fun x => Tbl.get none x m) (updHome_keeps Home.dir (by intro; rfl) s h j)

theorem refused_dropTxn (s : State) (h x : Nat) (l : LineAddr) (j : Nat) : ((s.dropTxn h x l).homeN j).refused = (s.homeN j).refused :=
  updHome_keeps Home.refused (by intro; rfl) s h j

theorem dirGet_dropTxn (s : State) (h x : Nat) (l : LineAddr) (j m : Nat) : (s.dropTxn h x l).dirGet j m = s.dirGet j m :=
  congrArg (fun x => Tbl.get none x m) (updHome_keeps Home.dir (by intro; rfl) s h j)

theorem refused_dirPut (s : State) (h n : Nat) (d : Option DirEntry) (j : Nat) : ((s.dirPut h n d).homeN j).refused = (s.homeN j).refused :=
  updHome_keeps Home.refused (by intro; rfl) s h j

theorem bitmap_dirPut (s : State) (h n : Nat) (d : Option DirEntry) (j : Nat) : ((s.dirPut h n d).homeN j).bitmap = (s.homeN j).bitmap :=
  updHome_keeps Home.bitmap (by intro; rfl) s h j

/-- Where no request waits, none is served after a transaction (R334). -/
theorem pump_idle (hr : (s.homeN h).refused = []) (l : LineAddr) (fuel : Nat) : s.pump h l fuel = s := by
  have called : s.callWaiting h l = s := by
    rw [callWaiting, hr]
    rfl
  have first : s.firstWaiting h l = none := by
    rw [firstWaiting, hr]
    rfl
  cases fuel with
  | zero => rfl
  | succ n =>
    rw [State.pump]
    simp [called, first]

theorem sweep_idle (hr : (s.homeN h).refused = []) : s.sweep h = s := by
  rw [sweep, hr]
  rfl

theorem serve_idle (hr : (s.homeN h).refused = []) (l : LineAddr) : s.serve h l = s := by
  rw [serve, pump_idle hr, ite_self]

/-! #### A transaction ends with poison (R343, R345, R346; 11 R314) -/

/-- The entry that stays after such an end of a transaction that takes no line: that of the holders that are left, with poison. -/
def keptEntry (d : Option DirEntry) : Option DirEntry := ((d.filter (fun e => !e.empty)).map (fun e => { e with poison := true })).filter (fun e => e.pres != 0)

/-- The transaction as it ends. -/
def doomedTxn (t : Txn) : Txn := { t with doomed := true, got := none, rd := none }

theorem poisonEnd_keepsEntry (hk : t.req.kind = .rdC ∨ t.req.kind = .wb ∧ t.wdata = none) : s.poisonEnd h t =
    ((s.poisonReply h t.xid t.req).dirPut h t.line.n (keptEntry (s.dirGet h t.line.n))).dropTxn h t.xid t.line := by
  have after : s.dirAfter h { t with kept := false } true = ((s.dirGet h t.line.n).filter (fun e => !e.empty)).map (fun e => { e with poison := true }) := by
    unfold dirAfter
    rcases hk with hk | ⟨hk, hd⟩
    · simp [hk]
    · simp [hk, hd]
  have other : t.req.kind ≠ .rdS := by
    rcases hk with hk | ⟨hk, -⟩ <;> rw [hk] <;> decide
  rw [poisonEnd, after, if_neg other]
  rfl

theorem keptEntry_unheld {d : DirEntry} (hd : d.pres = 0) : keptEntry (some d) = none := by
  unfold keptEntry
  cases hb : d.empty <;> simp [hb, hd]

/-- State `v` is `s` after a write of line `n` of memory: the line, its flips, and the fields of an injection that fires. -/
structure LineStored (s v : State) (n : Nat) (sig : Bool) : Prop where
  only : ∃ fl dram errs, v = { s with fld := fl, dram := dram, sigs := s.sigs.put false n sig, symErrs := errs }
  fields : ∀ f, (∀ k, f.key ≠ (F.HOM_ECC_INJ_ARM k).key ∧ f.key ≠ (F.HOM_ECC_INJ_FIRED k).key) → v.getF f = s.getF f

theorem LineStored.fire {n : Nat} {sig : Bool} (a : LineStored s v n sig) (k : Nat) :
    LineStored s ((v.setF (F.HOM_ECC_INJ_ARM k) 0).setF (F.HOM_ECC_INJ_FIRED k) 1) n sig := by
  obtain ⟨⟨_, dram, errs, only⟩, fields⟩ := a
  obtain ⟨fl, changed⟩ := (fieldsOnly_setF (s := v) (F.HOM_ECC_INJ_ARM k) 0).setF (f := F.HOM_ECC_INJ_FIRED k) (x := 1)
  refine ⟨⟨fl, dram, errs, by rw [changed, only]⟩, fun f hf => ?_⟩
  rw [getF_setF_other _ _ _ _ (hf k).2, getF_setF_other _ _ _ _ (hf k).1]
  exact fields f hf

theorem lineStored_flips (s : State) (n : Nat) (d : Line512) (sig : Bool) (errs : Tbl (List (Nat × W64))) :
    LineStored s { s.putDramLine n d with sigs := s.sigs.put false n sig, symErrs := errs } n sig := by
  exact ⟨⟨s.fld, (s.putDramLine n d).dram, errs, rfl⟩, fun f _ => getF_congr rfl f⟩

theorem lineStored_writeDram (s : State) (n : Nat) (d : Line512) (sig : Bool) : LineStored s (s.writeDram n d sig) n sig := by
  unfold writeDram
  dsimp only
  split_ifs
  · exact (lineStored_flips s n d sig _).fire _
  · exact (lineStored_flips s n d sig _).fire _
  · exact lineStored_flips s n d sig _

theorem recall_of_kind (hk : t.req.kind ≠ .evict) : t.recall = false := by simp [Txn.recall, hk]

/-- What a transaction that ends with poison writes: its line as it was, with the signature (R343). -/
theorem finishWrite_doomed (hh : h < 16) (hp : s.partInit t.line.n = true) (hd : t.doomed = true) (hk : t.req.kind ≠ .evict) :
    ∃ d, s.finishWrite h t = (true, s.writeDram t.line.n d true) := by
  have lost : s.writeOf t = some (t.req.sealWard, ⟨s.lineView t.req.sealWard t.line.n, true⟩) := by
    unfold writeOf
    dsimp only
    rw [recall_of_kind hk, if_neg Bool.false_ne_true, if_pos hd]
  unfold finishWrite
  rw [lost]
  dsimp only
  rw [if_neg (Nat.not_le.mpr hh), if_pos hp]
  exact ⟨_, rfl⟩

/-- What follows the write, where no request waits at the home. -/
theorem conclude_doomed (hr : ((s.poisonEnd h t).homeN h).refused = []) (he : t.evictFor = none) (hs : t.hostSnoop = none) (hd : t.doomed = true)
    (hk : t.req.kind ≠ .evict) (fuel : Nat) : s.conclude h t (fuel + 1) = s.poisonEnd h t := by
  rw [State.conclude, hs]
  dsimp only
  rw [he]
  dsimp only
  rw [recall_of_kind hk, if_neg Bool.false_ne_true, if_pos hd, pump_idle hr]

theorem poisonEnd_refused (s : State) (h : Nat) (t : Txn) (j : Nat) : ((s.poisonEnd h t).homeN j).refused = (s.homeN j).refused := by
  rw [poisonEnd, refused_dropTxn, refused_dirPut, homeN_congr (answered_poisonReply ..).homes]

/-- A transaction ends with poison: its line is written with the signature, it is answered, and its entry is left as `poisonEnd` says. -/
theorem doom_ends (hh : h < 16) (hr : (s.homeN h).refused = []) (hp : s.partInit t.line.n = true) (he : t.evictFor = none) (hs : t.hostSnoop = none)
    (hk : t.req.kind ≠ .evict) : ∃ d, s.doom h t = ((s.setTxn h (doomedTxn t)).writeDram t.line.n d true).poisonEnd h (doomedTxn t) := by
  have doom : s.doom h t = (s.setTxn h (doomedTxn t)).wrapUp h (doomedTxn t) := rfl
  have none_ : ((s.setTxn h (doomedTxn t)).homeN h).refused = [] := (refused_setTxn ..).trans hr
  have part : (s.setTxn h (doomedTxn t)).partInit t.line.n = true := by
    rw [partInit, bitmap_setTxn]
    exact hp
  generalize s.setTxn h (doomedTxn t) = u at *
  obtain ⟨d, write⟩ := finishWrite_doomed (t := doomedTxn t) hh part rfl hk
  have after : (((u.writeDram t.line.n d true).poisonEnd h (doomedTxn t)).homeN h).refused = [] := by
    obtain ⟨_, _, _, only⟩ := (lineStored_writeDram u t.line.n d true).only
    rw [poisonEnd_refused, only]
    exact none_
  refine ⟨d, ?_⟩
  have fuel : u.homeFuel h = 14 + 1 + 1 := by
    rw [homeFuel, none_]
    rfl
  rw [doom, wrapUp, fuel, State.finish, write]
  dsimp only
  rw [show (doomedTxn t).line = t.line from rfl, conclude_doomed after he hs rfl hk, sweep_idle after]

/-- State `v` is `s` after transaction `t` of home `h` has ended with poison. -/
structure Doomed (s v : State) (h : Nat) (t : Txn) : Prop where
  quarters : v.quarters = s.quarters
  sig : v.sigs.get false t.line.n = true
  dir : ∀ j m, v.dirGet j m = if j = h ∧ m = t.line.n then keptEntry (s.dirGet h t.line.n) else s.dirGet j m
  fields : ∀ f, (∀ k, f.key ≠ (F.HOM_ECC_INJ_ARM k).key ∧ f.key ≠ (F.HOM_ECC_INJ_FIRED k).key) → v.getF f = s.getF f
  net : v.net = (s.poisonReply h t.xid t.req).net

theorem doom_doomed (hh : h < 16) (hr : (s.homeN h).refused = []) (hp : s.partInit t.line.n = true) (he : t.evictFor = none) (hs : t.hostSnoop = none)
    (hk : t.req.kind = .rdC ∨ t.req.kind = .wb ∧ t.wdata = none) : Doomed s (s.doom h t) h t := by
  have kind : t.req.kind ≠ .evict := by
    rcases hk with hk | ⟨hk, -⟩ <;> rw [hk] <;> decide
  obtain ⟨d, ends⟩ := doom_ends hh hr hp he hs kind
  obtain ⟨⟨fl, dram, errs, only⟩, fields⟩ := lineStored_writeDram (s.setTxn h (doomedTxn t)) t.line.n d true
  have dirs := dirGet_setTxn s h (doomedTxn t)
  have ended := poisonEnd_keepsEntry (s := (s.setTxn h (doomedTxn t)).writeDram t.line.n d true) (h := h) (t := doomedTxn t) hk
  rw [ends, ended]
  generalize (s.setTxn h (doomedTxn t)).writeDram t.line.n d true = u at *
  have homes : ∀ j m, u.dirGet j m = s.dirGet j m := fun j m => (dirGet_congr (by rw [only]) j m).trans (dirs j m)
  have answered := answered_poisonReply u h (doomedTxn t).xid (doomedTxn t).req
  have net : (u.poisonReply h (doomedTxn t).xid (doomedTxn t).req).net = (s.poisonReply h t.xid t.req).net :=
    poisonReply_net_congr (by rw [only]; rfl) (by rw [only]; rfl) (by rw [only]; rfl)
  generalize u.poisonReply h (doomedTxn t).xid (doomedTxn t).req = w at *
  refine ⟨answered.quarters.trans (by rw [only]; rfl), ?_, fun j m => ?_, fun f hf => ?_, net⟩
  · have sigs : w.sigs = u.sigs := by
      obtain ⟨p, c, e⟩ := answered
      rw [e]
    show w.sigs.get false t.line.n = true
    rw [sigs, only]
    exact Tbl.get_put ..
  · rw [dirGet_dropTxn, dirGet_dirPut, dirGet_congr answered.homes, homes, homes]
    rfl
  · exact (getF_congr answered.fld f).trans (fields f hf)

/-- The fields that a home's timeout is read from are none of its injection's. -/
theorem ToutField.ne_injection {f : Fld} (hf : ToutField h f) (k : Nat) : f.key ≠ (F.HOM_ECC_INJ_ARM k).key ∧ f.key ≠ (F.HOM_ECC_INJ_FIRED k).key := by
  rcases hf with rfl | rfl | rfl
  all_goals
    simp only [Fld.key, F.HOM_TOUT_KIND, F.HOM_TOUT_WHO, F.HOM_TOUT_COUNT, F.HOM_ECC_INJ_ARM, F.HOM_ECC_INJ_FIRED]
    omega

theorem groups_ne_injection (k : Nat) : F.FLT_BEACON_GROUPS.key ≠ (F.HOM_ECC_INJ_ARM k).key ∧ F.FLT_BEACON_GROUPS.key ≠ (F.HOM_ECC_INJ_FIRED k).key := by
  simp only [Fld.key, F.FLT_BEACON_GROUPS, F.HOM_ECC_INJ_ARM, F.HOM_ECC_INJ_FIRED]
  omega

/-! #### A quarter is fenced (R344) -/

/-- No entry of home `j` names quarter `q`. -/
def Unnamed (q : QuarterId) (j : Nat) (s : State) : Prop := ∀ m d, s.dirGet j m = some d → d.pres.getLsbD q.val = false

/-- State `u` is on the way from `s`, at which no request waits, to the fence of a quarter. -/
structure Fencing (s u : State) : Prop where
  refused : ∀ j, (u.homeN j).refused = []
  bitmap : ∀ j, (u.homeN j).bitmap = (s.homeN j).bitmap
  fld : u.fld = s.fld
  quarters : u.quarters = s.quarters

theorem pres_cleared (p : BitVec 17) (q : QuarterId) : (p &&& ~~~ BitVec.ofNat 17 (2 ^ q.val)).getLsbD q.val = false := by
  have := q.isLt
  rw [BitVec.getLsbD_and, BitVec.getLsbD_not, BitVec.getLsbD_ofNat, Nat.testBit_two_pow_self, decide_eq_true (show q.val < 17 by omega)]
  exact Bool.and_false _

theorem fenceQuarter_fences (hr : ∀ j, (s.homeN j).refused = []) (q : QuarterId) :
    Fencing (s.updQuarter q (fun y => { y with fenced := true })) (s.fenceQuarter q) ∧ ∀ j ∈ List.range 17, Unnamed q j (s.fenceQuarter q) := by
  unfold fenceQuarter
  refine foldl_each (I := Fencing (s.updQuarter q (fun y => { y with fenced := true }))) (P := Unnamed q) (fun u a hu => ?_) _ ⟨hr, fun _ => rfl, rfl, rfl⟩
  extract_lets clear cells u1 mine ref wbs u2 u3 u4
  have empty : (u1.homeN a).refused = [] := (updHome_keeps Home.refused (by intro; rfl) u a a).trans (hu.refused a)
  have none_ : ref = [] := by simp only [ref, empty, List.filter_nil]
  have refused : (u2.homeN a).refused = [] := (congrArg Home.refused (homeN_setHomeN ..)).trans (by dsimp only; rw [empty]; rfl)
  have others : ∀ j, j ≠ a → u2.homeN j = u.homeN j := fun j e => (homeN_setHomeN_other _ _ _ _ e).trans (homeN_setHomeN_other _ _ _ _ e)
  have bitmap : ∀ j, (u2.homeN j).bitmap = (u.homeN j).bitmap := fun j =>
    (updHome_keeps Home.bitmap (by intro; rfl) u1 a j).trans (updHome_keeps Home.bitmap (by intro; rfl) u a j)
  have dir : (u2.homeN a).dir = ⟨cells⟩ :=
    (updHome_keeps Home.dir (by intro; rfl) u1 a a).trans (congrArg Home.dir (homeN_setHomeN ..))
  have cleared : ∀ c ∈ cells, ∀ d, c.2 = some d → d.pres.getLsbD q.val = false := fun c hc d hd => by
    obtain ⟨⟨k, d0⟩, -, made⟩ := List.mem_filterMap.mp hc
    cases d0 with
    | none => cases made
    | some d0 =>
      dsimp only at made
      split_ifs at made
      cases made
      cases hd
      exact pres_cleared d0.pres q
  have names : Unnamed q a u2 := fun m d hd => by
    rw [dirGet, dir] at hd
    exact Tbl.get_of_forall (P := fun e => ∀ d, e = some d → d.pres.getLsbD q.val = false) nofun cleared m d hd
  have fields : u2.fld = u.fld ∧ u2.quarters = u.quarters := ⟨rfl, rfl⟩
  clear_value u2
  have answered : Answered u2 u4 := by
    have same : u3 = u2 := by simp only [u3, none_, List.foldl_nil]
    simp only [u4, same]
    exact answered_foldl (fun w b => answered_poisonReply ..) _
  rw [none_, List.foldl_nil]
  clear_value u4
  have homes := homeN_congr answered.homes
  have dirs := dirGet_congr answered.homes
  refine ⟨⟨fun j => ?_, fun j => ?_, ?_, ?_⟩, fun m d hd => names m d (by rwa [dirs] at hd), fun c hc m d hd => ?_⟩
  · rw [homes]
    by_cases e : j = a
    · rw [e, refused]
    · rw [others j e, hu.refused]
  · rw [homes, bitmap, hu.bitmap]
  · rw [answered.fld, fields.1, hu.fld]
  · rw [answered.quarters, fields.2, hu.quarters]
  · rw [dirs] at hd
    by_cases e : c = a
    · exact names m d (e ▸ hd)
    · rw [dirGet, others c e] at hd
      exact hc m d hd

/-! #### The timeouts -/

/-- Where the requester is an engine, poisoned data of a line is on its way to it. -/
theorem doomed_answers_read (a : Doomed s v h t) {e : EngId} (hk : t.req.kind = .rdC) (hs : t.req.src = .engine e) :
    ∃ d, homeRsp h t.xid t.req .data (.line ⟨d, true⟩ none) true ∈ v.net := by
  rw [a.net]
  exact mem_poisonReply_read hk (by rw [hs]; exact fencedDst_engine s e _)

/-- What is kept of an entry names nobody that the entry did not. -/
theorem keptEntry_pres {d : Option DirEntry} {e : DirEntry} (h : keptEntry d = some e) : ∃ d0, d = some d0 ∧ e.pres = d0.pres := by
  cases d with
  | none => cases h
  | some d0 =>
    simp only [keptEntry, Option.filter_eq_some_iff, Option.map_eq_some_iff] at h
    obtain ⟨⟨d1, ⟨same, -⟩, rfl⟩, -⟩ := h
    exact ⟨d1, same, rfl⟩

theorem Doomed.unnamed (a : Doomed s v h t) {j : Nat} (hn : Unnamed q h s) (hj : Unnamed q j s) : Unnamed q j v := fun m d hd => by
  rw [a.dir] at hd
  split_ifs at hd
  · obtain ⟨d0, found, pres⟩ := keptEntry_pres hd
    rw [pres]
    exact hn _ _ found
  · exact hj m d hd

theorem Doomed.recorded {s0 : State} {kind who : Nat} (a : Doomed s v h t) (hr : Recorded s0 s h kind who) : Recorded s0 v h kind who :=
  hr.keep fun f hf => a.fields f hf.ne_injection

theorem Told.recorded {s0 : State} {kind who : Nat} (a : Told s v) (hh : h < 16) (hr : Recorded s0 s h kind who) : Recorded s0 v h kind who :=
  hr.keep fun f hf => a.home f (hf.home hh)

theorem quarter_congr (hq : v.quarters = s.quarters) (q : QuarterId) : v.quarter q = s.quarter q := by
  unfold quarter
  rw [hq]

theorem FieldsOnly.homes (a : FieldsOnly s v) : v.homes = s.homes := by
  obtain ⟨fl, rfl⟩ := a
  rfl

theorem FieldsOnly.dram (a : FieldsOnly s v) : v.dram = s.dram := by
  obtain ⟨fl, rfl⟩ := a
  rfl

theorem FieldsOnly.quarters (a : FieldsOnly s v) : v.quarters = s.quarters := by
  obtain ⟨fl, rfl⟩ := a
  rfl

/-- A snooped quarter stays silent: the record, the fence and the events, then the end of the transaction (R343). -/
theorem snoopSilent_stages (hh : h < 16) (ht : s.silentTxn h x (quarterHolder q) = some t) :
    ∃ u, s.snoopSilent h x q = u.doom h t ∧ Told ((s.toutRec h t.line.n 1 q.val).fenceQuarter q) u
      ∧ (u.getF F.FLT_BEACON_GROUPS).testBit q.val = true := by
  have told : ∀ (u : State) (p : Prop) [Decidable p] (w : Option WardId), Told u (if p then u else u.toutEvent h w) := fun u p _ w =>
    (Told.refl u).ite (told_toutEvent hh w)
  unfold snoopSilent
  rw [ht]
  exact ⟨_, rfl, (told_event _ (by dsimp only; omega)).trans (told _ _ _), (told _ _ _).groups _ (by omega) (groups_event _ (by dsimp only; omega))⟩

/-- The quarter is fenced and named by no directory, and the transaction ends with poison (R343, R344). -/
theorem snoopSilent_fences (hh : h < 16) (hr : ∀ j, (s.homeN j).refused = []) (ht : s.silentTxn h x (quarterHolder q) = some t) (he : t.evictFor = none)
    (hs : t.hostSnoop = none) (hk : t.req.kind = .rdC) (hp : s.partInit t.line.n = true) :
    ∃ u, Doomed u (s.snoopSilent h x q) h t ∧ (u.quarter q).fenced = true ∧ Recorded s u h 1 q.val
      ∧ (u.getF F.FLT_BEACON_GROUPS).testBit q.val = true ∧ ∀ j < 17, Unnamed q j u := by
  have record := toutRec_recorded (s := s) (kind := 1) (who := q.val) hh t.line.n (by decide) (by omega)
  have homes := homeN_congr (toutRec_fields s hh t.line.n 1 q.val).homes
  obtain ⟨u, stages, told, bit⟩ := snoopSilent_stages hh ht
  rw [stages]
  generalize s.toutRec h t.line.n 1 q.val = s1 at *
  obtain ⟨fencing, unnamed⟩ := fenceQuarter_fences (fun j => (congrArg Home.refused (homes j)).trans (hr j)) q
  generalize s1.fenceQuarter q = s2 at *
  have home : ∀ j, u.homeN j = s2.homeN j := homeN_congr told.homes
  refine ⟨u, doom_doomed hh ?_ ?_ he hs (.inl hk), ?_, told.recorded hh (record.keep fun f _ => getF_congr fencing.fld f), bit, fun j hj m d hd => ?_⟩
  · rw [home, fencing.refused]
  · rw [partInit, home, fencing.bitmap]
    exact (congrArg (fun y : Home => y.bitmap.get false (regionOf t.line.n)) (homes _)).trans hp
  · rw [quarter_congr told.quarters, quarter_congr fencing.quarters, updQuarter, quarter_setQuarter]
  · rw [dirGet, home] at hd
    exact unnamed j (List.mem_range.mpr hj) m d hd

/-- A snooped host stays silent: the record, its presence bit and the events, then the end of the transaction (R345). -/
theorem biSilent_stages (hh : h < 16) (ht : s.silentTxn h x hostHolder = some t) {d : DirEntry} (hd : s.dirGet h t.line.n = some d) :
    ∃ u, s.biSilent h x = u.doom h t
      ∧ Told ((s.toutRec h t.line.n 2 16).dirPut h t.line.n (some { d with pres := d.pres &&& ~~~ BitVec.ofNat 17 65536 })) u := by
  have found := (dirGet_congr (toutRec_fields s hh t.line.n 2 16).homes h t.line.n).trans hd
  have agent : ∀ (u : State) (o : Option WardId), Told u (match o with
      | some w => u.toutEvent h (some w)
      | none => u) := fun u o => by
    cases o with
    | none => exact .refl u
    | some w => exact told_toutEvent hh _
  unfold biSilent
  rw [ht]
  dsimp only
  rw [found]
  exact ⟨_, rfl, (told_event _ (by decide)).trans ((Told.refl _).ite (agent _ _))⟩

/-- The entry without the host's bit holds nobody, and does not stay (R345). -/
theorem biSilent_clears (hh : h < 16) (hr : (s.homeN h).refused = []) (ht : s.silentTxn h x hostHolder = some t) (he : t.evictFor = none)
    (hs : t.hostSnoop = none) (hk : t.req.kind = .rdC) (hp : s.partInit t.line.n = true) {d : DirEntry} (hd : s.dirGet h t.line.n = some d)
    (hpres : d.pres = presOf [hostHolder]) :
    ∃ u, Doomed u (s.biSilent h x) h t ∧ u.quarters = s.quarters ∧ Recorded s u h 2 16 ∧ keptEntry (u.dirGet h t.line.n) = none := by
  have fields := toutRec_fields s hh t.line.n 2 16
  have record := toutRec_recorded (s := s) (kind := 2) (who := 16) hh t.line.n (by decide) (by decide)
  have homes := homeN_congr fields.homes
  have quarters := fields.quarters
  obtain ⟨u, stages, told⟩ := biSilent_stages hh ht hd
  rw [stages]
  generalize s.toutRec h t.line.n 2 16 = s1 at *
  have home := homeN_congr told.homes
  refine ⟨u, doom_doomed hh ?_ ?_ he hs (.inl hk), told.quarters.trans quarters, told.recorded hh (record.keep fun f _ => rfl), ?_⟩
  · rw [home, refused_dirPut, homes, hr]
  · rw [partInit, home, bitmap_dirPut, homes]
    exact hp
  · rw [dirGet_congr told.homes, dirGet_dirPut, if_pos ⟨rfl, rfl⟩, hpres]
    exact keptEntry_unheld (show presOf [hostHolder] &&& ~~~ BitVec.ofNat 17 65536 = 0 by decide)

/-- The write's data does not come, and no transaction has been told to wait for it: its buffer goes, and it is answered with poison (R346). -/
theorem dataSilent_buffer (hh : h < 16) (hr : (s.homeN h).refused = [])
    (ht : (s.homeN h).txns.find? (fun t => t.xid == x && decide (t.phase = TxnPhase.writeData)) = none) {b : WBuf}
    (hb : (s.homeN h).wbufs.find? (fun b => b.xid == x && b.data.isNone) = some b) :
    Told (((s.toutRec h b.req.line.n 3 (whoCode b.req)).dropWbuf h x b.req.line).poisonReply h x b.req) (s.dataSilent h x) := by
  have homes := homeN_congr (toutRec_fields s hh b.req.line.n 3 (whoCode b.req)).homes h
  unfold dataSilent
  rw [ht]
  dsimp only
  rw [hb]
  dsimp only
  generalize s.toutRec h b.req.line.n 3 (whoCode b.req) = s1 at *
  have empty : ((s1.dropWbuf h x b.req.line).homeN h).refused = [] := by
    rw [dropWbuf, homeN_updHome, if_pos rfl]
    dsimp only
    rw [homes, hr, List.filter_nil]
  have answered := answered_poisonReply (s1.dropWbuf h x b.req.line) h x b.req
  generalize (s1.dropWbuf h x b.req.line).poisonReply h x b.req = u at *
  have told : Told u (u.toutEvent h (Req.eventWard b.req)) := told_toutEvent hh _
  have idle : ((u.toutEvent h (Req.eventWard b.req)).homeN h).refused = [] := by
    rw [homeN_congr told.homes, homeN_congr answered.homes, empty]
  rw [serve_idle idle, sweep_idle idle]
  exact told

/-- A write that is given up is in no buffer any more, and nothing of the line or of its entry has moved (R346). -/
theorem dataSilent_gives (hh : h < 16) (hr : (s.homeN h).refused = [])
    (ht : (s.homeN h).txns.find? (fun t => t.xid == x && decide (t.phase = TxnPhase.writeData)) = none) {b : WBuf}
    (hb : (s.homeN h).wbufs.find? (fun b => b.xid == x && b.data.isNone) = some b) {e : EngId} (hk : b.req.kind = .wrInv) (hs : b.req.src = .engine e) :
    Recorded s (s.dataSilent h x) h 3 17 ∧ homeRsp h x b.req .done (.empty true) true ∈ (s.dataSilent h x).net ∧ (s.dataSilent h x).dram = s.dram
      ∧ ((s.dataSilent h x).homeN h).dir = (s.homeN h).dir ∧ b ∉ ((s.dataSilent h x).homeN h).wbufs := by
  have told := dataSilent_buffer hh hr ht hb
  have who : whoCode b.req = 17 := by
    unfold whoCode
    rw [hs]
    rfl
  rw [who] at told
  have record := toutRec_recorded (s := s) (kind := 3) (who := 17) hh b.req.line.n (by decide) (by decide)
  have fields := toutRec_fields s hh b.req.line.n 3 17
  generalize s.toutRec h b.req.line.n 3 17 = s1 at *
  have answered := answered_poisonReply (s1.dropWbuf h x b.req.line) h x b.req
  have homes : ((s.dataSilent h x).homeN h) = (s1.dropWbuf h x b.req.line).homeN h := (homeN_congr told.homes h).trans (homeN_congr answered.homes h)
  refine ⟨told.recorded hh (record.keep fun f _ => getF_congr answered.fld f), ?_, told.dram.trans (answered.dram.trans fields.dram), ?_, ?_⟩
  · rw [told.net]
    exact mem_poisonReply_write (.inl hk) (by rw [hs]; exact fencedDst_engine _ e _)
  · rw [homes, ← homeN_congr fields.homes]
    exact updHome_keeps Home.dir (by intro; rfl) s1 h h
  · have found : (b.xid == x) = true := (Bool.and_eq_true_iff.mp (List.find?_some (p := fun b : WBuf => b.xid == x && b.data.isNone) hb)).1
    rw [homes, dropWbuf, homeN_updHome, if_pos rfl]
    simp [beq_iff_eq.mp found]

/-- The data of a quarter's write-back does not come: the record, the quarter's own event, then the end of the transaction (R346; 11 R314). -/
theorem dataSilent_stages (hh : h < 16) (ht : (s.homeN h).txns.find? (fun t => t.xid == x && decide (t.phase = TxnPhase.writeData)) = some t)
    (hs : t.req.src = .drain q) : ∃ u, s.dataSilent h x = u.doom h t ∧ Told (s.toutRec h t.line.n 3 q.val) u := by
  have who : whoCode t.req = q.val := by
    unfold whoCode
    rw [hs]
    rfl
  unfold dataSilent
  rw [ht]
  dsimp only
  rw [who, hs, if_neg (by omega)]
  exact ⟨_, rfl, told_qcEvent ..⟩

theorem dataSilent_dooms (hh : h < 16) (hr : (s.homeN h).refused = [])
    (ht : (s.homeN h).txns.find? (fun t => t.xid == x && decide (t.phase = TxnPhase.writeData)) = some t) (hk : t.req.kind = .wb) (hs : t.req.src = .drain q)
    (he : t.evictFor = none) (hn : t.hostSnoop = none) (hw : t.wdata = none) (hp : s.partInit t.line.n = true) :
    ∃ u, Doomed u (s.dataSilent h x) h t ∧ u.quarters = s.quarters ∧ u.homes = s.homes ∧ Recorded s u h 3 q.val := by
  have record := toutRec_recorded (s := s) (kind := 3) (who := q.val) hh t.line.n (by decide) (by omega)
  have fields := toutRec_fields s hh t.line.n 3 q.val
  obtain ⟨u, stages, told⟩ := dataSilent_stages hh ht hs
  have homes : u.homes = s.homes := told.homes.trans fields.homes
  refine ⟨u, ?_, told.quarters.trans fields.quarters, homes, told.recorded hh record⟩
  rw [stages]
  refine doom_doomed hh ?_ ?_ he hn (.inr ⟨hk, hw⟩)
  · rw [homeN_congr homes, hr]
  · rw [partInit, homeN_congr homes]
    exact hp

/-- The entry of a quarter stays, with poison. -/
theorem keptEntry_quarter {d : DirEntry} (hd : d.pres = presOf [quarterHolder q]) : keptEntry (some d) = some { d with poison := true } := by
  have named : ∀ q, ¬ presOf [quarterHolder q] = 0#17 := by decide
  simp [keptEntry, DirEntry.empty, hd, named q]

end State

section
open State

/-- Settles O33: every end with poison goes the same way, through the write of the line's signature, the answer and what is kept of the
entry; a fence and a silent host change the entry before it, and the record and the events touch neither. -/
theorem silenceIsTimedOut : Obligations.SilenceIsTimedOut := by
  unfold Obligations.SilenceIsTimedOut
  intro s h x hz hr hv h17 tout
  have hh : hv < 16 := h.isLt
  have run : ∀ q, exec (.snoopTimeout h17 x q) s = .next (s.snoopSilent hv x q) := fun q => congrArg Host.Outcome.next (if_neg (by rw [hz]; decide))
  have runBi : exec (.biSnoopTimeout h x) s = .next (s.biSilent hv x) := congrArg Host.Outcome.next (if_neg (by rw [hz]; decide))
  have runData : exec (.writeDataTimeout h17 x) s = .next (s.dataSilent hv x) := congrArg Host.Outcome.next (if_neg (by rw [hz]; decide))
  refine ⟨fun t e he hs hk hsrc _ hp => ⟨fun q ht => ?_, fun ht d0 hd hpres => ?_⟩, fun b e ht hb hk hsrc => ?_, fun t q ht hk hsrc hx hl he hs hw hf hp d hd hpres => ?_⟩
  · obtain ⟨u, doomed, fenced, record, bit, unnamed⟩ := snoopSilent_fences hh hr ht he hs hk hp
    obtain ⟨d, answer⟩ := doomed_answers_read doomed hk hsrc
    refine ⟨_, d, run q, ?_, doomed.recorded record, doomed.sig, answer, ?_, fun j hj => doomed.unnamed (unnamed _ (by omega)) (unnamed j hj)⟩
    · rw [quarter_congr doomed.quarters, fenced]
    · rw [doomed.fields _ groups_ne_injection, bit]
  · obtain ⟨u, doomed, quarters, record, gone⟩ := biSilent_clears hh (hr _) ht he hs hk hp hd hpres
    obtain ⟨d, answer⟩ := doomed_answers_read doomed hk hsrc
    exact ⟨_, d, runBi, doomed.recorded record, doomed.sig, doomed.quarters.trans quarters, answer, by rw [doomed.dir, if_pos ⟨rfl, rfl⟩, gone]⟩
  · obtain ⟨record, answer, dram, dir, gone⟩ := dataSilent_gives hh (hr _) ht hb hk hsrc
    exact ⟨_, runData, record, answer, dram, dir, gone⟩
  · obtain ⟨u, doomed, quarters, homes, record⟩ := dataSilent_dooms hh (hr _) ht hk hsrc he hs hw hp
    refine ⟨_, runData, doomed.recorded record, ?_, doomed.sig, ?_⟩
    · rw [doomed.net, hx]
      exact mem_poisonReply_write (.inr hk) (by rw [hsrc]; exact fencedDst_drain (by rw [quarter_congr quarters, hf]) hv)
    · rw [doomed.dir, if_pos ⟨rfl, rfl⟩, dirGet_congr homes, hd, keptEntry_quarter hpres]

end
end Sys2Proof.Machine
